-- ==== Sys2Proof/Word.lean ====
section
/-! DEFINITION. The plain words of the model: widths, the sparse store type and the flit (R50, R51). -/

namespace Sys2Proof

abbrev Byte := BitVec 8
abbrev W16 := BitVec 16
abbrev W32 := BitVec 32
abbrev W64 := BitVec 64
/-- A fault descriptor (R106), also a fault key (R285). -/
abbrev Desc := BitVec 64
/-- The 48 payload bytes of a flit; byte i is bits [8i+7:8i] (R50: payload fields are little-endian). -/
abbrev Payload := BitVec 384
/-- A SHA-384 value; byte 0 (FIPS order) is bits [7:0]. -/
abbrev Digest := BitVec 384

/-- A sparse store: the pairs whose value differs from the default, keys strictly rising. -/
abbrev SMap (α : Type) := List (Nat × α)

/-- Bytes by address; an address not listed reads as zero. -/
abbrev Mem := List (Nat × Byte)

/-- The flit (R51): the header fields in order, then the payload. -/
structure Flit where
  cls : BitVec 4
  vc : Bool := false
  dest : W16
  src : W16
  slice : BitVec 9 := 0
  seq : W16 := 0
  sep : Byte := 0
  age : BitVec 6 := 0
  hops : BitVec 6 := 0
  path : Bool := false
  pret : Bool := false
  retx : Bool := false
  last : Bool := false
  stat : BitVec 3 := 0
  defl : Bool := false
  rsv : BitVec 6 := 0
  crc : W32 := 0
  pay : Payload := 0
  deriving DecidableEq, Repr

end Sys2Proof
end

