-- ==== Sys2Proof/Types.lean ====
section
/-! DEFINITION. The operand types of the commands: what the outside world hands the block with an event
(a datagram, a pair frame, what a training or a measurement found). -/

namespace Sys2Proof

/-- What the maker of a host chip fixes in an agent (R91, R95 "build"), seen at its power-on. -/
structure Build where
  endpoint : Bool          -- true RKA-E, false RKA-S
  ports : Nat              -- 12 on an RKA-E, up to 128 on an RKA-S
  device : W16
  vendor : W16
  convoyT : Byte
  ucode : W32
  deriving DecidableEq, Repr

/-- What a port's hardware measured over a telemetry window (R81). -/
structure PortMeas where
  fec : Nat                -- FEC-corrected symbols
  margin : BitVec 6        -- worst lane's eye margin
  uncorr : Nat             -- uncorrectable codewords
  deriving DecidableEq, Repr

/-- A host access of the depot aperture (R11): a read of some bytes, or a write of bytes. -/
inductive Access where
  | read (len : Nat)
  | write (data : List Byte)
  deriving DecidableEq, Repr

/-- A session message (R162): the fields of a datagram's bytes. -/
structure Datagram where
  typ : Byte
  status : Byte := 0
  req : W32
  off : Nat
  len : Nat
  data : List Byte
  deriving DecidableEq, Repr

/-- A complete MCTP message (R164). -/
inductive MctpMsg where
  | read (off : Nat)
  | write (off : Nat) (v : W32)
  | spdm (bytes : List Byte)
  | partialMsg                 -- a message found partial at reassembly
  deriving DecidableEq, Repr

/-- A pair frame (R189). -/
structure PairFrame where
  typ : Byte
  rsv1 : Byte
  sender : W16
  cepoch : W16
  rsv2 : W16
  number : W32
  crc : W32
  deriving DecidableEq, Repr

/-- How a set-key transfer ended on the wire (R430): the giver's answer, or none. -/
inductive XferReply where
  | key (k : BitVec 256) (setId : W32) (count : BitVec 4) (members : List Digest)
  | refused
  | notMember
  | timeout
  deriving DecidableEq, Repr

/-- What option loading reads (R440, R441, R444): 8 conversions, the straps, and per fuse word its three
copies at the strict and at the loose reference. -/
structure OptionReads where
  codes : List Nat
  straps : BitVec 3        -- BOOT0, BOOT1, CLKSEL
  strict : List (W32 × W32 × W32)
  loose : List (W32 × W32 × W32)
  deriving DecidableEq, Repr

/-- A boot image as the Assayer ROM finds it (R408): its signature chains or not, its security version, its digest. -/
structure BootImage where
  signed : Bool
  secVer : W32
  version : W32
  bytes : List Byte
  deriving DecidableEq, Repr

/-- What the Assayers find in flash in P2 (R408, R446): the ROM, images A and B, and the fuse reference image, if its signature verifies. -/
structure BootReads where
  rom : List Byte
  imageA : BootImage
  imageB : BootImage
  reference : Option (List (Option W32))
  deriving DecidableEq, Repr

/-- What booting the dealers finds in P3 (R449): whether each dealer's start check passes, the images, and the agent microcode version carried in the dealer image. -/
structure DealerBootReads where
  okA : Bool
  okB : Bool
  boot : List Byte
  firmware : List Byte
  ucVersion : W32
  deriving DecidableEq, Repr

/-- An element of the forecast (R295, R175). -/
structure Element where
  scope : Byte             -- 1 link, 2 agent, 3 rack half
  id : W16                 -- lower agent ID, agent ID, or rack half
  port : Byte
  deriving DecidableEq, Repr

/-- One model output of a forecast batch (R297): library entry, element, output column 0 as FP32 bits. -/
structure ModelOut where
  model : Nat
  elem : Element
  y : W32
  deriving DecidableEq, Repr

/-- What starts a lane retrain (R473). -/
inductive RetrainCause where
  | margin
  | temperature
  | train
  | peer
  deriving DecidableEq, Repr

/-- A unit whose temperature is sensed (R466). -/
inductive Sensor where
  | station (d : Fin 40)
  | gate (g : Fin 8)
  | depot (i : Fin 6)
  | dealer (b : Bool)
  | ledger (b : Bool)
  deriving DecidableEq, Repr

/-- A reset domain (R433, R459). -/
inductive Domain where
  | dealer (b : Bool)
  | ledger
  | gate (g : Fin 8)
  | station (d : Fin 40)
  | depot (i : Fin 6)
  deriving DecidableEq, Repr

/-- A hop of a scheduled convoy train (R280, R281): the agent, its output (128 the ejection port), the input or injection
queue its slots name, the slots reserved, and the hop it follows. -/
structure Hop where
  agent : W16
  port : Nat
  source : Nat
  slots : List Nat
  parent : Option Nat
  deriving DecidableEq, Repr

/-- A train of a convoy schedule: its start slot, its flits, and its hops, each after the one it follows. -/
structure Train where
  start : Nat
  flits : Nat
  hops : List Hop
  deriving DecidableEq, Repr

/-- A sub-port and slot of the package at which a convoy lands (R366). -/
structure LandSlot where
  port : Nat
  slot : Nat
  convoy : W32
  deriving DecidableEq, Repr

/-- A convoy schedule (R280–R282). -/
structure Schedule where
  trains : List Train
  landing : List LandSlot
  deriving DecidableEq, Repr

/-- What CONVOY_SCHEDULE does: builds a schedule at an address from n request records, or writes the one there (R280, R282). -/
inductive ConvoyJob where
  | build (addr reqs n : Nat)
  | write (addr : Nat)
  deriving DecidableEq, Repr

/-- The depot addresses of a deal's files beside its image: cost table, distance vectors, base image (R277, R309). -/
structure SolveFiles where
  costs : Nat
  dists : Nat
  base : Nat
  deriving DecidableEq, Repr

/-- A kind of update the active package streams to its peer (R194), with the words it carries. -/
inductive MirrorItem where
  | generation (id : W16) (gen : W16)
  | path (id : W16) (ports : List Byte) (table : Bool) (hello : Payload)
  | link (a : W16) (ap : Nat) (b : W16) (bp : Nat)
  | linkCut (id : W16) (port : Nat) (cut : Bool)
  | fold (id : W16) (part : Option (Fin 16)) (folded pending : Bool)
  | partReset (id : W16) (part : Fin 16)
  | kitty (ids : List W16)
  | plan (bytes : List Byte)
  | binding (slot : Fin 256) (raw : BitVec 128)
  | pendingAdd (raw : BitVec 256)
  | pendingTake (raw : BitVec 256)
  | change (isOpen : Bool) (target : W32) (image : Nat) (swapped : BitVec 512)
  | changeAck (isOpen : Bool) (target : W32) (image : Nat) (swapped : BitVec 512)
  | fepoch (e : W32)
  | syncParent (id : W16)
  | settled (tally : W16) (value : W32) (stamp : W32)
  deriving DecidableEq, Repr

end Sys2Proof
end

