-- ==== Sys2Proof/Syntax.lean ====
section
/-! DEFINITION. The commands of the block: one constructor for each row of spec/opcode_table.json, in its order,
with the operands the outside world supplies. `a` is the number of an agent's place in the pod (not its ID, which
two agents may share, R19), `who` is none for the controller package itself, `n` a host session, `c` a dealer
context, `e` an engine (8 x die + engine). -/

namespace Sys2Proof

inductive Instr where
  /-- REG_WRITE (R12): A host write to a register word that has no row of its own, applied field by field, with ignored parts counted in IGNORED_CNT -/
  | regWrite (n : Fin 8) (off : Nat) (v : W32)
  /-- IGNORED_CLR (R11): Writing 1 to IGNORED_CLR sets IGNORED_CNT to 0 -/
  | ignoredClr (n : Fin 8) (v : W32)
  /-- DEPOT_APERTURE_ACCESS (R11): A host access in the depot aperture reaches the depot byte placed by APERTURE_GB, reading 0 in a range that is scrubbing -/
  | depotApertureAccess (n : Fin 8) (off : Nat) (acc : Access)
  /-- FLIT_ARRIVAL (R52): A flit arrives on an agent port; the agent checks its CRC, class, slice and epoch, and either drops it, ejects it or stages it for allocation -/
  | flitArrival (a : Nat) (p : Nat) (f : Flit)
  /-- OUTPUT_ALLOCATION (R59): In each flit time the agent allocates outputs to all staged flits in rank order, forwarding, deflecting, ejecting or dropping each one -/
  | outputAllocation (a : Nat)
  /-- HOST_OFFER (R55): The host chip offers a flit for injection; the agent refuses management and reserved classes and fills the fields it owns -/
  | hostOffer (a : Nat) (f : Flit)
  /-- FLIT_ADMIT (R509): An originated flit waiting in the injection interface is admitted once its window, lookup and a free productive output allow -/
  | flitAdmit (a : Nat)
  /-- EJECT_REMOVE (R67): The host chip removes a flit from an ejection buffer -/
  | ejectRemove (a : Nat) (b : Bool)
  /-- EJECT_STALL (R67): An ejection buffer stays full for 2 µs; the agent counts it and posts an EJECT_STALL notice -/
  | ejectStall (a : Nat) (b : Bool)
  /-- PATH_LATCH_EXPIRE (R64): A path-return latch entry is freed 200 µs after it was recorded -/
  | pathLatchExpire (a : Nat) (src : W16) (seq : W16)
  /-- RETX_TIMEOUT (R70): A request with no accepted response after the retransmit interval is resent with RETX set and age 16 -/
  | retxTimeout (a : Nat) (dest : W16) (seq : W16)
  /-- REQUEST_ABANDON (R70): After RETRY_MAX resends a request is abandoned, counted completed with error, reported to the host chip and the controller, and its seq freed -/
  | requestAbandon (a : Nat) (dest : W16) (seq : W16)
  /-- MGMT_SINK_CONSUME (R506): The management sink takes a queued management flit, consuming commands and CALLs and discarding other classes -/
  | mgmtSinkConsume (a : Nat)
  /-- FRAME_START (R72): At each 1 µs frame start the agent or package advances its frame number -/
  | frameStart (who : Option Nat)
  /-- SYNC_EXCHANGE (R72): Sync symbols exchanged in a rest slot with the sync parent align the frame start, corrected by flight time -/
  | syncExchange (who : Option Nat) (frame : W32)
  /-- SYNC_LOST (R72): An agent whose frame error exceeds ±1.5 ns sets SYNC_LOST, stops sending convoy flits and sends a SYNC_LOST notice -/
  | syncLost (a : Nat)
  /-- SLOT_EXCHANGE (R79): At the start of the switch frame the agent exchanges its active and shadow slot-table banks, late if the frame had begun -/
  | slotExchange (a : Nat)
  /-- CONVOY_OFFER (R76): The host chip offers a convoy flit into an injection queue, which empties only in slots naming it -/
  | convoyOffer (a : Nat) (q : Fin 16) (f : Flit)
  /-- TELEMETRY_WINDOW (R82): At the end of each 100 µs window the agent sends its congestion records as notices to TELEM_DEST -/
  | telemetryWindow (a : Nat) (meas : List PortMeas)
  /-- CONGESTION_RECORD (R83): The controller stores an arriving congestion-record notice in the pod congestion map, marking late records -/
  | congestionRecord (f : Flit)
  /-- AGENT_TIMEOUT (R83): Every record of an agent is absent for 10 consecutive windows and the AGENT_TIMEOUT event is raised -/
  | agentTimeout (id : W16)
  /-- SUMMARY_ENTRY (R83): Each millisecond the controller writes a 128-byte pod summary to the summary ring -/
  | summaryEntry
  /-- DRAINED (R98): With DRAIN_NOTE set, the endpoint sends one DRAINED notice when its in-flight count reaches 0 -/
  | drained (a : Nat)
  /-- COUNTER_LOW_READ (R92): A read of a 64-bit counter's low word loads that access path's high-word latch -/
  | counterLowRead (a : Nat) (ctrl : Bool) (i : Nat)
  /-- LOCAL_WRITE (R505): A host-chip local-bus write to an agent register is applied field by field, or refused whole with AG_IGNORED_CNT incremented -/
  | localWrite (a : Nat) (off : Nat) (v : W32)
  /-- ID_LOCK (R95): Writing 1 to ID_LOCK locks ID, PROFILE, CLK_MHZ and every partition's EN until power-on -/
  | idLock (a : Nat)
  /-- SLOT_F_WRITE (R102): A write of SLOT_F checks the shadow slot tables for rest slots and sets SLOT_PEND or refuses with SLOT_REST -/
  | slotFWrite (a : Nat) (v : W32)
  /-- LANE_SIGNAL_LOSS (R313): A receive lane loses signal or lock for 20 ns and the link layer clears UP -/
  | laneSignalLoss (who : Option Nat) (p : Nat)
  /-- FEC_UNCORR_LIMIT (R313): Four uncorrectable codewords arrive within 1 µs and the link layer clears UP -/
  | fecUncorrLimit (who : Option Nat) (p : Nat)
  /-- LINK_IDLE (R313): No codeword arrives for 200 ns and the link layer clears UP -/
  | linkIdle (who : Option Nat) (p : Nat)
  /-- DOWN_SET_RECEIVED (R313): A complete DOWN ordered set arrives from the peer and the link layer clears UP -/
  | downSetReceived (who : Option Nat) (p : Nat)
  /-- LINK_TRAINED (R315): Link training or retraining of a port completes and TRAINED and UP may return, the port staying down while fenced -/
  | linkTrained (who : Option Nat) (p : Nat) (peer : W16) (pport : Byte) (flight : W16)
  /-- TRUMP_RECEIVE (R108): An agent receives or raises a trump and filters, forwards, fences locally and tests its hand -/
  | trumpReceive (who : Option Nat) (inp : Option Nat) (f : Flit)
  /-- TRUMP_FILTER_EXPIRE (R108): A trump filter entry is released after its 20 µs hold -/
  | trumpFilterExpire (who : Option Nat) (d : Desc)
  /-- CARD_PLAY (R110): A matched armed slot plays, writing its entries into both banks, going to PLAYED and sending a PLAYED notice -/
  | cardPlay (a : Nat)
  /-- COMMAND_PIECE (R114): A piece of a split path-routed command is buffered and answered OK, or refused for a piece error -/
  | commandPiece (a : Nat)
  /-- CMD_PROBE (R117): The agent answers a PROBE command with a HELLO -/
  | cmdProbe (a : Nat)
  /-- CMD_AGENT_READ (R117): The agent returns the requested consecutive register words -/
  | cmdAgentRead (a : Nat)
  /-- CMD_AGENT_WRITE (R505): The agent writes consecutive register words all or none, checked word by word -/
  | cmdAgentWrite (a : Nat)
  /-- CMD_GATE (R117): The endpoint holds new slice requests and sets DRAIN_NOTE -/
  | cmdGate (a : Nat)
  /-- CMD_UNGATE (R117): The endpoint resumes admission of the slice and clears DRAIN_NOTE -/
  | cmdUngate (a : Nat)
  /-- CMD_SWAP (R117): The agent points BANK_SEL of the slice at the bank that is not active -/
  | cmdSwap (a : Nat)
  /-- CMD_EXCHANGE (R117): The agent exchanges its route-table banks, increments TGEN and sets TBL_VALID -/
  | cmdExchange (a : Nat)
  /-- CMD_LOAD (R105): The agent puts a hand slot into LOADING and clears HAND_OK -/
  | cmdLoad (a : Nat)
  /-- CMD_ARM (R105): The agent checks a loading slot's card and moves it to ARMED, or refuses with BAD_CARD -/
  | cmdArm (a : Nat)
  /-- CMD_DISARM (R105): The agent empties a hand slot and clears HAND_OK -/
  | cmdDisarm (a : Nat)
  /-- CMD_UNFENCE (R117): The agent clears TFENCE on a port -/
  | cmdUnfence (a : Nat)
  /-- CMD_RELEASE (R117): The agent clears QUAR and PWRON when its own release checks hold, or answers NOT_READY -/
  | cmdRelease (a : Nat)
  /-- CMD_QUARANTINE (R117): The agent sets QUAR -/
  | cmdQuarantine (a : Nat)
  /-- CMD_BIND (R117): The endpoint sets or clears its slice binding and slice epoch -/
  | cmdBind (a : Nat)
  /-- CMD_PFENCE (R317): The agent raises FENCE_REQ for a partition and moves it to DRAINING -/
  | cmdPfence (a : Nat)
  /-- CMD_PRESET (R317): The agent raises RST_REQ for a fenced partition, clears KAT and moves it to RESETTING -/
  | cmdPreset (a : Nat)
  /-- CMD_PUNFENCE (R317): The agent lowers FENCE_REQ for a partition, which returns to IN_SERVICE once FENCE_ACK samples low -/
  | cmdPunfence (a : Nat)
  /-- CMD_UCODE_OPEN (R127): The agent opens the microcode loader for an image length and version, possibly cancelling a pending commit -/
  | cmdUcodeOpen (a : Nat)
  /-- CMD_UCODE_PATCH (R117): The agent writes one half of a microcode chunk -/
  | cmdUcodePatch (a : Nat)
  /-- CMD_UCODE_COMMIT (R128): The agent checks the staged image's digest and makes a commit pending for a frame, or refuses with BAD_DIGEST -/
  | cmdUcodeCommit (a : Nat)
  /-- CMD_SEC_MSG (R126): The agent stores a secure-channel fragment and passes the message to SEC_CH on the last fragment -/
  | cmdSecMsg (a : Nat)
  /-- CMD_BANKCOPY (R117): The agent copies the active route tables and mask pool into the other bank -/
  | cmdBankcopy (a : Nat)
  /-- CMD_RESERVED_OPCODE (R117): A command with a reserved opcode is refused with BAD_OPCODE -/
  | cmdReservedOpcode (a : Nat)
  /-- UCODE_SWITCH (R128): At the commit frame the agent switches to the staged microcode image while commands wait -/
  | ucodeSwitch (a : Nat)
  /-- UCODE_SELFTEST (R128): The new microcode's self-test ends, the agent keeps or reverts the image and sends a UCODE notice -/
  | ucodeSelftest (a : Nat) (pass : Bool)
  /-- SEC_UP_MESSAGE (R126): A message from the host chip's root of trust leaves the agent as SEC notices -/
  | secUpMessage (a : Nat) (msg : List Byte)
  /-- PART_FENCE_ACK (R317): FENCE_ACK is sampled high and the partition's 51 µs drain window starts -/
  | partFenceAck (a : Nat) (p : Fin 16)
  /-- FENCE_ACK_TIMEOUT (R317): FENCE_ACK is not high 1 µs after FENCE_REQ rose and a FENCE_TIMEOUT notice is sent once -/
  | fenceAckTimeout (a : Nat) (p : Fin 16)
  /-- DRAIN_WINDOW_END (R317): The drain window ends and the partition goes to FENCED with a FENCE_ACK notice -/
  | drainWindowEnd (a : Nat) (p : Fin 16)
  /-- PART_FENCE_ACK_LOW (R317): FENCE_ACK samples low after an unfence and the partition returns to IN_SERVICE with an UNFENCED notice -/
  | partFenceAckLow (a : Nat) (p : Fin 16)
  /-- PART_RST_DONE (R317): RST_DONE is sampled high, RST_REQ falls and the partition goes to CHECKING with an RST_DONE notice -/
  | partRstDone (a : Nat) (p : Fin 16)
  /-- RESET_LIMIT_EXPIRE (R317): RST_LIMIT_MS passes with no KAT written and a RESET_TIMEOUT notice is sent once -/
  | resetLimitExpire (a : Nat) (p : Fin 16)
  /-- KAT_WRITE (R317): The host chip writes KAT and a checking partition goes to FENCED with a KAT_PASS or KAT_FAIL notice -/
  | katWrite (a : Nat) (p : Fin 16) (v : BitVec 2)
  /-- PART_STATE_WRITE (R318): A controller write of STATE folds a partition, or unfolds a folded one to FENCED -/
  | partStateWrite (a : Nat) (p : Fin 16) (v : BitVec 3)
  /-- PART_TICK (R120): A host write of TICK adds 1 to the partition's PROGRESS -/
  | partTick (a : Nat) (p : Fin 16)
  /-- WATCHDOG_EXPIRE (R122): PROGRESS of an in-service partition does not change for WD_MS and a HANG notice is sent -/
  | watchdogExpire (a : Nat) (p : Fin 16)
  /-- DOWN_MESSAGE_WRITE (R123): A controller write to the last DOWN_DATA word sets DOWN_FULL, or DOWN_COLL when it was already full -/
  | downMessageWrite (a : Nat) (v : W32)
  /-- UP_SEND (R123): The firmware sets UP_SEND and the agent sends UP_DATA as an MBX_UP notice -/
  | upSend (a : Nat)
  /-- UP_DATA_WRITE (R123): The firmware writes UP_DATA, setting UP_COLL if UP_SEND is still set -/
  | upDataWrite (a : Nat) (i : Fin 8) (v : W32)
  /-- MBX_CLAIM_READ (R124): A read of the agent command mailbox CLAIM claims a free mailbox or returns the holder -/
  | mbxClaimRead (a : Nat) (ctrl : Bool)
  /-- MBX_RELEASE (R124): The holder writes 0 to CLAIM, releasing it and clearing RING and DONE -/
  | mbxRelease (a : Nat) (ctrl : Bool)
  /-- MBX_RING (R124): The holder sets RING and the non-holder is notified -/
  | mbxRing (a : Nat) (ctrl : Bool)
  /-- MBX_DONE (R124): The non-holder sets DONE and the holder is notified -/
  | mbxDone (a : Nat) (ctrl : Bool)
  /-- MBX_DATA_WRITE (R124): A write of the mailbox DATA is accepted in turn or ignored out of turn -/
  | mbxDataWrite (a : Nat) (ctrl : Bool) (i : Fin 10) (v : W32)
  /-- MBX_LEASE_EXPIRE (R124): The 100 µs claim lease expires; the agent releases the claim, sets CLAIM_EXPIRED and notifies both parties -/
  | mbxLeaseExpire (a : Nat)
  /-- FW_BOOT (R125): The firmware writes FW_BOOT, clearing both mailboxes and aborting any exchange held by the controller -/
  | fwBoot (a : Nat)
  /-- BR (R149): Branch relative, or to a register target -/
  | uciBr (c : Fin 16)
  /-- CALL (R149): Push the return index and branch -/
  | uciCall (c : Fin 16)
  /-- RET (R149): Pop the return index -/
  | uciRet (c : Fin 16)
  /-- WAITT (R149): Wait until a tally's count satisfies a comparison -/
  | uciWaitt (c : Fin 16)
  /-- SIGT (R149): Add to a tally and wake its waiters -/
  | uciSigt (c : Fin 16)
  /-- YIELD (R149): Give up the issue slot once, or sleep until CTIMER is 0 -/
  | uciYield (c : Fin 16)
  /-- HALT (R149): Stop the context with EXIT cause HALT and a code -/
  | uciHalt (c : Fin 16)
  /-- NOP (R149): Do nothing -/
  | uciNop (c : Fin 16)
  /-- MOVI (R149): Write a 32-bit immediate into one half of a register -/
  | uciMovi (c : Fin 16)
  /-- ADD (R149): Add two registers -/
  | uciAdd (c : Fin 16)
  /-- ADDI (R149): Add a signed immediate to a register -/
  | uciAddi (c : Fin 16)
  /-- SUB (R149): Subtract two registers -/
  | uciSub (c : Fin 16)
  /-- AND (R149): Bitwise AND of two registers -/
  | uciAnd (c : Fin 16)
  /-- OR (R149): Bitwise OR of two registers -/
  | uciOr (c : Fin 16)
  /-- XOR (R149): Bitwise XOR of two registers -/
  | uciXor (c : Fin 16)
  /-- SHL (R149): Shift a register left -/
  | uciShl (c : Fin 16)
  /-- SHR (R149): Shift a register right, logical or arithmetic -/
  | uciShr (c : Fin 16)
  /-- CMP (R149): Compare two registers into a predicate -/
  | uciCmp (c : Fin 16)
  /-- CMPI (R149): Compare a register with an immediate into a predicate -/
  | uciCmpi (c : Fin 16)
  /-- LD (R149): Load from the data store -/
  | uciLd (c : Fin 16)
  /-- ST (R149): Store into the data store -/
  | uciSt (c : Fin 16)
  /-- COPY (R149): Copy between the depot and the data store -/
  | uciCopy (c : Fin 16)
  /-- RDS (R149): Read a special register -/
  | uciRds (c : Fin 16)
  /-- WRS (R136): Write a special register, ignored when out of range, RO or locked -/
  | uciWrs (c : Fin 16)
  /-- ILLEGAL_INSTRUCTION (R138): An illegal instruction halts its context with cause ILLEGAL -/
  | illegalInstruction (c : Fin 16)
  /-- CONTEXT_FAULT (R138): An alignment, bounds, stack or ECC fault halts the context -/
  | contextFault (c : Fin 16) (ecc : Bool)
  /-- PROBE (R153): Send path-routed probes on a list of paths and record the HELLOs -/
  | uciProbe (c : Fin 16)
  /-- TRAIN (R153): Train, retrain or take down a package port -/
  | uciTrain (c : Fin 16)
  /-- FENCE (R153): Send PFENCE to a partition and wait for its FENCE_ACK notice -/
  | uciFence (c : Fin 16)
  /-- UNFENCE (R153): Clear a port's TFENCE or unfence a partition -/
  | uciUnfence (c : Fin 16)
  /-- DRAIN (R153): Gate a slice's endpoints and wait for their DRAINED notices -/
  | uciDrain (c : Fin 16)
  /-- INSTALL (R153): Open a table change and write a verified image into the shadow banks -/
  | uciInstall (c : Fin 16)
  /-- SWAP (R153): Swap and ungate one slice, or in exchange mode close the change and advance the fabric epoch -/
  | uciSwap (c : Fin 16)
  /-- ARM (R153): Load and arm cards into hand slots, or disarm them -/
  | uciArm (c : Fin 16)
  /-- PLAY (R153): Originate a trump with a fault descriptor on every trained enabled port -/
  | uciPlay (c : Fin 16)
  /-- CUT (R153): Set or clear CUT on the ports of a block and record it in the link book -/
  | uciCut (c : Fin 16)
  /-- CLOSE (R153): Apply ring closure to the link book and write closure records -/
  | uciClose (c : Fin 16)
  /-- PRESET (R153): Reset a partition and wait for its known-answer result -/
  | uciPreset (c : Fin 16)
  /-- FOLD (R153): Fold a partition or an accelerator and record it in the fold book -/
  | uciFold (c : Fin 16)
  /-- DRAW (R153): Take the lowest-ID eligible spare from the kitty -/
  | uciDraw (c : Fin 16)
  /-- BIND (R153): Bind or unbind agents to a slice, optionally incrementing its epoch -/
  | uciBind (c : Fin 16)
  /-- ADMIT (R153): Release agents from quarantine, or quarantine them -/
  | uciAdmit (c : Fin 16)
  /-- ACMD (R153): Send a prepared command block to a list of agents and store their responses -/
  | uciAcmd (c : Fin 16)
  /-- SNAP (R155): Run a snap-request mailbox exchange with each endpoint -/
  | uciSnap (c : Fin 16)
  /-- GUARD (R155): Arm or disarm the write guard at each endpoint -/
  | uciGuard (c : Fin 16)
  /-- DIGEST (R155): Hash concatenated chunk digests, or compare the result with stored bytes -/
  | uciDigest (c : Fin 16)
  /-- SEAL (R155): Seal a manifest with its SHA-384 and generation -/
  | uciSeal (c : Fin 16)
  /-- DRAINCP (R155): Start the parity and storage drain at each endpoint -/
  | uciDraincp (c : Fin 16)
  /-- LAUNCH (R156): Check a stream, wait for an engine and wake token, scrub if needed, and start it -/
  | uciLaunch (c : Fin 16)
  /-- JOIN (R156): Wait for a stream to end and write its completion record -/
  | uciJoin (c : Fin 16)
  /-- RETIRE (R156): Cancel a stream, retire a station die, or return a die to the spares -/
  | uciRetire (c : Fin 16)
  /-- QPUSH (R157): Append an entry to a queue, waiting while it is full -/
  | uciQpush (c : Fin 16)
  /-- QPOP (R157): Remove the head entry of a queue, waiting while it is empty -/
  | uciQpop (c : Fin 16)
  /-- TALLY (R157): Read, set or add to a tally -/
  | uciTally (c : Fin 16)
  /-- SETTLE (R157): Place a settlement boundary and wait for its settlement -/
  | uciSettle (c : Fin 16)
  /-- MBX (R157): Post to or exchange through an agent or ledger mailbox -/
  | uciMbx (c : Fin 16)
  /-- ATTEST (R158): Produce signed Assayer evidence, or attest a host chip over the secure channel -/
  | uciAttest (c : Fin 16)
  /-- KEYLOAD (R158): Unwrap a key blob into a key slot -/
  | uciKeyload (c : Fin 16)
  /-- KEYERASE (R158): Erase a key slot and end every operation that uses it -/
  | uciKeyerase (c : Fin 16)
  /-- SCRUB (R158): Scrub an engine, a die, a ledger partition or a depot range -/
  | uciScrub (c : Fin 16)
  /-- LEND (R159): Set the lend threshold, or withdraw every loan -/
  | uciLend (c : Fin 16)
  /-- WAVE (R159): Wake dies, put them to sleep, or wake them and run known-answer streams -/
  | uciWave (c : Fin 16)
  /-- INSN_TIMEOUT (R140): A long instruction's tmo limit arrives and it ends with TIMEOUT -/
  | insnTimeout (c : Fin 16)
  /-- CMD_RESPONSE (R146): A management response reaches the package and completes or refuses its target for the running instruction, or is discarded -/
  | cmdResponse (f : Flit)
  /-- CMD_RESEND (R146): A target that has not answered within CMD_RESEND gets the same command again -/
  | cmdResend (c : Fin 16) (i : Nat)
  /-- CMD_ISSUE (R146): The command engine issues a command to one target at its shared rate, table-routed, path-routed or in pieces -/
  | cmdIssue (c : Fin 16) (i : Nat)
  /-- CTIMER_EXPIRE (R136): CTIMER counts down to 0 and a context sleeping in YIELD resumes -/
  | ctimerExpire (c : Fin 16)
  /-- NOTICE_RECEIVE (R506): An agent notice reaches the package, is posted as an event, ends a waiting instruction or is discarded -/
  | noticeReceive (f : Flit)
  /-- HEARTBEAT (R183): The active dealer writes a heartbeat to the standby's AON block -/
  | heartbeat
  /-- HEARTBEAT_MISS (R185): No heartbeat for 10 µs starts a dealer takeover with isolation of the old dealer -/
  | heartbeatMiss
  /-- START_CHECK_DONE (R185): The new dealer's start check ends; it completes the journal, restores contexts and re-executes open instructions, or the takeover fails -/
  | startCheckDone (pass : Bool)
  /-- TAKEOVER_DEADLINE (R188): Step 5 is not reached within 30 µs of the miss and the takeover fails -/
  | takeoverDeadline
  /-- JOURNAL_APPLY (R184): The applier brings the standby dealer's stores up to date from a journal record -/
  | journalApply
  /-- STANDBY_RELOAD_DONE (R186): The old dealer's stores are reloaded after a handover and it becomes the standby -/
  | standbyReloadDone
  /-- PCIE_LINK_UP (R160): A PCIe link reaches L0 after PERST release and its session opens -/
  | pcieLinkUp (b : Bool)
  /-- PCIE_LINK_DOWN_EXPIRE (R160): A PCIe link stays down for 100 ms and its session closes -/
  | pcieLinkDownExpire (b : Bool)
  /-- DTLS_HANDSHAKE (R160): A DTLS handshake completes and an Ethernet session opens, or is refused -/
  | dtlsHandshake (port : Bool) (peer : Nat) (cert : List Byte)
  /-- DTLS_RESUME (R162): A pre-shared-key resumption within the lease keeps the session number and state -/
  | dtlsResume (n : Fin 8) (port : Bool)
  /-- DTLS_CLOSE_NOTIFY (R160): The peer sends close_notify and the Ethernet session closes -/
  | dtlsCloseNotify (n : Fin 8)
  /-- SESSION_LEASE_EXPIRE (R163): An Ethernet session receives no authenticated datagram for SESS_LEASE_S and closes -/
  | sessionLeaseExpire (n : Fin 8)
  /-- SESSION_READ (R162): A READ message is answered as a series of 4-byte host map reads -/
  | sessionRead (n : Fin 8) (msg : List Byte)
  /-- SESSION_WRITE (R162): A WRITE message acts as a series of 4-byte host map writes, answered OK, IGNORED or BAD_MSG -/
  | sessionWrite (n : Fin 8) (msg : List Byte)
  /-- SESSION_HEARTBEAT (R162): A HEARTBEAT message is answered with an empty RESPONSE -/
  | sessionHeartbeat (n : Fin 8) (msg : List Byte)
  /-- MCTP_MESSAGE (R164): A complete MCTP message reads the identity block without side effects, or goes to the Assayer as SPDM -/
  | mctpMessage (m : MctpMsg)
  /-- MCTP_TIMEOUT (R164): A partial MCTP message is discarded at reassembly and counted in MCTP_DROP -/
  | mctpTimeout
  /-- OWNER_CLAIM (R165): A read of OWNER_CLAIM while unowned makes the reader the owner -/
  | ownerClaim (n : Fin 8)
  /-- LEASE_LEFT_READ (R165): A read of LEASE_LEFT by the owner renews the lease -/
  | leaseLeftRead (n : Fin 8)
  /-- GRANT (R166): The owner passes ownership to an open session, or releases it to the twin or to none -/
  | grant (n : Fin 8) (v : BitVec 4)
  /-- TWIN_SET (R165): The owner names or clears its twin session -/
  | twinSet (n : Fin 8) (v : BitVec 4)
  /-- OWNER_LEASE_EXPIRE (R166): The owner lease reaches 0 and ownership passes to the twin or lapses -/
  | ownerLeaseExpire
  /-- RING_CONFIG_WRITE (R168): A write of the command or completion ring base or order resets the ring indices, or is ignored while commands are open -/
  | ringConfigWrite (n : Fin 8) (pg : Fin 8) (off : Nat) (v : W32)
  /-- NOTICE_RING_CONFIG_WRITE (R168): A write of the notice ring base or order resets its indices -/
  | noticeRingConfigWrite (n : Fin 8) (pg : Fin 8) (off : Nat) (v : W32)
  /-- CQ_DOORBELL (R170): The owner writes a new tail; descriptors up to it are accepted by CRC or discarded from the first bad one -/
  | cqDoorbell (n : Fin 8) (pg : Fin 8) (t : W16)
  /-- HOST_COMMAND_START (R170): The next accepted command of a ring starts once the previous completion is written and the completion ring has room -/
  | hostCommandStart (n : Fin 8)
  /-- LOADI (R172): Copy instructions from the depot into the instruction store -/
  | loadi (n : Fin 8)
  /-- DLOAD (R172): Copy from the depot into the data store -/
  | dload (n : Fin 8)
  /-- DSAVE (R172): Copy from the data store into the depot -/
  | dsave (n : Fin 8)
  /-- START (R172): Start a program on an idle or halted context -/
  | start (n : Fin 8)
  /-- STOP (R172): Halt a running or waiting context with cause HOST -/
  | stop (n : Fin 8)
  /-- CLEAR (R172): Return a halted context to IDLE -/
  | clear (n : Fin 8)
  /-- BINDR (R172): Write a reflex binding -/
  | bindr (n : Fin 8)
  /-- UNBINDR (R172): Clear a reflex binding and drop its pending dispatches -/
  | unbindr (n : Fin 8)
  /-- PLAN (R31): Check a pod plan and bind it, or refuse it with a plan status -/
  | plan (n : Fin 8)
  /-- KITTY (R172): Replace the kitty with the agents on a list -/
  | kitty (n : Fin 8)
  /-- HANDOVER (R186): Stop issue, let the journal catch up and hand over to the standby dealer -/
  | handover (n : Fin 8)
  /-- SOLO (R195): Set or clear solo mode -/
  | solo (n : Fin 8)
  /-- RESUME (R195): A fenced package with no RENEW for 20 ms takes the pod, or the command completes with PAIR_LIVE -/
  | resume (n : Fin 8)
  /-- BAD_OP (R173): A descriptor with a reserved op completes with BAD_OP -/
  | badOp (n : Fin 8)
  /-- EVENT_DISPATCH (R177): An event is posted to the notice ring and each matching binding gets a dispatch onto a usable context or into the pending queue -/
  | eventDispatch
  /-- PENDING_DISPATCH_START (R178): A waiting dispatch starts when a context in its mask becomes usable -/
  | pendingDispatchStart
  /-- RUN_LIMIT_EXPIRE (R179): A dispatched context's run limit elapses and it is stopped as if by STOP -/
  | runLimitExpire (c : Fin 16)
  /-- TICK (R175): The TICK period elapses and a TICK event is posted -/
  | tick
  /-- RENEW_SEND (R190): The active package sends RENEW on both pair paths every 2 ms -/
  | renewSend
  /-- PAIR_RENEW (R191): A RENEW frame arrives; the standby restarts its lease and answers ACK, or a fenced package becomes standby -/
  | pairRenew (wire : Bool) (fr : PairFrame)
  /-- PAIR_ACK (R191): An ACK frame arrives and restarts the active package's lease if it repeats a recent RENEW -/
  | pairAck (wire : Bool) (fr : PairFrame)
  /-- PAIR_YIELD (R191): A YIELD frame arrives; a standby takes the pod and an active package enters solo mode -/
  | pairYield (wire : Bool) (fr : PairFrame)
  /-- PAIR_ABSENT (R191): An ABSENT frame arrives; a standby takes the pod and an active package enters solo mode -/
  | pairAbsent (wire : Bool) (fr : PairFrame)
  /-- ACTIVE_LEASE_EXPIRE (R192): The active package's lease expires outside solo mode and it fences itself -/
  | activeLeaseExpire
  /-- STANDBY_LEASE_EXPIRE (R191): The standby's lease expires and it takes the pod -/
  | standbyLeaseExpire
  /-- MIRROR_UPDATE (R194): The active package streams a book, plan, binding, change record or settled value to its peer -/
  | mirrorUpdate (rx : Option MirrorItem)
  /-- STI_STREAM (R251): Declare the stream kind and its stations -/
  | stiStream (e : Fin 320)
  /-- STI_MODE (R251): Set the GRID mode, accumulator format, rounding and exponents -/
  | stiMode (e : Fin 320)
  /-- STI_GEOM (R251): Set the output tile counts and K tiles -/
  | stiGeom (e : Fin 320)
  /-- STI_SHCFG (R251): Set shadow sampling -/
  | stiShcfg (e : Fin 320)
  /-- STI_DIVRING (R251): Name the divergence ring -/
  | stiDivring (e : Fin 320)
  /-- STI_OPND (R252): Define an operand slot -/
  | stiOpnd (e : Fin 320)
  /-- STI_OBMP (R252): Set a slot's bitmap address -/
  | stiObmp (e : Fin 320)
  /-- STI_OUTD (R252): Set the output target -/
  | stiOutd (e : Fin 320)
  /-- STI_OAUX (R252): Enable or disable an auxiliary output -/
  | stiOaux (e : Fin 320)
  /-- STI_MOVE (R254): Copy lines through LOAD and STORE -/
  | stiMove (e : Fin 320)
  /-- STI_LDS (R254): Load 8 bytes from scratch into a scalar register -/
  | stiLds (e : Fin 320)
  /-- STI_PREFETCH (R254): Begin reading tiles of a future slot into the prefetch buffer -/
  | stiPrefetch (e : Fin 320)
  /-- STI_MODEL (R254): Redefine a slot's address, exponent and key -/
  | stiModel (e : Fin 320)
  /-- STI_TILE (R256): Compute one output tile over all K steps -/
  | stiTile (e : Fin 320)
  /-- STI_RUN (R256): Compute every output tile -/
  | stiRun (e : Fin 320)
  /-- STI_BYTES (R258): Process a byte range through the byte route -/
  | stiBytes (e : Fin 320)
  /-- STI_GFCOEF (R257): Set the GF coefficients of the inputs -/
  | stiGfcoef (e : Fin 320)
  /-- STI_LAYOUT (R257): Set a gather or scatter range list -/
  | stiLayout (e : Fin 320)
  /-- STI_HASHCFG (R257): Configure HASH's tap, message length and digest address -/
  | stiHashcfg (e : Fin 320)
  /-- STI_TWAIT (R259): Wait until a tally comparison holds -/
  | stiTwait (e : Fin 320)
  /-- STI_TSIG (R260): Add to a tally once every earlier write is complete -/
  | stiTsig (e : Fin 320)
  /-- STI_SETI (R261): Set a scalar register -/
  | stiSeti (e : Fin 320)
  /-- STI_ADD (R261): Add two scalar registers -/
  | stiAdd (e : Fin 320)
  /-- STI_ADDI (R261): Add a signed immediate to a scalar register -/
  | stiAddi (e : Fin 320)
  /-- STI_MULI (R261): Multiply a scalar register by an immediate -/
  | stiMuli (e : Fin 320)
  /-- STI_LOOP (R261): Start a counted loop -/
  | stiLoop (e : Fin 320)
  /-- STI_ENDL (R261): Decrement a loop counter and branch back while nonzero -/
  | stiEndl (e : Fin 320)
  /-- STI_NOP (R261): Do nothing -/
  | stiNop (e : Fin 320)
  /-- STI_END (R261): Wait for queued work, then write the completion record and the commit word -/
  | stiEnd (e : Fin 320)
  /-- TILE_COMPLETE (R229): An output tile finishes its steps; a sampled tile is compared with its shadow and stored with its flags -/
  | tileComplete (e : Fin 320)
  /-- TILE_TIMEOUT (R266): A stream makes no progress for tile_limit outside TWAIT and faults -/
  | tileTimeout (e : Fin 320)
  /-- STREAM_FAULT (R265): A stream fault stops issue, abandons work and writes the completion record with state FAULT -/
  | streamFault (e : Fin 320)
  /-- SCRATCH_ECC_ERROR (R200): A scratch read meets a single-bit error, corrected and counted, or an uncorrectable one that faults the stream -/
  | scratchEccError (e : Fin 320) (unc : Bool)
  /-- DEPOT_READ_ERROR (R264): An uncorrectable or poisoned depot read faults the stream with DEPOT_ECC -/
  | depotReadError (e : Fin 320)
  /-- STATION_HW_FAIL (R264): An internal station parity error faults the stream and sends the engine to FAILED -/
  | stationHwFail (e : Fin 320)
  /-- ENGINE_SCRUB_DONE (R269): An engine scrub finishes its verify pass, leaving the engine clean or FAILED -/
  | engineScrubDone (e : Fin 320) (ok : Bool)
  /-- KAT_STREAM_DONE (R237): An engine's known-answer stream ends, and a failing engine goes to FAILED -/
  | katStreamDone (e : Fin 320) (ok : Bool)
  /-- WAIT_LIMIT_EXPIRE (R383): A TWAIT reaches WAIT_LIMIT_MS and its stream faults with WAIT_LIMIT -/
  | waitLimitExpire (e : Fin 320)
  /-- PROGRAM_BROADCAST (R456): The station program image is written into an idle die's program store, PSVER set and register 6 extended -/
  | programBroadcast (dies : BitVec 40) (img : List (BitVec 128)) (ver : W32)
  /-- DIE_SLEEP (R460): A die idle for IDLE_SLEEP_US enters ASLEEP -/
  | dieSleep (d : Fin 40)
  /-- WAKE_TOKEN_GRANT (R461): A waiting wake request receives a token once the governor has made room and the die starts waking -/
  | wakeTokenGrant
  /-- WAKE_TOKEN_RETURN (R461): A wake token returns 50 µs after it was taken -/
  | wakeTokenReturn
  /-- DIE_AWAKE (R460): A waking die's clock locks and it becomes AWAKE -/
  | dieAwake (d : Fin 40)
  /-- VERIFIER_JOB (R278): The exact verifier takes a job entry, checks the object and writes its result and record -/
  | verifierJob
  /-- FORECAST_BATCH (R298): A 1 ms forecast batch starts, abandoning any unfinished previous batch -/
  | forecastBatch (lib : Nat) (policy : Nat) (models : Nat)
  /-- DEAL (R309): After discovery or a topology change the Dealer solves, verifies, changes tables, builds the deck and arms hands -/
  | deal (image : Nat) (files : SolveFiles) (deck : Nat) (policy : Nat) (place : List (W16 × Option (Fin 512)))
  /-- FOLLOW_ON_STAGING (R303): On the first PLAYED notice of a paired fault the Dealer loads follow-on cards into the second fault's slots -/
  | followOnStaging (repair : Nat)
  /-- UNHANDED_REPAIR (R306): On an UNHANDED notice the Dealer loads the repair's missing cards and then originates the controller-form trump -/
  | unhandedRepair (d : Desc)
  /-- AGENT_LOSS_TRUMP (R308): The Dealer originates a kind 2 or kind 3 trump when an agent or rack half is judged lost -/
  | agentLossTrump (d : Desc)
  /-- CONVOY_SCHEDULE (R282): A verified convoy schedule is written to shadow slot tables and a common switch frame -/
  | convoySchedule (job : ConvoyJob)
  /-- DISCOVERY_START (R41): Discovery starts a probe wave from the active controller -/
  | discoveryStart
  /-- HELLO (R38): A HELLO reaches the controller and the agent is recorded and its trained ports probed -/
  | hello (f : Flit)
  /-- PROBE_RETRY (R39): A probe gets no HELLO within 100 µs and is retried, the port going dark after three attempts -/
  | probeRetry (i : Nat)
  /-- UNTRAINED_REPROBE (R39): A port reported untrained is probed again every 20 ms, up to 10 times -/
  | untrainedReprobe (id : W16) (p : Nat)
  /-- DISCOVERY_COMPARE (R40): After the wavefront the controller compares the found fabric with the pod plan, admitting, quarantining or cutting -/
  | discoveryCompare
  /-- DARK_PORT_PASS (R41): Every dark port is probed again at the rediscovery period -/
  | darkPortPass
  /-- DRAIN_LIMIT_EXPIRE (R87): DRAIN_LIMIT passes without every DRAINED notice and the drain ends with TIMEOUT DRAIN_LIMIT -/
  | drainLimitExpire (c : Fin 16)
  /-- PART_NOTICE (R325): A PART notice reaches the fold monitor, which records resets and folds partitions or accelerators under the rules -/
  | partNotice
  /-- RESTART_TOKEN_REFILL (R339): A power domain's restart bucket gains one token -/
  | restartTokenRefill (dom : Fin 32)
  /-- PRESET_HELD_SEND (R339): A PRESET held for a restart token is sent once a token is available -/
  | presetHeldSend (dom : Fin 32)
  /-- BUDGET_WRITE (R339): A write of a domain's BUDGET clamps its bucket to the new size -/
  | budgetWrite (n : Fin 8) (dom : Fin 32) (v : W32)
  /-- RETURNING_UNBIND (R336): An agent returning with an unbind pending is sent BIND unbind before release -/
  | returningUnbind (id : W16)
  /-- TALLY_ADD (R380): A class-8 ADD is filtered, applied and answered, or refused -/
  | tallyAdd (f : Flit)
  /-- TALLY_READ (R380): A class-8 READ is answered with the count and stamp -/
  | tallyRead (f : Flit)
  /-- TALLY_WAIT (R380): A class-8 WAIT is held until its comparison holds or its hold ends -/
  | tallyWait (f : Flit)
  /-- TALLY_WAIT_HOLD_EXPIRE (R380): A class-8 WAIT's hold ends and it is answered NOT_MET -/
  | tallyWaitHoldExpire (src : W16) (seq : W16)
  /-- TALLY_COUNT_WRITE (R382): An owner write of COUNT sets the tally -/
  | tallyCountWrite (n : Fin 8) (t : W16) (v : W32)
  /-- TALLY_CONFIG_WRITE (R377): A write of a tally's PART or EN, ignored while waiters exist or over quota -/
  | tallyConfigWrite (n : Fin 8) (t : W16) (v : W32)
  /-- SETTLEMENT_BOUNDARY (R385): At a settlement boundary the stamp increments and the running counts are recorded -/
  | settlementBoundary
  /-- SETTLEMENT_CALL (R388): GRACE_US after a boundary the ledger sends CALL to every agent that added under the stamp -/
  | settlementCall (k : W32)
  /-- SETTLEMENT_RECALL (R388): After 50 µs CALL is repeated to agents whose answer is incomplete -/
  | settlementRecall (k : W32)
  /-- SETTLEMENT_FINALIZE (R388): The settlement finalizes, correcting each tally by its drift or skipping it, and logging drift -/
  | settlementFinalize (k : W32)
  /-- REPORT (R387): A settlement REPORT flit reaches the ledger and its entries are taken into the stamp's sums -/
  | report (f : Flit)
  /-- QUEUE_DESCRIPTOR_WRITE (R395): A write of a queue descriptor, enabling or disabling the queue under its checks -/
  | queueDescriptorWrite (n : Fin 8) (q : BitVec 15) (off : Nat) (v : W32)
  /-- QUEUE_HEAD_WRITE (R395): The owner consumes queue entries by writing HEAD -/
  | queueHeadWrite (n : Fin 8) (q : BitVec 15) (v : W32)
  /-- QUEUE_TAIL_WRITE (R395): The owner produces queue entries by writing TAIL -/
  | queueTailWrite (n : Fin 8) (q : BitVec 15) (v : W32)
  /-- WAIT_ENTRY_EXPIRE (R396): A wait entry's limit passes and it becomes an expired entry delivered to the consumer -/
  | waitEntryExpire (q : BitVec 15)
  /-- LEDGER_MBX_POST (R400): A poster sets POST on a ledger notice mailbox, setting FULL or colliding -/
  | ledgerMbxPost (party : Byte) (m : BitVec 12)
  /-- LEDGER_MBX_TAKE (R400): The server writes TAKE and FULL clears -/
  | ledgerMbxTake (party : Byte) (m : BitVec 12)
  /-- DEVICE_SERVER_TAKE (R400): A device server takes a posted notice -/
  | deviceServerTake (m : BitVec 12)
  /-- LEDGER_MBX_CLAIM_READ (R401): A read of a ledger command mailbox CLAIM claims, renews or returns the holder -/
  | ledgerMbxClaimRead (party : Byte) (m : BitVec 12)
  /-- LEDGER_MBX_RELEASE (R401): The holder writes 0 to CLAIM, releasing it -/
  | ledgerMbxRelease (party : Byte) (m : BitVec 12)
  /-- LEDGER_MBX_RING (R401): The holder sets RING -/
  | ledgerMbxRing (party : Byte) (m : BitVec 12)
  /-- LEDGER_MBX_DONE (R401): The server sets DONE -/
  | ledgerMbxDone (party : Byte) (m : BitVec 12)
  /-- LEDGER_MBX_LEASE_EXPIRE (R401): A ledger mailbox claim lease expires and the claim is released with CLAIM_EXPIRED -/
  | ledgerMbxLeaseExpire (m : BitVec 12)
  /-- PARTY_RESET_ABORT (R403): A reset of a mailbox party aborts its exchanges and sets ABORTED -/
  | partyResetAbort (party : Byte)
  /-- LANDING_FLIT (R366): A convoy flit arriving at the package is placed in its landing ring, or dropped or poisons lines -/
  | landingFlit (port : Nat) (slot : Fin 64) (f : Flit)
  /-- LANDING_WINDOW_CLOSE (R366): A landing window closes when every line has landed and been read -/
  | landingWindowClose (i : Nat)
  /-- SEGMENT_DELIVERY (R367): A committed rebuild segment is sent to its destination on its delivery convoy -/
  | segmentDelivery (i : Nat)
  /-- PART_TENANT_WRITE (R375): A write of a ledger partition's TENANT takes effect only while CLEAN -/
  | partTenantWrite (n : Fin 8) (p : Fin 64) (v : W32)
  /-- LEDGER_DIE_ERROR (R374): A ledger die reports an uncorrectable error and the other die serves both halves -/
  | ledgerDieError (b : Bool)
  /-- SPDM_REQUEST (R410): An SPDM request reaches the serving Assayer and is answered within the supported limits -/
  | spdmRequest (req : List Byte)
  /-- SET_CERTIFICATE (R412): SET_CERTIFICATE to slot 1 sets the operator root when allowed -/
  | setCertificate (cert : List Byte)
  /-- PROV_UNLOCK (R412): An owner Ethernet write opens PROV_UNLOCK for 60 s -/
  | provUnlock (n : Fin 8)
  /-- PROV_UNLOCK_EXPIRE (R412): PROV_UNLOCK closes after 60 s -/
  | provUnlockExpire
  /-- ROLLFWD (R408): Writing ROLLFWD raises monotonic counter 0 to the running image's security version -/
  | rollfwd (n : Fin 8)
  /-- EXTEND_GO (R413): Extends the chosen owner measurement register with EXTEND_DATA -/
  | extendGo (n : Fin 8)
  /-- SET_GEN (R420): Creates a set key from the written set fields -/
  | setGen (n : Fin 8)
  /-- XFER_ALLOW (R430): Allows a set member to take the set key for 60 s -/
  | xferAllow (n : Fin 8) (v : W32)
  /-- XFER_REQ (R430): Starts a set-key transfer from a peer package -/
  | xferReq (n : Fin 8) (v : W32)
  /-- XFER_END (R430): A set-key transfer ends with the key stored, or refused or timed out -/
  | xferEnd (r : XferReply)
  /-- RELEASE_KEY_EXPIRE (R414): A release key becomes unusable 60 s after its creation -/
  | releaseKeyExpire (id : W32)
  /-- MIRROR_REBUILD (R407): The mirror Assayer is rebuilt from the serving one after its reset -/
  | mirrorRebuild
  /-- SPDM_SESSION_TIMEOUT (R424): A secure-channel peer that does not answer within 100 ms loses its session -/
  | spdmSessionTimeout (k : Fin 64)
  /-- DEPOT_GRANT (R422): Writing GRANT scrubs a depot range and grants it to a tenant -/
  | depotGrant (n : Fin 8) (i : Fin 256)
  /-- DEPOT_RELEASE (R422): Writing RELEASE scrubs a depot range and frees it -/
  | depotRelease (n : Fin 8) (i : Fin 256)
  /-- DEPOT_TENANT_WRITE (R422): A TENANT write of a granted range scrubs it and regrants it -/
  | depotTenantWrite (n : Fin 8) (i : Fin 256) (v : W32)
  /-- DEPOT_SCRUB_DONE (R422): A queued depot scrub finishes and its range becomes usable -/
  | depotScrubDone
  /-- TAMPER_ALARM (R427): Two consecutive tamper loop mismatches raise a tamper alarm, zeroizing the set key -/
  | tamperAlarm (cell : Bool)
  /-- TEMP_ALARM (R427): On the cell alone, a temperature sample out of range raises an alarm -/
  | tempAlarm (high : Bool)
  /-- BATT_LOST (R425): VBAT falls below 2.0 V and the domain is reset -/
  | battLost
  /-- RTC_SET (R425): Sets RTC_S, clears RTC_SUB and logs code 8 -/
  | rtcSet (n : Fin 8) (v : W32)
  /-- MONO_INC (R425): Increments the owner monotonic counters named -/
  | monoInc (n : Fin 8) (v : W32)
  /-- HELD_CLEAR (R431): Clears the held state when allowed and the package rejoins as standby -/
  | heldClear (n : Fin 8)
  /-- SYS_RESET (R432): SYS_RESET_N qualifies low for 4 AON edges and a package-wide reset starts -/
  | sysReset
  /-- SYS_RESET_RELEASE (R432): SYS_RESET_N is sampled high for 4 edges and the reset is released -/
  | sysResetRelease
  /-- POR (R434): VDD_AON rises past its good level and resets everything but the VBAT domain -/
  | por
  /-- PERST (R434): A PCIe fundamental reset resets one endpoint and its session -/
  | perst (b : Bool)
  /-- DEALER_WATCHDOG (R434): A dealer watchdog fires, resetting its core and starting a takeover if it is active -/
  | dealerWatchdog (b : Bool)
  /-- THERM (R434): A junction at 115 °C for 1 ms asserts THERMTRIP_N and resets the package -/
  | therm
  /-- ASSAYER_ERROR_RESET (R434): An uncorrectable Assayer store error resets the package -/
  | assayerErrorReset
  /-- RST_REQ (R437): An owner write of the reset key and scope resets the package, the standby dealer or its Assayer -/
  | rstReq (n : Fin 8) (v : W32)
  /-- PEER_RESET (R434): A peer reset notice resets a standby package when its epoch allows -/
  | peerReset (cepoch : W16)
  /-- BROWNOUT (R434): A rail below 90 % for 1 µs resets the package -/
  | brownout
  /-- DOMAIN_RESET (R433): A domain is isolated, its PLL relocks and its reset is held and released -/
  | domainReset (dom : Domain)
  /-- PLL_LOCK_TIMEOUT (R433): A domain PLL fails to lock within 100 µs and the domain stays in reset -/
  | pllLockTimeout (dom : Domain)
  /-- BLOCK_RESET (R438): A BLK_KIND write starts a block reset of an idle die, lane group or ledger partition, or is ignored -/
  | blockReset (n : Fin 8) (v : W32)
  /-- BLOCK_RESET_DONE (R438): A block reset finishes and BLK_STATE reads done or failed -/
  | blockResetDone (ok : Byte)
  /-- OPTION_LOADING (R442): P1 reads CFG_SENSE, straps and fuses and applies pin states -/
  | optionLoading (r : OptionReads)
  /-- ASSAYER_BOOT (R449): P2 boots both Assayers and checks the fuse reference -/
  | assayerBoot (r : BootReads)
  /-- DEALER_BOOT (R449): P3 boots the preferred dealer, falling back to the other -/
  | dealerBoot (r : DealerBootReads)
  /-- DEPOT_TRAINING (R449): P4 trains and zeroes the depot and trains ledger SRAM -/
  | depotTraining (ok : BitVec 6)
  /-- LANE_TRAINING (R449): P5 trains every enabled fabric port -/
  | laneTraining (ok : BitVec 40)
  /-- STATION_WAVES (R453): P6 wakes station dies in waves and runs their known-answer streams -/
  | stationWaves (failed : BitVec 320)
  /-- READY (R449): P7 sets READY and releases FAULT_N when no other cause holds -/
  | ready (ms : W16)
  /-- PHASE_OVERRUN (R450): A bring-up phase exceeds its bound and FAULT_N is asserted -/
  | phaseOverrun
  /-- COLD_START_WAIT_EXPIRE (R451): After READY no RENEW arrives in the wait time and the package takes the pod and starts discovery -/
  | coldStartWaitExpire
  /-- DEPOT_RETIRE (R458): Setting a DEPOT_RETIRE bit starts moving device regions out of a stack, or is ignored -/
  | depotRetire (n : Fin 8) (v : W32)
  /-- DEPOT_STACK_OFFLINE (R458): A retiring stack holds no allocation, ring or window and goes offline -/
  | depotStackOffline (i : Fin 6)
  /-- GOVERNOR_INTERVAL (R465): Every 10 µs the governor measures power and adjusts loans, holds and wake tokens to fit the ceiling -/
  | governorInterval (power : Nat)
  /-- PWR_LIMIT_WRITE (R463): A write of PWR_LIMIT takes effect at the next interval -/
  | pwrLimitWrite (n : Fin 8) (v : W32)
  /-- PWR_PEAK_CLEAR (R469): A nonzero write clears PWR_PEAK -/
  | pwrPeakClear (n : Fin 8) (v : W32)
  /-- TEMP_SAMPLE (R466): Every 10 µs each die's temperature is sensed and thresholds applied -/
  | tempSample (u : Sensor) (t : Int)
  /-- LEND_START (R467): An engine in TWAIT past the lend threshold stops and lends its budget -/
  | lendStart (e : Fin 320)
  /-- LEND_RETURN (R468): A lender's wait ends and borrowing dies step down until the pool covers the loans -/
  | lendReturn (e : Fin 320)
  /-- LANE_RETRAIN_START (R473): A low margin, temperature change, TRAIN mode 1 or peer request starts a lane retrain -/
  | laneRetrainStart (who : Option Nat) (lane : Nat) (cause : RetrainCause)
  /-- CALIBRATION_WINDOW (R474): In a free rest slot the lane is evaluated at a trial equalizer setting -/
  | calibrationWindow (who : Option Nat) (lane : Nat) (margin : BitVec 6)
  /-- RETRAIN_CHOOSE (R474): After 4,096 windows the receiver chooses the best setting or keeps the live one -/
  | retrainChoose (who : Option Nat) (lane : Nat)
  /-- RETRAIN_ADOPT (R474): Both ends adopt the chosen setting at the second frame after the choice -/
  | retrainAdopt (who : Option Nat) (lane : Nat)
  /-- RETRAIN_TIMEOUT (R474): A retrain not finished within 5,000 frames ends without adoption -/
  | retrainTimeout (who : Option Nat) (lane : Nat)
  /-- LANE_ADAPT (R470): A receive lane adapts one step toward a better measured setting -/
  | laneAdapt (who : Option Nat) (lane : Nat) (margin : BitVec 6)
  /-- RECENTER_WINDOW (R476): A depot channel re-centres its timing in a 2 µs window, holding its requests -/
  | recenterWindow (i : Fin 6) (ch : Fin 16)
  /-- RECENTER_DONE (R476): A re-centring window ends, adopting or keeping timing -/
  | recenterDone (i : Fin 6) (better : Bool)
  /-- RAIL_SAMPLE (R500): Every 10 µs each rail is measured and out-of-range flags set -/
  | railSample (i : Fin 9) (mv : W16) (amps : W16)
  /-- POWER_GOOD (R502): Every rail stands in range together for 100 µs and bring-up timing starts -/
  | powerGood
  /-- RAIL_SEQUENCE_FAULT (R501): A rail rises before an earlier one is in range; domains stay isolated and power-good is withheld -/
  | railSequenceFault
  /-- STATUS_CAUSE_CLEAR (R495): A W1C write of FAULT_CAUSE or ALERT_CAUSE clears bits whose causes may set them again -/
  | statusCauseClear (n : Fin 8) (alert : Bool) (v : W32)
  /-- BIF_WRITE (R487): A write of a port's bifurcation, ignored while any lane is active -/
  | bifWrite (n : Fin 8) (p : Fin 40) (v : W32)
  /-- AGENT_POWER_ON (R129): The host chip's power-on reset resets the agent: QUAR and PWRON set, every hand slot EMPTY, TBL_VALID, ID_LOCK and the bindings cleared, and ports untrained until the ID is locked -/
  | agentPowerOn (a : Nat) (b : Build)
  /-- HELD_ABSENT (R428): While the package is held, or after both dealers have failed their P3 start check, the pair unit sends an ABSENT frame on both paths every 2 ms -/
  | heldAbsent
  /-- BIND_INCREMENT_HOLD_EXPIRE (R334): The ledger releases a BIND with increment that it held until 1 ms after the slice's previous epoch increment, and the BIND proceeds -/
  | bindIncrementHoldExpire (s : BitVec 9)
  deriving DecidableEq, Repr

end Sys2Proof
end

