-- ==== Sys2Proof/Config.lean ====
section
/-! DEFINITION. What the spec leaves open: free values, and the cryptographic functions that outside standards define.
Every constant here has no body, so nothing can be proved of a value of it. -/

namespace Sys2Proof.Config

/-- A value the spec leaves open, of w bits: the model applies it to a counter it reads and advances (log 6). -/
opaque free : (w n : Nat) → BitVec w

/-- The value an INT32 cell takes where SHADOW's cell is NaN: a function of the stream's descriptor, the tile's operands, its
seed, the tile and the cell, since a stream is deterministic (R201, log 20). -/
opaque nanCell : List Int → List Byte → BitVec 32 → Nat → Nat → BitVec 32

/-- The value of an engine's free-running counter when a stream asks for a seed (R215). -/
opaque seed : Nat → BitVec 32

/-- A draw of the Assayer's random bit generator (R414, R420). -/
opaque random : (w n : Nat) → BitVec w

/-- AES-256-GCM open: key, IV, additional data, ciphertext, tag; none when the tag fails (R414, R415). -/
opaque gcmOpen : BitVec 256 → List Byte → List Byte → List Byte → List Byte → Option (List Byte)

/-- AES-256-GCM seal: key, IV, additional data, plaintext; ciphertext and tag (R415). -/
opaque gcmSeal : BitVec 256 → List Byte → List Byte → List Byte → List Byte × List Byte

/-- ECDH over P-384: private scalar and a public point, x then y (R414). -/
opaque ecdh : BitVec 384 → BitVec 768 → BitVec 384

/-- The public point of a P-384 private scalar (R411). -/
opaque ecPublic : BitVec 384 → BitVec 768

/-- HKDF-SHA-384 truncated to 32 bytes: input key material, salt, info (R414). -/
opaque hkdf : List Byte → List Byte → List Byte → BitVec 256

/-- The ECDSA P-384 signature by the alias key over a digest (R411). -/
opaque aliasSign : Digest → BitVec 768

/-- The hash of this package's identity key (R420). -/
opaque identityHash : Digest

/-- The responder's answer to an SPDM request in the measurement state it is given (R410, DSP0274). -/
opaque spdmRespond : List Byte → List Digest → Nat → List Byte

/-- Whether every signature of a host's certificate chain holds, up to its root (R162). -/
opaque certOk : List Byte → Bool

/-- Whether a certificate chain is one SPDM accepts (R412). -/
opaque chainOk : List Byte → Bool

/-- The root certificate of a chain (R162, R412). -/
opaque rootOf : List Byte → List Byte

/-- The requester's next SPDM message to a host chip's root of trust, by session and step (R424). -/
opaque spdmRequest : Nat → Nat → List Byte

/-- What an SPDM exchange with a host chip ends with: none to go on, or the chain's root hash, whether the signature
holds, and the measurement blocks (R424). -/
opaque spdmResult : List Byte → Option (Digest × Bool × List Byte)

/-- What a set-key giver's Assayer has established of the receiver when a message of their session asks for the key: the
identity-key hash and measurement registers 1, 4 and 5; none for any other message (R430, log 114). -/
opaque xferAsk : List Byte → Nat → Option (Digest × List Digest)

/-- Which depot timing, lane setting or equaliser step the analog hardware finds; nothing else reads it (R470, R476). -/
opaque analog : Nat → Bool

/-- The variant that fuse words 16–31 spell; the source gives them no layout (R445, log 25). -/
opaque fuseVariant : List W32 → Fin 3

/-- The state fuse words 16–31 give a station die: 0 fused off, 1 spare, 2 active (R448, log 25). -/
opaque fuseDie : List W32 → Nat → Fin 3

/-- The depot stacks fuse words 16–31 enable (R448, log 25). -/
opaque fuseDepot : List W32 → BitVec 6

/-- Whether a fuse word bears on a unit: 0 the variant, 1 + d a station die, 41 + i a depot stack (R445, log 25). -/
opaque fuseCovers : Nat → Nat → Bool

/-- The value that stands for a marginal or drifted word below 256 (R445, R446, log 25). -/
opaque failSafe : Nat → W32

/-- Whether the device's own regions fit a set of depot stacks; the source gives no sizes of all of them (R458, log 26). -/
opaque regionsFit : BitVec 6 → Bool

/-- The 32-byte message that tells a host chip of a request completed with error: kind, dest, seq. The source gives it
no layout (R70, R509, log 101). -/
opaque eventMessage : Byte → W16 → W16 → BitVec 256

/-- How long a forecast batch takes, µs: the spec gives typical times only (R298, log 111). -/
opaque batchTime : Nat → Nat

/-- What a feature reads for a slot of the congestion map marked absent: field 0–7 (R83, R296, log 111). -/
opaque absentField : Nat → Nat

/-- The output of a TERN model: no GRID mode takes MXFP4 features with TERN weights (R216, R295, log 111). -/
opaque ternOutput : List Byte → List Byte → Byte → BitVec 32

end Sys2Proof.Config
end

