-- ==== Sys2Proof/Machine/Bits.lean ====
section
/-! DEFINITION. Helpers over words: sparse stores in canonical form, bit and byte fields, little-endian byte
strings, saturating and serial arithmetic (R6, R7), CRC-32C (R52). -/

namespace Sys2Proof

/-- The value at a key; a key not listed reads as the default gives it. -/
def SMap.get {α : Type} (d : Nat → α) : SMap α → Nat → α
  | [], k => d k
  | (k', v) :: m, k => if k = k' then v else if k < k' then d k else SMap.get d m k

/-- Removes a key. -/
def SMap.erase {α : Type} : SMap α → Nat → SMap α
  | [], _ => []
  | (k', v) :: m, k => if k = k' then m else if k < k' then (k', v) :: m else (k', v) :: SMap.erase m k

/-- Lists a pair in its place, whatever its value. -/
def SMap.insert {α : Type} : SMap α → Nat → α → SMap α
  | [], k, v => [(k, v)]
  | (k', v') :: m, k, v =>
    if k = k' then (k, v) :: m else if k < k' then (k, v) :: (k', v') :: m else (k', v') :: SMap.insert m k v

/-- Writes a value; writing what an unlisted key reads as removes the pair, so equal stores are equal lists. -/
def SMap.set {α : Type} [DecidableEq α] (d : Nat → α) (m : SMap α) (k : Nat) (v : α) : SMap α :=
  if v = d k then SMap.erase m k else SMap.insert m k v

/-- Applies a function to the value at a key. -/
def SMap.modify {α : Type} [DecidableEq α] (d : Nat → α) (m : SMap α) (k : Nat) (f : α → α) : SMap α :=
  SMap.set d m k (f (SMap.get d m k))

/-- The canonical form: keys strictly rising from `lo` on, no pair equal to the default. -/
def SMap.wfFrom {α : Type} [DecidableEq α] (d : Nat → α) : Nat → SMap α → Bool
  | _, [] => true
  | lo, (k, v) :: m => decide (lo ≤ k) && decide (v ≠ d k) && SMap.wfFrom d (k + 1) m

/-- The canonical form. -/
def SMap.wf {α : Type} [DecidableEq α] (d : Nat → α) (m : SMap α) : Bool := SMap.wfFrom d 0 m

/-- A byte of memory; an unlisted address reads as 0. -/
def Mem.read (m : Mem) (a : Nat) : Byte := SMap.get (fun _ => (0 : Byte)) m a

/-- Writes one byte. -/
def Mem.write (m : Mem) (a : Nat) (v : Byte) : Mem := SMap.set (fun _ => (0 : Byte)) m a v

/-- The canonical form of a memory (no listed zero, addresses strictly rising). -/
def Mem.wf (m : Mem) : Bool := SMap.wf (fun _ => (0 : Byte)) m

/-- Reads n bytes from a rising address. -/
def Mem.readN (m : Mem) (a : Nat) : Nat → List Byte
  | 0 => []
  | n + 1 => Mem.read m a :: Mem.readN m (a + 1) n

/-- Writes a byte string at a rising address. -/
def Mem.writeL (m : Mem) (a : Nat) : List Byte → Mem
  | [] => m
  | b :: bs => Mem.writeL (Mem.write m a b) (a + 1) bs

/-- Adds 1 and stops at the largest value (the "saturates" of the register tables). -/
def satInc {w : Nat} (x : BitVec w) : BitVec w := if x = BitVec.allOnes w then x else x + 1

/-- Adds n and stops at the largest value. -/
def satAdd {w : Nat} (x : BitVec w) (n : Nat) : BitVec w :=
  if x.toNat + n < 2 ^ w then BitVec.ofNat w (x.toNat + n) else BitVec.allOnes w

/-- The least of a value and the largest number of w bits, in w bits. -/
def satNat (w n : Nat) : BitVec w := if n < 2 ^ w then BitVec.ofNat w n else BitVec.allOnes w

/-- R7: a is newer than b by serial arithmetic. -/
def newer {w : Nat} (a b : BitVec w) : Bool :=
  decide (0 < (a - b).toNat) && decide ((a - b).toNat < 2 ^ (w - 1))

/-- R7: every difference that is neither equal nor newer counts as older. -/
def older {w : Nat} (a b : BitVec w) : Bool := !newer a b && decide (a ≠ b)

/-- The n lowest bytes of a value, the least significant first. -/
def toBytes {w : Nat} : Nat → BitVec w → List Byte
  | 0, _ => []
  | n + 1, v => v.setWidth 8 :: toBytes n (v >>> 8)

/-- The value of a little-endian byte string. -/
def leNat : List Byte → Nat
  | [] => 0
  | b :: bs => b.toNat + 256 * leNat bs

/-- The value of a little-endian byte string, in w bits. -/
def ofBytes (w : Nat) (bs : List Byte) : BitVec w := BitVec.ofNat w (leNat bs)

/-- Reads a little-endian value of n bytes. -/
def Mem.readLE (m : Mem) (a n w : Nat) : BitVec w := ofBytes w (Mem.readN m a n)

/-- Writes a little-endian value of n bytes. -/
def Mem.writeLE {w : Nat} (m : Mem) (a n : Nat) (v : BitVec w) : Mem := Mem.writeL m a (toBytes n v)

/-- w bits of a value from bit `lo` on. -/
def bitsAt {n : Nat} (v : BitVec n) (lo w : Nat) : BitVec w := v.extractLsb' lo w

/-- w bits of a value from byte `off` on (little-endian field). -/
def byteField {n : Nat} (v : BitVec n) (off w : Nat) : BitVec w := v.extractLsb' (8 * off) w

/-- The value with the w bits from bit `lo` on replaced. -/
def putBits {n w : Nat} (v : BitVec n) (lo : Nat) (x : BitVec w) : BitVec n :=
  (v &&& ~~~(((BitVec.allOnes w).setWidth n) <<< lo)) ||| ((x.setWidth n) <<< lo)

/-- The value with the field at byte `off` replaced. -/
def putField {n w : Nat} (v : BitVec n) (off : Nat) (x : BitVec w) : BitVec n := putBits v (8 * off) x

/-- A value with one bit replaced. -/
def putBit {n : Nat} (v : BitVec n) (i : Nat) (b : Bool) : BitVec n := putBits v i (BitVec.ofBool b)

/-- A Bool as a 32-bit word at a bit. -/
def bitW (b : Bool) (i : Nat) : W32 := if b then (1 : W32) <<< i else 0

/-- A field as a 32-bit word at a bit. -/
def fldW {w : Nat} (x : BitVec w) (i : Nat) : W32 := (x.setWidth 32) <<< i

/-- Keeps the last n elements of a list (rings that replace their oldest entry). -/
def keepLast {α : Type} (n : Nat) (l : List α) : List α := l.drop (l.length - n)

/-- One bit of the reflected CRC-32C step. -/
def crcBit (c : W32) : W32 := if c.getLsbD 0 then (c >>> 1) ^^^ 0x82F63B78 else c >>> 1

/-- One byte of CRC-32C. -/
def crcByte (c : W32) (b : Byte) : W32 :=
  crcBit (crcBit (crcBit (crcBit (crcBit (crcBit (crcBit (crcBit (c ^^^ b.setWidth 32))))))))

/-- CRC-32C of a byte string: polynomial 0x1EDC_6F41 reflected, initial value and final XOR 0xFFFF_FFFF (R52). -/
def crc32c (bs : List Byte) : W32 := (bs.foldl crcByte 0xFFFFFFFF) ^^^ 0xFFFFFFFF

/-- Reverses the bytes of a word. -/
def swap32 (v : W32) : W32 :=
  bitsAt v 0 8 ++ bitsAt v 8 8 ++ bitsAt v 16 8 ++ bitsAt v 24 8

/-- Header bits [127:32] with vc, age, hops and DEFL taken as 0 (R52). -/
def Flit.crcHead (f : Flit) : BitVec 96 :=
  f.cls ++ (0 : BitVec 1) ++ f.dest ++ f.src ++ f.slice ++ f.seq ++ f.sep ++ (0 : BitVec 6) ++ (0 : BitVec 6) ++
    BitVec.ofBool f.path ++ BitVec.ofBool f.pret ++ BitVec.ofBool f.retx ++ BitVec.ofBool f.last ++ f.stat ++
    (0 : BitVec 1) ++ f.rsv

/-- The CRC a flit must carry (R52): header bytes 0–11, most significant first, then the payload bytes. -/
def Flit.crcOf (f : Flit) : W32 := crc32c ((toBytes 12 f.crcHead).reverse ++ toBytes 48 f.pay)

/-- The flit with its CRC filled in. -/
def Flit.seal (f : Flit) : Flit := { f with crc := f.crcOf }

/-- Whether a class is a data class (0–3 and 8, R54). -/
def isDataClass (c : BitVec 4) : Bool := c = 0 || c = 1 || c = 2 || c = 3 || c = 8

/-- Whether a class is a management class (4, 5, 6, 7, 9, R54). -/
def isMgmtClass (c : BitVec 4) : Bool := c = 4 || c = 5 || c = 6 || c = 7 || c = 9

/-- A payload from little-endian bytes, padded with zeros. -/
def payOf (bs : List Byte) : Payload := ofBytes 384 bs

/-- A byte string cut or padded with zeros to n bytes. -/
def fitBytes (n : Nat) (bs : List Byte) : List Byte := bs.take n ++ List.replicate (n - bs.length) 0

/-- Replaces n bytes of a string from an offset. -/
def splice (bs : List Byte) (off : Nat) (x : List Byte) : List Byte :=
  bs.take off ++ x ++ bs.drop (off + x.length)

/-- R60: a flit as it leaves: hops and age incremented, a deflected send adds one more to age, a trump's age stays. -/
def Flit.hop (f : Flit) (deflected : Bool) : Flit :=
  { f with
    hops := f.hops + 1
    age := if f.cls = 7 then f.age else satNat 6 (f.age.toNat + (if deflected then 2 else 1))
    defl := f.defl || deflected }

/-- R60: the send would leave the flit with hops 63; a flit crosses at most 62 links (log 35). -/
def Flit.spent (f : Flit) : Bool := decide (62 ≤ f.hops.toNat)

/-- The path length and the egress list of a path-routed flit (R63). -/
def Flit.pathLen (f : Flit) : Nat := (byteField f.pay 0 8).toNat
def Flit.pathPort (f : Flit) (i : Nat) : Nat := (byteField f.pay (1 + i) 8).toNat

end Sys2Proof
end

