-- ==== Sys2Proof/Machine/StateAgent.lean ====
section
/-! DEFINITION. The state of one Rilkin agent (02 and 03 of the spec), as plain data. -/

namespace Sys2Proof.Machine

/-- A lane retrain in progress at an agent or a gate (R474). -/
structure Cal where
  /-- lane under retrain; the lane's number; 14 R474; no retrain at reset -/
  lane : Nat
  /-- start frame; 32; 14 R474; no retrain at reset -/
  start : W32
  /-- windows completed; 13; 14 R474; no retrain at reset -/
  windows : Nat
  /-- best trial margin; 6; 14 R474; no retrain at reset -/
  best : BitVec 6
  /-- setting chosen and better, adopted at this frame; 32; 14 R474; none at reset -/
  adopt : Option W32
  deriving DecidableEq, Repr

/-- A port's four registers (R96), its telemetry (R81, R119) and what its link layer measures. -/
structure Port where
  /-- TRAINED; 1; 03 R96; reset 0 -/
  trained : Bool := false
  /-- UP; 1; 03 R96; reset 0 -/
  up : Bool := false
  /-- CUT; 1; 03 R96; reset 1 -/
  cut : Bool := true
  /-- TFENCE; 1; 03 R96; reset 0 -/
  tfence : Bool := false
  /-- RETRAIN; 1; 03 R96; reset 0 -/
  retrain : Bool := false
  /-- PEERQ; 1; 03 R96; reset 1 -/
  peerq : Bool := true
  /-- ARM; 1; 03 R96; reset 0 -/
  arm : Bool := false
  /-- PEER_PORT; 8; 03 R96; reset 0xFF -/
  peerPort : Byte := 0xFF
  /-- PEER_ID; 16; 03 R96; reset 0xFFFF -/
  peerId : W16 := 0xFFFF
  /-- FLIGHT; 16; 03 R96; reset 0 -/
  flight : W16 := 0
  /-- MARGIN0; 6; 03 R96; reset 0 -/
  margin0 : BitVec 6 := 0
  /-- MARGIN1; 6; 03 R96; reset 0 -/
  margin1 : BitVec 6 := 0
  /-- LCLASS; 2; 03 R96; reset 0 -/
  lclass : BitVec 2 := 0
  /-- the window's deflected sends; 16; 02 R81; DESIGN CHOICE 0 (log 3) -/
  tDefl : W16 := 0
  /-- the window's attributed drops; 8; 02 R81; DESIGN CHOICE 0 (log 3) -/
  tDrops : Byte := 0
  /-- the link was down in the window; 1; 02 R81; DESIGN CHOICE 0 (log 3) -/
  tDown : Bool := false
  /-- a lane was retraining in the window; 1; 02 R81; DESIGN CHOICE 0 (log 3) -/
  tRetrain : Bool := false
  /-- flits sent in the window; flit times of a window; 02 R81; DESIGN CHOICE 0 (log 3) -/
  tSent : Nat := 0
  /-- congestion record of the last complete window; 64; 03 R119; DESIGN CHOICE 0 (log 3) -/
  record : W64 := 0
  /-- cumulative FEC-corrected symbols; 64; 03 R119; DESIGN CHOICE 0 (log 3) -/
  fecTotal : W64 := 0
  /-- consecutive windows with the margin below the agent's threshold of 12; 14 R473; DESIGN CHOICE 0 (log 3) -/
  lowWins : Nat := 0
  deriving DecidableEq, Repr

/-- A route-table entry (R100). -/
structure Entry where
  /-- CAND; 128; 03 R100; reset 0 -/
  cand : BitVec 128 := 0
  /-- MASK; 8; 03 R100; reset 0 -/
  mask : Byte := 0
  /-- DL; 1; 03 R100; reset 0 -/
  dl : Bool := false
  deriving DecidableEq, Repr

/-- A hand slot (R103, R104). -/
structure HandSlot where
  /-- STATE; 2 (0 EMPTY, 1 LOADING, 2 ARMED, 3 PLAYED); 03 R103; reset 0 -/
  state : BitVec 2 := 0
  /-- COUNT; 9; 03 R103; reset 0 -/
  count : BitVec 9 := 0
  /-- CARD_ID; 32; 03 R103; reset 0 -/
  cardId : W32 := 0
  /-- CARD_FEPOCH; 32; 03 R103; reset 0 -/
  fepoch : W32 := 0
  /-- CARD_CRC; 32; 03 R103; reset 0 -/
  crc : W32 := 0
  /-- TRIG0–TRIG3; 4 × 128; 03 R103; reset 0 -/
  trig : BitVec 512 := 0
  /-- PLAY_FRAME; 32; 03 R103; reset 0 -/
  playFrame : W32 := 0
  /-- entry replacements 0–255; 256 bits each; 03 R104; reset 0 -/
  entries : SMap (BitVec 256) := []
  deriving DecidableEq, Repr

/-- A partition (R120) and the agent's own timers over it (R317). -/
structure Part where
  /-- EN; 1; 03 R120; reset 0 -/
  en : Bool := false
  /-- FENCE_REQ; 1; 03 R120; reset 0 -/
  fenceReq : Bool := false
  /-- RST_REQ; 1; 03 R120; reset 0 -/
  rstReq : Bool := false
  /-- FENCE_ACK; 1; 03 R120; reset 0 -/
  fenceAck : Bool := false
  /-- RST_DONE; 1; 03 R120; reset 0 -/
  rstDone : Bool := false
  /-- STATE; 3 (0 IN_SERVICE, 1 FENCED, 2 DRAINING, 3 RESETTING, 4 CHECKING, 5 FOLDED); 03 R120; reset 0 -/
  state : BitVec 3 := 0
  /-- PROGRESS; 32; 03 R120; reset 0 -/
  progress : W32 := 0
  /-- WD_MS; 14; 03 R120; reset 50 -/
  wdMs : BitVec 14 := 50
  /-- RST_LIMIT_MS; 10; 03 R120; reset 10 -/
  rstLim : BitVec 10 := 10
  /-- KAT; 2; 03 R120; reset 0 -/
  kat : BitVec 2 := 0
  /-- the drain window of 51 µs is running; 1; 09 R317; DESIGN CHOICE 0 (log 3) -/
  window : Bool := false
  /-- FENCE_TIMEOUT was sent for this fence; 1; 09 R317; DESIGN CHOICE 0 (log 3) -/
  toSent : Bool := false
  /-- an unfence waits for FENCE_ACK to sample low; 1; 09 R317; DESIGN CHOICE 0 (log 3) -/
  unfencing : Bool := false
  /-- a reset runs and its limit has not been reported; 1; 09 R317; DESIGN CHOICE 0 (log 3) -/
  limitOn : Bool := false
  /-- the reset still runs its handshake (RST_DONE or KAT awaited), also under FOLDED; 09 R318; DESIGN CHOICE 0 (log 3) -/
  resetOn : BitVec 2 := 0
  /-- PROGRESS at the start of the watchdog window; 32; 03 R122; DESIGN CHOICE 0 (log 3) -/
  wdBase : W32 := 0
  deriving DecidableEq, Repr

/-- The two mailboxes (R123, R124) and the secure channel's buffers (R126). -/
structure AgentMbx where
  /-- DOWN_DATA; 256; 03 R123; reset 0 -/
  down : BitVec 256 := 0
  /-- DOWN_FULL; 1; 03 R123; reset 0 -/
  downFull : Bool := false
  /-- DOWN_COLL; 1; 03 R123; reset 0 -/
  downColl : Bool := false
  /-- UP_DATA; 256; 03 R123; reset 0 -/
  up : BitVec 256 := 0
  /-- UP_SEND; 1; 03 R123; reset 0 -/
  upSend : Bool := false
  /-- UP_COLL; 1; 03 R123; reset 0 -/
  upColl : Bool := false
  /-- CLAIM (0 free, 1 firmware, 2 controller); 2; 03 R124; reset 0 -/
  claim : BitVec 2 := 0
  /-- CLAIM_EXPIRED; 1; 03 R124; reset 0 -/
  expired : Bool := false
  /-- RING; 1; 03 R124; reset 0 -/
  ring : Bool := false
  /-- DONE; 1; 03 R124; reset 0 -/
  done : Bool := false
  /-- ABORTED; 1; 03 R124; reset 0 -/
  aborted : Bool := false
  /-- DATA; 320; 03 R124; reset 0 -/
  data : BitVec 320 := 0
  /-- secure channel down buffer; 256 bytes; 03 R126; reset 0 -/
  secDown : Mem := []
  deriving DecidableEq, Repr

/-- The microcode loader and image stores (R127, R128). -/
structure Ucode where
  /-- UC_RX; 1; 03 R98; reset 0 -/
  rx : Bool := false
  /-- UC_LEN; 32; 03 R98; reset 0 -/
  len : W32 := 0
  /-- version named by UCODE_OPEN; 32; 03 R127; DESIGN CHOICE 0 (log 3) -/
  ver : W32 := 0
  /-- UC_DIGEST; 384; 03 R98; reset 0 -/
  digest : Digest := 0
  /-- staged chunks; 5,462 × 384; 03 R127; DESIGN CHOICE 0 (log 3) -/
  chunks : SMap (BitVec 384) := []
  /-- halves received of each chunk (bit 0 first, bit 1 second); 2 each; 03 R117; DESIGN CHOICE 0 (log 3) -/
  got : SMap (BitVec 2) := []
  /-- pending commit: its frame F and FRAME when it was accepted; 2 × 32; 03 R128; none at reset -/
  commit : Option (W32 × W32) := none
  /-- the switched image's self-test runs; 1; 03 R128; DESIGN CHOICE 0 (log 3) -/
  testing : Bool := false
  /-- running image; 256 KiB; 03 R127; DESIGN CHOICE empty (log 3) -/
  img : SMap (BitVec 384) := []
  /-- digest of the running image once committed; 384; 03 R117; none at reset -/
  imgDigest : Option Digest := none
  /-- UCODE; 32; 03 R95; reset image -/
  version : W32 := 0
  /-- previous image; 256 KiB; 03 R128; DESIGN CHOICE empty (log 3) -/
  prevImg : SMap (BitVec 384) := []
  /-- digest of the previous image; 384; 03 R128; none at reset -/
  prevDigest : Option Digest := none
  /-- version of the previous image; 32; 03 R128; DESIGN CHOICE 0 (log 3) -/
  prevVersion : W32 := 0
  deriving DecidableEq, Repr

/-- A request copy in the retransmit store (R69, R70). -/
structure Outst where
  dest : W16
  seq : W16
  flit : Flit
  /-- resends made -/
  sends : Nat
  /-- a resend waits in the injection interface -/
  queued : Bool
  deriving DecidableEq, Repr

/-- A flit the agent originates itself; a reply to a path-routed command names its arrival port (R64). -/
structure OwnFlit where
  flit : Flit
  port : Option Nat
  deriving DecidableEq, Repr

/-- An event posted to the host chip's notice mailbox (R70, R509). -/
structure HostEvent where
  /-- 0 abandoned, 1 refused at lookup -/
  kind : Byte
  dest : W16
  seq : W16
  deriving DecidableEq, Repr

/-- The injection interface of an endpoint (R68–R70, R76, R85, R509). -/
structure Inject where
  /-- WINDOW; 15; 03 R98; reset 256 -/
  window : BitVec 15 := 256
  /-- RETX_US; 10; 03 R98; reset 20 -/
  retxUs : BitVec 10 := 20
  /-- RETRY_MAX; 4; 03 R98; reset 7 -/
  retryMax : BitVec 4 := 7
  /-- DRAIN_NOTE; 16; 03 R98; reset 0 -/
  drainNote : W16 := 0
  /-- generation recorded by GATE for the notice; 16; 03 R98; DESIGN CHOICE 0 (log 3) -/
  drainGen : W16 := 0
  /-- slice that GATE named; 9; 03 R118; DESIGN CHOICE 0 (log 3) -/
  drainSlice : BitVec 9 := 0
  /-- slices whose new requests are held; 512; 02 R85; DESIGN CHOICE 0 (log 3) -/
  gated : BitVec 512 := 0
  /-- offers waiting; list of flits; 02 R509; DESIGN CHOICE empty (log 3) -/
  offers : List Flit := []
  /-- the agent's own management flits waiting; list; 02 R509; DESIGN CHOICE empty (log 3) -/
  own : List OwnFlit := []
  /-- retransmit store; 4,096 flits; 02 R70; DESIGN CHOICE empty (log 3) -/
  outst : List Outst := []
  /-- next seq by destination; 16 each; 02 R68; DESIGN CHOICE 0 (log 3) -/
  nextSeq : SMap W16 := []
  /-- next seq of a convoy queue's flits; 16 each; 02 R55; DESIGN CHOICE 0 (log 3) -/
  convSeq : SMap W16 := []
  /-- requests issued under the current slice epoch; 02 R69; DESIGN CHOICE 0 (log 3) -/
  issued : Nat := 0
  /-- completions under the current slice epoch; 02 R69; DESIGN CHOICE 0 (log 3) -/
  completed : Nat := 0
  /-- convoy injection queues: the first 16 flits of each are in the queue, the offers behind them wait; 02 R76; DESIGN CHOICE empty (log 3) -/
  convoyQ : SMap (List Flit) := []
  /-- convoy flits sent from each queue in the current slot; 02 R75; DESIGN CHOICE 0 (log 3) -/
  convoyCnt : SMap Nat := []
  deriving DecidableEq, Repr

/-- A management flit queued in the sink with its arrival port (R66). -/
structure SinkItem where
  flit : Flit
  port : Nat
  deriving DecidableEq, Repr

/-- A path-return latch entry (R64). -/
structure Latch where
  src : W16
  seq : W16
  port : Nat
  deriving DecidableEq, Repr

/-- The forwarding logic's state (R57–R66, R74–R79). -/
structure Switch where
  /-- flit staged at each input; 1 per input; 02 R58; DESIGN CHOICE empty (log 3) -/
  staged : SMap (Option Flit) := []
  /-- outputs used in the current flit time; 02 R62; DESIGN CHOICE empty (log 3) -/
  taken : List Nat := []
  /-- outputs a trump holds; 03 R108; DESIGN CHOICE empty (log 3) -/
  trumpHeld : List Nat := []
  /-- flit times since the frame start; 02 R72; DESIGN CHOICE 0 (log 3) -/
  ft : Nat := 0
  /-- flits ejected in this flit time; 02 R66; DESIGN CHOICE 0 (log 3) -/
  ejectCnt : Nat := 0
  /-- the sink accepted a flit in this flit time; 02 R66; DESIGN CHOICE 0 (log 3) -/
  sinkCnt : Nat := 0
  /-- an originated flit was admitted in this flit time; 02 R62; DESIGN CHOICE 0 (log 3) -/
  admitted : Bool := false
  /-- round-robin pointer of each output; 02 R59; DESIGN CHOICE 0 (log 3) -/
  rr : SMap Nat := []
  /-- spread pointer; 02 R59; DESIGN CHOICE 0 (log 3) -/
  spread : Nat := 0
  /-- path-return latch, oldest first; 32 entries; 02 R64; DESIGN CHOICE empty (log 3) -/
  latch : List Latch := []
  /-- EB0; 128 flits; 02 R66; DESIGN CHOICE empty (log 3) -/
  eb0 : List Flit := []
  /-- EB1; 128 flits; 02 R66; DESIGN CHOICE empty (log 3) -/
  eb1 : List Flit := []
  /-- management sink; 16 flits; 02 R66; DESIGN CHOICE empty (log 3) -/
  sink : List SinkItem := []
  /-- slot-table entries by 32768 × bank + 64 × port + slot (port 128: ejection); 16 each; 02 R74; reset 0, 0x8000 in slots 31 and 63 -/
  slots : SMap W16 := []
  /-- SLOT_F; 32; 03 R98; reset 0 -/
  slotF : W32 := 0
  /-- SLOT_PEND; 1; 03 R98; reset 0 -/
  slotPend : Bool := false
  /-- FRAME when SLOT_F was last written; 32; 02 R79; DESIGN CHOICE 0 (log 3) -/
  slotAt : W32 := 0
  /-- SLOT_BANK; 1; 03 R98; reset 0 -/
  slotBank : Bool := false
  deriving DecidableEq, Repr

/-- The route tables of both banks and their selects (R99, R100). -/
structure Tables where
  /-- region entries by 1024 × bank + i; 2 × 1,024 entries; 03 R100; reset 0 -/
  region : SMap Entry := []
  /-- member entries by 64 × bank + i; 2 × 64 entries; 03 R100; reset 0 -/
  member : SMap Entry := []
  /-- mask pool by 256 × bank + m; 2 × 256 × 512; 03 R100; reset 0 -/
  masks : SMap (BitVec 512) := []
  /-- TBL_PAGE.OBJ; 4; 03 R99; reset 0 -/
  obj : BitVec 4 := 0
  /-- TBL_PAGE.BANK; 1; 03 R99; reset 0 -/
  bank : Bool := false
  /-- ACT; 1; 03 R99; reset 0 -/
  act : Bool := false
  /-- MGMT_SEL; 1; 03 R99; reset 0 -/
  mgmtSel : Bool := false
  /-- BANK_SEL; 512; 03 R99; reset 0 -/
  bankSel : BitVec 512 := 0
  deriving DecidableEq, Repr

/-- A settlement accumulator entry (R386); `reported` is the last CALL's stamp that answered it. -/
structure AccEntry where
  stamp : W32
  tally : W16
  sum : W32
  reported : Option W32
  deriving DecidableEq, Repr

/-- The settlement accumulator (R386). -/
structure Accum where
  /-- accumulator entries; 64 × (32 + 16 + 32); 11 R386; DESIGN CHOICE empty (log 3) -/
  ents : List AccEntry := []
  /-- stamps whose report is incomplete; 11 R386; DESIGN CHOICE empty (log 3) -/
  incomplete : List W32 := []
  /-- ACC_STAMP; 32; 11 R386; reset 0 -/
  stamp : W32 := 0
  /-- ACC_FULL; 32; 11 R386; reset 0 -/
  full : W32 := 0
  /-- ACC_LATE; 32; 11 R386; reset 0 -/
  late : W32 := 0
  deriving DecidableEq, Repr

/-- A command taken from the sink, decoded (R114). -/
structure Cmd where
  src : W16
  seq : W16
  /-- path-routed, and its arrival port -/
  path : Bool
  port : Nat
  op : Byte
  cnt : Nat
  piece : Nat
  more : Bool
  cep : W16
  dep : W16
  gen : W16
  fep : W32
  arg : W32
  words : List W32
  deriving DecidableEq, Repr

/-- A piece buffer (R114): what a split command's pieces have carried so far. -/
structure Pieces where
  src : W16
  op : Byte
  arg : W32
  next : Nat
  words : List W32
  deriving DecidableEq, Repr

/-- The command unit of an agent (R113–R115). -/
structure CmdUnit where
  /-- command that passed its general checks and waits for its own; 03 R115; none at reset -/
  cur : Option Cmd := none
  /-- remembered answers to path-routed commands, oldest first, 4 per src; 03 R114; DESIGN CHOICE empty (log 3) -/
  answered : List Flit := []
  /-- piece buffers, one per src; 03 R114; DESIGN CHOICE empty (log 3) -/
  pieces : List Pieces := []
  /-- trump filter, oldest first; 16 descriptors; 03 R108; DESIGN CHOICE empty (log 3) -/
  filter : List Desc := []
  /-- plays waiting: slot and descriptor; 03 R111; DESIGN CHOICE empty (log 3) -/
  plays : List (Nat × Desc) := []
  /-- event notice seq; 16; 03 R118; DESIGN CHOICE 0 (log 3) -/
  noticeSeq : W16 := 0
  /-- event log by entry 0–15; 16 × 384; 03 R118; DESIGN CHOICE 0 (log 3) -/
  log : SMap Payload := []
  /-- event counters by index 0–19; 64 each; 03 R119; reset 0 -/
  cnt : SMap W64 := []
  /-- high-word latch of the local bus: counter offset and high half; 03 R92; none at reset -/
  hostLatch : Option (Nat × W32) := none
  /-- high-word latch of the controller's commands; 03 R92; none at reset -/
  ctrlLatch : Option (Nat × W32) := none
  deriving DecidableEq, Repr

/-- The identity block (R95). -/
structure AgentId where
  /-- ID; 16; 03 R95; reset 0xFFFF -/
  id : W16 := 0xFFFF
  /-- ID_LOCK; 1; 03 R95; reset 0 -/
  lock : Bool := false
  /-- PROFILE; 8; 03 R95; reset 0xFF -/
  profile : Byte := 0xFF
  /-- TBL_VALID; 1; 03 R95; reset 0 -/
  tblValid : Bool := false
  /-- HAND_OK; 1; 03 R95; reset 0 -/
  handOk : Bool := false
  /-- QUAR; 1; 03 R95; reset 1 -/
  quar : Bool := true
  /-- PWRON; 1; 03 R95; reset 1 -/
  pwron : Bool := true
  /-- FEPOCH; 32; 03 R95; reset 0 -/
  fepoch : W32 := 0
  /-- DEPOCH; 16; 03 R95; reset 0 -/
  depoch : W16 := 0
  /-- CEPOCH; 16; 03 R95; reset 0 -/
  cepoch : W16 := 0
  /-- TGEN; 16; 03 R95; reset 0 -/
  tgen : W16 := 0
  /-- TELEM_DEST; 16; 03 R95; reset 0xFFC0 -/
  telemDest : W16 := 0xFFC0
  /-- CTRL_ID; 16; 03 R95; reset 0xFFC0 -/
  ctrlId : W16 := 0xFFC0
  /-- SLICE; 9; 03 R95; reset 0 -/
  slice : BitVec 9 := 0
  /-- BOUND; 1; 03 R95; reset 0 -/
  bound : Bool := false
  /-- SEPOCH; 16; 03 R95; reset 0 -/
  sepoch : W16 := 0
  /-- CLK_MHZ; 16; 03 R95; reset 0 -/
  clkMhz : W16 := 0
  /-- AG_IGNORED_CNT; 32; 03 R95; reset 0 -/
  ignored : W32 := 0
  /-- SYNC_PORT; 8; 03 R95; reset 0 -/
  syncPort : Byte := 0
  /-- SYNC_EN; 1; 03 R95; reset 0 -/
  syncEn : Bool := false
  /-- FRAME; 32; 03 R95; reset 0 -/
  frame : W32 := 0
  /-- SYNC_LOST; 1; 02 R72; DESIGN CHOICE 0 (log 3) -/
  syncLost : Bool := false
  /-- SYNC_LOST was set in the current telemetry window; 1; 02 R81; DESIGN CHOICE 0 (log 3) -/
  tSync : Bool := false
  deriving DecidableEq, Repr

/-- What an agent puts out: on its ports, to its host chip and to the host chip's root of trust. The list is the
model's own record of the pins, oldest first. -/
inductive AgentOut where
  /-- a flit sent on a fabric port -/
  | flit (port : Nat) (f : Flit)
  /-- a flit handed to the host chip from an ejection buffer -/
  | host (f : Flit)
  /-- an event for the host chip's notice mailbox (R70, R509) -/
  | event (e : HostEvent)
  /-- DOWN ordered sets on a port's transmit lanes (R314) -/
  | downSets (port : Nat)
  /-- a message passed to SEC_CH (R126) -/
  | sec (msg : List Byte)
  deriving DecidableEq, Repr

/-- One Rilkin agent. -/
structure Agent where
  build : Build
  id : AgentId := {}
  /-- ports by number -/
  ports : SMap Port := []
  tbl : Tables := {}
  /-- hand slots 0–3 -/
  hand : SMap HandSlot := []
  /-- HAND_PAGE; 3; 03 R104; reset 0 -/
  handPage : BitVec 3 := 0
  /-- play log, newest first; 8 × 64; 03 R104; DESIGN CHOICE empty (log 3) -/
  playLog : List W64 := []
  /-- partitions 0–15 -/
  parts : SMap Part := []
  mbx : AgentMbx := {}
  uc : Ucode := {}
  inj : Inject := {}
  sw : Switch := {}
  acc : Accum := {}
  cu : CmdUnit := {}
  /-- lane retrain in progress; 14 R474; none at reset -/
  cal : Option Cal := none
  /-- outputs so far, oldest first; the model's own; none at reset -/
  tx : List AgentOut := []
  deriving DecidableEq, Repr

/-- The build an unpowered place reports until AGENT_POWER_ON gives it one (DESIGN CHOICE, log 4). -/
def Build.ofKey (k : Nat) : Build :=
  if k < 0x2000 then { endpoint := true, ports := 12, device := 0, vendor := 0, convoyT := 8, ucode := 0 }
  else { endpoint := false, ports := 128, device := 0, vendor := 0, convoyT := 8, ucode := 0 }

/-- An agent right after its host chip's power-on (R129 and the reset columns of 03). -/
def Agent.powerOn (b : Build) : Agent := { build := b, uc := { version := b.ucode } }

/-- What an unlisted place of the pod holds. -/
def Agent.dflt (k : Nat) : Agent := Agent.powerOn (Build.ofKey k)

/-- What an unlisted slot-table entry holds (R74): open, or rest in slots 31 and 63. -/
def slotDflt (k : Nat) : W16 := if k % 64 = 31 ∨ k % 64 = 63 then 0x8000 else 0

end Sys2Proof.Machine
end

