-- ==== Sys2Proof/Machine/AgentOps.lean ====
section
/-! DEFINITION. Operations shared by the agent's commands: ports, counters, notices, trumps, table lookup, the slot
in force, sends and ejection (02 and 03 of the spec). -/

namespace Sys2Proof.Machine

/-- Ejection buffer size: the integration minimum of R66 (DESIGN CHOICE, log 5). -/
def ejectSize : Nat := 128
/-- Retransmit store size: the integration minimum of R70 (DESIGN CHOICE, log 5). -/
def retxSize : Nat := 4096
/-- The ejection port's number in the slot tables. -/
def ejectPort : Nat := 128

def portDflt (_ : Nat) : Port := {}
def entryDflt (_ : Nat) : Entry := {}
def slotHandDflt (_ : Nat) : HandSlot := {}
def partDflt (_ : Nat) : Part := {}
def word64Dflt (_ : Nat) : W64 := 0

def Agent.port (a : Agent) (p : Nat) : Port := SMap.get portDflt a.ports p
def Agent.modPort (a : Agent) (p : Nat) (f : Port → Port) : Agent :=
  { a with ports := SMap.modify portDflt a.ports p f }
def Agent.slot (a : Agent) (k : Nat) : HandSlot := SMap.get slotHandDflt a.hand k
def Agent.setSlot (a : Agent) (k : Nat) (h : HandSlot) : Agent :=
  { a with hand := SMap.set slotHandDflt a.hand k h }
def Agent.part (a : Agent) (p : Nat) : Part := SMap.get partDflt a.parts p
def Agent.setPart (a : Agent) (p : Nat) (q : Part) : Agent :=
  { a with parts := SMap.set partDflt a.parts p q }
def Agent.emit (a : Agent) (o : AgentOut) : Agent := { a with tx := a.tx ++ [o] }

/-- Counts one event of the event counters (R119): 64 bits, saturating. -/
def Agent.count (a : Agent) (i : Nat) : Agent :=
  { a with cu := { a.cu with cnt := SMap.modify word64Dflt a.cu.cnt i satInc } }

/-- Counts a drop; with an arrival port it is attributed to that port's record (R80). -/
def Agent.drop (a : Agent) (i : Nat) (p : Option Nat) : Agent :=
  match p with
  | some p => (a.count i).modPort p (fun q => { q with tDrops := satInc q.tDrops })
  | none => a.count i

/-- Counts an ignored write or refused command (R95). -/
def Agent.ignore (a : Agent) : Agent := { a with id := { a.id with ignored := satInc a.id.ignored } }

/-- R97: a port whose UP is clear or whose TFENCE is set is down. -/
def Agent.isDown (a : Agent) (p : Nat) : Bool := !(a.port p).up || (a.port p).tfence || decide (a.build.ports ≤ p)

/-- R97: a port out of service for data. -/
def Agent.noData (a : Agent) (p : Nat) : Bool := (a.port p).cut || (a.port p).peerq

/-- REACH_EXC (R96): FLIGHT exceeds the limit of LCLASS (R28), in units of 0.1 ns. -/
def Port.reachExc (q : Port) : Bool :=
  match q.lclass.toNat with
  | 1 => decide (70 < q.flight.toNat)
  | 2 => decide (120 < q.flight.toNat)
  | 3 => decide (400 < q.flight.toNat)
  | _ => false

/-- SLOW_CLK (R95): the table's reset of 0 stands while CLK_MHZ has not been written (log 100). -/
def Agent.slowClk (a : Agent) : Bool := decide (a.id.clkMhz ≠ 0) && decide (a.id.clkMhz.toNat < 1250)

/-- R95, R130: whether the agent lets its ports train: ID_LOCK set and a clock of at least 1.0 GHz. -/
def Agent.mayTrain (a : Agent) : Bool := a.id.lock && decide (1000 ≤ a.id.clkMhz.toNat)

/-- The slot of a flit time (R72): 64 slots of 15.625 ns; a flit time is 512 × 544 / 514 bits at 400 Gb/s (R50). -/
def slotOfFt (n : Nat) : Nat := min 63 (n * 278528 / 3212500)

/-- The slot in force (R72). -/
def Agent.slotNow (a : Agent) : Nat := slotOfFt a.sw.ft

/-- A slot-table entry of a bank. -/
def Agent.slotEnt (a : Agent) (bank : Bool) (p j : Nat) : W16 :=
  SMap.get slotDflt a.sw.slots ((if bank then 32768 else 0) + 64 * p + j)

/-- The active entry of a port in the slot in force. -/
def Agent.slotCur (a : Agent) (p : Nat) : W16 := a.slotEnt a.sw.slotBank p a.slotNow

/-- Whether the port is in a rest slot (R77). -/
def Agent.inRest (a : Agent) (p : Nat) : Bool := decide (bitsAt (a.slotCur p) 14 2 = 2)

/-- Whether the port's current slot names a source (R75). -/
def Agent.slotNames (a : Agent) (p src : Nat) : Bool :=
  decide (bitsAt (a.slotCur p) 14 2 = 1) && decide ((bitsAt (a.slotCur p) 4 8).toNat = src)

/-- The ports of an agent. -/
def Agent.portList (a : Agent) : List Nat := List.range a.build.ports

/-- An event notice (R118): class 6 to CTRL_ID, its seq from the notice counter, written into the log too. -/
def Agent.noticeFlit (a : Agent) (pay : Payload) : Flit :=
  ({ cls := 6, dest := a.id.ctrlId, src := a.id.id, seq := a.cu.noticeSeq, age := 32, pay := pay } : Flit).seal

/-- Queues one of the agent's own flits. -/
def Agent.pushOwn (a : Agent) (f : Flit) (p : Option Nat) : Agent :=
  { a with inj := { a.inj with own := a.inj.own ++ [{ flit := f, port := p }] } }

/-- Posts an event to the host chip's notice mailbox (R70, R509): the message stands in DOWN_DATA and DOWN_FULL is set,
as after a controller's message (R123, log 101). -/
def Agent.hostEvent (a : Agent) (e : HostEvent) : Agent :=
  { a with
    tx := a.tx ++ [.event e]
    mbx := { a.mbx with down := Config.eventMessage e.kind e.dest e.seq, downFull := true,
                        downColl := a.mbx.downColl || a.mbx.downFull } }

/-- Sends an event notice (R118). -/
def Agent.notice (a : Agent) (pay : Payload) : Agent :=
  let b := a.pushOwn (a.noticeFlit pay) none
  { b with cu := { b.cu with
      log := SMap.set (fun _ => (0 : Payload)) b.cu.log (b.cu.noticeSeq.toNat % 16) pay
      noticeSeq := if b.cu.noticeSeq = 0xFFFE then 0 else b.cu.noticeSeq + 1 } }

/-- A notice payload from its code and fields (byte offset, width in bits, value). -/
def noticePay (code : Byte) (b1 b2 : Byte) (lo hi : BitVec 64) : Payload :=
  putField (putField (putField (putField (putField (0 : Payload) 0 code) 1 b1) 2 b2) 4 (lo.setWidth 32)) 8 hi

/-- PART notice (R118). -/
def Agent.partNotice (a : Agent) (p : Nat) (ev : Byte) : Agent :=
  a.notice (noticePay 0x07 (BitVec.ofNat 8 p) ev 0 0)

/-- The in-flight count (R69). -/
def Agent.inFlight (a : Agent) : Nat := a.inj.issued - a.inj.completed

/-- Sends DRAINED when DRAIN_NOTE is set and the in-flight count is 0, and clears DRAIN_NOTE (R98). -/
def Agent.tryDrained (a : Agent) : Agent :=
  if a.inj.drainNote ≠ 0 ∧ a.inFlight = 0 then
    let b := a.notice (putField (putField (putField (0 : Payload) 0 (1 : Byte)) 2 (a.inj.drainSlice.setWidth 16 : W16)) 4 a.inj.drainGen)
    { b with inj := { b.inj with drainNote := 0 } }
  else a

/-! ## Lookup (R57, R84) -/

/-- The bank R84 selects for a flit. -/
def Agent.bankFor (a : Agent) (f : Flit) : Bool :=
  if isDataClass f.cls then a.tbl.bankSel.getLsbD f.slice.toNat else a.tbl.mgmtSel

def bankOff (n : Nat) (b : Bool) : Nat := if b then n else 0

/-- The region or member entry of a destination (R57 step 1). -/
def Agent.entryFor (a : Agent) (bank : Bool) (dest : W16) : Entry :=
  if bitsAt dest 6 10 ≠ bitsAt a.id.id 6 10 then
    SMap.get entryDflt a.tbl.region (bankOff 1024 bank + (bitsAt dest 6 10).toNat)
  else SMap.get entryDflt a.tbl.member (bankOff 64 bank + (bitsAt dest 0 6).toNat)

/-- The mask of an entry, from its own bank's pool (R99). -/
def Agent.maskOf (a : Agent) (bank : Bool) (e : Entry) : BitVec 512 :=
  SMap.get (fun _ => (0 : BitVec 512)) a.tbl.masks (bankOff 256 bank + e.mask.toNat)

/-- R34: whether the entry's mask admits the flit's slice (management classes bypass the test, R35). -/
def Agent.maskOk (a : Agent) (bank : Bool) (e : Entry) (f : Flit) : Bool :=
  !isDataClass f.cls || (a.maskOf bank e).getLsbD f.slice.toNat

/-- Whether an output may carry a flit now, apart from being taken (R57 step 3, R61, R77, R97). -/
def Agent.usable (a : Agent) (f : Flit) (p : Nat) : Bool :=
  !a.isDown p && !(isDataClass f.cls && a.noData p) && (!a.inRest p || f.cls = 9)

/-- The productive set (R57). -/
def Agent.productive (a : Agent) (e : Entry) (f : Flit) : List Nat :=
  a.portList.filter (fun p => e.cand.getLsbD p && a.usable f p)

/-- The first of a list at or after a pointer, else its first. -/
def firstFrom (l : List Nat) (ptr : Nat) : Option Nat :=
  match l.find? (fun p => decide (ptr ≤ p)) with
  | some p => some p
  | none => l.head?

/-- A flit leaves on a port: the output is taken for this flit time, and the send counts in the window's occ (R81). -/
def Agent.put (a : Agent) (p : Nat) (f : Flit) : Agent :=
  { a.modPort p (fun q => { q with tSent := q.tSent + 1 }) with
    tx := a.tx ++ [.flit p f]
    sw := { a.sw with taken := p :: a.sw.taken } }

/-- Sends a flit on a port, or drops it at the hop limit (R60). -/
def Agent.send (a : Agent) (p : Nat) (f : Flit) (deflected : Bool) (arr : Option Nat) : Agent :=
  if f.spent then a.drop 6 arr
  else
    (if deflected then a.modPort p (fun q => { q with tDefl := satInc q.tDefl }) else a).put p (f.hop deflected)

/-- R61: sends a deflected flit on the lowest free eligible port, its arrival port last, or drops it. A port in a rest
slot is eligible for no class. -/
def Agent.deflect (a : Agent) (f : Flit) (arr : Nat) : Agent :=
  let free := a.portList.filter (fun p => a.usable f p && !a.inRest p && !a.sw.taken.contains p)
  match free.find? (fun p => decide (p ≠ arr)) with
  | some p => a.send p f true (some arr)
  | none => if free.contains arr then a.send arr f true (some arr) else a.drop 7 (some arr)

/-! ## Trumps (R106–R112) -/

def descKind (d : Desc) : Nat := (bitsAt d 60 4).toNat
def descRport (d : Desc) : Nat := (bitsAt d 52 8).toNat
def descReporter (d : Desc) : W16 := bitsAt d 36 16
def descPeer (d : Desc) : W16 := bitsAt d 20 16
def descPport (d : Desc) : Nat := (bitsAt d 12 8).toNat
def descHalf (d : Desc) : Byte := bitsAt d 4 8

/-- The descriptor of a link's loss (R106, R107). -/
def linkDesc (reporter : W16) (rport : Nat) (peer : W16) (pport : Byte) : Desc :=
  (1 : BitVec 4) ++ BitVec.ofNat 8 rport ++ reporter ++ peer ++ pport ++ (0 : Byte) ++ (0 : BitVec 4)

/-- A trump flit (R107). -/
def trumpFlit (src : W16) (d : Desc) (fepoch frame : W32) : Flit :=
  ({ cls := 7, dest := 0xFFFF, src := src,
     pay := putField (putField (d.setWidth 384 : Payload) 8 fepoch) 12 frame } : Flit).seal

/-- Trigger i of a slot: descriptor and mask (R103). -/
def HandSlot.trigDesc (h : HandSlot) (i : Nat) : Desc := bitsAt h.trig (128 * i) 64
def HandSlot.trigMask (h : HandSlot) (i : Nat) : Desc := bitsAt h.trig (128 * i + 64) 64

/-- R106: a trigger matches d when its kind is not 0 and (d XOR descriptor) AND mask = 0. -/
def trigMatch (t m d : Desc) : Bool := decide (descKind t ≠ 0) && decide ((d ^^^ t) &&& m = 0)

/-- Whether any trigger of a slot matches. -/
def HandSlot.hits (h : HandSlot) (d : Desc) : Bool :=
  (List.range 4).any (fun i => trigMatch (h.trigDesc i) (h.trigMask i) d)

/-- R108 step 2: one armed port's copy of a trump. -/
def Agent.trumpPort (f : Flit) (a : Agent) (p : Nat) : Agent :=
  if a.sw.trumpHeld.contains p then a.count 14
  else
    let b := a.put p (f.hop false)
    { b with sw := { b.sw with trumpHeld := p :: b.sw.trumpHeld } }

/-- The ports a trump is copied to (R108 step 2). -/
def Agent.trumpPorts (a : Agent) (inp : Option Nat) : List Nat :=
  a.portList.filter (fun p => (a.port p).arm && !a.isDown p && decide (inp ≠ some p))

/-- R108 step 2 with the hop limit of R60. -/
def Agent.trumpForward (a : Agent) (inp : Option Nat) (f : Flit) : Agent :=
  if f.spent then a.drop 6 inp else (a.trumpPorts inp).foldl (Agent.trumpPort f) a

/-- R108 step 3: the agent's own ports a descriptor fences. -/
def Agent.fencePorts (a : Agent) (d : Desc) : List Nat :=
  match descKind d with
  | 1 => a.portList.filter (fun p =>
      (decide (a.id.id = descReporter d) && decide (p = descRport d)) ||
      (decide (a.id.id = descPeer d) && decide (p = descPport d)))
  | 2 => a.portList.filter (fun p => decide ((a.port p).peerId = descPeer d))
  | _ => []

/-- Sets TFENCE on a list of ports. -/
def Agent.fence (a : Agent) (ps : List Nat) : Agent :=
  ps.foldl (fun a p => a.modPort p (fun q => { q with tfence := true })) a

/-- The bitmap of ports with TFENCE set. -/
def Agent.fencedMap (a : Agent) : BitVec 128 :=
  a.portList.foldl (fun m p => if (a.port p).tfence then putBit m p true else m) 0

/-- R110, R112: one slot against a descriptor: queued to play, or counted stale. -/
def Agent.matchSlot (d : Desc) (a : Agent) (k : Nat) : Agent :=
  let h := a.slot k
  if h.state = 2 ∧ h.hits d ∧ ¬ (a.cu.plays.any (fun x => x.1 = k)) then
    if h.fepoch = a.id.fepoch then { a with cu := { a.cu with plays := a.cu.plays ++ [(k, d)] } }
    else (a.count 16).notice (noticePay 0x04 (BitVec.ofNat 8 k) 0 (h.cardId.setWidth 64) d)
  else a

/-- R108 steps 3 and 4 and R112. -/
def Agent.trumpAct (a : Agent) (d : Desc) : Agent :=
  let ps := a.fencePorts d
  let fresh := ps.any (fun p => !(a.port p).tfence)
  let b := a.fence ps
  if b.id.quar then b
  else
    let c := (List.range 4).foldl (Agent.matchSlot d) b
    if fresh && decide (c.cu.plays.length = b.cu.plays.length) then
      (c.count 17).notice (putField (putField (putField (0 : Payload) 0 (3 : Byte)) 8 d) 16 c.fencedMap)
    else c

/-- R108: a trump received on a port, or raised by the agent itself (`inp` none). -/
def Agent.trump (a : Agent) (inp : Option Nat) (f : Flit) : Agent :=
  let d : Desc := byteField f.pay 0 64
  let a := if inp.isSome then a.count 13 else a
  if inp.isSome ∧ a.cu.filter.contains d then a
  else
    let a := { a with cu := { a.cu with filter := keepLast 16 (a.cu.filter.filter (· ≠ d) ++ [d]) } }
    (a.trumpForward inp f).trumpAct d

/-- R107: the agent raises a kind 1 trump for a port. -/
def Agent.raise (a : Agent) (p : Nat) : Agent :=
  a.trump none (trumpFlit a.id.id (linkDesc a.id.id p (a.port p).peerId (a.port p).peerPort) a.id.fepoch a.id.frame)

/-- R313–R315, R107: a port clears UP; for a local reason it sends DOWN sets; with TFENCE clear it raises a trump.
A retrain on the port ends without adoption (R475). -/
def Agent.portDown (a : Agent) (p : Nat) (isLocal : Bool) : Agent :=
  if p < a.build.ports ∧ (a.port p).up then
    let fenced := (a.port p).tfence
    let b := a.modPort p (fun q => { q with up := false, trained := false, tDown := true, retrain := false })
    let b := match b.cal with
      | some c => if c.lane / 2 = p then { b with cal := none } else b
      | none => b
    let b := if isLocal then b.emit (.downSets p) else b
    if fenced then b else b.raise p
  else a

/-! ## Ejection (R34, R66, R69, R332, R386) -/

/-- R386: adds an accepted ADD completion to the settlement accumulator. -/
def Agent.accumulate (a : Agent) (stamp : W32) (tally : W16) (v : W32) : Agent :=
  let c := a.acc
  let here := fun (e : AccEntry) => decide (e.stamp = stamp) && decide (e.tally = tally) && decide (e.reported = none)
  if c.ents.any here then
    { a with acc := { c with ents := c.ents.map (fun e => if here e then { e with sum := e.sum + v } else e) } }
  else if c.ents ≠ [] ∧ c.ents.all (fun e => older stamp e.stamp) then
    { a with acc := { c with late := satInc c.late } }
  else if 64 ≤ c.ents.length then
    { a with acc := { c with full := satInc c.full,
                             incomplete := if c.incomplete.contains stamp then c.incomplete else c.incomplete ++ [stamp] } }
  else { a with acc := { c with ents := c.ents ++ [{ stamp := stamp, tally := tally, sum := v, reported := none }] } }

/-- What an accepted completion brings (R386): ACC_STAMP, and the operand of the request if it was an ADD answered
OK (payloads of R379). -/
def Agent.acceptCompletion (a : Agent) (req rsp : Flit) : Agent :=
  if req.cls = 8 ∧ rsp.cls = 3 then
    let stamp : W32 := byteField rsp.pay 8 32
    let res : Byte := byteField rsp.pay 3 8
    let b := if res.toNat ≤ 1 ∧ newer stamp a.acc.stamp then { a with acc := { a.acc with stamp := stamp } } else a
    if res = 0 ∧ byteField req.pay 2 8 = (1 : Byte) then
      b.accumulate stamp (byteField req.pay 0 16) (byteField req.pay 4 32)
    else b
  else a

/-- R69: accepts the first response for an outstanding seq; none when it matches no outstanding request. -/
def Agent.acceptResponse (a : Agent) (f : Flit) : Option Agent :=
  match a.inj.outst.find? (fun o => o.dest = f.src && o.seq = f.seq) with
  | none => none
  | some o =>
    let b := { a with inj := { a.inj with
      outst := a.inj.outst.filter (fun x => !(x.dest = f.src && x.seq = f.seq))
      completed := a.inj.completed + 1 } }
    some (b.acceptCompletion o.flit f)

/-- Whether the flit's ejection buffer can take it in this flit time (R66). -/
def Agent.ejectRoom (a : Agent) (f : Flit) : Bool :=
  decide ((if f.vc then a.sw.eb1 else a.sw.eb0).length < ejectSize) && decide (a.sw.ejectCnt < 4)

/-- Puts a flit into its ejection buffer (R66). -/
def Agent.eject (a : Agent) (f : Flit) : Agent :=
  { a with sw := { a.sw with
      eb0 := if f.vc then a.sw.eb0 else a.sw.eb0 ++ [f]
      eb1 := if f.vc then a.sw.eb1 ++ [f] else a.sw.eb1
      ejectCnt := a.sw.ejectCnt + 1 } }

/-- Stages a flit at its input (R58). -/
def Agent.stage (a : Agent) (p : Nat) (f : Flit) : Agent :=
  { a with sw := { a.sw with staged := SMap.set (fun _ => none) a.sw.staged p (some f) } }

/-- Whether the management sink can take a flit in this flit time (R66). -/
def Agent.sinkRoom (a : Agent) : Bool := decide (a.sw.sink.length < 16) && decide (a.sw.sinkCnt < 1)

/-- Queues a flit in the management sink. -/
def Agent.toSink (a : Agent) (p : Nat) (f : Flit) : Agent :=
  { a with sw := { a.sw with sink := a.sw.sink ++ [{ flit := f, port := p }], sinkCnt := a.sw.sinkCnt + 1 } }

/-- R34, R332: whether a data-class flit may enter this endpoint. -/
def Agent.sliceOk (a : Agent) (f : Flit) : Bool :=
  a.id.bound && decide (f.slice = a.id.slice) && (f.cls = 8 || decide (f.sep = a.id.sepoch.setWidth 8))

/-- A data-class flit for this agent (R34, R66, R69, R332). -/
def Agent.arriveOwn (a : Agent) (p : Nat) (f : Flit) : Agent :=
  if ¬ a.build.endpoint then a.drop 5 (some p)
  else if ¬ a.sliceOk f then a.drop 3 (some p)
  else if ¬ a.ejectRoom f then a.stage p f
  else if f.cls = 1 ∨ f.cls = 3 then
    match a.acceptResponse f with
    | some b => b.eject f
    | none => a.count 10
  else a.eject f

/-- R52, R54, R43, R57, R63, R64: what becomes of a flit that arrives on a port. -/
def Agent.arrive (a : Agent) (p : Nat) (f : Flit) : Agent :=
  if a.isDown p then a
  else if f.crc ≠ f.crcOf then a.drop 0 (some p)
  else if 10 ≤ f.cls.toNat ∨ (isDataClass f.cls ∧ (f.path ∨ f.pret)) then a.drop 1 (some p)
  else if f.cls = 7 then a.trump (some p) f
  else if isDataClass f.cls ∧ a.id.quar then a.drop 4 (some p)
  else if f.cls = 2 then a.stage p f
  else if f.path then
    if f.hops.toNat = f.pathLen then (if a.sinkRoom then a.toSink p f else a.drop 8 (some p)) else a.stage p f
  else if f.dest = a.id.id then
    if isDataClass f.cls then a.arriveOwn p f
    else if a.sinkRoom then a.toSink p f
    else if f.pret then a.drop 8 (some p) else a.stage p f
  else a.stage p f

end Sys2Proof.Machine
end

