-- ==== Sys2Proof/Machine/Sha.lean ====
section
/-! DEFINITION. SHA-384 (FIPS 180-4), used by R128, R353, R363, R420 and the checks of objects. -/

namespace Sys2Proof

/-- The largest k-th root of x below acc + 2^n, from acc on, bit by bit. -/
def rootFrom (k x : Nat) : Nat → Nat → Nat
  | 0, acc => acc
  | n + 1, acc => rootFrom k x n (if (acc + 2 ^ n) ^ k ≤ x then acc + 2 ^ n else acc)

/-- The first 64 bits of the fractional part of the k-th root of a small number. -/
def rootFrac (k p : Nat) : W64 := BitVec.ofNat 64 (rootFrom k (p * 2 ^ (64 * k)) 72 0)

/-- The first 80 prime numbers. -/
def shaPrimes : List Nat :=
  (List.range 410).filter (fun n => decide (2 ≤ n) && (List.range 21).all (fun d => decide (d < 2) || decide (n ≤ d) || n % d ≠ 0))

/-- FIPS 180-4: the round constants, from the cube roots of the first 80 primes. -/
def shaK : List W64 := shaPrimes.map (rootFrac 3)

/-- The eight working words. -/
structure ShaH where
  a : W64
  b : W64
  c : W64
  d : W64
  e : W64
  f : W64
  g : W64
  h : W64
  deriving DecidableEq, Repr

/-- FIPS 180-4: the initial hash value of SHA-384, from the square roots of the ninth to sixteenth primes. -/
def sha384Init : ShaH :=
  let r (i : Nat) : W64 := rootFrac 2 (shaPrimes.getD (8 + i) 0)
  { a := r 0, b := r 1, c := r 2, d := r 3, e := r 4, f := r 5, g := r 6, h := r 7 }

def shaS0 (x : W64) : W64 := x.rotateRight 28 ^^^ x.rotateRight 34 ^^^ x.rotateRight 39
def shaS1 (x : W64) : W64 := x.rotateRight 14 ^^^ x.rotateRight 18 ^^^ x.rotateRight 41
def shaG0 (x : W64) : W64 := x.rotateRight 1 ^^^ x.rotateRight 8 ^^^ (x >>> 7)
def shaG1 (x : W64) : W64 := x.rotateRight 19 ^^^ x.rotateRight 61 ^^^ (x >>> 6)

/-- Extends the message schedule, newest word first, by n words. -/
def shaExtend : Nat → List W64 → List W64
  | 0, w => w
  | n + 1, w => shaExtend n ((shaG1 (w.getD 1 0) + w.getD 6 0 + shaG0 (w.getD 14 0) + w.getD 15 0) :: w)

/-- One round. -/
def shaRound (s : ShaH) (kw : W64 × W64) : ShaH :=
  let t1 := s.h + shaS1 s.e + ((s.e &&& s.f) ^^^ (~~~s.e &&& s.g)) + kw.1 + kw.2
  let t2 := shaS0 s.a + ((s.a &&& s.b) ^^^ (s.a &&& s.c) ^^^ (s.b &&& s.c))
  { a := t1 + t2, b := s.a, c := s.b, d := s.c, e := s.d + t1, f := s.e, g := s.f, h := s.g }

/-- One 128-byte block (its 16 big-endian words). -/
def shaBlock (s : ShaH) (ws : List W64) : ShaH :=
  let r := (shaK.zip (shaExtend 64 ws.reverse).reverse).foldl shaRound s
  { a := s.a + r.a, b := s.b + r.b, c := s.c + r.c, d := s.d + r.d,
    e := s.e + r.e, f := s.f + r.f, g := s.g + r.g, h := s.h + r.h }

/-- Big-endian words of a byte string, 8 bytes each. -/
def beWords : Nat → List Byte → List W64
  | 0, _ => []
  | n + 1, bs => ofBytes 64 (bs.take 8).reverse :: beWords n (bs.drop 8)

def shaBlocks : Nat → ShaH → List Byte → ShaH
  | 0, s, _ => s
  | n + 1, s, bs => shaBlocks n (shaBlock s (beWords 16 (bs.take 128))) (bs.drop 128)

/-- The padded message. -/
def shaPad (bs : List Byte) : List Byte :=
  bs ++ [0x80] ++ List.replicate ((239 - bs.length % 128) % 128) 0 ++
    (toBytes 16 (BitVec.ofNat 128 (8 * bs.length))).reverse

/-- SHA-384 of a byte string; byte 0 of the digest is bits [7:0]. -/
def sha384 (bs : List Byte) : Digest :=
  let p := shaPad bs
  let s := shaBlocks (p.length / 128) sha384Init p
  ofBytes 384 ((toBytes 8 s.a).reverse ++ (toBytes 8 s.b).reverse ++ (toBytes 8 s.c).reverse ++
    (toBytes 8 s.d).reverse ++ (toBytes 8 s.e).reverse ++ (toBytes 8 s.f).reverse)

end Sys2Proof
end

