-- ==== Sys2Proof/Machine/AgentRegs.lean ====
section
/-! DEFINITION. The agent's register space (R91–R105, R119, R120, R123, R124, R386, R505): reading a word, the checks
of a write, and the write itself. `ctrl` is the controller's access path, else the host chip's local bus. -/

namespace Sys2Proof.Machine

/-! ## Partitions (R120, R317, R318) -/

/-- A controller write of STATE that R318 accepts. -/
def Part.stateOk (q : Part) (v : BitVec 3) : Bool :=
  decide (v = 5) || (decide (v = 1) && decide (q.state = 5) && q.fenceAck && !q.rstReq)

/-- The accepted STATE write (R317, R318). -/
def Part.writeState (q : Part) (v : BitVec 3) : Part :=
  if v = 5 then { q with state := 5, fenceReq := true, unfencing := false }
  else { q with state := 1, kat := 0 }

/-- A host write of KAT (R317, R318): answered only while the check runs; else ignored. -/
def Agent.writeKat (a : Agent) (p : Nat) (v : BitVec 2) : Agent :=
  let q := a.part p
  if v = 3 then a.ignore
  else if q.state = 4 ∨ (q.state = 5 ∧ q.resetOn = 2) then
    if v = 0 then a
    else
      (a.setPart p { q with kat := v, state := if q.state = 5 then 5 else 1, limitOn := false, resetOn := 0,
                            rstDone := false }).partNotice p (if v = 1 then 5 else 6)
  else a.ignore

/-! ## Mailboxes (R123–R125) -/

/-- The party's number in CLAIM (R124). -/
def partyNo (ctrl : Bool) : BitVec 2 := if ctrl then 2 else 1

/-- MBX_CMD notice (R118). -/
def Agent.mbxNotice (a : Agent) (kind : Byte) : Agent :=
  a.notice (putField (putField (putField (0 : Payload) 0 (9 : Byte)) 1 kind) 8 a.mbx.data)

/-- MBX_IRQ (R124). -/
def Agent.mbxIrq (a : Agent) : Bool :=
  a.mbx.downFull || (a.mbx.ring && decide (a.mbx.claim = 2)) || (a.mbx.done && decide (a.mbx.claim = 1)) ||
    a.mbx.expired || a.mbx.aborted

/-- A read of CLAIM (R124). -/
def Agent.claimRead (a : Agent) (ctrl : Bool) : W32 × Agent :=
  if a.mbx.claim = 0 then (0, { a with mbx := { a.mbx with claim := partyNo ctrl } })
  else (a.mbx.claim.setWidth 32, a)

/-- The holder releases the claim (R124). -/
def Agent.claimRelease (a : Agent) : Agent :=
  { a with mbx := { a.mbx with claim := 0, ring := false, done := false } }

/-- The holder sets RING (R124). -/
def Agent.setRing (a : Agent) (ctrl : Bool) : Agent :=
  let b := { a with mbx := { a.mbx with ring := true } }
  if ctrl then b else b.mbxNotice 1

/-- The non-holder sets DONE (R124). -/
def Agent.setDone (a : Agent) : Agent :=
  let b := { a with mbx := { a.mbx with done := true } }
  if a.mbx.claim = 2 then b.mbxNotice 2 else b

/-- Whether a party may write DATA now (R124). -/
def Agent.dataTurn (a : Agent) (ctrl : Bool) : Bool :=
  (decide (a.mbx.claim = partyNo ctrl) && !a.mbx.ring) ||
    (decide (a.mbx.claim ≠ 0) && decide (a.mbx.claim ≠ partyNo ctrl) && a.mbx.ring && !a.mbx.done)

/-- A controller write of the last DOWN_DATA word (R123). -/
def Agent.downPosted (a : Agent) : Agent :=
  { a with mbx := { a.mbx with downFull := true, downColl := a.mbx.downColl || a.mbx.downFull } }

/-- The firmware sets UP_SEND (R123): UP_DATA goes out as an MBX_UP notice. -/
def Agent.upSend (a : Agent) : Agent :=
  if a.mbx.upSend then a
  else
    let b := { a with mbx := { a.mbx with upSend := true } }
    b.notice (putField (putField (0 : Payload) 0 (8 : Byte)) 8 a.mbx.up)

/-- The firmware writes a word of UP_DATA (R123). -/
def Agent.upWrite (a : Agent) (i : Nat) (v : W32) : Agent :=
  { a with mbx := { a.mbx with up := putBits a.mbx.up (32 * i) v, upColl := a.mbx.upColl || a.mbx.upSend } }

/-- FW_BOOT (R125). -/
def Agent.fwBoot (a : Agent) : Agent :=
  let held := decide (a.mbx.claim = 2)
  let b := { a with mbx := { ({} : AgentMbx) with secDown := a.mbx.secDown } }
  if held then b.mbxNotice 4 else b

/-- R125: a newer epoch pair clears the controller's claim and sets ABORTED toward the firmware. -/
def Agent.abortCtrl (a : Agent) : Agent :=
  if a.mbx.claim = 2 then
    { a with mbx := { a.mbx with claim := 0, ring := false, done := false, aborted := true } }
  else a

/-! ## Slot-table switch (R79, R102) -/

/-- Whether every fabric port's table in a bank has at least 2 rest slots (R77, R102). -/
def Agent.restOk (a : Agent) (bank : Bool) : Bool :=
  a.portList.all (fun p =>
    decide (2 ≤ ((List.range 64).filter (fun j => bitsAt (a.slotEnt bank p j) 14 2 = 2)).length))

/-- A write of SLOT_F that R102 accepts. -/
def Agent.writeSlotF (a : Agent) (v : W32) : Agent :=
  { a with sw := { a.sw with slotF := v, slotPend := true, slotAt := a.id.frame } }

/-- Whether frame F, written at frame `at`, is due (R79, R128): at F, or at the next frame if F had begun. -/
def frameDue (f at_ now : W32) : Bool :=
  if newer f at_ then !newer f now else decide (now ≠ at_)

/-! ## Words of the table window, hand and entries -/

/-- A slot-table word: two slots (R100). -/
def Agent.slotWord (a : Agent) (bank : Bool) (p w : Nat) : W32 :=
  a.slotEnt bank p (2 * w + 1) ++ a.slotEnt bank p (2 * w)

def Agent.setSlotEnt (a : Agent) (bank : Bool) (p j : Nat) (v : W16) : Agent :=
  { a with sw := { a.sw with slots := SMap.set slotDflt a.sw.slots ((if bank then 32768 else 0) + 64 * p + j) v } }

def Agent.setSlotWord (a : Agent) (bank : Bool) (p w : Nat) (v : W32) : Agent :=
  (a.setSlotEnt bank p (2 * w) (bitsAt v 0 16)).setSlotEnt bank p (2 * w + 1) (bitsAt v 16 16)

/-- A route-table entry's word (R100). -/
def Entry.word (e : Entry) (k : Nat) : W32 :=
  if k < 4 then bitsAt e.cand (32 * k) 32 else if k = 4 then e.mask.setWidth 32 ||| bitW e.dl 8 else 0

def Entry.setWord (e : Entry) (k : Nat) (v : W32) : Entry :=
  if k < 4 then { e with cand := putBits e.cand (32 * k) v }
  else if k = 4 then { e with mask := bitsAt v 0 8, dl := v.getLsbD 8 } else e

/-- The entry of a table by object and number in the page. -/
def Agent.winEntry (a : Agent) (i : Nat) : Entry :=
  match a.tbl.obj.toNat with
  | 0 => SMap.get entryDflt a.tbl.region (bankOff 1024 a.tbl.bank + i)
  | 1 => SMap.get entryDflt a.tbl.region (bankOff 1024 a.tbl.bank + 512 + i)
  | _ => SMap.get entryDflt a.tbl.member (bankOff 64 a.tbl.bank + i)

def Agent.setWinEntry (a : Agent) (i : Nat) (e : Entry) : Agent :=
  match a.tbl.obj.toNat with
  | 0 => { a with tbl := { a.tbl with region := SMap.set entryDflt a.tbl.region (bankOff 1024 a.tbl.bank + i) e } }
  | 1 => { a with tbl := { a.tbl with region := SMap.set entryDflt a.tbl.region (bankOff 1024 a.tbl.bank + 512 + i) e } }
  | _ => { a with tbl := { a.tbl with member := SMap.set entryDflt a.tbl.member (bankOff 64 a.tbl.bank + i) e } }

/-- A word of the table window; o is the offset in the page. -/
def Agent.winRead (a : Agent) (o : Nat) : W32 :=
  match a.tbl.obj.toNat with
  | 0 => (a.winEntry (o / 32)).word (o % 32 / 4)
  | 1 => (a.winEntry (o / 32)).word (o % 32 / 4)
  | 2 => if o < 2048 then (a.winEntry (o / 32)).word (o % 32 / 4) else 0
  | 3 => bitsAt (SMap.get (fun _ => (0 : BitVec 512)) a.tbl.masks (bankOff 256 a.tbl.bank + o / 64)) (8 * (o % 64)) 32
  | 4 => if o / 128 < a.build.ports then a.slotWord a.tbl.bank (o / 128) (o % 128 / 4) else 0
  | 5 => if o < 128 then a.slotWord a.tbl.bank ejectPort (o / 4) else 0
  | _ => 0

def Agent.winWrite (a : Agent) (o : Nat) (v : W32) : Agent :=
  match a.tbl.obj.toNat with
  | 3 =>
    let m := bankOff 256 a.tbl.bank + o / 64
    let ms := SMap.modify (fun _ => (0 : BitVec 512)) a.tbl.masks m (fun x => putBits x (8 * (o % 64)) v)
    { a with tbl := { a.tbl with masks := ms } }
  | 4 => a.setSlotWord a.tbl.bank (o / 128) (o % 128 / 4) v
  | 5 => a.setSlotWord a.tbl.bank ejectPort (o / 4) v
  | _ => a.setWinEntry (o / 32) ((a.winEntry (o / 32)).setWord (o % 32 / 4) v)

/-- Bits of a CAND word at or above PORTS (R100). -/
def Agent.candMask (a : Agent) (k : Nat) : W32 :=
  bitsAt ((BitVec.allOnes 128) >>> (128 - min 128 a.build.ports)) (32 * k) 32

/-- The hand entry in the window at an offset (R104). -/
def Agent.handWinEntry (a : Agent) (o : Nat) : Nat := 128 * (if a.handPage.getLsbD 0 then 1 else 0) + o / 32
def Agent.handWinSlot (a : Agent) : Nat := (bitsAt a.handPage 1 2).toNat

/-! ## The map -/

/-- The block of R94 an offset lies in; the reserved ranges count as blocks of their own. -/
def regBlock (off : Nat) : Nat :=
  if off < 0x100 then 0 else if off < 0x900 then 1 else if off < 0x1000 then 2 else if off < 0x5000 then 3
  else if off < 0x5100 then 4 else if off < 0x8000 then 5 else if off < 0x8200 then 6 else if off < 0x8300 then 7
  else if off < 0x9000 then 8 else if off < 0xA000 then 9 else if off < 0xA400 then 10 else if off < 0xC000 then 11
  else if off < 0xC100 then 12 else if off < 0xC200 then 13 else if off < 0xE000 then 14 else if off < 0xE100 then 15
  else if off < 0xE900 then 16 else if off < 0xEC00 then 17 else 18

/-- The defined bits of a word, the bits the controller may write and the bits the host chip may write (R12, R93,
R505); none for a reserved offset (R92). -/
structure WordSpec where
  fields : W32
  ctrl : W32 := 0
  host : W32 := 0
  deriving DecidableEq, Repr

def allW : W32 := 0xFFFFFFFF

def Agent.specId (a : Agent) (off : Nat) : Option WordSpec :=
  let lk := fun (m : W32) => if a.id.lock then 0 else m
  match off with
  | 0x00 => some { fields := 0x1FFFF, host := lk 0xFFFF ||| 0x10000 }
  | 0x04 => some { fields := 0xFFFFFF, host := if a.build.endpoint then lk 0xFF else 0 }
  | 0x08 => some { fields := allW }
  | 0x0C => some { fields := allW }
  | 0x10 => some { fields := 0x1F, ctrl := 0x2 }
  | 0x14 => some { fields := allW }
  | 0x18 => some { fields := allW }
  | 0x1C => some { fields := 0xFFFF }
  | 0x20 => some { fields := 0xFFFF, ctrl := 0xFFFF }
  | 0x24 => some { fields := 0xFFFF, ctrl := 0xFFFF }
  | 0x28 => if a.build.endpoint then some { fields := 0x800001FF } else none
  | 0x2C => if a.build.endpoint then some { fields := 0xFFFF } else none
  | 0x30 => some { fields := 0xFF }
  | 0x34 => some { fields := 0xFFFF, host := lk 0xFFFF }
  | 0x38 => some { fields := allW }
  | 0x3C => some { fields := 0x800000FF, ctrl := 0x800000FF }
  | 0x40 => some { fields := allW }
  | _ => none

def Agent.specControl (a : Agent) (off : Nat) : Option WordSpec :=
  let ep := fun (w : WordSpec) => if a.build.endpoint then some w else none
  match off with
  | 0x900 => ep { fields := 0x7FFF, ctrl := 0x7FFF }
  | 0x904 => ep { fields := 0xF03FF, ctrl := 0xF03FF }
  | 0x908 => ep { fields := 0xFFFF, ctrl := 0xFFFF }
  | 0x910 => some { fields := allW }
  | 0x914 => some { fields := allW }
  | 0x950 => some { fields := allW, ctrl := allW }
  | 0x954 => some { fields := 0x3 }
  | 0x960 => ep { fields := allW }
  | 0x964 => ep { fields := 0xFF }
  | 0x968 => ep { fields := allW }
  | 0x96C => ep { fields := allW }
  | o => if 0x918 ≤ o ∧ o < 0x948 then some { fields := allW, ctrl := allW } else none

/-- The words of the table window. What R99 calls the rest of a page is taken as reserved offsets (log 100). -/
def Agent.specWin (a : Agent) (o : Nat) : Option WordSpec :=
  let k := o % 32 / 4
  let ent : WordSpec :=
    if k < 4 then { fields := a.candMask k, ctrl := a.candMask k }
    else if k = 4 then { fields := 0x1FF, ctrl := 0x1FF } else { fields := 0 }
  match a.tbl.obj.toNat with
  | 0 => some ent
  | 1 => some ent
  | 2 => if o < 2048 then some ent else none
  | 3 => some { fields := allW, ctrl := allW }
  | 4 => if o / 128 < a.build.ports then some { fields := 0xCFF0CFF0, ctrl := 0xCFF0CFF0 } else none
  | 5 => if o < 128 then some { fields := 0xCFF0CFF0, ctrl := 0xCFF0CFF0 } else none
  | _ => none

def specHand (o : Nat) : Option WordSpec :=
  match o with
  | 0 => some { fields := 0x01FF0003, ctrl := 0x01FF0000 }
  | _ => if o < 0x50 then some { fields := allW, ctrl := allW }
         else if o = 0x50 then some { fields := allW } else some { fields := 0 }

def Agent.specPart (a : Agent) (o : Nat) : Option WordSpec :=
  match o with
  | 0x00 => some { fields := 7, host := if a.id.lock then 0 else 1 }
  | 0x04 => some { fields := 0x73, ctrl := 0x70 }
  | 0x08 => some { fields := 1, host := 1 }
  | 0x0C => some { fields := allW }
  | 0x10 => some { fields := 0x3FFF, ctrl := 0x3FFF }
  | 0x14 => some { fields := 0x3FF, ctrl := 0x3FF }
  | 0x18 => some { fields := 3, host := 3 }
  | _ => none

/-- The bits a party may write in the command mailbox's words (R124); CLAIM_EXPIRED and ABORTED either party clears (log 100). -/
def Agent.mbxMask (a : Agent) (ctrl : Bool) (off : Nat) : W32 :=
  let mine := decide (a.mbx.claim = partyNo ctrl)
  let theirs := decide (a.mbx.claim ≠ 0) && !mine
  if off = 0xC100 then (if mine then 3 else 0)
  else if off = 0xC104 then 9 ||| bitW mine 1 ||| bitW (theirs && a.mbx.ring) 2
  else if a.dataTurn ctrl then allW else 0

def Agent.specMbx (a : Agent) (off : Nat) : Option WordSpec :=
  if off < 0xC020 then some { fields := allW, ctrl := allW }
  else if off = 0xC020 then some { fields := 3, host := 3 }
  else if 0xC040 ≤ off ∧ off < 0xC060 then some { fields := allW, host := allW }
  else if off = 0xC060 then some { fields := 3, host := 3 }
  else if off = 0xC0F0 then some { fields := 1, host := 1 }
  else if off = 0xC100 then some { fields := 3, ctrl := a.mbxMask true off, host := a.mbxMask false off }
  else if off = 0xC104 then some { fields := 0xF, ctrl := a.mbxMask true off, host := a.mbxMask false off }
  else if 0xC120 ≤ off ∧ off < 0xC148 then some { fields := allW, ctrl := a.mbxMask true off, host := a.mbxMask false off }
  else none

/-- What a word of the register space holds and who may write it. -/
def Agent.wordSpec (a : Agent) (off : Nat) : Option WordSpec :=
  match regBlock off with
  | 0 => a.specId off
  | 1 =>
    if (off - 0x100) / 16 < a.build.ports then
      match off % 16 with
      | 0 => some { fields := 0xFFFFFFBF, ctrl := 0xAC }
      | 4 => some { fields := 0xFFFF }
      | 8 => some { fields := 0x3F3F }
      | _ => some { fields := 7, ctrl := 3 }
    else none
  | 2 => a.specControl off
  | 3 => a.specWin (off - 0x1000)
  | 4 =>
    if off = 0x5000 then some { fields := 0x10F, ctrl := 0x10F }
    else if off = 0x5004 then some { fields := 3 }
    else if 0x5040 ≤ off ∧ off < 0x5080 then some { fields := allW } else none
  | 6 => specHand (off % 0x80)
  | 7 =>
    if off = 0x8200 then some { fields := 7, ctrl := 7 }
    else if 0x8240 ≤ off ∧ off < 0x8280 then some { fields := allW } else none
  | 9 =>
    let k := off % 32 / 4
    if k = 0 then some { fields := 0x800103FF, ctrl := 0x800103FF }
    else if k < 5 then some { fields := a.candMask (k - 1), ctrl := a.candMask (k - 1) }
    else some { fields := 0 }
  | 10 => if a.build.endpoint then a.specPart (off % 0x40) else none
  | 12 => a.specMbx off
  | 13 => a.specMbx off
  | 15 => if off < 0xE0A0 then some { fields := allW } else none
  | 16 => if (off - 0xE100) / 16 < a.build.ports then some { fields := allW } else none
  | 17 => some { fields := allW }
  | _ => none

/-! ## Reading -/

/-- The 64-bit counter whose low word stands at an offset (R92, R119). -/
def Agent.counterAt (a : Agent) (off : Nat) : Option W64 :=
  if 0xE000 ≤ off ∧ off < 0xE0A0 ∧ off % 8 = 0 then some (SMap.get word64Dflt a.cu.cnt ((off - 0xE000) / 8))
  else if 0xE100 ≤ off ∧ off < 0xE900 ∧ off % 16 = 8 then some (a.port ((off - 0xE100) / 16)).fecTotal
  else none

def Agent.readId (a : Agent) (off : Nat) : W32 :=
  let i := a.id
  match off with
  | 0x00 => fldW i.id 0 ||| bitW i.lock 16
  | 0x04 => fldW (if a.build.endpoint then i.profile else 0xFF) 0 ||| (BitVec.ofNat 8 a.build.ports).setWidth 32 <<< 8 |||
      (if a.build.endpoint then 0x10000 else 0x20000)
  | 0x08 => fldW a.build.device 0 ||| fldW a.build.vendor 16
  | 0x0C => a.uc.version
  | 0x10 => bitW i.tblValid 0 ||| bitW i.handOk 1 ||| bitW i.quar 2 ||| bitW i.pwron 3 ||| bitW a.slowClk 4
  | 0x14 => i.fepoch
  | 0x18 => fldW i.depoch 0 ||| fldW i.cepoch 16
  | 0x1C => fldW i.tgen 0
  | 0x20 => fldW i.telemDest 0
  | 0x24 => fldW i.ctrlId 0
  | 0x28 => fldW i.slice 0 ||| bitW i.bound 31
  | 0x2C => fldW i.sepoch 0
  | 0x30 => fldW a.build.convoyT 0
  | 0x34 => fldW i.clkMhz 0
  | 0x38 => i.ignored
  | 0x3C => fldW i.syncPort 0 ||| bitW i.syncEn 31
  | 0x40 => i.frame
  | _ => 0

def Agent.readPort (a : Agent) (p k : Nat) : W32 :=
  let q := a.port p
  match k with
  | 0 => bitW q.trained 0 ||| bitW q.up 1 ||| bitW q.cut 2 ||| bitW q.tfence 3 ||| bitW q.retrain 4 |||
      bitW q.peerq 5 ||| bitW q.arm 7 ||| fldW q.peerPort 8 ||| fldW q.peerId 16
  | 1 => fldW q.flight 0
  | 2 => fldW q.margin0 0 ||| fldW q.margin1 8
  | _ => fldW q.lclass 0 ||| bitW q.reachExc 2

/-- Chunks of the staged image (R127). -/
def Ucode.chunkCount (u : Ucode) : Nat := (u.len.toNat + 47) / 48
/-- Chunks not yet received (R127). -/
def Ucode.missing (u : Ucode) : Nat :=
  ((List.range u.chunkCount).filter (fun c => SMap.get (fun _ => (0 : BitVec 2)) u.got c ≠ 3)).length
/-- UC_READY (R98); like UC_MISSING it reads 0 while the loader is closed (log 100). -/
def Ucode.ready (u : Ucode) : Bool := u.rx && decide (u.missing = 0)

def Agent.readControl (a : Agent) (off : Nat) : W32 :=
  match off with
  | 0x900 => fldW a.inj.window 0
  | 0x904 => fldW a.inj.retxUs 0 ||| fldW a.inj.retryMax 16
  | 0x908 => fldW a.inj.drainNote 0
  | 0x910 => bitW a.uc.rx 0 ||| bitW a.uc.ready 1 ||| (if a.uc.rx then BitVec.ofNat 32 (a.uc.missing * 65536) else 0)
  | 0x914 => a.uc.len
  | 0x950 => a.sw.slotF
  | 0x954 => bitW a.sw.slotPend 0 ||| bitW a.sw.slotBank 1
  | 0x960 => a.acc.stamp
  | 0x964 => BitVec.ofNat 32 a.acc.ents.length
  | 0x968 => a.acc.full
  | 0x96C => a.acc.late
  | o => if 0x918 ≤ o ∧ o < 0x948 then bitsAt a.uc.digest (8 * (o - 0x918)) 32 else 0

def Agent.readHand (h : HandSlot) (o : Nat) : W32 :=
  if o = 0 then fldW h.state 0 ||| fldW h.count 16
  else if o = 4 then h.cardId else if o = 8 then h.fepoch else if o = 12 then h.crc
  else if o < 0x50 then bitsAt h.trig (8 * (o - 0x10)) 32
  else if o = 0x50 then h.playFrame else 0

def Part.word (q : Part) (k : Nat) : W32 :=
  match k with
  | 0 => bitW q.en 0 ||| bitW q.fenceReq 1 ||| bitW q.rstReq 2
  | 4 => bitW q.fenceAck 0 ||| bitW q.rstDone 1 ||| fldW q.state 4
  | 0xC => q.progress
  | 0x10 => fldW q.wdMs 0
  | 0x14 => fldW q.rstLim 0
  | 0x18 => fldW q.kat 0
  | _ => 0

def Agent.readMbx (a : Agent) (off : Nat) : W32 :=
  let m := a.mbx
  if off < 0xC020 then bitsAt m.down (8 * (off - 0xC000)) 32
  else if off = 0xC020 then bitW m.downFull 0 ||| bitW m.downColl 1
  else if 0xC040 ≤ off ∧ off < 0xC060 then bitsAt m.up (8 * (off - 0xC040)) 32
  else if off = 0xC060 then bitW m.upSend 0 ||| bitW m.upColl 1
  else if off = 0xC100 then fldW m.claim 0
  else if off = 0xC104 then bitW m.expired 0 ||| bitW m.ring 1 ||| bitW m.done 2 ||| bitW m.aborted 3
  else if 0xC120 ≤ off ∧ off < 0xC148 then bitsAt m.data (8 * (off - 0xC120)) 32 else 0

/-- A word as it stands, without the side effects of a read; a reserved offset reads 0 (R92). -/
def Agent.peek (a : Agent) (off : Nat) : W32 :=
  if (a.wordSpec off).isNone then 0
  else
    match regBlock off with
    | 0 => a.readId off
    | 1 => a.readPort ((off - 0x100) / 16) (off % 16 / 4)
    | 2 => a.readControl off
    | 3 => a.winRead (off - 0x1000)
    | 4 =>
      if off = 0x5000 then fldW a.tbl.obj 0 ||| bitW a.tbl.bank 8
      else if off = 0x5004 then bitW a.tbl.act 0 ||| bitW a.tbl.mgmtSel 1
      else bitsAt a.tbl.bankSel (8 * (off - 0x5040)) 32
    | 6 => Agent.readHand (a.slot ((off - 0x8000) / 0x80)) (off % 0x80)
    | 7 =>
      if off = 0x8200 then fldW a.handPage 0
      else bitsAt (a.playLog.getD ((off - 0x8240) / 8) 0) (8 * (off % 8)) 32
    | 9 => bitsAt (SMap.get (fun _ => (0 : BitVec 256)) (a.slot a.handWinSlot).entries (a.handWinEntry (off - 0x9000)))
        (8 * (off % 32)) 32
    | 10 => (a.part ((off - 0xA000) / 0x40)).word (off % 0x40)
    | 12 => a.readMbx off
    | 13 => a.readMbx off
    | 15 => bitsAt ((a.counterAt (off / 8 * 8)).getD 0) (8 * (off % 8)) 32
    | 16 =>
      if off % 16 < 8 then bitsAt (a.port ((off - 0xE100) / 16)).record (8 * (off % 8)) 32
      else bitsAt (a.port ((off - 0xE100) / 16)).fecTotal (8 * (off % 8)) 32
    | 17 => bitsAt (SMap.get (fun _ => (0 : Payload)) a.cu.log ((off - 0xE900) / 48)) (8 * ((off - 0xE900) % 48)) 32
    | _ => 0

/-- Loads a path's high-word latch (R92). -/
def Agent.setLatch (a : Agent) (ctrl : Bool) (off : Nat) (v : W32) : Agent :=
  if ctrl then { a with cu := { a.cu with ctrlLatch := some (off, v) } }
  else { a with cu := { a.cu with hostLatch := some (off, v) } }

def Agent.latch (a : Agent) (ctrl : Bool) : Option (Nat × W32) := if ctrl then a.cu.ctrlLatch else a.cu.hostLatch

/-- A read of a word by a path, with its effects: counter latches (R92) and the mailbox claim (R124). -/
def Agent.readReg (a : Agent) (ctrl : Bool) (off : Nat) : W32 × Agent :=
  if off = 0xC100 then a.claimRead ctrl
  else
    match a.counterAt off with
    | some v => if (a.wordSpec off).isNone then (0, a) else (bitsAt v 0 32, a.setLatch ctrl off (bitsAt v 32 32))
    | none =>
      match a.counterAt (off - 4), a.latch ctrl with
      | some _, some (o, hi) => if 4 ≤ off ∧ o = off - 4 then (hi, a) else (a.peek off, a)
      | _, _ => (a.peek off, a)

/-! ## Writing -/

/-- Whether a slot's encoding is not reserved (R74); the ejection table accepts input ports only. -/
def slotEncOk (eject : Bool) (v : W16) : Bool :=
  decide (bitsAt v 14 2 ≠ 3) &&
    (decide (bitsAt v 14 2 ≠ 1) || decide ((bitsAt v 4 8).toNat < 0x80) || (!eject && decide ((bitsAt v 4 8).toNat < 0x90)))

/-- Whether the fields a write would change take no reserved encoding (R505). -/
def Agent.encOk (a : Agent) (ctrl : Bool) (off : Nat) (v : W32) : Bool :=
  match regBlock off with
  | 0 => !(off = 4 && !ctrl) || decide (bitsAt v 0 8 = 255) || decide ((bitsAt v 0 8).toNat ≤ 3)
  | 2 =>
    if off = 0x900 then decide (bitsAt v 0 15 ≠ 0)
    else if off = 0x904 then decide (2 ≤ (bitsAt v 0 10).toNat) && decide ((bitsAt v 0 10).toNat ≤ 1000)
    else true
  | 3 =>
    if a.tbl.obj = 4 then slotEncOk false (bitsAt v 0 16) && slotEncOk false (bitsAt v 16 16)
    else if a.tbl.obj = 5 then slotEncOk true (bitsAt v 0 16) && slotEncOk true (bitsAt v 16 16)
    else true
  | 4 => !(off = 0x5000) || decide ((bitsAt v 0 4).toNat ≤ 5)
  | 6 => !(off % 0x80 = 0) || decide ((bitsAt v 16 9).toNat ≤ 256)
  | 10 =>
    if off % 0x40 = 4 then decide ((bitsAt v 4 3).toNat ≤ 5)
    else if off % 0x40 = 0x10 then decide ((bitsAt v 0 14).toNat ≤ 10000)
    else if off % 0x40 = 0x14 then decide (bitsAt v 0 10 ≠ 0) && decide ((bitsAt v 0 10).toNat ≤ 1000)
    else if off % 0x40 = 0x18 then decide (bitsAt v 0 2 ≠ 3)
    else true
  | 13 => !(off = 0xC100) || decide (bitsAt v 0 2 = 0)
  | _ => true

/-- Checks of a controller's write particular to a word (R101, R102, R103, R318). -/
def Agent.ctrlCheck (a : Agent) (off : Nat) (v : W32) : Byte :=
  match regBlock off with
  | 2 => if off = 0x950 ∧ ¬ a.restOk (!a.sw.slotBank) then 0x03 else 0
  | 3 =>
    if a.tbl.obj.toNat ≤ 3 then (if a.tbl.bank = a.tbl.act then 0x02 else 0)
    else if a.tbl.bank = a.sw.slotBank then 0x02 else 0
  | 6 => if (a.slot ((off - 0x8000) / 0x80)).state = 1 then 0 else 0x06
  | 9 => if (a.slot a.handWinSlot).state = 1 then 0 else 0x06
  | 10 => if off % 0x40 = 4 ∧ ¬ (a.part ((off - 0xA000) / 0x40)).stateOk (bitsAt v 4 3) then 0x0C else 0
  | _ => 0

/-- The status a write of one word would get (R505, R116): 0 accepted. -/
def Agent.checkWrite (a : Agent) (ctrl : Bool) (off : Nat) (v : W32) : Byte :=
  match a.wordSpec off with
  | none => 0x04
  | some w =>
    let wr := if ctrl then w.ctrl else w.host
    if w.fields ≠ 0 ∧ wr = 0 then 0x07
    else if v &&& ~~~w.fields ≠ 0 then 0x04
    else if ¬ a.encOk ctrl off v then 0x04
    else if ctrl then a.ctrlCheck off v else 0

def Agent.storeId (a : Agent) (off : Nat) (n : W32) : Agent :=
  let i := a.id
  let i := match off with
    | 0x00 => { i with id := bitsAt n 0 16, lock := n.getLsbD 16 }
    | 0x04 => { i with profile := bitsAt n 0 8 }
    | 0x10 => { i with handOk := n.getLsbD 1 }
    | 0x20 => { i with telemDest := bitsAt n 0 16 }
    | 0x24 => { i with ctrlId := bitsAt n 0 16 }
    | 0x34 => { i with clkMhz := bitsAt n 0 16 }
    | 0x3C => { i with syncPort := bitsAt n 0 8, syncEn := n.getLsbD 31 }
    | _ => i
  { a with id := i }

def Agent.storeControl (a : Agent) (off : Nat) (n : W32) : Agent :=
  match off with
  | 0x900 => { a with inj := { a.inj with window := bitsAt n 0 15 } }
  | 0x904 => { a with inj := { a.inj with retxUs := bitsAt n 0 10, retryMax := bitsAt n 16 4 } }
  | 0x908 => ({ a with inj := { a.inj with drainNote := bitsAt n 0 16 } }).tryDrained
  | 0x950 => a.writeSlotF n
  | o => { a with uc := { a.uc with digest := putBits a.uc.digest (8 * (o - 0x918)) n } }

def HandSlot.store (h : HandSlot) (o : Nat) (n : W32) : HandSlot :=
  if o = 0 then { h with count := bitsAt n 16 9 }
  else if o = 4 then { h with cardId := n } else if o = 8 then { h with fepoch := n }
  else if o = 12 then { h with crc := n }
  else { h with trig := putBits h.trig (8 * (o - 0x10)) n }

def Agent.storePart (a : Agent) (p o : Nat) (n : W32) : Agent :=
  let q := a.part p
  match o with
  | 0x00 => a.setPart p { q with en := n.getLsbD 0 }
  | 0x04 => a.setPart p (q.writeState (bitsAt n 4 3))
  | 0x08 => if n.getLsbD 0 then a.setPart p { q with progress := q.progress + 1 } else a
  | 0x10 => a.setPart p { q with wdMs := bitsAt n 0 14 }
  | 0x14 => a.setPart p { q with rstLim := bitsAt n 0 10 }
  | _ => a.writeKat p (bitsAt n 0 2)

/-- The command mailbox's flag word (R124): W1C CLAIM_EXPIRED and ABORTED, W1S RING and DONE. -/
def Agent.storeFlags (a : Agent) (ctrl : Bool) (m : W32) : Agent :=
  let b := { a with mbx := { a.mbx with
    expired := a.mbx.expired && !m.getLsbD 0, aborted := a.mbx.aborted && !m.getLsbD 3 } }
  let b := if m.getLsbD 1 ∧ ¬ b.mbx.ring then b.setRing ctrl else b
  if m.getLsbD 2 ∧ ¬ b.mbx.done then b.setDone else b

def Agent.storeMbx (a : Agent) (ctrl : Bool) (off : Nat) (m n : W32) : Agent :=
  if off < 0xC020 then
    let b := { a with mbx := { a.mbx with down := putBits a.mbx.down (8 * (off - 0xC000)) n } }
    if off = 0xC01C then b.downPosted else b
  else if off = 0xC020 then
    { a with mbx := { a.mbx with downFull := a.mbx.downFull && !m.getLsbD 0, downColl := a.mbx.downColl && !m.getLsbD 1 } }
  else if off < 0xC060 then a.upWrite ((off - 0xC040) / 4) n
  else if off = 0xC060 then
    let b := { a with mbx := { a.mbx with upColl := a.mbx.upColl && !m.getLsbD 1 } }
    if m.getLsbD 0 then b.upSend else b
  else if off = 0xC0F0 then (if m.getLsbD 0 then a.fwBoot else a)
  else if off = 0xC100 then a.claimRelease
  else if off = 0xC104 then a.storeFlags ctrl m
  else { a with mbx := { a.mbx with data := putBits a.mbx.data (8 * (off - 0xC120)) n } }

/-- Stores an accepted word: `m` is the written bits the party may write, `n` the word with them in place. -/
def Agent.storeWord (a : Agent) (ctrl : Bool) (off : Nat) (v : W32) : Agent :=
  match a.wordSpec off with
  | none => a
  | some w =>
    let wr := if ctrl then w.ctrl else w.host
    let m := v &&& wr
    let n := (a.peek off &&& ~~~wr) ||| m
    match regBlock off with
    | 0 =>
      if off = 0 then
        a.storeId 0 (n ||| bitW a.id.lock 16)
      else a.storeId off n
    | 1 => a.modPort ((off - 0x100) / 16) (fun q =>
        if off % 16 = 0 then
          { q with cut := n.getLsbD 2, tfence := q.tfence && !m.getLsbD 3, peerq := n.getLsbD 5, arm := n.getLsbD 7 }
        else { q with lclass := bitsAt n 0 2 })
    | 2 => a.storeControl off n
    | 3 => a.winWrite (off - 0x1000) n
    | 4 => { a with tbl := { a.tbl with obj := bitsAt n 0 4, bank := n.getLsbD 8 } }
    | 6 =>
      let k := (off - 0x8000) / 0x80
      if off % 0x80 < 0x50 then a.setSlot k ((a.slot k).store (off % 0x80) n) else a
    | 7 => { a with handPage := bitsAt n 0 3 }
    | 9 =>
      let h := a.slot a.handWinSlot
      let es := SMap.modify (fun _ => (0 : BitVec 256)) h.entries (a.handWinEntry (off - 0x9000))
        (fun e => putBits e (8 * (off % 32)) n)
      a.setSlot a.handWinSlot { h with entries := es }
    | 10 => a.storePart ((off - 0xA000) / 0x40) (off % 0x40) n
    | 12 => a.storeMbx ctrl off m n
    | 13 => a.storeMbx ctrl off m n
    | _ => a

/-- A local write (R505): field by field, or refused whole with AG_IGNORED_CNT incremented. -/
def Agent.localWrite (a : Agent) (off : Nat) (v : W32) : Agent :=
  if off % 4 = 0 ∧ a.checkWrite false off v = 0 then a.storeWord false off v else a.ignore

end Sys2Proof.Machine
end

