-- ==== Sys2Proof/Machine/AgentFlow.lean ====
section
/-! DEFINITION. Moving flits through an agent: output allocation, admission, ejection, the management sink, frames,
convoys and telemetry (02 of the spec; R386, R387). -/

namespace Sys2Proof.Machine

/-! ## Output allocation (R58–R65, R75–R78) -/

/-- The inputs that hold a staged flit, in ascending port number. -/
def Agent.stagedList (a : Agent) : List (Nat × Flit) :=
  a.sw.staged.filterMap (fun x => x.2.map (fun f => (x.1, f)))

/-- The ejection copy of a convoy flit (R75, R76, R127): taken by the open microcode loader, or ejected under R34. -/
def Agent.convoyEject (a : Agent) (arr : Nat) (f : Flit) : Agent :=
  if a.uc.rx ∧ (f.src = 0xFFC0 ∨ f.src = 0xFFC1) ∧ f.seq.toNat < a.uc.chunkCount then
    if a.uc.commit.isSome ∨ a.uc.testing then a
    else
      let c := f.seq.toNat
      { a with uc := { a.uc with
          chunks := SMap.set (fun _ => (0 : BitVec 384)) a.uc.chunks c f.pay
          got := SMap.set (fun _ => (0 : BitVec 2)) a.uc.got c 3 } }
  else if ¬ a.build.endpoint then a.drop 5 (some arr)
  else if ¬ a.sliceOk f then a.drop 3 (some arr)
  else if a.ejectRoom f then a.eject f
  else a.drop 9 (some arr)

/-- The outputs whose current slot names a source. -/
def Agent.convoyPorts (a : Agent) (src : Nat) : List Nat := a.portList.filter (fun p => a.slotNames p src)

/-- One copy of a convoy flit (R75, R78): age and vc stay; a copy displaced by a trump is counted, and so is one whose
output is down or out of service for data (log 99). -/
def Agent.convoyCopy (f : Flit) (arr : Option Nat) (a : Agent) (p : Nat) : Agent :=
  if a.sw.trumpHeld.contains p ∨ a.isDown p ∨ a.noData p ∨ a.sw.taken.contains p then a.drop 9 arr
  else a.put p { f with hops := f.hops + 1 }

/-- A staged convoy flit (R75, R76). -/
def Agent.convoyIn (a : Agent) (x : Nat × Flit) : Agent :=
  let ps := a.convoyPorts x.1
  let ej := a.slotNames ejectPort x.1
  if a.id.syncLost ∨ (ps.isEmpty ∧ ¬ ej) then a.drop 9 (some x.1)
  else
    let b := if x.2.spent then (if ps.isEmpty then a else a.drop 6 (some x.1))
             else ps.foldl (Agent.convoyCopy x.2 (some x.1)) a
    if ej then b.convoyEject x.1 x.2 else b

def queueDflt (_ : Nat) : List Flit := []

/-- The head of a convoy queue as the agent fills it for its first send (R33, R55, R60): STAT is 0 (R53), and age is 1,
since the originator's send counts as every other does. -/
def Agent.convoyFlit (a : Agent) (f : Flit) (sq : W16) : Flit :=
  ({ f with src := a.id.id, slice := a.id.slice, sep := a.id.sepoch.setWidth 8, seq := sq, age := 1,
            hops := 0, vc := false, path := false, pret := false, retx := false, stat := 0, defl := false,
            rsv := 0 } : Flit).seal

/-- Takes the head of a convoy queue; the offer that waits behind a full queue moves up (R76). -/
def Agent.popConvoy (a : Agent) (q : Nat) (rest : List Flit) : Agent :=
  { a with inj := { a.inj with convoyQ := SMap.set queueDflt a.inj.convoyQ q rest } }

/-- An injection queue whose number a current slot names sends its head (R75, R76, R78), one originated flit per flit
time (R62). An agent that has no slice, or is quarantined, discards the flit (R33, R43). -/
def Agent.convoyQueue (a : Agent) (q : Nat) : Agent :=
  let n := SMap.get (fun _ => 0) a.inj.convoyCnt q
  let ps := a.convoyPorts (0x80 + q)
  match SMap.get queueDflt a.inj.convoyQ q with
  | f :: rest =>
    if ps.isEmpty ∨ a.id.syncLost ∨ 9 ≤ n ∨ a.sw.admitted then a
    else if ¬ a.id.bound then (a.popConvoy q rest).count 3
    else if a.id.quar then (a.popConvoy q rest).count 4
    else
      let sq := SMap.get (fun _ => (0 : W16)) a.inj.convSeq q
      let b := a.popConvoy q rest
      let b := { b with
        inj := { b.inj with
          convSeq := SMap.set (fun _ => (0 : W16)) b.inj.convSeq q (sq + 1)
          convoyCnt := SMap.set (fun _ => 0) b.inj.convoyCnt q (n + 1) }
        sw := { b.sw with admitted := true } }
      ps.foldl (Agent.convoyCopy (a.convoyFlit f sq) none) b
  | [] => a

/-- R63: a path-routed flit in transit: sent on its next listed port with its latch entry, or dropped. -/
def Agent.pathForward (a : Agent) (arr : Nat) (f : Flit) : Agent :=
  let h := f.hops.toNat
  let e := f.pathPort h
  if f.pathLen ≤ 16 ∧ h < f.pathLen ∧ a.usable f e ∧ ¬ a.sw.taken.contains e then
    let b := { a with sw := { a.sw with
      latch := keepLast 32 (a.sw.latch ++ [({ src := f.src, seq := f.seq, port := arr } : Latch)]) } }
    b.send e f false (some arr)
  else a.drop 8 (some arr)

/-- R64: a PRET flit in transit: sent on the latched port, freeing the entry, or dropped. -/
def Agent.pathReturn (a : Agent) (arr : Nat) (f : Flit) : Agent :=
  match a.sw.latch.find? (fun l => l.src = f.dest && l.seq = f.seq) with
  | none => a.drop 8 (some arr)
  | some l =>
    let b := { a with sw := { a.sw with latch := a.sw.latch.erase l } }
    if a.usable f l.port ∧ ¬ a.sw.taken.contains l.port then b.send l.port f false (some arr) else b.drop 8 (some arr)

/-- R57, R34, R61, R65: a table-routed flit in transit. -/
def Agent.tableForward (a : Agent) (arr : Nat) (f : Flit) : Agent :=
  if f.dest = a.id.id then a.deflect f arr
  else
    let bank := a.bankFor f
    let e := a.entryFor bank f.dest
    if ¬ a.maskOk bank e f then a.drop 3 (some arr)
    else if e.cand = 0 then a.drop 5 (some arr)
    else
      match firstFrom ((a.productive e f).filter (fun p => !a.sw.taken.contains p)) a.sw.spread with
      | none => a.deflect f arr
      | some p =>
        let b := a.send p { f with vc := f.vc || e.dl } false (some arr)
        { b with sw := { b.sw with spread := (p + 1) % max 1 a.build.ports } }

/-- The free outputs a flit could take productively, for the ties of R59. -/
def Agent.wants (a : Agent) (f : Flit) : List Nat :=
  let l :=
    if f.path then [f.pathPort f.hops.toNat]
    else if f.pret then (a.sw.latch.find? (fun l => l.src = f.dest && l.seq = f.seq)).toList.map (·.port)
    else if f.dest = a.id.id then []
    else a.productive (a.entryFor (a.bankFor f) f.dest) f
  l.filter (fun p => a.usable f p && !a.sw.taken.contains p)

/-- A flit's rank key within rank 3 or 4 (R59): higher first. -/
def rankKey (f : Flit) : Nat :=
  (if f.path || f.pret then 1000 else 0) + 2 * f.age.toNat + (if f.vc && !(f.path || f.pret) then 1 else 0)

/-- R59: the flit served next, and the output whose round-robin pointer decided a tie: of several outputs that tied
flits share, the lowest-numbered one's (log 99). -/
def Agent.pick (a : Agent) (l : List (Nat × Flit)) : Option ((Nat × Flit) × Option Nat) :=
  let top := l.foldl (fun m x => max m (rankKey x.2)) 0
  let g := l.filter (fun x => rankKey x.2 = top)
  let shared := a.portList.find? (fun o => decide (2 ≤ (g.filter (fun x => (a.wants x.2).contains o)).length))
  match shared with
  | some o =>
    let c := g.filter (fun x => (a.wants x.2).contains o)
    let r := SMap.get (fun _ => 0) a.sw.rr o
    match c.find? (fun x => decide (r ≤ x.1)), c.head? with
    | some x, _ => some (x, some o)
    | none, some x => some (x, some o)
    | none, none => none
  | none => g.head?.map (fun x => (x, none))

/-- Serves one flit of rank 3 or 4. -/
def Agent.serve (a : Agent) (x : Nat × Flit) : Agent :=
  if x.2.path then a.pathForward x.1 x.2 else if x.2.pret then a.pathReturn x.1 x.2 else a.tableForward x.1 x.2

/-- Serves the staged flits of ranks 3 and 4 in rank order. -/
def Agent.serveAll : Nat → List (Nat × Flit) → Agent → Agent
  | 0, _, a => a
  | n + 1, l, a =>
    match a.pick l with
    | none => a
    | some (x, o) =>
      let a := match o with
        | some o => { a with sw := { a.sw with rr := SMap.set (fun _ => 0) a.sw.rr o (x.1 + 1) } }
        | none => a
      Agent.serveAll n (l.filter (fun y => y.1 ≠ x.1)) (a.serve x)

/-- Opens a flit time: the outputs a trump still holds; in the first flit time of a slot the counts of convoy flits
start again (R75). -/
def Agent.openFlitTime (a : Agent) : Agent :=
  { a with
    sw := { a.sw with taken := a.sw.trumpHeld, ejectCnt := 0, sinkCnt := 0, admitted := false }
    inj := { a.inj with
      convoyCnt := if a.sw.ft ≠ 0 ∧ slotOfFt (a.sw.ft - 1) = a.slotNow then a.inj.convoyCnt else [] } }

/-- Whether a staged flit finds its agent quarantined (R43). -/
def Agent.quarDrops (a : Agent) (f : Flit) : Bool := a.id.quar && isDataClass f.cls

/-- OUTPUT_ALLOCATION (R59): every staged flit leaves on an output, is ejected or is dropped. -/
def Agent.allocate (a : Agent) : Agent :=
  let staged := a.stagedList
  let a := { a.openFlitTime with sw := { a.openFlitTime.sw with staged := [] } }
  let a := (staged.filter (fun x => a.quarDrops x.2)).foldl (fun b x => b.drop 4 (some x.1)) a
  let l := staged.filter (fun x => !a.quarDrops x.2)
  let a := (l.filter (fun x => x.2.cls = 2)).foldl Agent.convoyIn a
  let a := (List.range 16).foldl Agent.convoyQueue a
  let rest := l.filter (fun x => x.2.cls ≠ 2)
  let a := Agent.serveAll rest.length rest a
  { a with sw := { a.sw with ft := a.sw.ft + 1, trumpHeld := [] } }

/-! ## Injection (R33, R55, R62, R68–R70, R85, R509) -/

/-- HOST_OFFER (R55, R33, R43). A class-2 flit reaches the fabric through a convoy queue only, so that this offer of
one changes nothing (log 99). -/
def Agent.offer (a : Agent) (f : Flit) : Agent :=
  if ¬ a.build.endpoint ∨ isMgmtClass f.cls ∨ 10 ≤ f.cls.toNat then a.count 2
  else if f.cls = 2 then a
  else if ¬ a.id.bound then a.count 3
  else if a.id.quar then a.count 4
  else { a with inj := { a.inj with offers := a.inj.offers ++ [f] } }

/-- A host offer as the agent fills it for injection (R55, R33, R379): the sequence number is set apart. -/
def Agent.stamp (a : Agent) (f : Flit) : Flit :=
  { f with vc := false, dest := if f.cls = 8 then a.id.ctrlId else f.dest, src := a.id.id, slice := a.id.slice,
           sep := a.id.sepoch.setWidth 8, age := 0, hops := 0, path := false, pret := false, retx := false,
           defl := false, rsv := 0, stat := if f.cls = 1 ∨ f.cls = 3 then f.stat else 0 }

def isRequest (f : Flit) : Bool := f.cls = 0 || f.cls = 8

/-- The free productive output an originated flit would take now (R62, R59). -/
def Agent.freeOut (a : Agent) (f : Flit) : Option Nat :=
  firstFrom ((a.productive (a.entryFor (a.bankFor f) f.dest) f).filter (fun p => !a.sw.taken.contains p)) a.sw.spread

/-- Sends an originated flit on an output (R60, R62, R65). -/
def Agent.launch (a : Agent) (p : Nat) (f : Flit) : Agent :=
  let e := a.entryFor (a.bankFor f) f.dest
  let b := a.send p ({ f with vc := e.dl } : Flit).seal false none
  { b with sw := { b.sw with admitted := true, spread := (p + 1) % max 1 a.build.ports } }

/-- What admission does with a flit now: wait, discard under a counter, or send. -/
inductive Admit where
  | wait
  | discard (i : Nat)
  | go (p : Nat)
  deriving DecidableEq, Repr

/-- Lookup before admission (R509, R62). -/
def Agent.admitFate (a : Agent) (f : Flit) : Admit :=
  let bank := a.bankFor f
  let e := a.entryFor bank f.dest
  if ¬ a.maskOk bank e f then .discard 3
  else if e.cand = 0 then .discard 5
  else match a.freeOut f with
    | some p => .go p
    | none => .wait

/-- Outstanding requests to a destination (R68). -/
def Agent.outstTo (a : Agent) (d : W16) : Nat := (a.inj.outst.filter (fun o => o.dest = d)).length

/-- The next seq to a destination (R68). -/
def Agent.seqTo (a : Agent) (d : W16) : W16 := SMap.get (fun _ => (0 : W16)) a.inj.nextSeq d.toNat

/-- Whether a request is outstanding, and with how many resends. -/
def Agent.outst? (a : Agent) (d q : W16) : Option Outst := a.inj.outst.find? (fun o => o.dest = d && o.seq = q)

/-- Whether a host offer is held: a gated slice's request, a full window, a next seq that is still outstanding, a full
retransmit store (R68, R70, R85). -/
def Agent.held (a : Agent) (f : Flit) : Bool :=
  isRequest f && (a.inj.gated.getLsbD f.slice.toNat || decide (a.inj.window.toNat ≤ a.outstTo f.dest) ||
    (a.outst? f.dest (a.seqTo f.dest)).isSome || decide (retxSize ≤ a.inj.outst.length))

/-- Refuses a host offer at its lookup (R509): counted, and a request is reported to the host chip. -/
def Agent.refuseOffer (a : Agent) (i : Nat) (f : Flit) : Agent :=
  let b := a.count i
  if isRequest f then b.hostEvent { kind := 1, dest := f.dest, seq := 0 } else b

/-- Admits a host offer on an output (R62, R68, R69). -/
def Agent.admitOffer (a : Agent) (p : Nat) (f : Flit) : Agent :=
  if isRequest f then
    let sq := a.seqTo f.dest
    let g := { f with seq := sq }
    let b := { a with inj := { a.inj with
      nextSeq := SMap.set (fun _ => (0 : W16)) a.inj.nextSeq f.dest.toNat (sq + 1)
      outst := a.inj.outst ++ [({ dest := f.dest, seq := sq, flit := g, sends := 0, queued := false } : Outst)]
      issued := a.inj.issued + 1 } }
    b.launch p g
  else a.launch p f

/-- Scans the host offers in order and acts on the first that can be discarded or admitted (R509): an offer that
waits holds back later offers of its kind to its destination. -/
def Agent.scanOffers (a : Agent) : List Flit → List Flit → List (Bool × W16) → Agent
  | [], _, _ => a
  | o :: rest, before, blocked =>
    let f := a.stamp o
    let key := (isRequest f, f.dest)
    if blocked.contains key ∨ a.held f then a.scanOffers rest (before ++ [o]) (key :: blocked)
    else
      let b := { a with inj := { a.inj with offers := before ++ rest } }
      if ¬ a.id.bound then b.refuseOffer 3 f
      else if a.id.quar then b.refuseOffer 4 f
      else
        match a.admitFate f with
        | .wait => a.scanOffers rest (before ++ [o]) (key :: blocked)
        | .discard i => b.refuseOffer i f
        | .go p => b.admitOffer p f

/-- Changes the retransmit store's entry for (dest, seq). -/
def Agent.modOutst (a : Agent) (d q : W16) (f : Outst → Outst) : Agent :=
  { a with inj := { a.inj with outst := a.inj.outst.map (fun (x : Outst) => if x.dest = d ∧ x.seq = q then f x else x) } }

/-- Resends the first queued retransmission that can go (R70), before any new offer (log 99); a quarantined agent drops
and counts it (R43). Else scans the offers. -/
def Agent.scanResends (a : Agent) : List Outst → Agent
  | [] => a.scanOffers a.inj.offers [] []
  | o :: rest =>
    if ¬ o.queued then a.scanResends rest
    else
      let f : Flit := { o.flit with retx := true, age := 16 }
      let done := a.modOutst o.dest o.seq (fun x => { x with queued := false })
      if a.id.quar then done.count 4
      else match a.admitFate f with
      | .wait => a.scanResends rest
      | .discard i => done.count i
      | .go p => done.launch p f

/-- Clears UP_SEND once its MBX_UP notice has left (R123); a congestion-record notice carries seq 0xFFFF (R118). -/
def Agent.noticeLeft (a : Agent) (f : Flit) : Agent :=
  if f.cls = 6 ∧ f.seq ≠ 0xFFFF ∧ byteField f.pay 0 8 = (8 : Byte) then { a with mbx := { a.mbx with upSend := false } } else a

/-- Scans the agent's own flits (R509, R64): a path reply goes out on its port or is dropped, counted for no port since
it arrived on none (log 99); a table-routed flit goes when an output is free. -/
def Agent.scanOwn (a : Agent) : List OwnFlit → List OwnFlit → Agent
  | [], _ => a.scanResends a.inj.outst
  | o :: rest, before =>
    let b := { a with inj := { a.inj with own := before ++ rest } }
    match o.port with
    | some p =>
      if a.usable o.flit p ∧ ¬ a.sw.taken.contains p then
        let c := b.send p o.flit.seal false none
        { c with sw := { c.sw with admitted := true } }
      else b.drop 8 none
    | none =>
      match a.admitFate o.flit with
      | .wait => a.scanOwn rest (before ++ [o])
      | .discard i => (b.count i).noticeLeft o.flit
      | .go p => (b.launch p o.flit).noticeLeft o.flit

/-- FLIT_ADMIT (R62, R509): at most one originated flit per flit time. -/
def Agent.admitFlits (a : Agent) : Agent := if a.sw.admitted then a else a.scanOwn a.inj.own []

/-- EJECT_REMOVE (R67). -/
def Agent.ejectRemove (a : Agent) (b : Bool) : Agent :=
  match (if b then a.sw.eb1 else a.sw.eb0) with
  | [] => a
  | f :: rest =>
    if b then { a with sw := { a.sw with eb1 := rest }, tx := a.tx ++ [.host f] }
    else { a with sw := { a.sw with eb0 := rest }, tx := a.tx ++ [.host f] }

/-- EJECT_STALL (R67): the buffer has stayed full for 2 µs. -/
def Agent.ejectStall (a : Agent) (b : Bool) : Agent :=
  if ejectSize ≤ (if b then a.sw.eb1 else a.sw.eb0).length then
    (a.count 11).notice (noticePay 0x05 (if b then 1 else 0) 0 0 0)
  else a

/-- PATH_LATCH_EXPIRE (R64): the entry recorded for (src, seq) is freed. -/
def Agent.latchExpire (a : Agent) (src seq : W16) : Agent :=
  match a.sw.latch.find? (fun l => l.src = src && l.seq = seq) with
  | some l => { a with sw := { a.sw with latch := a.sw.latch.erase l } }
  | none => a

/-- RETX_TIMEOUT (R70): the request is queued to be sent again. -/
def Agent.retxTimeout (a : Agent) (d q : W16) : Agent :=
  match a.outst? d q with
  | some o =>
    if ¬ o.queued ∧ o.sends < a.inj.retryMax.toNat then
      a.modOutst d q (fun x => { x with queued := true, sends := x.sends + 1 })
    else a
  | none => a

/-- Abandons one request (R69, R70, R333): counted, its seq freed, the host chip told. -/
def Agent.abandon (a : Agent) (o : Outst) : Agent :=
  let b := (a.count 18).hostEvent { kind := 0, dest := o.dest, seq := o.seq }
  { b with inj := { b.inj with
      outst := b.inj.outst.filter (fun x => !(x.dest = o.dest && x.seq = o.seq))
      completed := b.inj.completed + 1 } }

/-- REQUEST_ABANDON (R70). -/
def Agent.requestAbandon (a : Agent) (d q : W16) : Agent :=
  match a.outst? d q with
  | some o =>
    if ¬ o.queued ∧ a.inj.retryMax.toNat ≤ o.sends then
      (a.abandon o).notice (putField (putField (putField (0 : Payload) 0 (6 : Byte)) 2 d) 4 q)
    else a
  | none => a

/-- CONVOY_OFFER (R76, R33): an offer to a full queue waits behind it. A convoy queue takes class-2 flits, whatever
class the host chip presents with the offer (log 99). -/
def Agent.convoyOffer (a : Agent) (q : Nat) (f : Flit) : Agent :=
  let fs := SMap.get queueDflt a.inj.convoyQ q
  if ¬ a.build.endpoint then a.count 2
  else if ¬ a.id.bound then a.count 3
  else if a.id.quar then a.count 4
  else { a with inj := { a.inj with convoyQ := SMap.set queueDflt a.inj.convoyQ q (fs ++ [{ f with cls := 2 }]) } }

/-! ## Frames (R72–R79) -/

/-- FRAME_START at an agent (R72). -/
def Agent.frameStart (a : Agent) : Agent :=
  { a with id := { a.id with frame := a.id.frame + 1 }, sw := { a.sw with ft := 0 }, inj := { a.inj with convoyCnt := [] } }

/-- SYNC_EXCHANGE at an agent (R72): aligned to its sync parent. -/
def Agent.sync (a : Agent) (frame : W32) : Agent :=
  if a.id.syncEn ∧ (a.port a.id.syncPort.toNat).up then
    { a with id := { a.id with frame := frame, syncLost := false } }
  else a

/-- SYNC_LOST (R72, R118). -/
def Agent.syncLose (a : Agent) : Agent :=
  let b := { a with id := { a.id with syncLost := true, tSync := true } }
  b.notice (putField (putField (0 : Payload) 0 (0x0B : Byte)) 4 a.id.frame)

/-- SLOT_EXCHANGE (R79). -/
def Agent.slotExchange (a : Agent) : Agent :=
  if a.sw.slotPend ∧ frameDue a.sw.slotF a.sw.slotAt a.id.frame then
    let b := { a with sw := { a.sw with slotPend := false, slotBank := !a.sw.slotBank } }
    if newer a.sw.slotF a.sw.slotAt then b else b.count 12
  else a

/-! ## Telemetry (R81, R82, R119) -/

/-- occ (R81): the flit times of a 100 µs window in which the port sent a flit, in units of 1/255, rounded down
(log 102); a flit time is 512 × 544 / 514 bits at 400 Gb/s (R50). -/
def Port.occ (q : Port) : Byte := satNat 8 (q.tSent * 255 * 278528 / 20560000000)

/-- A port's congestion record (R81) from its accumulators and what its hardware measured. -/
def Port.congestion (q : Port) (m : PortMeas) (sync : Bool) : W64 :=
  q.tDefl ++ q.tDrops ++ satNat 12 m.fec ++ m.margin ++ q.occ ++ satNat 6 m.uncorr ++
    BitVec.ofBool (q.tDown || !q.up) ++ BitVec.ofBool (q.tRetrain || q.retrain) ++ BitVec.ofBool sync ++
    BitVec.ofBool (q.cut || q.peerq) ++ (0 : BitVec 4)

def measDflt : PortMeas := { fec := 0, margin := 0, uncorr := 0 }

/-- Ends a port's window; what holds as the next one starts has held at some time in it (R81). -/
def Port.endWindow (q : Port) (m : PortMeas) (sync : Bool) : Port :=
  { q with record := q.congestion m sync, fecTotal := satAdd q.fecTotal m.fec, tDefl := 0, tDrops := 0, tSent := 0,
           tDown := !q.up, tRetrain := q.retrain, lowWins := if m.margin.toNat < 12 then q.lowWins + 1 else 0 }

/-- The notice of ports p to p + n − 1 for window w (R82). -/
def Agent.teleFlit (a : Agent) (w : Nat) (p n : Nat) : Flit :=
  let recs := (List.range n).flatMap (fun i => toBytes 8 (a.port (p + i)).record)
  ({ cls := 6, dest := a.id.telemDest, src := a.id.id, seq := 0xFFFF, age := 32,
     pay := payOf (toBytes 4 (BitVec.ofNat 32 w) ++ [BitVec.ofNat 8 p, BitVec.ofNat 8 n, 0, 0] ++ recs) } : Flit).seal

/-- TELEMETRY_WINDOW (R82): the window just ended is the one before the current frame's. -/
def Agent.telemetry (a : Agent) (meas : List PortMeas) : Agent :=
  let w := a.id.frame.toNat / 100 - 1
  let sync := a.id.tSync || a.id.syncLost
  let b := a.portList.foldl (fun b p => b.modPort p (fun q => q.endWindow (meas.getD p measDflt) sync)) a
  let b := { b with id := { b.id with tSync := b.id.syncLost } }
  (List.range ((a.build.ports + 4) / 5)).foldl
    (fun b i => b.pushOwn (b.teleFlit w (5 * i) (min 5 (a.build.ports - 5 * i))) none) b

/-! ## Settlement answers (R387) -/

/-- REPORT flits of one stamp: up to 6 entries each. -/
def reportChunks : Nat → List AccEntry → List (List AccEntry)
  | 0, _ => []
  | n + 1, l => if l.isEmpty then [] else l.take 6 :: reportChunks n (l.drop 6)

/-- The stamps of a list of entries, ascending, without repeats. -/
def stampsOf (l : List AccEntry) : List W32 :=
  (l.foldl (fun (m : SMap Unit) e => SMap.insert m e.stamp.toNat ()) []).map (fun x => BitVec.ofNat 32 x.1)

/-- The entries that answer CALL(k): those a first CALL(k) reported, if there was one, else those not yet reported. -/
def Accum.answer (c : Accum) (k : W32) : List AccEntry :=
  let again := c.ents.any (fun e => e.reported = some k)
  c.ents.filter (fun e => (if again then decide (e.reported = some k) else decide (e.reported = none)) &&
    (decide (e.stamp = k) || older e.stamp k))

/-- The groups of an answer to CALL(k): stamp k first, then earlier unreported stamps in ascending order. -/
def Accum.groups (c : Accum) (k : W32) : List (W32 × List AccEntry) :=
  let es := c.answer k
  let cur := es.filter (fun e => e.stamp = k)
  let old := es.filter (fun e => e.stamp ≠ k)
  let g := (reportChunks 64 cur).map (fun x => (k, x)) ++
    (stampsOf old).flatMap (fun t => (reportChunks 64 (old.filter (fun e => e.stamp = t))).map (fun x => (t, x)))
  if g.isEmpty then [(k, [])] else g

/-- After the answer: entries of earlier stamps reported before are freed (R386), the answer's are marked. -/
def Accum.answered (c : Accum) (k : W32) : Accum :=
  let gone := fun (e : AccEntry) => older e.stamp k && decide (e.reported ≠ none) && decide (e.reported ≠ some k)
  let mark := fun (e : AccEntry) =>
    if e.reported = none ∧ (e.stamp = k ∨ older e.stamp k) then { e with reported := some k } else e
  { c with
    ents := (c.ents.filter (fun e => !gone e)).map mark
    incomplete := c.incomplete.filter (fun t => !older t k) }

/-- One REPORT payload (R387). -/
def reportPay (last incomplete late : Bool) (stamp : W32) (idx : Nat) (es : List AccEntry) : Payload :=
  payOf ([2, (bitW last 0 ||| bitW incomplete 1 ||| bitW late 2).setWidth 8, BitVec.ofNat 8 es.length, 0] ++
    toBytes 4 stamp ++ toBytes 2 (BitVec.ofNat 16 idx) ++ [0, 0] ++
    es.flatMap (fun e => toBytes 2 e.tally ++ toBytes 4 e.sum))

/-- One REPORT flit of an answer (R387). -/
def Agent.reportFlit (a : Agent) (f : Flit) (k : W32) (n : Nat) (g : (W32 × List AccEntry) × Nat) : Flit :=
  ({ cls := 9, dest := f.src, src := a.id.id, seq := f.seq, age := 32,
     pay := reportPay (decide (g.2 + 1 = n)) (a.acc.incomplete.contains g.1.1) (decide (g.1.1 ≠ k)) g.1.1 g.2 g.1.2 } : Flit).seal

/-- Answers CALL(k) (R386, R387). -/
def Agent.answerCall (a : Agent) (f : Flit) : Agent :=
  let k : W32 := byteField f.pay 4 32
  let gs := a.acc.groups k
  let b := gs.zipIdx.foldl (fun b g => Agent.pushOwn b (a.reportFlit f k gs.length g) none) a
  { b with acc := b.acc.answered k }

end Sys2Proof.Machine
end

