-- ==== Sys2Proof/Machine/AgentCmds.lean ====
section
/-! DEFINITION. The agent's commands (R8, R113–R117), partitions (R120–R122, R317–R319), mailboxes and microcode
(R123–R128), plays (R110) and links (R96, R315) as operations on one agent. -/

namespace Sys2Proof.Machine

/-! ## Answering (R114, R115) -/

/-- The header STAT of a response (R115). -/
def statOf (status : Byte) : BitVec 3 := if status = 0 then 0 else if status = 0x0D then 2 else 3

/-- The response payload (R115). -/
def Agent.rspPay (a : Agent) (c : Cmd) (status : Byte) (ws : List W32) : Payload :=
  payOf ([c.op, status] ++ toBytes 2 a.id.tgen ++ toBytes 4 a.id.fepoch ++ toBytes 4 c.arg ++ [0, 0, 0, 0] ++
    ws.flatMap (fun w => toBytes 4 w))

/-- Remembers an answer to a path-routed command: the last 4 per src (R114). -/
def Agent.remember (a : Agent) (f : Flit) : Agent :=
  let mine := a.cu.answered.filter (fun x => x.dest = f.dest)
  let others := a.cu.answered.filter (fun x => x.dest ≠ f.dest)
  { a with cu := { a.cu with answered := others ++ keepLast 4 (mine ++ [f]) } }

/-- Sends a response flit for a command: on its arrival port when path-routed, else table-routed (R64, R115). -/
def Agent.respond (a : Agent) (c : Cmd) (stat : BitVec 3) (pay : Payload) : Agent :=
  let f : Flit := ({ cls := 5, dest := c.src, src := a.id.id, seq := c.seq, age := 32, pret := c.path, stat := stat,
                     pay := pay } : Flit).seal
  let b := { a with cu := { a.cu with cur := none } }
  if c.path then (b.remember f).pushOwn f (some c.port) else b.pushOwn f none

/-- Answers a command with a status and data; every status other than OK increments AG_IGNORED_CNT (R116). -/
def Agent.answer (a : Agent) (c : Cmd) (status : Byte) (ws : List W32) : Agent :=
  let b := a.respond c (statOf status) (a.rspPay c status ws)
  if status = 0 then b else b.ignore

/-! ## Taking a command (R8, R114, R115) -/

/-- The i-th data word of a command block at payload offset `o`. -/
def cmdWord (p : Payload) (o i : Nat) : W32 := byteField p (o + 16 + 4 * i) 32

/-- The command a flit carries (R114). -/
def Cmd.ofFlit (f : Flit) (port : Nat) : Cmd :=
  let o := if f.path then 17 else 0
  let b1 : Byte := byteField f.pay (o + 1) 8
  let n := (bitsAt b1 0 4).toNat
  { src := f.src, seq := f.seq, path := f.path, port := port, op := byteField f.pay o 8, cnt := n,
    piece := (bitsAt b1 4 2).toNat, more := b1.getLsbD 6, cep := byteField f.pay (o + 2) 16,
    dep := byteField f.pay (o + 4) 16, gen := byteField f.pay (o + 6) 16, fep := byteField f.pay (o + 8) 32,
    arg := byteField f.pay (o + 12) 32, words := (List.range n).map (cmdWord f.pay o) }

/-- Whether byte 1 of the block breaks the format of R114: a count over the limit, bit 7, a split table-routed
command, or piece index 3. -/
def badFormat (f : Flit) : Bool :=
  let o := if f.path then 17 else 0
  let b1 : Byte := byteField f.pay (o + 1) 8
  let n := (bitsAt b1 0 4).toNat
  b1.getLsbD 7 || decide ((if f.path then 3 else 8) < n) ||
    (!f.path && (decide (bitsAt b1 4 2 ≠ 0) || b1.getLsbD 6)) || decide (bitsAt b1 4 2 = 3)

/-- Reserved opcodes (R117). -/
def reservedOp (op : Byte) : Bool := op = 0x00 || op = 0x0F || op = 0x13 || decide (0x19 ≤ op.toNat)

/-- R8: the recorded pair against a command's pair: 0 older, 1 equal, 2 newer. -/
def Agent.pairOrder (a : Agent) (c : Cmd) : Nat :=
  if newer c.cep a.id.cepoch then 2
  else if c.cep ≠ a.id.cepoch then 0
  else if newer c.dep a.id.depoch then 2
  else if c.dep ≠ a.id.depoch then 0 else 1

/-- R8, R115, R125: the accepted pair is recorded when newer, and FEPOCH follows a newer fabric epoch. -/
def Agent.acceptPair (a : Agent) (c : Cmd) : Agent :=
  let b := if a.pairOrder c = 2 then
      ({ a with id := { a.id with cepoch := c.cep, depoch := c.dep } }).abortCtrl
    else a
  if newer c.fep b.id.fepoch then { b with id := { b.id with fepoch := c.fep } } else b

/-- R115 steps 3 and 4 for an unsplit command: a reserved opcode is left to CMD_RESERVED_OPCODE; a stale pair is
refused; else the command waits for its own checks. -/
def Agent.takeCmd (a : Agent) (c : Cmd) : Agent :=
  if reservedOp c.op then { a with cu := { a.cu with cur := some c } }
  else if a.pairOrder c = 0 then a.answer c 0x01 []
  else
    let b := a.acceptPair c
    { b with cu := { b.cu with cur := some c } }

/-- Drops the piece buffer of a src. -/
def Agent.clearPieces (a : Agent) (src : W16) : Agent :=
  { a with cu := { a.cu with pieces := a.cu.pieces.filter (fun p => p.src ≠ src) } }

/-- A command flit at the sink (R114, R115): answered again, refused for its format, or taken. A piece of a split
command is left to COMMAND_PIECE. -/
def Agent.consumeCmd (a : Agent) (f : Flit) (port : Nat) : Agent :=
  let c := Cmd.ofFlit f port
  match (if f.path then a.cu.answered.find? (fun x => x.dest = f.src && x.seq = f.seq) else none) with
  | some r => a.pushOwn r (some port)
  | none =>
    if badFormat f then
      let b := a.answer c 0x04 []
      if f.path then b.clearPieces f.src else b
    else if c.piece ≠ 0 ∨ c.more then { a with cu := { a.cu with cur := some c } }
    else (if f.path then a.clearPieces f.src else a).takeCmd c

/-- Whether commands wait (R113, R115): a play in progress, or a command not yet answered. -/
def Agent.cmdBusy (a : Agent) : Bool := !a.cu.plays.isEmpty || a.cu.cur.isSome

/-- MGMT_SINK_CONSUME (R506): the head of the sink's queue. -/
def Agent.consumeSink (a : Agent) : Agent :=
  match a.sw.sink with
  | [] => a
  | x :: rest =>
    let b := { a with sw := { a.sw with sink := rest } }
    if x.flit.cls = 4 then (if a.cmdBusy then a else b.consumeCmd x.flit x.port)
    else if x.flit.cls = 9 ∧ byteField x.flit.pay 0 8 = (1 : Byte) ∧ a.build.endpoint then b.answerCall x.flit
    else b.count 19

/-- COMMAND_PIECE (R113–R115): once no play is in progress, a piece is checked, buffered and answered, or completes its command. -/
def Agent.piece (a : Agent) : Agent :=
  match a.cu.cur with
  | none => a
  | some c =>
    if ¬ c.path ∨ (c.piece = 0 ∧ ¬ c.more) ∨ ¬ a.cu.plays.isEmpty then a
    else
      let buf := a.cu.pieces.find? (fun p => p.src = c.src)
      let bad := match buf with
        | some p => decide (c.piece ≠ 0) && (decide (c.piece ≠ p.next) || decide (c.op ≠ p.op) || decide (c.arg ≠ p.arg))
        | none => decide (c.piece ≠ 0)
      if bad then (a.clearPieces c.src).answer c 0x04 []
      else if reservedOp c.op then (a.clearPieces c.src).answer c 0x0B []
      else if a.pairOrder c = 0 then (a.clearPieces c.src).answer c 0x01 []
      else
        let ws := (if c.piece = 0 then [] else ((buf.map (·.words)).getD [])) ++ c.words
        let b := (a.acceptPair c).clearPieces c.src
        if c.more then
          let p : Pieces := { src := c.src, op := c.op, arg := c.arg, next := c.piece + 1, words := ws }
          ({ b with cu := { b.cu with pieces := b.cu.pieces ++ [p] } }).answer c 0 []
        else { b with cu := { b.cu with cur := some { c with piece := 0, more := false, words := ws, cnt := ws.length } } }

/-- Runs a command's meaning when the command waiting has its opcode. -/
def Agent.withCmd (a : Agent) (op : Byte) (f : Agent → Cmd → Agent) : Agent :=
  match a.cu.cur with
  | some c => if c.op = op ∧ c.piece = 0 ∧ ¬ c.more ∧ a.cu.plays.isEmpty then f a c else a
  | none => a

/-- CMD_RESERVED_OPCODE (R115 step 3, R117). -/
def Agent.cmdReserved (a : Agent) : Agent :=
  match a.cu.cur with
  | some c => if reservedOp c.op ∧ c.piece = 0 ∧ ¬ c.more ∧ a.cu.plays.isEmpty then a.answer c 0x0B [] else a
  | none => a

/-! ## The command set (R117) -/

/-- The port-trained bitmap of a HELLO (R38). -/
def Agent.trainedMap (a : Agent) : BitVec 128 :=
  a.portList.foldl (fun m p => if (a.port p).trained then putBit m p true else m) 0

/-- Whether a hand is installed as staged (HELLO state bit 1). -/
def Agent.hello (a : Agent) (arrival : Nat) : Payload :=
  payOf (toBytes 2 a.id.id ++ [if a.build.endpoint then 1 else 2, if a.build.endpoint then a.id.profile else 0xFF,
    BitVec.ofNat 8 a.build.ports, BitVec.ofNat 8 arrival] ++ toBytes 2 a.id.tgen ++ toBytes 4 a.id.fepoch ++
    toBytes 2 a.id.cepoch ++ toBytes 2 a.id.depoch ++ toBytes 4 a.uc.version ++ toBytes 2 a.build.vendor ++
    toBytes 2 a.build.device ++
    [(bitW a.id.tblValid 0 ||| bitW a.id.handOk 1 ||| bitW a.id.quar 2 ||| bitW a.id.pwron 3).setWidth 8, 0, 0, 0] ++
    toBytes 16 a.trainedMap)

def Agent.cmdProbe (a : Agent) (c : Cmd) : Agent := a.respond c 0 (a.hello c.port)

/-- Whether n words from an offset lie inside one block of R94. -/
def oneBlock (off n : Nat) : Bool :=
  decide (off % 4 = 0) && decide (off + 4 * n ≤ 0x10000) && decide (regBlock off = regBlock (off + 4 * n - 4))

/-- Reads n words in ascending order with their effects (R92). -/
def Agent.readWords (a : Agent) (off : Nat) : Nat → List W32 × Agent
  | 0 => ([], a)
  | n + 1 =>
    let r := a.readReg true off
    let q := r.2.readWords (off + 4) n
    (r.1 :: q.1, q.2)

def Agent.cmdRead (a : Agent) (c : Cmd) : Agent :=
  let off := c.arg.toNat
  if c.cnt ≠ 0 ∧ ¬ oneBlock off c.cnt then a.answer c 0x04 []
  else
    let r := a.readWords off c.cnt
    r.2.answer c 0 r.1

/-- The status of the first word that would be refused (R505). -/
def Agent.checkWords (a : Agent) (off : Nat) : List W32 → Byte
  | [] => 0
  | v :: vs => if a.checkWrite true off v ≠ 0 then a.checkWrite true off v else a.checkWords (off + 4) vs

def Agent.storeWords (a : Agent) (off : Nat) : List W32 → Agent
  | [] => a
  | v :: vs => (a.storeWord true off v).storeWords (off + 4) vs

def Agent.cmdWrite (a : Agent) (c : Cmd) : Agent :=
  let off := c.arg.toNat
  if c.words ≠ [] ∧ ¬ oneBlock off c.words.length then a.answer c 0x04 []
  else if a.checkWords off c.words ≠ 0 then a.answer c (a.checkWords off c.words) []
  else (a.storeWords off c.words).answer c 0 []

/-- R89: 0 act, 1 acknowledge without acting, 2 refuse. -/
def Agent.genOrder (a : Agent) (c : Cmd) : Nat :=
  if c.gen = a.id.tgen then 1 else if c.gen = a.id.tgen + 1 then 0 else 2

/-- A table command (R89): refused with GEN_MISMATCH, acknowledged, or carried out and acknowledged. -/
def Agent.tableCmd (a : Agent) (c : Cmd) (f : Agent → Agent) : Agent :=
  match a.genOrder c with
  | 0 => (f a).answer c 0 []
  | 1 => a.answer c 0 []
  | _ => a.answer c 0x0E []

def Cmd.slice (c : Cmd) : BitVec 9 := bitsAt c.arg 0 9

def Agent.cmdGate (a : Agent) (c : Cmd) : Agent :=
  if ¬ a.build.endpoint then a.answer c 0x04 []
  else a.tableCmd c (fun a =>
    ({ a with inj := { a.inj with
        gated := putBit a.inj.gated c.slice.toNat true, drainNote := 1, drainGen := c.gen, drainSlice := c.slice } }).tryDrained)

def Agent.cmdUngate (a : Agent) (c : Cmd) : Agent :=
  if ¬ a.build.endpoint then a.answer c 0x04 []
  else a.tableCmd c (fun a =>
    { a with inj := { a.inj with gated := putBit a.inj.gated c.slice.toNat false, drainNote := 0 } })

def Agent.cmdSwap (a : Agent) (c : Cmd) : Agent :=
  a.tableCmd c (fun a => { a with tbl := { a.tbl with bankSel := putBit a.tbl.bankSel c.slice.toNat (!a.tbl.act) } })

def Agent.cmdExchange (a : Agent) (c : Cmd) : Agent :=
  a.tableCmd c (fun a =>
    { a with
      tbl := { a.tbl with mgmtSel := !a.tbl.act, act := !a.tbl.act,
                          bankSel := if a.tbl.act then 0 else BitVec.allOnes 512 }
      id := { a.id with tgen := a.id.tgen + 1, tblValid := true } })

def Cmd.slot (c : Cmd) : Nat := (bitsAt c.arg 0 2).toNat

def Agent.setHandOk (a : Agent) (b : Bool) : Agent := { a with id := { a.id with handOk := b } }

def Agent.cmdLoad (a : Agent) (c : Cmd) : Agent :=
  ((a.setSlot c.slot { a.slot c.slot with state := 1 }).setHandOk false).answer c 0 []

/-- Entry i of a slot (R104). -/
def HandSlot.entry (h : HandSlot) (i : Nat) : BitVec 256 := SMap.get (fun _ => (0 : BitVec 256)) h.entries i

/-- The CRC a card must carry (R103). -/
def HandSlot.crcOf (h : HandSlot) : W32 :=
  crc32c (toBytes 4 h.cardId ++ toBytes 4 h.fepoch ++ toBytes 64 h.trig ++
    (List.range h.count.toNat).flatMap (fun i => toBytes 32 (h.entry i)))

/-- The checks of ARM (R105). -/
def HandSlot.armable (h : HandSlot) : Bool :=
  decide (h.crc = h.crcOf) && decide (h.count.toNat ≤ 256) &&
    (List.range h.count.toNat).all (fun i => !(h.entry i).getLsbD 31 || decide ((bitsAt (h.entry i) 0 10).toNat < 64)) &&
    (List.range 4).all (fun i => decide (descKind (h.trigDesc i) = 0) || decide (descKind (h.trigMask i) = 15)) &&
    (List.range 4).any (fun i => decide (descKind (h.trigDesc i) ≠ 0))

def Agent.cmdArm (a : Agent) (c : Cmd) : Agent :=
  let h := a.slot c.slot
  if h.state = 2 then a.answer c 0 []
  else if h.state ≠ 1 then a.answer c 0x06 []
  else if ¬ h.armable then a.answer c 0x05 []
  else (a.setSlot c.slot { h with state := 2 }).answer c 0 []

def Agent.cmdDisarm (a : Agent) (c : Cmd) : Agent :=
  ((a.setSlot c.slot { a.slot c.slot with state := 0 }).setHandOk false).answer c 0 []

def Agent.cmdUnfence (a : Agent) (c : Cmd) : Agent :=
  let p := (bitsAt c.arg 0 8).toNat
  if p < a.build.ports then (a.modPort p (fun q => { q with tfence := false })).answer c 0 [] else a.answer c 0x04 []

/-- The agent's own checks of RELEASE (R117). -/
def Agent.releasable (a : Agent) (c : Cmd) : Bool :=
  a.id.tblValid && a.id.handOk && decide (c.fep = a.id.fepoch) &&
    (List.range 4).all (fun k => decide ((a.slot k).state ≠ 2) || decide ((a.slot k).fepoch = a.id.fepoch))

def Agent.cmdRelease (a : Agent) (c : Cmd) : Agent :=
  if older c.fep a.id.fepoch then a.answer c 0x01 []
  else if a.releasable c then ({ a with id := { a.id with quar := false, pwron := false } }).answer c 0 []
  else a.answer c 0x08 []

def Agent.cmdQuarantine (a : Agent) (c : Cmd) : Agent :=
  ({ a with id := { a.id with quar := true } }).answer c 0 []

/-- R333: every outstanding request is abandoned without a notice, and the counts start at 0. -/
def Agent.closeEpoch (a : Agent) : Agent :=
  let b := a.inj.outst.foldl Agent.abandon a
  { b with inj := { b.inj with issued := 0, completed := 0 } }

def Agent.cmdBind (a : Agent) (c : Cmd) : Agent :=
  if ¬ a.build.endpoint then a.answer c 0x04 []
  else if c.arg.getLsbD 31 then
    (let b := a.closeEpoch; { b with id := { b.id with bound := false } }).answer c 0 []
  else
    match c.words with
    | [] => a.answer c 0x04 []
    | w :: _ =>
      let ep : W16 := bitsAt w 0 16
      let b := if newer ep a.id.sepoch then a.closeEpoch else a
      ({ b with id := { b.id with slice := c.slice, sepoch := ep, bound := true } }).answer c 0 []

end Sys2Proof.Machine
end

