-- ==== Sys2Proof/Machine/AgentParts.lean ====
section
/-! DEFINITION. The agent's partition, secure-channel and microcode commands, and the events of partitions, mailboxes,
microcode, plays and links (R105, R110, R120–R128, R315, R317–R319). -/

namespace Sys2Proof.Machine

/-! ## Partition commands (R117, R121, R317–R319) -/

def Cmd.part (c : Cmd) : Nat := (bitsAt c.arg 0 4).toNat

/-- A partition that exists (R121). -/
def Agent.hasPart (a : Agent) (p : Nat) : Bool := a.build.endpoint && (a.part p).en

def Agent.cmdPfence (a : Agent) (c : Cmd) : Agent :=
  let q := a.part c.part
  if ¬ a.hasPart c.part then a.answer c 0x09 []
  else if q.state = 0 then
    (a.setPart c.part { q with state := 2, fenceReq := true, window := false, toSent := false, unfencing := false }).answer c 0 []
  else if q.state = 2 then a.answer c 0 []
  else if q.fenceAck then (a.answer c 0 []).partNotice c.part 1
  else a.answer c 0x0C []

def Agent.cmdPreset (a : Agent) (c : Cmd) : Agent :=
  let q := a.part c.part
  if ¬ a.hasPart c.part then a.answer c 0x09 []
  else if q.state = 1 ∧ q.fenceReq ∧ q.fenceAck ∧ ¬ q.unfencing then
    (a.setPart c.part { q with state := 3, rstReq := true, rstDone := false, kat := 0, limitOn := true, resetOn := 1 }).answer c 0 []
  else if q.state = 4 then
    (a.answer c 0x0C []).partNotice c.part 3
  else a.answer c 0x0C []

def Agent.cmdPunfence (a : Agent) (c : Cmd) : Agent :=
  let q := a.part c.part
  if ¬ a.hasPart c.part then a.answer c 0x09 []
  else if q.state = 0 then (a.answer c 0 []).partNotice c.part 8
  else if q.state = 2 ∨ (q.state = 1 ∧ q.kat ≠ 2 ∧ ¬ q.rstReq) then
    (a.setPart c.part { q with fenceReq := false, unfencing := true, window := false }).answer c 0 []
  else a.answer c 0x0C []

/-! ## Partition events (R317, R318) -/

def Agent.fenceAck (a : Agent) (p : Nat) : Agent :=
  let q := a.part p
  if a.hasPart p ∧ q.fenceReq then
    a.setPart p { q with fenceAck := true, window := decide (q.state = 2) && !q.unfencing }
  else a

def Agent.fenceTimeout (a : Agent) (p : Nat) : Agent :=
  let q := a.part p
  if a.hasPart p ∧ q.fenceReq ∧ ¬ q.fenceAck ∧ ¬ q.toSent ∧ (q.state = 2 ∨ q.state = 5) then
    (a.setPart p { q with toSent := true }).partNotice p 2
  else a

def Agent.drainEnd (a : Agent) (p : Nat) : Agent :=
  let q := a.part p
  if a.hasPart p ∧ q.window then
    if q.state = 2 then (a.setPart p { q with window := false, state := 1 }).partNotice p 1
    else a.setPart p { q with window := false }
  else a

def Agent.fenceAckLow (a : Agent) (p : Nat) : Agent :=
  let q := a.part p
  if a.hasPart p ∧ q.unfencing then
    (a.setPart p { q with fenceAck := false, unfencing := false, toSent := false, state := 0, wdBase := q.progress }).partNotice p 8
  else a

def Agent.rstDone (a : Agent) (p : Nat) : Agent :=
  let q := a.part p
  if a.hasPart p ∧ q.rstReq then
    (a.setPart p { q with rstDone := true, rstReq := false, resetOn := 2,
                          state := if q.state = 3 then 4 else q.state }).partNotice p 3
  else a

def Agent.resetLimit (a : Agent) (p : Nat) : Agent :=
  let q := a.part p
  if a.hasPart p ∧ q.limitOn then (a.setPart p { q with limitOn := false }).partNotice p 4 else a

/-- PART_STATE_WRITE (R318): accepted, or refused with PART_STATE. -/
def Agent.stateWrite (a : Agent) (p : Nat) (v : BitVec 3) : Agent :=
  if a.build.endpoint ∧ (a.part p).stateOk v then a.setPart p ((a.part p).writeState v) else a.ignore

def Agent.partTick (a : Agent) (p : Nat) : Agent :=
  if a.build.endpoint then a.setPart p { a.part p with progress := (a.part p).progress + 1 } else a.ignore

/-- WATCHDOG_EXPIRE (R122): a window ends in IN_SERVICE; without progress HANG is sent, and the window restarts. -/
def Agent.watchdog (a : Agent) (p : Nat) : Agent :=
  let q := a.part p
  if a.hasPart p ∧ q.state = 0 ∧ ¬ q.unfencing ∧ q.wdMs ≠ 0 then
    let b := a.setPart p { q with wdBase := q.progress }
    if q.progress = q.wdBase then b.partNotice p 7 else b
  else a

/-- KAT_WRITE (R317, R318). -/
def Agent.katWrite (a : Agent) (p : Nat) (v : BitVec 2) : Agent :=
  if a.build.endpoint then a.writeKat p v else a.ignore

/-! ## Mailbox events (R123–R125) -/

/-- The non-holder of the claim. -/
def Agent.nonHolder (a : Agent) (ctrl : Bool) : Bool := decide (a.mbx.claim ≠ 0) && decide (a.mbx.claim ≠ partyNo ctrl)

def Agent.mbxRelease (a : Agent) (ctrl : Bool) : Agent :=
  if a.mbx.claim = partyNo ctrl then a.claimRelease else a.ignore

def Agent.mbxRing (a : Agent) (ctrl : Bool) : Agent :=
  if a.mbx.claim = partyNo ctrl then (if a.mbx.ring then a else a.setRing ctrl) else a.ignore

def Agent.mbxDone (a : Agent) (ctrl : Bool) : Agent :=
  if a.nonHolder ctrl ∧ a.mbx.ring then (if a.mbx.done then a else a.setDone) else a.ignore

def Agent.mbxData (a : Agent) (ctrl : Bool) (i : Nat) (v : W32) : Agent :=
  if a.dataTurn ctrl then { a with mbx := { a.mbx with data := putBits a.mbx.data (32 * i) v } } else a.ignore

/-- MBX_LEASE_EXPIRE (R124): the claim is released, CLAIM_EXPIRED set, both parties notified. -/
def Agent.mbxExpire (a : Agent) : Agent :=
  if a.mbx.claim = 0 then a
  else
    let b := a.claimRelease
    ({ b with mbx := { b.mbx with expired := true } }).mbxNotice 3

/-- DOWN_MESSAGE_WRITE (R123): the controller writes the last DOWN_DATA word. -/
def Agent.downWrite (a : Agent) (v : W32) : Agent :=
  ({ a with mbx := { a.mbx with down := putBits a.mbx.down 224 v } }).downPosted

/-! ## Secure channel (R126) -/

def Agent.cmdSec (a : Agent) (c : Cmd) : Agent :=
  let f := (bitsAt c.arg 0 8).toNat
  if 7 < f then a.answer c 0x04 []
  else
    let bs := c.words.flatMap (fun w => toBytes 4 w)
    let m := Mem.writeL a.mbx.secDown (32 * f) bs
    if c.arg.getLsbD 8 then
      (({ a with mbx := { a.mbx with secDown := [] } }).emit (.sec (Mem.readN m 0 (32 * f + bs.length)))).answer c 0 []
    else ({ a with mbx := { a.mbx with secDown := m } }).answer c 0 []

/-- One SEC notice (R118, R126). -/
def secPay (i : Nat) (last : Bool) (bs : List Byte) : Payload :=
  payOf ([0x0C, BitVec.ofNat 8 i, if last then 1 else 0, 0, 0, 0, 0, 0] ++ bs)

/-- SEC_UP_MESSAGE (R126): a message of up to 256 bytes leaves as notices of 32 bytes, numbered from 0. -/
def Agent.secUp (a : Agent) (msg : List Byte) : Agent :=
  if msg.length = 0 ∨ 256 < msg.length then a
  else
    let n := (msg.length + 31) / 32
    (List.range n).foldl (fun b i => Agent.notice b (secPay i (decide (i + 1 = n)) ((msg.drop (32 * i)).take 32))) a

/-! ## Microcode (R117, R127, R128) -/

/-- UCODE_OPEN (R117, R127): an open that repeats the staged length and version keeps the chunks received and any
pending commit, also one that finds the loader closed. -/
def Agent.cmdUcOpen (a : Agent) (c : Cmd) : Agent :=
  match c.words with
  | [] => a.answer c 0x04 []
  | v :: _ =>
    if c.arg = 0 ∨ 262144 < c.arg.toNat then a.answer c 0x04 []
    else if a.uc.len = c.arg ∧ a.uc.ver = v then ({ a with uc := { a.uc with rx := true } }).answer c 0 []
    else
      ({ a with uc := { a.uc with rx := true, len := c.arg, ver := v, chunks := [], got := [], commit := none } }).answer c 0 []

def Agent.cmdUcPatch (a : Agent) (c : Cmd) : Agent :=
  let n := (bitsAt c.arg 0 16).toNat
  let half := c.arg.getLsbD 16
  if c.words.length ≠ 6 ∨ bitsAt c.arg 17 15 ≠ 0 ∨ (a.uc.rx ∧ a.uc.chunkCount ≤ n) then a.answer c 0x04 []
  else if ¬ a.uc.rx ∨ a.uc.commit.isSome ∨ a.uc.testing then a.answer c 0x08 []
  else
    let x : BitVec 192 := ofBytes 192 (c.words.flatMap (fun w => toBytes 4 w))
    let ch := SMap.modify (fun _ => (0 : BitVec 384)) a.uc.chunks n (fun y => putBits y (if half then 192 else 0) x)
    let got := SMap.modify (fun _ => (0 : BitVec 2)) a.uc.got n (fun y => y ||| (if half then 2 else 1))
    ({ a with uc := { a.uc with chunks := ch, got := got } }).answer c 0 []

/-- The staged image's bytes (R127). -/
def Ucode.imageBytes (u : Ucode) : List Byte :=
  ((List.range u.chunkCount).flatMap (fun c => toBytes 48 (SMap.get (fun _ => (0 : BitVec 384)) u.chunks c))).take u.len.toNat

/-- UCODE_COMMIT (R116, R128): NOT_READY while the loader is closed, unless the image already runs, and while a commit
is pending or its image under test. -/
def Agent.cmdUcCommit (a : Agent) (c : Cmd) : Agent :=
  if ¬ a.uc.rx then
    if a.uc.imgDigest = some a.uc.digest then a.answer c 0 [] else a.answer c 0x08 []
  else if a.uc.commit.isSome ∨ a.uc.testing then a.answer c 0x08 []
  else if ¬ a.uc.ready ∨ sha384 a.uc.imageBytes ≠ a.uc.digest then a.answer c 0x0A []
  else ({ a with uc := { a.uc with commit := some (c.arg, a.id.frame) } }).answer c 0 []

/-- UCODE_SWITCH (R128): at the commit frame the staged image runs and the running one becomes the previous. -/
def Agent.ucSwitch (a : Agent) : Agent :=
  match a.uc.commit with
  | some (f, at_) =>
    if frameDue f at_ a.id.frame then
      { a with uc := { a.uc with
          commit := none, testing := true, prevImg := a.uc.img, prevDigest := a.uc.imgDigest
          prevVersion := a.uc.version, img := a.uc.chunks, imgDigest := some a.uc.digest, version := a.uc.ver } }
    else a
  | none => a

/-- UCODE_SELFTEST (R128): the new image stays, or the agent reverts; the loader closes. -/
def Agent.ucTest (a : Agent) (pass : Bool) : Agent :=
  if a.uc.testing then
    let b := if pass then { a with uc := { a.uc with testing := false, rx := false } }
      else { a with uc := { a.uc with testing := false, rx := false, img := a.uc.prevImg,
                                      imgDigest := a.uc.prevDigest, version := a.uc.prevVersion } }
    b.notice (putField (putField (putField (0 : Payload) 0 (0x0A : Byte)) 1 (if pass then (1 : Byte) else 2)) 4 b.uc.version)
  else a

/-! ## BANKCOPY (R117) -/

/-- Copies the entries i < n of one bank over the other's. -/
def copyBank {α : Type} [DecidableEq α] (d : Nat → α) (m : SMap α) (src dst : Nat) (n : Nat) : SMap α :=
  (List.range n).foldl (fun m i => SMap.set d m (dst + i) (SMap.get d m (src + i))) m

def Agent.cmdBankcopy (a : Agent) (c : Cmd) : Agent :=
  let act := a.tbl.act
  if a.tbl.mgmtSel ≠ act ∨ a.tbl.bankSel ≠ (if act then BitVec.allOnes 512 else 0) then a.answer c 0x02 []
  else
    let t := a.tbl
    ({ a with tbl := { t with
      region := copyBank entryDflt t.region (bankOff 1024 act) (bankOff 1024 (!act)) 1024
      member := copyBank entryDflt t.member (bankOff 64 act) (bankOff 64 (!act)) 64
      masks := copyBank (fun _ => (0 : BitVec 512)) t.masks (bankOff 256 act) (bankOff 256 (!act)) 256 } }).answer c 0 []

/-! ## Plays (R104, R110) -/

/-- Replaces CAND and DL of one entry in both banks, keeping its MASK (R104, R110). -/
def Tables.replace (t : Tables) (x : BitVec 256) : Tables :=
  let i := (bitsAt x 0 10).toNat
  let f := fun (e : Entry) => { e with cand := bitsAt x 32 128, dl := x.getLsbD 16 }
  if x.getLsbD 31 then
    { t with member := SMap.modify entryDflt (SMap.modify entryDflt t.member (i % 64) f) (64 + i % 64) f }
  else { t with region := SMap.modify entryDflt (SMap.modify entryDflt t.region i f) (1024 + i) f }

/-- CARD_PLAY (R110): the head of the queue of plays. -/
def Agent.cardPlay (a : Agent) : Agent :=
  match a.cu.plays with
  | [] => a
  | (k, d) :: rest =>
    let a := { a with cu := { a.cu with plays := rest } }
    let h := a.slot k
    if h.state = 2 then
      let t := ((List.range h.count.toNat).map h.entry).foldl Tables.replace a.tbl
      let b := ({ a with tbl := t }).setSlot k { h with state := 3, playFrame := a.id.frame }
      let w : W32 := bitsAt a.id.frame 8 24 ++ BitVec.ofNat 8 k
      let b := { b with playLog := ((w ++ h.cardId) :: b.playLog).take 8 }
      (b.count 15).notice (putField (noticePay 0x02 (BitVec.ofNat 8 k) 0 (h.cardId.setWidth 64) d) 16 a.id.frame)
    else a

/-! ## Links (R96, R315) -/

/-- LINK_TRAINED (R96, R315): training completes; TFENCE keeps its value. -/
def Agent.linkTrained (a : Agent) (p : Nat) (peer : W16) (pport : Byte) (flight : W16) : Agent :=
  if a.mayTrain ∧ p < a.build.ports then
    a.modPort p (fun q => { q with trained := true, up := true, peerId := peer, peerPort := pport, flight := flight })
  else a

/-- ID_LOCK (R95). -/
def Agent.idLock (a : Agent) : Agent := { a with id := { a.id with lock := true } }

/-- SLOT_F_WRITE (R102): accepted, or refused with SLOT_REST. -/
def Agent.slotFWrite (a : Agent) (v : W32) : Agent :=
  if a.restOk (!a.sw.slotBank) then a.writeSlotF v else a.ignore

/-- COUNTER_LOW_READ (R92). -/
def Agent.counterLow (a : Agent) (ctrl : Bool) (i : Nat) : Agent := (a.readReg ctrl (0xE000 + 8 * i)).2

/-- TRUMP_RECEIVE at an agent: a received trump passes the port and CRC checks first (R52, R97, R108). -/
def Agent.trumpReceive (a : Agent) (inp : Option Nat) (f : Flit) : Agent :=
  match inp with
  | some p => if f.cls = 7 then a.arrive p f else a
  | none => if f.cls = 7 then a.trump none f else a

/-- TRUMP_FILTER_EXPIRE (R108). -/
def Agent.filterExpire (a : Agent) (d : Desc) : Agent :=
  { a with cu := { a.cu with filter := a.cu.filter.filter (· ≠ d) } }

end Sys2Proof.Machine
end

