-- ==== Sys2Proof/Machine/StateBring.lean ====
section
/-! DEFINITION. The state of reset, option loading, fuses, bring-up, power, lanes, depot timing, rails and pins (13, 14
and 15 of the spec), as plain data. -/

namespace Sys2Proof.Machine

/-- The reset block (R437) and where a reset stands (R432, R434). -/
structure ResetBlk where
  /-- RST_CAUSE; 13; 13 R437; reset bit 0 set by POR -/
  cause : BitVec 13 := 1
  /-- RST_LAST; 4; 13 R437; reset 0 -/
  last : BitVec 4 := 0
  /-- RST_COUNT; 32; 13 R437; reset 0 -/
  count : W32 := 0
  /-- BLK_IGNORED; 32; 13 R437; reset 0 -/
  blkIgnored : W32 := 0
  /-- BLK_STATE; 2; 13 R437; reset 0 -/
  blkState : BitVec 2 := 0
  /-- blocks under reset, oldest first: kind, target, die state before; 13 R438; empty at reset -/
  blk : List (Nat × Nat × Nat) := []
  /-- SYS_RESET_N is held low; 1; 13 R436; DESIGN CHOICE 0 (log 3) -/
  pinLow : Bool := false
  /-- THERMTRIP holds the package in reset; 1; 13 R434; DESIGN CHOICE 0 (log 3) -/
  thermHold : Bool := false
  /-- since when every sensor has read 95 °C or less under a THERM hold, µs; 13 R434; none at reset -/
  coolAt : Option Nat := none
  /-- power-good has come; 1; 15 R502; DESIGN CHOICE 0 (log 3) -/
  powerGood : Bool := false
  /-- power-good withheld by a sequencing fault; 1; 15 R501; DESIGN CHOICE 0 (log 3) -/
  seqFault : Bool := false
  /-- domains whose PLL did not lock, which stay in reset; 13 R433; DESIGN CHOICE empty (log 3) -/
  domains : List Domain := []
  deriving DecidableEq, Repr

/-- The option register and fuse summary (R443, R448). -/
structure Options where
  /-- option register; 32; 13 R443; P1 (DESIGN CHOICE 0 until then, log 3) -/
  reg : W32 := 0
  /-- fuse words as accepted or substituted; 1,024 × 32; 13 R444; DESIGN CHOICE 0 until P1 (log 3) -/
  fuses : SMap W32 := []
  /-- marginal words, ascending; 13 R444; DESIGN CHOICE empty until P1 (log 3) -/
  marginal : List Nat := []
  /-- drifted words, ascending; 13 R446; DESIGN CHOICE empty until P2 (log 3) -/
  drifted : List Nat := []
  /-- DIE_FUSE; 80; 13 R448; P2 (DESIGN CHOICE 0 until then, log 3) -/
  dieFuse : BitVec 80 := 0
  /-- GATE_EN; 8; 13 R448; P2 (all set on every variant) -/
  gateEn : Byte := 0xFF
  /-- DEPOT_EN; 6; 13 R448; P2 (DESIGN CHOICE 0 until then, log 3) -/
  depotEn : BitVec 6 := 0
  /-- VARIANT; 2; 13 R448; P2 (DESIGN CHOICE 0 until then, log 3) -/
  variant : BitVec 2 := 0
  /-- REF_OK; 1; 13 R448; P2 (DESIGN CHOICE 0 until then, log 3) -/
  refOk : Bool := false
  deriving DecidableEq, Repr

/-- The bring-up block (R452). -/
structure Bring where
  /-- PHASE; 3; 13 R452; reset 0 -/
  phase : BitVec 3 := 0
  /-- READY; 1; 13 R452; reset 0 -/
  ready : Bool := false
  /-- FALLBACK; 1; 13 R452; reset 0 -/
  fallback : Bool := false
  /-- ENG_FAILED; 8; 13 R452; reset 0 -/
  engFailed : Byte := 0
  /-- PORTS_DOWN; 8; 13 R452; reset 0 -/
  portsDown : Byte := 0
  /-- READY_MS; 16; 13 R452; reset 0 -/
  readyMs : W16 := 0
  /-- DEPOT_ONLINE; 6; 13 R452; P4 (DESIGN CHOICE 0 until then, log 3) -/
  online : BitVec 6 := 0
  /-- stacks retiring; 6; 13 R458; DESIGN CHOICE 0 (log 3) -/
  retiring : BitVec 6 := 0
  /-- UC_POD_VER; 32; 13 R452; image (DESIGN CHOICE 0 until P3, log 3) -/
  ucPodVer : W32 := 0
  /-- phases ended; 8; 13 R449; DESIGN CHOICE 0 (log 3) -/
  ended : Byte := 0
  /-- phases that overran their bound; 8; 13 R450; DESIGN CHOICE 0 (log 3) -/
  overran : Byte := 0
  /-- a depot failure stopped bring-up; 1; 13 R450; DESIGN CHOICE 0 (log 3) -/
  depotFail : Bool := false
  /-- both dealers failed P3; 1; 13 R450; DESIGN CHOICE 0 (log 3) -/
  dealersFailed : Bool := false
  deriving DecidableEq, Repr

/-- The power block and the governor (R461–R469). -/
structure Power where
  /-- PWR_LIMIT; 9; 14 R469; reset 350 -/
  limit : BitVec 9 := 350
  /-- PWR_LIMIT in force, from the latest interval; 9; 14 R463; reset 350 -/
  limitNow : BitVec 9 := 350
  /-- samples of the latest 100 µs, newest first, 0.1 W; 14 R463; DESIGN CHOICE empty (log 3) -/
  samples : List Nat := []
  /-- PWR_NOW; 16; 14 R469; reset 0 -/
  now : W16 := 0
  /-- PWR_PEAK; 16; 14 R469; reset 0 -/
  peak : W16 := 0
  /-- CTX_PCLASS; 32; 14 R469; reset 0x5555_5555 -/
  pclass : W32 := 0x55555555
  /-- HOLD0; 3; 14 R469; reset 0 -/
  hold0 : BitVec 3 := 0
  /-- HOLD1; 3; 14 R469; reset 0 -/
  hold1 : BitVec 3 := 0
  /-- HOLD2; 3; 14 R469; reset 0 -/
  hold2 : BitVec 3 := 0
  /-- TOKENS_HELD; 1; 14 R469; reset 0 -/
  tokensHeld : Bool := false
  /-- LENT; 16; 14 R469; reset 0 -/
  lent : W16 := 0
  /-- WAKE_WAITS; 32; 14 R469; reset 0 -/
  wakeWaits : W32 := 0
  /-- IDLE_SLEEP_US; 16; 14 R469; reset 500 -/
  idleSleep : W16 := 500
  /-- TJ_MAX; 8; 14 R469; reset 0 -/
  tjMax : Byte := 0
  /-- TJ_HOT; 8; 14 R469; reset 100 -/
  tjHot : Byte := 100
  /-- LOW_MARGIN; 6; 14 R469; reset 12 -/
  lowMargin : BitVec 6 := 12
  /-- MARGIN_WIN; 4; 14 R469; reset 3 -/
  marginWin : BitVec 4 := 3
  /-- RETRAIN_DT; 5; 14 R469; reset 8 -/
  retrainDt : BitVec 5 := 8
  /-- DEP_RECENTER_MS; 10; 14 R469; reset 50 -/
  recenterMs : BitVec 10 := 50
  /-- DEP_RECENTER_DT; 4; 14 R469; reset 4 -/
  recenterDt : BitVec 4 := 4
  /-- CAL_DONE; 32; 14 R469; reset 0 -/
  calDone : W32 := 0
  /-- CAL_ABORT; 32; 14 R469; reset 0 -/
  calAbort : W32 := 0
  /-- RECENTER_FAIL; 32; 14 R469; reset 0 -/
  recenterFail : W32 := 0
  /-- lend threshold of LEND mode 0, µs; 14; 04 R159; reset 200 -/
  lendUs : Nat := 200
  /-- projected draw, from the latest sample and what was shed and woken since, in 1/8 mW; 14 R465; DESIGN CHOICE 0 (log 3) -/
  proj : Nat := 0
  /-- wake tokens held by the governor; 4; 14 R461; starts full -/
  tokens : Nat := 4
  /-- wake requests in order of arrival: die and power class; 14 R461; DESIGN CHOICE empty (log 3) -/
  wakeQ : List (Nat × Nat) := []
  /-- temperatures last sensed by unit number, °C + 128; 14 R466; DESIGN CHOICE 0 (log 3) -/
  temps : SMap Nat := []
  /-- station dies held at 105 °C; 40; 14 R466; DESIGN CHOICE 0 (log 3) -/
  hot : BitVec 40 := 0
  /-- classes of launched streams by engine; 320 × 2; 14 R464; DESIGN CHOICE 0 (log 3) -/
  engClass : SMap Nat := []
  deriving DecidableEq, Repr

/-- A gate's lane (R471, R474): number gate × 20 + lane. -/
structure Lane where
  /-- LSTATE (0 DOWN, 1 TRAINING, 2 ACTIVE, 3 RETRAIN, 4 DISABLED); 3; 14 R471; reset 0 -/
  st : BitVec 3 := 0
  /-- LMARGIN; 6; 14 R471; reset 0 -/
  margin : BitVec 6 := 0
  /-- TEMP_TRAIN; 8; 14 R471; reset 0 -/
  tempTrain : Byte := 0
  /-- WINDOWS; 13; 14 R471; reset 0 -/
  windows : BitVec 13 := 0
  /-- CAL_FRAME; 32; 14 R471; reset 0 -/
  calFrame : W32 := 0
  /-- LCAL_OK; 16; 14 R471; reset 0 -/
  ok : W16 := 0
  /-- LCAL_ABORT; 16; 14 R471; reset 0 -/
  abort : W16 := 0
  /-- frame the running retrain started at; 32; 14 R474; none at reset -/
  start : Option W32 := none
  /-- best trial margin of the running retrain; 6; 14 R474; DESIGN CHOICE 0 (log 3) -/
  best : BitVec 6 := 0
  /-- frame at which the chosen setting is adopted; 32; 14 R474; none at reset -/
  adopt : Option W32 := none
  /-- waits for a place among the gate's four retrains; 1; 14 R473; DESIGN CHOICE 0 (log 3) -/
  waiting : Bool := false
  deriving DecidableEq, Repr

/-- A fabric port's block (R487). -/
structure GPort where
  /-- BIF; 2; 15 R487; reset 1 -/
  bifMode : BitVec 2 := 1
  /-- POL_INV; 4; 15 R487; reset 0 -/
  polInv : BitVec 4 := 0
  /-- the sub-ports down by TRAIN mode 2; 2; 13 R438; DESIGN CHOICE 0 (log 3) -/
  takenDown : BitVec 2 := 0
  deriving DecidableEq, Repr

/-- A depot channel's timing (R476): stack × 16 + channel. -/
structure Channel where
  /-- in a window -/
  inWin : Bool := false
  /-- consecutive windows that kept the old timing -/
  fails : Nat := 0
  /-- time of the last window, µs -/
  lastAt : Nat := 0
  /-- sensor reading at the last window, °C + 128 -/
  lastT : Nat := 0
  deriving DecidableEq, Repr

/-- A rail's monitor (R500). -/
structure Rail where
  /-- MV; 16; 15 R500; reset 0 -/
  mv : W16 := 0
  /-- AMPS; 16; 15 R500; reset 0 -/
  amps : W16 := 0
  /-- IN_RANGE; 1; 15 R500; reset 0 -/
  inRange : Bool := false
  /-- LOW_SEEN; 1; 15 R500; reset 0 -/
  low : Bool := false
  /-- HIGH_SEEN; 1; 15 R500; reset 0 -/
  high : Bool := false
  deriving DecidableEq, Repr

/-- Pins and status (R447, R494–R496). -/
structure Pins where
  /-- GPIO_OUT; 16; 15 R495; reset 0 -/
  gpioOut : W16 := 0
  /-- GPIO_OE; 16; 15 R495; reset 0 -/
  gpioOe : W16 := 0
  /-- GPIO_IN; 16; 15 R495; level at the pins (DESIGN CHOICE 0, log 3) -/
  gpioIn : W16 := 0
  /-- GPIO_OD; 16; 15 R495; reset 0 -/
  gpioOd : W16 := 0
  /-- FAULT_CAUSE; 5; 15 R495; reset 0 -/
  faultCause : BitVec 5 := 0
  /-- ALERT_CAUSE; 5; 15 R495; reset 0 -/
  alertCause : BitVec 5 := 0
  /-- THERMTRIP_N asserted; 1; 15 R494; released at power-up -/
  thermTrip : Bool := false
  /-- pin group states; 14 × 3; 13 R447; state 1 until the end of P1 -/
  groups : SMap Nat := []
  /-- the dealer firmware has configured the pins; 1; 13 R447; DESIGN CHOICE 0 (log 3) -/
  configured : Bool := false
  deriving DecidableEq, Repr

/-- Reset, bring-up, power, lanes, depot timing, rails and pins together. -/
structure Platform where
  rst : ResetBlk := {}
  opt : Options := {}
  bring : Bring := {}
  pwr : Power := {}
  /-- lanes by gate × 20 + lane -/
  lanes : SMap Lane := []
  /-- fabric ports fp0–fp39 -/
  gports : SMap GPort := []
  /-- depot channels by stack × 16 + channel; 14 R476; DESIGN CHOICE 0 (log 3) -/
  chans : SMap Channel := []
  /-- rails 0–8 -/
  rails : SMap Rail := []
  pins : Pins := {}
  deriving DecidableEq, Repr

end Sys2Proof.Machine
end

