-- ==== Sys2Proof/Machine/StateDealer.lean ====
section
/-! DEFINITION. The state of the dealers, their contexts and programs, reflexes, host sessions and the package pair
(04 and 05 of the spec), as plain data. -/

namespace Sys2Proof.Machine

/-- The run states of a context (R134). -/
inductive RunState where
  | idle
  | running
  | waiting
  | halted
  deriving DecidableEq, Repr

/-- One agent command of a long instruction (R114, R146). -/
structure CmdSpec where
  op : Byte
  gen : W16
  arg : W32
  words : List W32
  deriving DecidableEq, Repr

/-- One step of a target's work: a command, a claim read retried until it answers 0 (R154), a wait for an agent
notice (its code and the byte that names the event), a read whose words are kept, or a write of one bit of a port's
first register (2 CUT, 7 ARM) over the word just read (R96, R153, R304). -/
inductive TStep where
  | cmd (c : CmdSpec)
  | claim
  | await (code : Byte) (sub : Byte)
  | read (off : Nat) (n : Nat)
  | portWrite (off : Nat) (bit : Nat) (v : Bool)
  deriving DecidableEq, Repr

/-- A target of a long instruction (R144–R146). -/
structure Target where
  agent : W16
  /-- place in the list -/
  idx : Nat
  /-- work still to do, its first step being the one in hand -/
  steps : List TStep
  /-- the whole work, for an exchange repeated from its claim (R154) -/
  whole : List TStep := []
  /-- seq of the command in flight -/
  seq : Option W16 := none
  /-- next piece of a path-routed command (R146) -/
  piece : Nat := 0
  /-- an earlier OK was received for PRESET (R153) -/
  okSeen : Bool := false
  /-- words kept from reads -/
  got : List W32 := []
  /-- last status received, none for no response -/
  status : Option Byte := none
  /-- 0 open, 1 completed, 2 missed or refused, 3 missed without being sent -/
  state : Nat := 0
  /-- attempts made (PROBE) -/
  tries : Nat := 0
  /-- counts toward the instruction's success (CUT's block-internal ports do not, R153) -/
  counts : Bool := true
  /-- generation its command carries, fixed when it is first sent (R146) -/
  gen : Option W16 := none
  /-- time of its command's latest sending, µs -/
  sentAt : Nat := 0
  /-- a delivery that is not tried again (R397) -/
  once : Bool := false
  /-- hand slots it loads, and their cards (R301) -/
  hand : List (Nat × W32) := []
  /-- it writes shadow slot tables (R282) -/
  slots : Bool := false
  deriving DecidableEq, Repr

/-- A long instruction in progress (R140, R146). -/
structure Running where
  /-- the instruction word -/
  word : W64
  /-- operands read at issue: g[ra], g[rb], g[rd] -/
  ra : W64
  rb : W64
  rd : W64
  /-- the targets in list order (R144) -/
  targets : List Target := []
  /-- phase of instructions that work in phases (SWAP: 0 swap, 1 ungate; ARM waves) -/
  phase : Nat := 0
  /-- work for the phases to come -/
  later : List (List Target) := []
  /-- units or targets done in earlier phases -/
  done : Nat := 0
  /-- misses counted in earlier phases -/
  miss : Nat := 0
  /-- misses of earlier phases: list index, agent, status -/
  missed : List (Nat × W16 × Byte) := []
  /-- first refusing status -/
  first : Byte := 0
  /-- a number the instruction waits on: stream handle, settlement stamp, wanted value, start time … -/
  arg : Nat := 0
  /-- further data of the instruction (message, list) -/
  data : List W64 := []
  deriving DecidableEq, Repr

/-- A hardware context (R134–R136, R141). -/
structure Context where
  /-- run state; 2; 04 R134; reset IDLE -/
  run : RunState := .idle
  /-- g1–g31; 31 × 64 (g0 reads 0); 04 R135; reset 0 -/
  g : SMap W64 := []
  /-- p1–p7; 7 (p0 reads 1); 04 R135; reset 0 -/
  p : BitVec 8 := 0
  /-- PC; 17; 04 R135; DESIGN CHOICE 0 (log 3) -/
  pc : Nat := 0
  /-- return stack, top first; 16 × 17; 04 R133; reset empty -/
  stack : List Nat := []
  /-- S1 EPOCH; 32; 04 R136; reset package FEPOCH -/
  epoch : W32 := 0
  /-- S2 CTIMER; 32; 04 R136; reset 0 -/
  ctimer : W32 := 0
  /-- S3 STATUS; 64; 04 R141; reset 0 -/
  status : W64 := 0
  /-- S4 MISSPTR; 22; 04 R136; reset 0 -/
  missptr : BitVec 22 := 0
  /-- S14 EXIT; 32; 04 R136; reset 0 -/
  exit : W32 := 0
  /-- priority; 2; 04 R134; DESIGN CHOICE 0 (log 3) -/
  prio : BitVec 2 := 0
  /-- asleep under YIELD; 1; 04 R149; DESIGN CHOICE 0 (log 3) -/
  asleep : Bool := false
  /-- event code that started the context, or 0; 8; 05 R175; DESIGN CHOICE 0 (log 3) -/
  startedBy : Byte := 0
  /-- run limit of the dispatch that started it, ms; 16; 05 R179; DESIGN CHOICE 0 (log 3) -/
  runLimit : Nat := 0
  /-- long instruction in progress; 04 R140; none at reset -/
  long : Option Running := none
  deriving DecidableEq, Repr

/-- What a dealer's core holds and its standby's image of it (R133, R184). -/
structure Core where
  /-- instruction store by index; 131,072 × 64; 04 R133; DESIGN CHOICE 0 (log 3) -/
  istore : SMap W64 := []
  /-- data store by byte; 4 MiB; 04 R133; DESIGN CHOICE 0 (log 3) -/
  dstore : Mem := []
  /-- contexts 0–15; 04 R133 -/
  ctx : SMap Context := []
  deriving DecidableEq, Repr

/-- A journal record (R148, R184). -/
inductive JRec where
  /-- a context's whole architectural state, at issue of a long instruction or with a short one's effect -/
  | ctx (c : Nat) (x : Context)
  | istore (i : Nat) (w : W64)
  | dstore (a : Nat) (bs : List Byte)
  deriving DecidableEq, Repr

/-- Where a dealer takeover stands (R185, R188). -/
inductive Takeover where
  | none
  /-- steps 1 and 2 done, the start check runs -/
  | checking
  /-- the takeover failed: both dealers isolated until a reset -/
  | failed
  deriving DecidableEq, Repr

/-- The change record (R150). -/
structure Change where
  /-- open flag; 1; 04 R150; reset 0 -/
  isOpen : Bool := false
  /-- owning context, none when unowned; 4; 04 R150; reset none -/
  owner : Option Nat := none
  /-- target fabric epoch; 32; 04 R150; reset 0 -/
  target : W32 := 0
  /-- image address; 64; 04 R150; DESIGN CHOICE 0 (log 3) -/
  image : Nat := 0
  /-- slices swapped; 512; 04 R150; DESIGN CHOICE 0 (log 3) -/
  swapped : BitVec 512 := 0
  deriving DecidableEq, Repr

/-- The dealers and what their contexts share (R136, R148, R183–R188). -/
structure Dealers where
  /-- stores and contexts of the active dealer -/
  core : Core := {}
  /-- the standby's image of them; 04 R184; DESIGN CHOICE empty (log 3) -/
  shadow : Core := {}
  /-- journal records not yet applied, oldest first; 1 MiB; 05 R184; DESIGN CHOICE empty (log 3) -/
  journal : List JRec := []
  /-- the active dealer: false A, true B; 1; 05 R183; DESIGN CHOICE A (log 3) -/
  active : Bool := false
  /-- a standby dealer exists (its reload is done); 1; 05 R186; DESIGN CHOICE 1 (log 3) -/
  standby : Bool := true
  /-- HANDOVER flag: issue stopped for a planned handover; 1; 05 R186; DESIGN CHOICE 0 (log 3) -/
  handover : Bool := false
  /-- the old dealer's stores are being reloaded after a handover; 1; 05 R186; DESIGN CHOICE 0 (log 3) -/
  reload : Bool := false
  /-- takeover in progress; 05 R185; DESIGN CHOICE none (log 3) -/
  takeover : Takeover := .none
  /-- heartbeats written by the active dealer since it became active; 05 R183; DESIGN CHOICE 0 (log 3) -/
  beats : Nat := 0
  /-- an uncorrectable store error stopped the heartbeat; 1; 05 R183; DESIGN CHOICE 0 (log 3) -/
  hbStop : Bool := false
  /-- notices for waiting instructions that came in a takeover gap, oldest first; 05 R187; DESIGN CHOICE empty (log 3) -/
  gap : List Flit := []
  /-- contexts whose run limit elapsed in a takeover gap; 16; 05 R182; DESIGN CHOICE empty (log 3) -/
  runOut : List Nat := []
  /-- S5 FEPOCH; 32; 04 R136; reset 0 -/
  fepoch : W32 := 0
  /-- lock of S5; 1; 04 R136; reset 0 -/
  fepochLock : Bool := false
  /-- S6 DEPOCH; 16; 04 R136, 12 R425; VBAT default 0 -/
  depoch : W16 := 0
  /-- S7 CEPOCH; 16; 04 R136, 12 R425; VBAT default 0 -/
  cepoch : W16 := 0
  /-- S10 ROLE bit 0; 1; 04 R136; DESIGN CHOICE 0 (log 3) -/
  role : Bool := false
  /-- S12 CMD_RESEND; 10; 04 R136; reset 8 -/
  cmdResend : BitVec 10 := 8
  /-- S13 DRAIN_LIMIT; 14; 04 R136; reset 200 -/
  drainLimit : BitVec 14 := 200
  /-- S11 CHANGE and the change record; 04 R150 -/
  change : Change := {}
  /-- last generation sealed and its seal, by job; 04 R155; none at reset -/
  sealed : SMap (Option (W32 × Digest)) := []
  /-- seq of the next command the package sends; 16; 02 R68; DESIGN CHOICE 0 (log 3) -/
  seq : W16 := 0
  /-- the context of each priority that issued last; 4 × 4; 04 R134; DESIGN CHOICE 15 (log 8) -/
  lastCtx : SMap Nat := []
  /-- the context that gave up the next issue slot under YIELD; 4; 04 R149; DESIGN CHOICE none (log 3) -/
  yielded : Option Nat := none
  /-- the context of each priority for which the command engine sent last; 4 × 4; 04 R146; DESIGN CHOICE 15 (log 8) -/
  lastCmd : SMap Nat := []
  /-- S8 CYCLE at the latest frame start; 64; 04 R136; reset 0 -/
  cycle : W64 := 0
  /-- commands the device sends on its own, without an instruction; 11 R397, 05 R193, 08 R301; DESIGN CHOICE empty (log 3) -/
  bg : List Target := []
  deriving DecidableEq, Repr

/-- An event waiting to be posted (R175). -/
structure Event where
  code : Byte
  subject : W16
  arg : BitVec 128
  /-- posted to the notice ring only (R179) -/
  ringOnly : Bool := false
  /-- frame and fabric epoch at the event (R176) -/
  frame : W32 := 0
  fepoch : W32 := 0
  deriving DecidableEq, Repr

/-- A waiting dispatch (R178). -/
structure Dispatch where
  slot : Nat
  ev : Event
  count : Nat := 1
  coalesced : Bool := false
  /-- received from the peer package (R180) -/
  mirrored : Bool := false
  deriving DecidableEq, Repr

/-- Reflex state (R174–R180). -/
structure Reflex where
  /-- bindings by slot; 256 × 128; 05 R174; DESIGN CHOICE 0, not valid (log 3) -/
  bind : SMap (BitVec 128) := []
  /-- pending queue in order of arrival; 4,096; 05 R178; DESIGN CHOICE empty (log 3) -/
  pend : List Dispatch := []
  /-- bindings whose next record carries the lost bit; 256; 05 R178; DESIGN CHOICE 0 (log 3) -/
  lost : BitVec 256 := 0
  /-- REFLEX_LOST; 32; 05 R165; reset 0 -/
  reflexLost : W32 := 0
  /-- events not yet posted, oldest first; 05 R187; DESIGN CHOICE empty (log 3) -/
  events : List Event := []
  deriving DecidableEq, Repr

/-- An item of a command ring the device has taken (R170): a descriptor, or the discarded tail of a doorbell. -/
inductive RingItem where
  | cmd (idx : Nat) (desc : BitVec 512)
  | bad (idx : Nat) (next : Nat)
  deriving DecidableEq, Repr

/-- A session's page and its path (R160, R162, R168). -/
structure Session where
  /-- OPEN; 1; 05 R168; reset 0 -/
  isOpen : Bool := false
  /-- PATH; 3; 05 R168; reset 0 -/
  path : BitVec 3 := 0
  /-- OPENS; 32; 05 R168; reset 0 -/
  opens : W32 := 0
  /-- SESS_IGNORED; 32; 05 R168; reset 0 -/
  ignored : W32 := 0
  /-- CQ_BASE; 64; 05 R168; reset 0 -/
  cqBase : W64 := 0
  /-- CQ_ORDER; 4; 05 R168; reset 0 -/
  cqOrder : BitVec 4 := 0
  /-- CQ_COMMIT; 16; 05 R168; reset 0 -/
  cqCommit : W16 := 0
  /-- CQ_DONE; 16; 05 R168; reset 0 -/
  cqDone : W16 := 0
  /-- CQ_BAD; 32; 05 R168; reset 0 -/
  cqBad : W32 := 0
  /-- CPL_BASE; 64; 05 R168; reset 0 -/
  cplBase : W64 := 0
  /-- CPL_ORDER; 4; 05 R168; reset 0 -/
  cplOrder : BitVec 4 := 0
  /-- CPL_TAIL; 16; 05 R168; reset 0 -/
  cplTail : W16 := 0
  /-- CPL_HEAD; 16; 05 R168; reset 0 -/
  cplHead : W16 := 0
  /-- NQ_BASE; 64; 05 R168; reset 0 -/
  nqBase : W64 := 0
  /-- NQ_ORDER; 4; 05 R168; reset 0 -/
  nqOrder : BitVec 4 := 0
  /-- NQ_TAIL; 16; 05 R168; reset 0 -/
  nqTail : W16 := 0
  /-- NQ_HEAD; 16; 05 R168; reset 0 -/
  nqHead : W16 := 0
  /-- NQ_LOST; 32; 05 R168; reset 0 -/
  nqLost : W32 := 0
  /-- items taken by doorbells, in ring order; 05 R170; DESIGN CHOICE empty (log 3) -/
  taken : List RingItem := []
  /-- the command running; 05 R170; none at reset -/
  cur : Option (Nat × BitVec 512) := none
  /-- the completion that waits for room in its ring, with the value CQ_DONE then takes; 05 R173; none at reset -/
  owed : Option (Nat × List Byte) := none
  /-- peer address of an Ethernet session; 05 R160; DESIGN CHOICE 0 (log 3) -/
  peer : Nat := 0
  /-- last 64 request numbers with their responses, oldest first; 05 R162; DESIGN CHOICE empty (log 3) -/
  seen : List (W32 × Datagram) := []
  /-- a PCIe link is up; 1; 05 R160; DESIGN CHOICE 0 (log 3) -/
  linkUp : Bool := false
  deriving DecidableEq, Repr

/-- The ownership block (R165). -/
structure Ownership where
  /-- OWNER; 4 (session + 1); 05 R165; reset 0 -/
  owner : Nat := 0
  /-- TWIN; 4; 05 R165; reset 0 -/
  twin : Nat := 0
  /-- LEASE_LEFT; 32; 05 R165; reset 0 -/
  leaseLeft : W32 := 0
  /-- LEASE_MS; 16; 05 R165; reset 2000 -/
  leaseMs : W16 := 2000
  /-- OWNER_CHANGES; 32; 05 R165; reset 0 -/
  changes : W32 := 0
  /-- SESS_LEASE_S; 6; 05 R165; reset 5 -/
  sessLease : BitVec 6 := 5
  /-- TICK_US; 32; 05 R165; reset 0 -/
  tickUs : W32 := 0
  /-- MCTP_DROP; 32; 05 R165; reset 0 -/
  mctpDrop : W32 := 0
  /-- IGNORED_CNT; 32; 00 R11; reset 0 -/
  ignored : W32 := 0
  /-- APERTURE_GB; 8; 00 R11; reset 0 -/
  aperture : Byte := 0
  deriving DecidableEq, Repr

/-- Solo mode (R195). -/
inductive Solo where
  | off
  /-- entered by SOLO -/
  | cmd
  /-- entered on a frame -/
  | frame
  deriving DecidableEq, Repr

/-- The pair unit (R189–R195). -/
structure Pair where
  /-- lease number of the latest RENEW sent; 32; 05 R189; DESIGN CHOICE 0 (log 3) -/
  number : W32 := 0
  /-- time of the latest RENEW sent, µs; 05 R191; DESIGN CHOICE 0 (log 3) -/
  sentAt : Nat := 0
  /-- the active's lease runs (an ACK in time has come); 05 R191; DESIGN CHOICE 0 (log 3) -/
  acked : Bool := false
  /-- the standby's lease runs: a RENEW has come; 05 R191; DESIGN CHOICE 0 (log 3) -/
  renewed : Bool := false
  /-- time of the latest RENEW received, µs; 05 R195; none at reset -/
  renewAt : Option Nat := none
  /-- controller epoch of the latest RENEW received; 16; 05 R193; DESIGN CHOICE 0 (log 3) -/
  renewEpoch : W16 := 0
  /-- the package fenced itself; 1; 05 R192; DESIGN CHOICE 0 (log 3) -/
  fenced : Bool := false
  /-- solo mode; 05 R195; DESIGN CHOICE off (log 3) -/
  solo : Solo := .off
  /-- renewing has stopped (R188); 1; 05 R188; DESIGN CHOICE 0 (log 3) -/
  stopped : Bool := false
  /-- updates to stream to the peer, oldest first; 05 R194; DESIGN CHOICE empty (log 3) -/
  mirror : List MirrorItem := []
  /-- the peer has the open change record; 1; 05 R194; DESIGN CHOICE 0 (log 3) -/
  changeAcked : Bool := false
  /-- the sync parent the active package assigned to this standby; 16; 02 R73; none at reset -/
  syncParent : Option W16 := none
  /-- the cold-start wait after READY runs; 1; 13 R451; DESIGN CHOICE 0 (log 3) -/
  coldWait : Bool := false
  deriving DecidableEq, Repr

end Sys2Proof.Machine
end

