-- ==== Sys2Proof/Machine/StateFabric.lean ====
section
/-! DEFINITION. The controller's view of the pod: plan, books, discovery, congestion map, deck, forecasts, fold book,
restart pacing, rebuild windows and the package's own fabric ports (01, 02, 08, 09, 10 of the spec), as plain data. -/

namespace Sys2Proof.Machine

/-- An agent record of the pod plan (R30). -/
structure PlanAgent where
  id : W16
  build : Byte
  profile : Byte
  rackHalf : W16
  level : Byte
  deriving DecidableEq, Repr

/-- A link record of the pod plan (R30). -/
structure PlanLink where
  a : W16
  ap : Byte
  cls : Byte
  b : W16
  bp : Byte
  deriving DecidableEq, Repr

/-- A bound pod plan (R30, R31). -/
structure Plan where
  number : W32 := 0
  agents : List PlanAgent := []
  links : List PlanLink := []
  deriving DecidableEq, Repr

/-- What a HELLO said (R38) and how its sender is reached: a path-book record (R508, R40 edges). -/
structure Known where
  id : W16
  /-- HELLO payload, arrival taken as 0; its tgen, fepoch, ucode and state bit 0 follow what the agent is known to have done since -/
  hello : Payload
  /-- paths held, the shortest first: egress ports -/
  paths : List (List Byte)
  /-- the agent is reached by table routing -/
  table : Bool := false
  /-- quarantined by the controller's record -/
  quar : Bool := true
  /-- BOUND and slice recorded for the agent -/
  bound : Option W16 := none
  deriving DecidableEq, Repr

/-- A link-book entry, keyed by its lower end (R40, R46–R48, R315). -/
structure LinkRec where
  a : W16
  ap : Nat
  b : W16
  bp : Nat
  /-- out of service for data by a cut; 1 -/
  cut : Bool := false
  /-- REACH_EXCEEDED; 1 -/
  reach : Bool := false
  /-- the ring's date line lies on this link; 1 -/
  dateLine : Bool := false
  deriving DecidableEq, Repr

/-- A closure record (R153 CLOSE): ring (region, dimension, coordinates), edges, bypass, hops, date line. -/
structure Closure where
  region : W16
  dim : Nat
  coord : Nat
  edgeA : W16
  edgeB : W16
  bypass : Nat
  hops : Nat
  dlAgent : W16
  dlPort : Byte
  deriving DecidableEq, Repr

/-- A probe in flight or to be repeated (R39). -/
structure ProbeRec where
  path : List Byte
  seq : W16
  tries : Nat
  deriving DecidableEq, Repr

/-- Discovery (R36–R41). -/
structure Discovery where
  /-- a pass is running; 1; 01 R41; DESIGN CHOICE 0 (log 3) -/
  active : Bool := false
  /-- the running pass found no generation book at its start; 1; 01 R42; DESIGN CHOICE 0 (log 3) -/
  cold : Bool := false
  /-- probes open; 01 R39; DESIGN CHOICE empty (log 3) -/
  probes : List ProbeRec := []
  /-- agents found by the latest pass and the dark-port passes since; 01 R40; DESIGN CHOICE empty (log 3) -/
  found : List W16 := []
  /-- agents found in the running pass, to be examined; 01 R40, R41; DESIGN CHOICE empty (log 3) -/
  fresh : List W16 := []
  /-- length of the path from which an agent's ports were probed in the running pass; 01 R37; DESIGN CHOICE empty (log 3) -/
  spread : List (W16 × Nat) := []
  /-- trained ports more than 16 hops out; 01 R37; DESIGN CHOICE empty (log 3) -/
  far : List (W16 × Nat) := []
  /-- dark ports by path; 01 R39; DESIGN CHOICE empty (log 3) -/
  dark : List (List Byte) := []
  /-- re-probes made of untrained ports: agent, port, count; 01 R39; DESIGN CHOICE empty (log 3) -/
  untrained : List (W16 × Nat × Nat) := []
  /-- faults of trumps since the pass began, cut before the comparison; 01 R41; DESIGN CHOICE empty (log 3) -/
  cuts : List Desc := []
  /-- agents to be quarantined by the comparison; 01 R40; DESIGN CHOICE empty (log 3) -/
  quarantine : List W16 := []
  /-- findings reported to the owner: agent and port, 0xFF for the agent itself; the form and the channel are the model's
  (DESIGN CHOICE, log 106); 00 R2, 01 R29, R37, R40; DESIGN CHOICE empty (log 3) -/
  reports : List (W16 × Byte) := []
  /-- period of the dark-port passes, ms; 16; 01 R41; reset 1000 -/
  darkMs : Nat := 1000
  /-- time of the latest dark-port pass, or of the end of discovery, µs; 01 R41; DESIGN CHOICE 0 (log 3) -/
  darkAt : Nat := 0
  deriving DecidableEq, Repr

/-- A record of the full-resolution ring (R83): window, record, late. -/
structure CongRec where
  window : W32
  record : W64
  late : Bool
  deriving DecidableEq, Repr

/-- A pod summary (R83). -/
structure Summary where
  /-- totals of defl, drops and fec for classes A, B, C -/
  defl : List Nat
  drops : List Nat
  fec : List Nat
  /-- the 8 ports with the highest occupancy, and the 8 with the most deflections -/
  topOcc : List (W16 × Nat)
  topDefl : List (W16 × Nat)
  down : Nat
  retrain : Nat
  low : Nat
  deriving DecidableEq, Repr

/-- The congestion map (R83) and the margin watch (R472). -/
structure Congestion where
  /-- full-resolution ring by ((agent × 128 + port) × 10,000 + window mod 10,000); 64 each; 02 R83; absent at reset -/
  ring : SMap (Option CongRec) := []
  /-- summary ring by entry mod 86,400,000; 128 bytes each; 02 R83; absent at reset -/
  sums : SMap (Option Summary) := []
  /-- summaries written; 02 R83; DESIGN CHOICE 0 (log 3) -/
  nSums : Nat := 0
  /-- newest window seen; 32; 02 R83; DESIGN CHOICE 0 (log 3) -/
  window : W32 := 0
  /-- consecutive windows with margin below LOW_MARGIN by agent × 128 + port; 14 R472; DESIGN CHOICE 0 (log 3) -/
  lowWins : SMap Nat := []
  deriving DecidableEq, Repr

/-- The score of an element and whether a FORECAST event was posted for it (R297). -/
structure Score where
  elem : Element
  score : W16
  posted : Bool
  deriving DecidableEq, Repr

/-- An unhanded fault whose sequence runs (R306). -/
structure Unhanded where
  desc : Desc
  /-- 0 cards being loaded, 1 trump originated or table change made -/
  phase : Nat
  deriving DecidableEq, Repr

/-- A repair computed when no card waits (R307): its fault key, the faults played before it, the epoch it is for, and its
repair number in the deck in force. -/
structure Computed where
  key : Desc
  after : List Desc
  epoch : W32
  repair : Nat
  deriving DecidableEq, Repr

/-- A link as an agent sees it: out of its port, to a neighbour, at a cost (R272). -/
structure Arc where
  u : W16
  p : Nat
  w : W16
  cost : Nat
  date : Bool
  deriving DecidableEq, Repr

/-- The network a solve works on: agents with tables, everything that is a destination, and the agents' links. -/
structure Net where
  nodes : List W16
  dests : List W16
  arcs : List Arc
  deriving DecidableEq, Repr

/-- Depot addresses that a deal was given (R277, R309): image, cost table, distance vectors, base image. -/
structure DealFiles where
  image : Nat
  costs : Nat
  dists : Nat
  base : Nat
  deriving DecidableEq, Repr

/-- A deal in progress, or the table change of a MIX_FAIL repair alone (R294, R309). -/
structure Deal where
  files : DealFiles
  /-- depot address of the staging policy -/
  policy : Nat
  /-- depot address of the half that the new deck is written to -/
  deck : Nat
  /-- the network of step 1, its costs fixed (R272) -/
  net : Net
  /-- fabric epoch the solve starts from -/
  epoch : W32
  /-- 0 image at the verifier, 1 single repairs at the verifier, 2 pairs at the verifier -/
  phase : Nat := 0
  /-- repairs whose jobs are still to be queued, and repairs queued that have no result -/
  todo : List Nat := []
  wait : List Nat := []
  /-- faults of the cut list of R311 that the solve takes as cut -/
  cuts : List Desc := []
  /-- the fault of a MIX_FAIL repair whose table change this is -/
  only : Option Desc := none
  deriving DecidableEq, Repr

/-- A forecast batch in progress (R298): when it started, its library and policy, and what its streams give. -/
structure Batch where
  at_ : Nat
  lib : Nat
  policy : Nat
  outs : List ModelOut
  deriving DecidableEq, Repr

/-- A convoy schedule being written to the agents (R282): its address, the agents that acknowledged every write, and the frame
of the last acknowledgement. -/
structure ConvoyLoad where
  addr : Nat
  acked : List W16 := []
  last : W32 := 0
  deriving DecidableEq, Repr

/-- What the controller recorded in a hand slot (R301). -/
structure HandRec where
  card : W32
  repair : Nat
  /-- the fault its triggers match -/
  fault : Desc
  /-- 1 LOADING, 2 ARMED, 3 PLAYED -/
  state : Nat
  deriving DecidableEq, Repr

/-- The deck index, forecasts and hands (08). -/
structure Deck where
  /-- depot address of the deck area; 08 R283; none at reset -/
  area : Option Nat := none
  /-- depot address of the deck in force, one of the area's halves; 08 R283; none at reset -/
  addr : Option Nat := none
  /-- deck index in force: first key, second key, repair number; 08 R289; DESIGN CHOICE empty (log 3) -/
  index : List (Desc × Desc × Nat) := []
  /-- verification records: image address and SHA-384; 08 R289, 04 R151; DESIGN CHOICE empty (log 3) -/
  verified : List (Nat × Digest) := []
  /-- deal number of the deck in force; 8; 08 R286; DESIGN CHOICE 0 (log 3) -/
  deal : Byte := 0
  /-- the deal in progress; 08 R309; none at reset -/
  dealing : Option Deal := none
  /-- completion of the last deal: fabric epoch and flags, bit 0 a staging policy field out of range; 08 R299; none at reset -/
  completion : Option (W32 × Byte) := none
  /-- depot address of the staging policy in force; 08 R299; none at reset -/
  policyAt : Option Nat := none
  /-- depot addresses of the last deal's files; 08 R309; none at reset -/
  files : Option DealFiles := none
  /-- agents that would need more than 256 masks; 01 R35; DESIGN CHOICE empty (log 3) -/
  crowded : List W16 := []
  /-- agents that a placement change moves, with the slice each is to be in, none for a member that leaves; 09 R330; DESIGN
  CHOICE empty (log 3) -/
  placement : List (W16 × Option (Fin 512)) := []
  /-- faults whose repairs played in the epoch; 08 R306; DESIGN CHOICE empty (log 3) -/
  played : List Desc := []
  /-- faults played while a change was open; 08 R311; DESIGN CHOICE empty (log 3) -/
  playedInChange : List Desc := []
  /-- faults that the next deal's solve takes as cut; 08 R311; DESIGN CHOICE empty (log 3) -/
  cutList : List Desc := []
  /-- unhanded faults in hand; 08 R306; DESIGN CHOICE empty (log 3) -/
  unhanded : List Unhanded := []
  /-- hands by agent × 4 + slot; 08 R301; DESIGN CHOICE empty (log 3) -/
  hands : SMap (Option HandRec) := []
  /-- scores; 08 R297; DESIGN CHOICE empty (log 3) -/
  scores : List Score := []
  /-- the forecast batch in progress; 08 R298; none at reset -/
  batch : Option Batch := none
  /-- kind-1 trumps received: peer and time, µs; 08 R308; DESIGN CHOICE empty (log 3) -/
  trumps : List (W16 × Nat) := []
  /-- agents lost: ID and time, µs; 08 R308; DESIGN CHOICE empty (log 3) -/
  lost : List (W16 × Nat) := []
  /-- repairs computed since the deal; 08 R307; DESIGN CHOICE empty (log 3) -/
  computed : List Computed := []
  /-- convoy schedules that passed the verifier: address and SHA-384; 08 R276; DESIGN CHOICE empty (log 3) -/
  schedules : List (Nat × Digest) := []
  /-- the convoy schedule whose shadow tables are being written; 08 R282; none at reset -/
  convoy : Option ConvoyLoad := none
  /-- card holders with fewer than two armed inbound ports, of the last table exchange; 08 R304; DESIGN CHOICE empty (log 3) -/
  thin : List W16 := []
  deriving DecidableEq, Repr

/-- A partition's fold-book entry (R324, R325). -/
structure FoldPart where
  /-- times of the last 15 RST_DONE notices, ms, newest first; 15 × 32; 09 R324; DESIGN CHOICE empty (log 3) -/
  times : List Nat := []
  /-- due to fold; 1; 09 R325; DESIGN CHOICE 0 (log 3) -/
  due : Bool := false
  /-- folded; 1; 09 R325; DESIGN CHOICE 0 (log 3) -/
  folded : Bool := false
  deriving DecidableEq, Repr

/-- An accelerator's fold-book entry (R325–R327). -/
structure FoldAcc where
  /-- folded; 1; 09 R325; DESIGN CHOICE 0 (log 3) -/
  folded : Bool := false
  /-- an unbind is pending; 1; 09 R327; DESIGN CHOICE 0 (log 3) -/
  unbindPending : Bool := false
  deriving DecidableEq, Repr

/-- The recovery block, fold book and restart buckets (R323–R328, R338, R339). -/
structure Fold where
  /-- FOLD_EN; 1; 09 R323; reset 1 -/
  en : Bool := true
  /-- FOLD_ON_KAT; 1; 09 R323; reset 1 -/
  onKat : Bool := true
  /-- FOLD_ON_RTO; 1; 09 R323; reset 1 -/
  onRto : Bool := true
  /-- FOLD_RESETS; 4; 09 R323; reset 3 -/
  resets : BitVec 4 := 3
  /-- FOLD_WINDOW_S; 17; 09 R323; reset 600 -/
  windowS : BitVec 17 := 600
  /-- FOLDS; 32; 09 R323; reset 0 -/
  folds : W32 := 0
  /-- ACC_FOLDS; 32; 09 R323; reset 0 -/
  accFolds : W32 := 0
  /-- RESTART_HELD; 32; 09 R323; reset 0 -/
  held : W32 := 0
  /-- FOLD_LOG_NEXT; 6; 09 R323; reset 0 -/
  logNext : BitVec 6 := 0
  /-- FOLD_LOG_SEQ; 32; 09 R323; reset 0 -/
  logSeq : W32 := 0
  /-- DOMAIN by rack half; 128 × 8; 09 R323; reset 0 -/
  domain : SMap Byte := []
  /-- BUDGET by domain; 32 × 16; 09 R323; reset 32 -/
  budget : SMap W16 := []
  /-- FOLD_LOG by entry; 64 × 256; 09 R323; reset 0 -/
  log : SMap (BitVec 256) := []
  /-- fold book, partitions by agent × 16 + partition; 09 R324; DESIGN CHOICE empty (log 3) -/
  parts : SMap FoldPart := []
  /-- fold book, accelerators by agent; 09 R325; DESIGN CHOICE empty (log 3) -/
  accs : SMap FoldAcc := []
  /-- PART notices not yet examined by the monitor; 09 R325; DESIGN CHOICE empty (log 3) -/
  notices : List Flit := []
  /-- tokens missing from each domain's bucket; 09 R339; starts full -/
  tokens : SMap Nat := []
  /-- PRESET commands held: domain, context, target index; 09 R339; DESIGN CHOICE empty (log 3) -/
  waiting : List (Nat × Nat × Nat) := []
  /-- agents for which a kind 2 trump is due: descriptor's peer; 09 R325; DESIGN CHOICE empty (log 3) -/
  trumpDue : List W16 := []
  deriving DecidableEq, Repr

/-- An open landing window (R365, R366). -/
structure Landing where
  convoy : W32
  input : Nat
  row : Nat
  vbase : Nat
  ring : Nat
  /-- span, bytes -/
  span : Nat
  /-- ring size, bytes -/
  size : Nat
  tenant : W16
  /-- flits landed since the window opened -/
  n : Nat := 0
  /-- every line from this offset on is poisoned -/
  stopAt : Option Nat := none
  /-- lines poisoned by gaps -/
  bad : List Nat := []
  /-- lines read -/
  read : List Nat := []
  /-- the last flit has landed -/
  last : Bool := false
  /-- frame at which the window opens -/
  openAt : W32 := 0
  /-- the plan that opened the window, by its depot address -/
  plan : Nat := 0
  deriving DecidableEq, Repr

/-- A delivery (R365, R367): its flits sent so far. -/
structure Delivery where
  convoy : W32
  dest : W16
  src : Nat
  len : Nat
  plan : Nat
  /-- the commit word of the segment's stream is set (R367) -/
  ready : Bool := false
  sent : Bool := false
  deriving DecidableEq, Repr

/-- Rebuild windows (R366, R367). -/
structure Rebuild where
  /-- open landing entries; 4,096; 10 R366; DESIGN CHOICE empty (log 3) -/
  windows : List Landing := []
  /-- delivery entries of posted plans; 10 R365; DESIGN CHOICE empty (log 3) -/
  deliveries : List Delivery := []
  /-- landing schedule: sub-port × 64 + slot names a convoy; 10 R366, 08 R280; none at reset -/
  sched : SMap (Option W32) := []
  /-- CONVOY_MISS of the package's gates; 32; 10 R366; DESIGN CHOICE 0 (log 3) -/
  convoyMiss : W32 := 0
  deriving DecidableEq, Repr

/-- The fabric as the active package's controller sees it. -/
structure Fabric where
  /-- bound pod plan; 01 R30; none at reset -/
  plan : Option Plan := none
  /-- a plan bound while the pod runs, in force from the next rediscovery pass; 01 R32; none at reset -/
  nextPlan : Option Plan := none
  /-- path book; 04 R508; DESIGN CHOICE empty (log 3) -/
  paths : List Known := []
  /-- generation book by agent; 16 each; 02 R88; none at reset -/
  gens : SMap (Option W16) := []
  /-- link book; 01 R46; DESIGN CHOICE empty (log 3) -/
  links : List LinkRec := []
  /-- ring closures; 01 R47; DESIGN CHOICE empty (log 3) -/
  closures : List Closure := []
  /-- a cut has been recorded since the last table change; 1; 01 R49; DESIGN CHOICE 0 (log 3) -/
  cutPend : Bool := false
  /-- blocks restored and not yet in a table change; 01 R49; DESIGN CHOICE empty (log 3) -/
  restores : List Desc := []
  /-- kitty, ascending IDs; 05 R172; DESIGN CHOICE empty (log 3) -/
  kitty : List W16 := []
  disc : Discovery := {}
  cong : Congestion := {}
  deck : Deck := {}
  fold : Fold := {}
  reb : Rebuild := {}
  /-- the package's sub-ports 0–79; 04 R508, 01 R507 -/
  ports : SMap Port := []
  /-- the package's trump filter, oldest first; 16 descriptors; 03 R108; DESIGN CHOICE empty (log 3) -/
  filter : List Desc := []
  /-- FRAME; 32; 02 R72; DESIGN CHOICE 0 (log 3) -/
  frame : W32 := 0
  /-- retrains in progress by lane; 14 R474; none at reset -/
  cals : List Cal := []
  deriving DecidableEq, Repr

end Sys2Proof.Machine
end

