-- ==== Sys2Proof/Machine/StateLedger.lean ====
section
/-! DEFINITION. The state of the ledger: partitions, slice table, tallies, settlement, queues and mailboxes (11 of the
spec), as plain data. -/

namespace Sys2Proof.Machine

/-- A ledger partition's table entry (R375). USED counts are read from the resources. -/
structure LPart where
  /-- TENANT; 16; 11 R375; reset 0 -/
  tenant : W16 := 0
  /-- CLEAN; 1; 11 R375; reset 1 -/
  clean : Bool := true
  /-- TALLY_QUOTA; 17; 11 R375; reset 0, 65,536 for partition 0 -/
  tallyQuota : BitVec 17 := 0
  /-- QUEUE_QUOTA; 16; 11 R375; reset 0, 32,768 for partition 0 -/
  queueQuota : W16 := 0
  /-- MBX_QUOTA; 13; 11 R375; reset 0, 4,096 for partition 0 -/
  mbxQuota : BitVec 13 := 0
  /-- DENIED; 32; 11 R375; reset 0 -/
  denied : W32 := 0
  deriving DecidableEq, Repr

/-- Partition 0 starts with every resource of the ledger (R375). -/
def lpartDflt (p : Nat) : LPart :=
  if p = 0 then { tallyQuota := 65536, queueQuota := 32768, mbxQuota := 4096 } else {}

/-- A slice-table entry (R376) with the ledger's record of the slice's last epoch increment (R334). -/
structure SliceEnt where
  /-- PART; 6; 11 R376; reset 0 -/
  part : BitVec 6 := 0
  /-- VALID; 1; 11 R376; reset 0 -/
  valid : Bool := false
  /-- SEPOCH; 16; 11 R376; reset 0 -/
  sepoch : W16 := 0
  /-- time of the previous epoch increment, µs; 09 R334; none at reset -/
  incAt : Option Nat := none
  deriving DecidableEq, Repr

/-- A tally (R377). STRICT and WAITERS are read from its number and from who waits. -/
structure Tally where
  /-- COUNT; 32; 11 R377; reset 0 -/
  count : W32 := 0
  /-- PART; 6; 11 R377; reset 0 -/
  part : BitVec 6 := 0
  /-- EN; 1; 11 R377; reset 0, 1 on strict tallies -/
  en : Bool := false
  /-- SKIPPED; 1; 11 R377; reset 0 -/
  skipped : Bool := false
  /-- SETTLED; 32; 11 R377; reset 0 -/
  settled : W32 := 0
  /-- DRIFT; 32; 11 R377; reset 0 -/
  drift : W32 := 0
  deriving DecidableEq, Repr

/-- Tallies 0x0000–0x03FF are strict and always open (R377). -/
def tallyDflt (t : Nat) : Tally := { en := decide (t < 0x400) }

/-- A class-8 WAIT held (R380). -/
structure WaitHold where
  src : W16
  seq : W16
  slice : BitVec 9
  tally : W16
  cmp : Nat
  value : W32
  deriving DecidableEq, Repr

/-- A duplicate-filter entry (R381). -/
structure FilterEnt where
  src : W16
  seq : W16
  tally : W16
  operand : W32
  completion : Flit
  at_ : Nat
  deriving DecidableEq, Repr

/-- An agent's answer to a CALL (R387, R388). -/
structure Answer where
  agent : W16
  /-- partition of the agent's slice when its ADD was applied -/
  part : BitVec 6
  /-- flit indices received -/
  got : List Nat := []
  /-- index of the answer's final flit once known -/
  last : Option Nat := none
  incomplete : Bool := false
  deriving DecidableEq, Repr

/-- The books of one stamp (R388). -/
structure Stamp where
  /-- the stamp's number; 32; 11 R385; the first is 0 (DESIGN CHOICE, log 3) -/
  stamp : W32 := 0
  /-- tallies touched under the stamp with R_k once the boundary has passed -/
  touched : List (W16 × W32) := []
  /-- dealer, station and owner sums L_k -/
  loc : List (W16 × W32) := []
  /-- tallies set under the stamp -/
  sets : List W16 := []
  /-- agents whose ADDs were applied under the stamp, with their answers -/
  agents : List Answer := []
  /-- entries reported: tally, stamp, sum -/
  entries : List (W16 × W32 × W32) := []
  /-- CALLs have been sent -/
  called : Bool := false
  /-- its CALLs or its finalization fell in a dealer takeover gap (R388, R392) -/
  deferred : Bool := false
  /-- a stamp of the old package's that a catch-up settlement calls (R390) -/
  catchUp : Bool := false
  deriving DecidableEq, Repr

/-- Settlement (R385–R391). -/
structure Settle where
  /-- SETTLE_P; 14; 11 R391; reset 1000 -/
  period : BitVec 14 := 1000
  /-- GRACE_US; 10; 11 R391; reset 100 -/
  grace : BitVec 10 := 100
  /-- SETTLED_NO; 32; 11 R391; reset 0 -/
  settledNo : W32 := 0
  /-- WAIT_LIMIT_MS; 16; 11 R391; reset 100 -/
  waitLimit : W16 := 100
  /-- DRIFT_THRESH; 32; 11 R391; reset 1 -/
  driftThresh : W32 := 1
  /-- SETTLE_SKIP; 32; 11 R391; reset 0 -/
  skip : W32 := 0
  /-- SETTLE_NO and the books of the current stamp; 32; 11 R391; reset 0 -/
  cur : Stamp := {}
  /-- stamps whose boundary has passed, oldest first; 11 R388; DESIGN CHOICE empty (log 3) -/
  open_ : List Stamp := []
  /-- a SETTLE asks for a boundary at the next frame start; 1; 11 R385; DESIGN CHOICE 0 (log 3) -/
  asked : Bool := false
  /-- what the last settlement of a stamp examined and logged, for SETTLE: stamp, tallies, drift entries; 11 R389; DESIGN CHOICE empty (log 3) -/
  results : List (W32 × Nat × Nat) := []
  /-- latest stamp each tally was skipped for; 32; 11 R388; none at reset -/
  skipUpto : SMap (Option W32) := []
  deriving DecidableEq, Repr

/-- A queue descriptor (R394). -/
structure Queue where
  /-- BASE; 64; 11 R394; reset 0 -/
  base : W64 := 0
  /-- ORDER; 4; 11 R394; reset 0 -/
  order : BitVec 4 := 0
  /-- ESIZE; 3; 11 R394; reset 0 -/
  esize : BitVec 3 := 0
  /-- LOC; 1; 11 R394; reset 0 -/
  loc : Bool := false
  /-- KIND; 3; 11 R394; reset 0 -/
  kind : BitVec 3 := 0
  /-- PROD_HOST; 1; 11 R394; reset 0 -/
  prodHost : Bool := false
  /-- CONS_HOST; 1; 11 R394; reset 0 -/
  consHost : Bool := false
  /-- GATED; 1; 11 R394; reset 0 -/
  gated : Bool := false
  /-- EN; 1; 11 R394; reset 0 -/
  en : Bool := false
  /-- PART; 6; 11 R394; reset 0 -/
  part : BitVec 6 := 0
  /-- DELIVER; 16; 11 R394; reset 0xFFFF -/
  deliver : W16 := 0xFFFF
  /-- HEAD; 15; 11 R394; reset 0 -/
  head : BitVec 15 := 0
  /-- TAIL; 15; 11 R394; reset 0 -/
  tail : BitVec 15 := 0
  /-- LOST; 32; 11 R394; reset 0 -/
  lost : W32 := 0
  /-- PUSHES; 32; 11 R394; reset 0 -/
  pushes : W32 := 0
  deriving DecidableEq, Repr

/-- A ledger mailbox (R398). -/
structure LMbx where
  /-- CLASS; 1; 11 R398; reset 0 -/
  cmd : Bool := false
  /-- EN; 1; 11 R398; reset 0, 1 for mailbox 0 -/
  en : Bool := false
  /-- PART; 6; 11 R398; reset 0 -/
  part : BitVec 6 := 0
  /-- SERVER; 8; 11 R398; reset 0, 33 for mailbox 0 -/
  server : Byte := 0
  /-- LEASE; 14; 11 R398; reset 10 -/
  lease : BitVec 14 := 10
  /-- CLAIM; 8; 11 R398; reset 0 -/
  claim : Byte := 0
  /-- FULL; 1; 11 R398; reset 0 -/
  full : Bool := false
  /-- COLL; 1; 11 R398; reset 0 -/
  coll : Bool := false
  /-- RING; 1; 11 R398; reset 0 -/
  ring : Bool := false
  /-- DONE; 1; 11 R398; reset 0 -/
  done : Bool := false
  /-- CLAIM_EXPIRED; 1; 11 R398; reset 0 -/
  expired : Bool := false
  /-- ABORTED; 1; 11 R398; reset 0 -/
  aborted : Bool := false
  /-- DATA; 320; 11 R398; reset 0 -/
  data : BitVec 320 := 0
  /-- POSTS; 32; 11 R398; reset 0 -/
  posts : W32 := 0
  /-- COLLS; 32; 11 R398; reset 0 -/
  colls : W32 := 0
  /-- DATA written for a device server while FULL is set; 11 R400; none at reset -/
  heldData : Option (BitVec 320) := none
  /-- a post to a device server waits until FULL clears; 1; 11 R400; DESIGN CHOICE 0 (log 3) -/
  heldPost : Bool := false
  deriving DecidableEq, Repr

/-- Mailbox 0 is the rebuild mailbox (R398, R404). -/
def lmbxDflt (m : Nat) : LMbx := if m = 0 then { en := true, server := 33 } else {}

/-- An operation queued in a takeover gap (R187, R384): a class-8 flit, or a stream's TSIG (07, At the edges) with its engine
and handle. -/
inductive GapOp where
  | flit (f : Flit)
  | sig (e : Nat) (handle : W16) (t : W16) (v : W32)
  deriving DecidableEq, Repr

/-- The ledger. -/
structure Ledger where
  /-- partitions 0–63 -/
  parts : SMap LPart := []
  /-- slice table 0–511 -/
  slices : SMap SliceEnt := []
  /-- tallies 0–65,535 -/
  tallies : SMap Tally := []
  settle : Settle := {}
  /-- class-8 WAITs held, oldest first; 4,096; 11 R380; DESIGN CHOICE empty (log 3) -/
  holds : List WaitHold := []
  /-- duplicate filter, oldest first; 65,536; 11 R381; DESIGN CHOICE empty (log 3) -/
  filter : List FilterEnt := []
  /-- operations queued in a dealer takeover gap; 65,536; 11 R384; DESIGN CHOICE empty (log 3) -/
  gap : List GapOp := []
  /-- STALE_TALLY; 32; 11 R391; reset 0 -/
  stale : W32 := 0
  /-- DENIED_CNT; 32; 11 R391; reset 0 -/
  denied : W32 := 0
  /-- FILTERED; 32; 11 R391; reset 0 -/
  filtered : W32 := 0
  /-- GAP_DROP; 32; 11 R391; reset 0 -/
  gapDrop : W32 := 0
  /-- STANDBY_DROP; 32; 11 R391; reset 0 -/
  standbyDrop : W32 := 0
  /-- FILTER_FULL; 32; 11 R391; reset 0 -/
  filterFull : W32 := 0
  /-- LEDGER_DEGRADED; 1; 11 R391; reset 0 -/
  degraded : Bool := false
  /-- FAILED_HALF; 1; 11 R391; reset 0 -/
  failedHalf : Bool := false
  /-- EVQ by notice code; 16 × 16; 11 R391; reset 0 -/
  evq : SMap W16 := []
  /-- queues 0–0x7FFF -/
  queues : SMap Queue := []
  /-- ring SRAM by byte; 8 MiB; 11 R375; DESIGN CHOICE 0 (log 3) -/
  sram : Mem := []
  /-- mailboxes 0–4,095 -/
  mbx : SMap LMbx := []
  /-- secure bank by mailbox; 64 × 40 bytes; 11 R405; DESIGN CHOICE 0 (log 3) -/
  secure : SMap (BitVec 320) := []
  deriving DecidableEq, Repr

end Sys2Proof.Machine
end

