-- ==== Sys2Proof/Machine/StateSecure.lean ====
section
/-! DEFINITION. The state of the Assayers, key slots, depot allocations, secure channel and the coin-cell domain (12 of
the spec), as plain data. -/

namespace Sys2Proof.Machine

/-- What an operation captures of a loaded key (R416). -/
structure KeyVal where
  key : BitVec 256
  /-- depot address of the protected range -/
  data : Nat
  /-- tag base -/
  tag : Nat
  /-- length, bytes -/
  len : Nat
  packId : W32
  kgen : W16
  use : BitVec 2
  tenant : W16
  deriving DecidableEq, Repr

/-- A key slot (R413, R417). -/
structure KeySlot where
  /-- STATE (0 EMPTY, 1 LOADED, 2 ERASING); 2; 12 R413; reset 0 -/
  st : BitVec 2 := 0
  /-- USE; 2; 12 R413; reset 0 -/
  use : BitVec 2 := 0
  /-- WRAP; 2; 12 R413; reset 0 -/
  wrap : BitVec 2 := 0
  /-- TENANT; 16; 12 R413; reset 0 -/
  tenant : W16 := 0
  /-- KGEN; 16; 12 R413; reset 0 -/
  kgen : W16 := 0
  /-- PACK_ID; 32; 12 R413; reset 0 -/
  packId : W32 := 0
  /-- UNITS; 23; 12 R413; reset 0 -/
  units : BitVec 23 := 0
  /-- current key with its range; 256; 12 R417; DESIGN CHOICE 0 (log 3) -/
  key : BitVec 256 := 0
  /-- data base of the current key; 64; 12 R414; DESIGN CHOICE 0 (log 3) -/
  data : Nat := 0
  /-- tag base of the current key; 64; 12 R414; DESIGN CHOICE 0 (log 3) -/
  tag : Nat := 0
  deriving DecidableEq, Repr

/-- A release key (R414): number, private key, public key, creation time. -/
structure ReleaseKey where
  id : W32
  priv : BitVec 384
  pub : BitVec 768
  usable : Bool := true
  deriving DecidableEq, Repr

/-- An Assayer's stores that its reset clears (R407). -/
structure Store where
  /-- key slots 0–63 -/
  slots : SMap KeySlot := []
  /-- release keys, oldest first; 8; 12 R414; reset empty -/
  release : List ReleaseKey := []
  deriving DecidableEq, Repr

/-- A binding of a secure mailbox (R424): agent and stage of its session. -/
structure SpdmSess where
  agent : W16
  /-- context whose ATTEST uses it -/
  ctx : Nat
  /-- messages exchanged so far -/
  step : Nat
  /-- fragments of the message being received -/
  inbuf : List Byte := []
  /-- messages received so far -/
  seen : List Byte := []
  deriving DecidableEq, Repr

/-- The Assayers (R406–R413, R420, R430). -/
structure Assayer where
  /-- ASY_VER; 32; 12 R413; reset image (DESIGN CHOICE 0 until P2, log 3) -/
  ver : W32 := 0
  /-- MIRROR_OK; 1; 12 R413; reset 0 -/
  mirrorOk : Bool := false
  /-- PROV_UNLOCK; 1; 12 R413; reset 0 -/
  unlock : Bool := false
  /-- serving store; 12 R406 -/
  store : Store := {}
  /-- mirror's store; 12 R406; DESIGN CHOICE empty (log 3) -/
  mirror : Store := {}
  /-- MEAS registers 0–15; 16 × 384; 12 R413; reset 0 -/
  meas : SMap Digest := []
  /-- EXTEND_IDX; 4; 12 R413; reset 10 -/
  extIdx : BitVec 4 := 10
  /-- EXTEND_DATA; 384; 12 R413; reset 0 -/
  extData : Digest := 0
  /-- XFER_STATE; 3; 12 R413; reset 0 -/
  xfer : BitVec 3 := 0
  /-- members that may take the set key, with the time of the write, µs; 12 R430; DESIGN CHOICE empty (log 3) -/
  allow : List (Nat × Nat) := []
  /-- last release ID; 32; 12 R414; DESIGN CHOICE 0 (log 3) -/
  lastRel : W32 := 0
  /-- security version of the running image; 32; 12 R408; DESIGN CHOICE 0 (log 3) -/
  secVer : W32 := 0
  /-- the running image is B; 1; 12 R408; DESIGN CHOICE 0 (log 3) -/
  imageB : Bool := false
  /-- SPDM slot 1 chain; 12 R412; DESIGN CHOICE empty (log 3) -/
  rootChain : List Byte := []
  /-- secure mailboxes bound, by k 0–63; 12 R424; none at reset -/
  sess : SMap (Option SpdmSess) := []
  deriving DecidableEq, Repr

/-- A log entry of the coin-cell domain (R425). -/
structure VLog where
  s : W32
  sub : BitVec 15
  code : Byte
  detail : Byte
  number : W32
  data : W32
  deriving DecidableEq, Repr

/-- The coin-cell domain (R425–R431). -/
structure Vbat where
  /-- RTC_S; 32; 12 R425; VBAT (DESIGN CHOICE 0, log 3) -/
  rtcS : W32 := 0
  /-- RTC_SUB; 15; 12 R425; VBAT (DESIGN CHOICE 0, log 3) -/
  rtcSub : BitVec 15 := 0
  /-- VBAT_OK; 1; 12 R425; DESIGN CHOICE 1 (log 3) -/
  ok : Bool := true
  /-- SETKEY_VALID; 1; 12 R425; VBAT (DESIGN CHOICE 0, log 3) -/
  setValid : Bool := false
  /-- TAMPER_FLAG; 1; 12 R425; VBAT (DESIGN CHOICE 0, log 3) -/
  tamper : Bool := false
  /-- TEMP_FLAG; 1; 12 R425; VBAT (DESIGN CHOICE 0, log 3) -/
  temp : Bool := false
  /-- BATT_LOST; 1; 12 R425; DESIGN CHOICE 0 (log 3) -/
  battLost : Bool := false
  /-- TAMPER_EN; 1; 12 R425; VBAT (DESIGN CHOICE 0, log 3) -/
  tamperEn : Bool := false
  /-- TAMPER_LOCK; 1; 12 R425; VBAT (DESIGN CHOICE 0, log 3) -/
  tamperLock : Bool := false
  /-- HELD_CAUSE; 5; 12 R425; VBAT (DESIGN CHOICE 0, log 3) -/
  cause : BitVec 5 := 0
  /-- HELD; 1; 12 R428; DESIGN CHOICE 0 (log 3) -/
  held : Bool := false
  /-- MONO0–MONO7; 8 × 32; 12 R425; VBAT (DESIGN CHOICE 0, log 3) -/
  mono : SMap W32 := []
  /-- LOG_NEXT; 6; 12 R425; VBAT (DESIGN CHOICE 0, log 3) -/
  logNext : BitVec 6 := 0
  /-- running event number; 32; 12 R425; VBAT (DESIGN CHOICE 0, log 3) -/
  logNo : W32 := 0
  /-- LOG by entry; 64 × 128; 12 R425; VBAT (DESIGN CHOICE empty, log 3) -/
  log : SMap (Option VLog) := []
  /-- CEPOCH_KEPT; 16; 12 R425; VBAT (DESIGN CHOICE 0, log 3) -/
  cepoch : W16 := 0
  /-- DEPOCH_KEPT; 16; 12 R425; VBAT (DESIGN CHOICE 0, log 3) -/
  depoch : W16 := 0
  /-- SET_ID; 32; 12 R413; VBAT (DESIGN CHOICE 0, log 3) -/
  setId : W32 := 0
  /-- SET_COUNT; 4; 12 R413; VBAT (DESIGN CHOICE 0, log 3) -/
  setCount : BitVec 4 := 0
  /-- SET_MEMBERS; 8 × 384; 12 R413; VBAT (DESIGN CHOICE 0, log 3) -/
  members : SMap Digest := []
  /-- set key; 256; 12 R420; VBAT (DESIGN CHOICE 0, log 3) -/
  setKey : BitVec 256 := 0
  /-- ROOT_SET; 1; 12 R413; VBAT (DESIGN CHOICE 0, log 3) -/
  rootSet : Bool := false
  /-- ROOT_HASH; 384; 12 R413; VBAT (DESIGN CHOICE 0, log 3) -/
  rootHash : Digest := 0
  deriving DecidableEq, Repr

/-- A depot allocation (R422). -/
structure Alloc where
  /-- BASE; 17; 12 R422; reset 0 -/
  base : BitVec 17 := 0
  /-- SIZE; 10; 12 R422; reset 0 -/
  size : BitVec 10 := 0
  /-- TENANT; 16; 12 R422; reset 0 -/
  tenant : W16 := 0
  /-- STATE (0 FREE, 1 GRANTED, 2 SCRUBBING); 2; 12 R422; reset 0 -/
  st : BitVec 2 := 0
  deriving DecidableEq, Repr

/-- A depot scrub waiting or running (R422): range, and what follows: an entry granted or freed, or a SCRUB instruction. -/
structure Scrub where
  addr : Nat
  len : Nat
  /-- allocation entry and its next state, if the scrub is the table's -/
  entry : Option (Nat × BitVec 2)
  /-- context whose SCRUB waits -/
  ctx : Option Nat
  deriving DecidableEq, Repr

/-- The depot (R11, R422, R439, R449). -/
structure Depot where
  /-- bytes; 144 GiB; 11 R11; reset 0 (R449) -/
  mem : Mem := []
  /-- poisoned or uncorrectable 64-byte lines; 07 R264; DESIGN CHOICE empty (log 3) -/
  bad : List Nat := []
  /-- allocation table 0–255 -/
  allocs : SMap Alloc := []
  /-- scrubs in the order requested; 12 R422; DESIGN CHOICE empty (log 3) -/
  scrubs : List Scrub := []
  deriving DecidableEq, Repr

end Sys2Proof.Machine
end

