-- ==== Sys2Proof/Machine/StateStation.lean ====
section
/-! DEFINITION. The state of the station dies, their tile engines and the streams on them (06 and 07 of the spec),
as plain data. -/

namespace Sys2Proof.Machine

/-- An operand slot as OPND, OBMP and MODEL define it (R252, R254). -/
structure OpSlot where
  fmt : Nat
  addr : W64
  exp : Byte
  /-- key index, 15 for none -/
  key : Nat
  /-- read with bitmap -/
  withBmp : Bool
  bmp : W64 := 0
  /-- tiles the prefetch buffer held for this slot and address (R254) -/
  pre : List Byte := []
  deriving DecidableEq, Repr

/-- A configuration: what a compute instruction binds when it issues (R250). -/
structure Conf where
  /-- operand slots 0–7; format, address, exponent, key index, bitmap address; 07 R245; undefined (none) at stream start -/
  slots : SMap (Option OpSlot) := []
  /-- output target: address, format, key index; 07 R245; none at stream start -/
  out : Option (W64 × Nat × Nat) := none
  /-- flags array target; 64; 07 R245; none at stream start -/
  flagsAt : Option W64 := none
  /-- output bitmaps target; 64; 07 R245; none at stream start -/
  bmpAt : Option W64 := none
  /-- witnesses target; 64; 07 R245; none at stream start -/
  witAt : Option W64 := none
  /-- GF coefficients and input count; 64 and 4; 07 R257; DESIGN CHOICE none (log 3) -/
  gf : Option (W64 × Nat) := none
  /-- LAYOUT in list: scratch address and entries; 07 R257; DESIGN CHOICE none (log 3) -/
  layIn : Option (W64 × Nat) := none
  /-- LAYOUT out list; 07 R257; DESIGN CHOICE none (log 3) -/
  layOut : Option (W64 × Nat) := none
  /-- bitmap addresses given before their slot was defined; 8 × 64; 07 R252; empty at stream start -/
  early : SMap W64 := []
  /-- HASH tap, digest address and message length; 07 R257; DESIGN CHOICE none (log 3) -/
  hash : Option (Nat × W64 × Nat) := none
  deriving DecidableEq, Repr

/-- What the preamble of a matrix stream fixes (R242, R251). -/
structure Preamble where
  /-- byte stream; 1; 07 R251; DESIGN CHOICE 0 (log 3) -/
  isByte : Bool := false
  /-- route bits; 11; 07 R251; DESIGN CHOICE 0 (log 3) -/
  route : BitVec 11 := 0
  /-- GRID mode; 3; 07 R251; DESIGN CHOICE 0 (log 3) -/
  mode : Nat := 0
  /-- accumulator format; 4; 07 R251; DESIGN CHOICE 0 (log 3) -/
  accF : Nat := 9
  /-- ACCUM rounding, SR; 1; 07 R251; DESIGN CHOICE 0 (log 3) -/
  srA : Bool := false
  /-- PACK rounding, SR; 1; 07 R251; DESIGN CHOICE 0 (log 3) -/
  srP : Bool := false
  /-- Eacc; 8; 07 R251; DESIGN CHOICE 0 (log 3) -/
  eacc : Byte := 0
  /-- output exponent; 8; 07 R251; DESIGN CHOICE 0 (log 3) -/
  oexp : Byte := 0
  /-- Mt; 16; 07 R251; DESIGN CHOICE 0 (log 3) -/
  mt : Nat := 0
  /-- Nt; 16; 07 R251; DESIGN CHOICE 0 (log 3) -/
  nt : Nat := 0
  /-- Kt; 16; 07 R251; DESIGN CHOICE 0 (log 3) -/
  kt : Nat := 0
  /-- sampling interval N; 11; 07 R245; 64 at stream start -/
  n : Nat := 64
  /-- threshold code τ; 5; 07 R245; 4 at stream start -/
  tau : Nat := 4
  /-- SOURCE mode; 1; 07 R245; CHECK at stream start -/
  source : Bool := false
  /-- divergence ring: address and capacity; 07 R245; none at stream start -/
  divRing : Option (W64 × Nat) := none
  deriving DecidableEq, Repr

/-- What a queued compute has still to do (R256, R258): output tiles from (i, j) on, or byte tiles from `done` on with the
parsed range lists of LAYOUT and what the four HASH cores hold. -/
inductive Work where
  | tiles (i j : Nat) (all : Bool)
  | bytes (len done : Nat) (inR outR : Option (List (W64 × Nat))) (cores : List (List Byte × Nat)) (base : Nat)
  deriving DecidableEq, Repr

/-- A queued TILE, RUN or BYTES with the configuration it issued with (R250). -/
structure Job where
  conf : Conf
  work : Work
  deriving DecidableEq, Repr

/-- A key captured from an Assayer slot when a stream starts (R245, R268, R416). -/
structure CapKey where
  slot : Nat
  val : KeyVal
  deriving DecidableEq, Repr

/-- A 4 KiB unit an encrypted write gathers (R415): key index, unit, the bytes written so far by offset. -/
structure EncUnit where
  k : Nat
  u : Nat
  got : SMap (Option Byte) := []
  deriving DecidableEq, Repr

/-- The launch block's fields and the run-time state of a stream (R243, R245, R262). -/
structure Stream where
  /-- completion record address; 64; 07 R243; DESIGN CHOICE 0 (log 3) -/
  cpl : Nat := 0
  /-- commit word address; 64; 07 R243; DESIGN CHOICE 0 (log 3) -/
  commit : Nat := 0
  /-- tile limit, µs; 16; 07 R243; DESIGN CHOICE 0 (log 3) -/
  tileLimit : Nat := 0
  /-- s1–s15 (s0 reads 0); 15 × 64; 07 R245; args and 0 at stream start -/
  s : SMap W64 := []
  /-- loop counters l0–l3, counter and loop start index; 4 × (32 + 12); 07 R245; inactive at stream start -/
  loops : SMap (Option (W32 × Nat)) := []
  /-- captured keys 0–3; 4 × 256; 07 R245; taken at stream start -/
  keys : SMap (Option CapKey) := []
  conf : Conf := {}
  pre : Preamble := {}
  /-- the compute running and the two queued behind it, oldest first; 3; 07 R250; empty at stream start -/
  jobs : List Job := []
  /-- output tile index t; 32; 07 R256; 0 at stream start -/
  t : Nat := 0
  /-- 4,096-byte tiles completed by BYTES; 32; 07 R262; 0 at stream start -/
  byteTiles : Nat := 0
  /-- counts of tiles with each flag bit 0–9; 10 × 32; 07 R262; 0 at stream start -/
  flagCnt : SMap Nat := []
  /-- divergence records written to the ring; 07 R251; 0 at stream start -/
  divs : Nat := 0
  /-- divergences not written to a ring; 32; 07 R262; 0 at stream start -/
  unrec : Nat := 0
  /-- FRAME at the start; 32; 07 R262; taken at stream start -/
  frame0 : W32 := 0
  /-- time in TWAIT, µs; 32; 07 R262; 0 at stream start -/
  twaitUs : Nat := 0
  /-- bytes combined by GF; 64; 07 R262; 0 at stream start -/
  gfBytes : Nat := 0
  /-- bytes hashed; 64; 07 R262; 0 at stream start -/
  hashed : Nat := 0
  /-- a corrected scratch error in the tile in hand; 1; 06 R200; 0 at stream start -/
  ecc : Bool := false
  /-- lines of the MOVE at the PC copied so far; 32; 07 R254; 0 at stream start -/
  moved : Nat := 0
  /-- bytes fed to HASH that do not fill a message yet; 07 R257; empty at stream start -/
  hbuf : List Byte := []
  /-- messages digested since HASHCFG; 07 R257; 0 at stream start -/
  hmsg : Nat := 0
  /-- units encrypted writes gather; 12 R415; empty at stream start -/
  enc : List EncUnit := []
  /-- the last two units LOAD verified under each key index, oldest first: key index, unit, bytes; 12 R415; empty at stream
  start -/
  units : List (Nat × Nat × List Byte) := []
  /-- depot ranges the stream wrote (R265): address and length; empty at stream start -/
  wrote : List (Nat × Nat) := []
  /-- prefetch buffer: slot, address and bytes; 64 KiB; 07 R254; empty at stream start -/
  prefetch : Option (Nat × W64 × List Byte) := none
  /-- the TWAIT in progress: tally, comparison, value and start time; 07 R259; none at stream start -/
  twait : Option (W16 × Nat × W64 × Nat) := none
  /-- fault decided, its record not yet written; 8; 07 R265; none at stream start -/
  ending : Option Byte := none
  deriving DecidableEq, Repr

/-- What an engine does when its scrub ends (R156, R158, R159, R265). -/
inductive AfterScrub where
  | nothing
  /-- start the stream whose launch block this is -/
  | start (handle : W16) (block : List Byte)
  /-- run the known-answer stream (R237) -/
  | kat
  /-- write the completion record of a stream that lost its key, at its address -/
  | record (handle : W16) (cpl : Nat) (bytes : List Byte)
  deriving DecidableEq, Repr

/-- A tile engine (R197–R200, R238, R245, R271). -/
structure Engine where
  /-- ENG_STATE (0 IDLE, 1 RUNNING, 2 SCRUBBING, 3 KAT, 4 FAILED); 3; 06 R238; reset 0 -/
  st : BitVec 3 := 0
  /-- HANDLE; 16; 06 R238; reset 0 -/
  handle : W16 := 0
  /-- TENANT; 16; 06 R238; reset 0 -/
  tenant : W16 := 0
  /-- TILES; 32; 06 R238; reset 0 -/
  tiles : W32 := 0
  /-- FLAGS_OR; 16; 06 R238; reset 0 -/
  flagsOr : W16 := 0
  /-- SAMPLED; 32; 06 R238; reset 0 -/
  sampled : W32 := 0
  /-- DIVERGED; 32; 06 R238; reset 0 -/
  diverged : W32 := 0
  /-- ECC_CORR; 16; 06 R238; reset 0 -/
  eccCorr : W16 := 0
  /-- SEED; 32; 06 R238; reset 0 -/
  seed : W32 := 0
  /-- PC; 12; 07 R271; reset 0 -/
  pc : Nat := 0
  /-- FAULT; 8; 07 R271; reset 0 -/
  fault : Byte := 0
  /-- scratch; 4 MiB; 06 R200; DESIGN CHOICE 0 (log 3) -/
  scratch : Mem := []
  /-- the current or last stream -/
  str : Stream := {}
  /-- the engine is scrubbed before its next stream whatever its tenant; 1; 07 R264; DESIGN CHOICE 0 (log 3) -/
  dirty : Bool := false
  /-- what follows the scrub in progress; 07 R269; none at reset -/
  after : AfterScrub := .nothing
  /-- the engine stopped in TWAIT and lends its budget; 1; 14 R467; DESIGN CHOICE 0 (log 3) -/
  lending : Bool := false
  deriving DecidableEq, Repr

/-- A station die (R197, R238, R240, R271, R460). -/
structure Die where
  /-- DIE_STATE (0 FUSED_OFF, 1 SPARE, 2 ASLEEP, 3 WAKING, 4 AWAKE, 5 RETIRING); 3; 06 R238; reset fuse -/
  st : BitVec 3 := 0
  /-- DIE_MHZ; 16; 06 R238; reset 0 -/
  mhz : W16 := 0
  /-- SLOT; 6; 06 R238; reset fuse (63 when not active) -/
  slot : BitVec 6 := 63
  /-- KAT_PASS; 8; 06 R238; reset 0 -/
  katPass : Byte := 0
  /-- PSVER; 32; 07 R271; reset 0 -/
  psver : W32 := 0
  /-- program store; 4,096 × 128; 07 R240; DESIGN CHOICE 0 (log 3) -/
  store : SMap (BitVec 128) := []
  /-- a broadcast waits until the die is idle: image and version; 07 R240; none at reset -/
  bcast : Option (List (BitVec 128) × W32) := none
  /-- the die goes to sleep when its streams have ended (WAVE); 1; 07 R267; DESIGN CHOICE 0 (log 3) -/
  sleepReq : Bool := false
  /-- engines whose known-answer stream WAVE mode 2 asked for and has no result of yet; 8; 04 R159; DESIGN CHOICE 0 (log 3) -/
  katLeft : Byte := 0
  /-- time the die last became idle, µs; 14 R460; DESIGN CHOICE 0 (log 3) -/
  idleAt : Nat := 0
  deriving DecidableEq, Repr

/-- A stream that has ended and whose record no JOIN has read (R244). -/
structure Ended where
  handle : W16
  /-- record state: 1 DONE, 2 FAULT, 3 CANCELLED -/
  st : Byte
  record : List Byte
  deriving DecidableEq, Repr

/-- Dies, engines and stream handles. -/
structure Stations where
  /-- dies 0–39 -/
  dies : SMap Die := []
  /-- engines 0–319 -/
  eng : SMap Engine := []
  /-- last handle assigned; 16; 07 R244; DESIGN CHOICE 0 (log 3) -/
  lastHandle : W16 := 0
  /-- ended streams no JOIN has read; 07 R244; DESIGN CHOICE empty (log 3) -/
  ended : List Ended := []
  deriving DecidableEq, Repr

end Sys2Proof.Machine
end

