-- ==== Sys2Proof/Machine/State.lean ====
section
/-! DEFINITION. The state of the fabric controller package and the agents of its pod, the reasons a step can stop, and
the state right after reset. -/

namespace Sys2Proof.Machine

/-- What the package puts out, in order: the model's own record of its pins and links. -/
inductive Out where
  /-- a flit on a fabric sub-port (R508) -/
  | flit (port : Nat) (f : Flit)
  /-- DOWN ordered sets on a sub-port's lanes (R314) -/
  | downSets (port : Nat)
  /-- a pair frame on the PAIR_HB wire (R189) -/
  | pair (fr : PairFrame)
  /-- a session datagram's bytes (R162) -/
  | datagram (n : Nat) (bytes : List Byte)
  /-- the handshake_failure alert that refuses a DTLS handshake of a peer on a management port (R160) -/
  | handshakeFailure (port : Bool) (peer : Nat)
  /-- the bytes a host read returned (R10, R11) -/
  | bytes (n : Nat) (off : Nat) (data : List Byte)
  /-- the value a host read returned (R11, R165) -/
  | value (n : Nat) (off : Nat) (v : W32)
  /-- an MCTP response (R164) -/
  | mctp (bytes : List Byte)
  /-- an SPDM response (R410) -/
  | spdm (bytes : List Byte)
  /-- what a giver of the set key answers inside the Assayers' session (R430) -/
  | setKey (dest : W16) (r : XferReply)
  /-- the completion of a table change: fabric epoch, card holders with fewer than two armed inbound ports (R304) -/
  | change (epoch : W32) (thin : List W16)
  /-- the chunk digests sent with a delivered rebuild segment, ascending (R367, log 123) -/
  | chunkDigests (dest : W16) (digests : List Digest)
  /-- an update streamed to the peer package (R194) -/
  | mirror (m : MirrorItem)
  deriving DecidableEq, Repr

/-- Why a step stops with a fault. -/
inductive Fault where
  /-- A command names a place of the pod outside the 65,536 that 16-bit agent IDs can tell apart (R14, R16): no such
  agent exists. Raised by every command whose operand is an agent place. Safe: the hardware has nothing there to act. -/
  | noSuchAgent (a : Nat)
  deriving DecidableEq, Repr

/-- Why a step refuses. -/
inductive Refusal where
  /-- The command has no meaning yet. Raised by the arms of exec that are rejected by name. Safe: the model stops
  where the hardware goes on. -/
  | notModelled (mnemonic : String)
  deriving DecidableEq, Repr

/-- The whole machine. -/
structure State where
  /-- commands waiting, first in first out; the model's own; reset empty -/
  pending : List Instr := []
  /-- microseconds since reset, counted by frame starts; the model's own; reset 0 (DESIGN CHOICE, log 2) -/
  us : Nat := 0
  /-- free-value counter; the model's own; reset 0 (DESIGN CHOICE, log 6) -/
  fresh : Nat := 0
  /-- agents of the pod by place -/
  agents : SMap Agent := []
  dealers : Dealers := {}
  reflex : Reflex := {}
  /-- sessions 0–7 -/
  sess : SMap Session := []
  own : Ownership := {}
  pair : Pair := {}
  stat : Stations := {}
  fab : Fabric := {}
  led : Ledger := {}
  asy : Assayer := {}
  vbat : Vbat := {}
  depot : Depot := {}
  plat : Platform := {}
  /-- outputs so far, oldest first; the model's own; reset empty -/
  out : List Out := []
  deriving DecidableEq, Repr

/-- The machine right after power-on reset, before bring-up (R434, R449): every field at the value its chapter gives. -/
def State.reset : State := {}

end Sys2Proof.Machine
end

