-- ==== Sys2Proof/Machine/Ops.lean ====
section
/-! DEFINITION. Named operations over the whole state: the one home of each register file's reads and writes, events,
outputs, free values. -/

namespace Sys2Proof.Machine

abbrev Result := Host.Outcome State Fault Refusal

/-! ## Register files -/

def sessDflt (_ : Nat) : Session := {}
def dieDflt (_ : Nat) : Die := {}
def engDflt (_ : Nat) : Engine := {}
def ctxDflt (_ : Nat) : Context := {}
def sliceDflt (_ : Nat) : SliceEnt := {}
/-- Device queues have the entry sizes of their entries (R277, R389, R393). -/
def queueDescDflt (q : Nat) : Queue :=
  if q = 0x7FF0 then { esize := 2, kind := 5 } else if q = 0x7FF1 then { esize := 0, kind := 5 }
  else if q = 0x7FF2 then { esize := 1, kind := 5 } else {}
def laneDflt (_ : Nat) : Lane := {}
def gportDflt (_ : Nat) : GPort := {}
def railDflt (_ : Nat) : Rail := {}
def allocDflt (_ : Nat) : Alloc := {}
def keyDflt (_ : Nat) : KeySlot := {}
def chanDflt (_ : Nat) : Channel := {}
def budgetDflt (_ : Nat) : W16 := 32
def z8 (_ : Nat) : Byte := 0
def z16 (_ : Nat) : W16 := 0
def z32 (_ : Nat) : W32 := 0
def z64 (_ : Nat) : W64 := 0
def zNat (_ : Nat) : Nat := 0
def zDig (_ : Nat) : Digest := 0
def noneOf {α : Type} (_ : Nat) : Option α := none

def State.agent (s : State) (a : Nat) : Agent := SMap.get Agent.dflt s.agents a
def State.setAgent (s : State) (a : Nat) (x : Agent) : State := { s with agents := SMap.set Agent.dflt s.agents a x }
def State.modAgent (s : State) (a : Nat) (f : Agent → Agent) : State := s.setAgent a (f (s.agent a))

/-- An agent's own step: the agent at a place of the pod changes, and nothing else. -/
def State.onAgent (s : State) (a : Nat) (f : Agent → Agent) : Result :=
  if a < 65536 then .next (s.modAgent a f) else .fault (.noSuchAgent a)

def State.session (s : State) (n : Nat) : Session := SMap.get sessDflt s.sess n
def State.setSession (s : State) (n : Nat) (x : Session) : State := { s with sess := SMap.set sessDflt s.sess n x }
def State.modSession (s : State) (n : Nat) (f : Session → Session) : State := s.setSession n (f (s.session n))

def State.ctx (s : State) (c : Nat) : Context := SMap.get ctxDflt s.dealers.core.ctx c
def State.setCtx (s : State) (c : Nat) (x : Context) : State :=
  { s with dealers := { s.dealers with core := { s.dealers.core with ctx := SMap.set ctxDflt s.dealers.core.ctx c x } } }
def State.modCtx (s : State) (c : Nat) (f : Context → Context) : State := s.setCtx c (f (s.ctx c))

def State.die (s : State) (d : Nat) : Die := SMap.get dieDflt s.stat.dies d
def State.setDie (s : State) (d : Nat) (x : Die) : State :=
  { s with stat := { s.stat with dies := SMap.set dieDflt s.stat.dies d x } }
def State.modDie (s : State) (d : Nat) (f : Die → Die) : State := s.setDie d (f (s.die d))
def State.eng (s : State) (e : Nat) : Engine := SMap.get engDflt s.stat.eng e
def State.setEng (s : State) (e : Nat) (x : Engine) : State :=
  { s with stat := { s.stat with eng := SMap.set engDflt s.stat.eng e x } }
def State.modEng (s : State) (e : Nat) (f : Engine → Engine) : State := s.setEng e (f (s.eng e))

def State.lpart (s : State) (p : Nat) : LPart := SMap.get lpartDflt s.led.parts p
def State.modLPart (s : State) (p : Nat) (f : LPart → LPart) : State :=
  { s with led := { s.led with parts := SMap.modify lpartDflt s.led.parts p f } }
def State.slice (s : State) (i : Nat) : SliceEnt := SMap.get sliceDflt s.led.slices i
def State.modSlice (s : State) (i : Nat) (f : SliceEnt → SliceEnt) : State :=
  { s with led := { s.led with slices := SMap.modify sliceDflt s.led.slices i f } }
def State.tally (s : State) (t : Nat) : Tally := SMap.get tallyDflt s.led.tallies t
def State.modTally (s : State) (t : Nat) (f : Tally → Tally) : State :=
  { s with led := { s.led with tallies := SMap.modify tallyDflt s.led.tallies t f } }
def State.queue (s : State) (q : Nat) : Queue := SMap.get queueDescDflt s.led.queues q
def State.modQueue (s : State) (q : Nat) (f : Queue → Queue) : State :=
  { s with led := { s.led with queues := SMap.modify queueDescDflt s.led.queues q f } }
def State.mbx (s : State) (m : Nat) : LMbx := SMap.get lmbxDflt s.led.mbx m
def State.modMbx (s : State) (m : Nat) (f : LMbx → LMbx) : State :=
  { s with led := { s.led with mbx := SMap.modify lmbxDflt s.led.mbx m f } }

def State.lane (s : State) (l : Nat) : Lane := SMap.get laneDflt s.plat.lanes l
def State.modLane (s : State) (l : Nat) (f : Lane → Lane) : State :=
  { s with plat := { s.plat with lanes := SMap.modify laneDflt s.plat.lanes l f } }
def State.gport (s : State) (p : Nat) : GPort := SMap.get gportDflt s.plat.gports p
def State.modGPort (s : State) (p : Nat) (f : GPort → GPort) : State :=
  { s with plat := { s.plat with gports := SMap.modify gportDflt s.plat.gports p f } }
/-- The package's own agent-port state of a sub-port (R507). -/
def State.sub (s : State) (p : Nat) : Port := SMap.get portDflt s.fab.ports p
def State.modSub (s : State) (p : Nat) (f : Port → Port) : State :=
  { s with fab := { s.fab with ports := SMap.modify portDflt s.fab.ports p f } }
def State.alloc (s : State) (i : Nat) : Alloc := SMap.get allocDflt s.depot.allocs i
def State.modAlloc (s : State) (i : Nat) (f : Alloc → Alloc) : State :=
  { s with depot := { s.depot with allocs := SMap.modify allocDflt s.depot.allocs i f } }
def State.keySlot (s : State) (k : Nat) : KeySlot := SMap.get keyDflt s.asy.store.slots k
def State.meas (s : State) (i : Nat) : Digest := SMap.get zDig s.asy.meas i
def State.chan (s : State) (i : Nat) : Channel := SMap.get chanDflt s.plat.chans i
def State.modChan (s : State) (i : Nat) (f : Channel → Channel) : State :=
  { s with plat := { s.plat with chans := SMap.modify chanDflt s.plat.chans i f } }

/-! ## Small changes -/

def State.emit (s : State) (o : Out) : State := { s with out := s.out ++ [o] }
def State.setPwr (s : State) (f : Power → Power) : State := { s with plat := { s.plat with pwr := f s.plat.pwr } }
def State.setBring (s : State) (f : Bring → Bring) : State := { s with plat := { s.plat with bring := f s.plat.bring } }
def State.setRst (s : State) (f : ResetBlk → ResetBlk) : State := { s with plat := { s.plat with rst := f s.plat.rst } }
def State.setPins (s : State) (f : Pins → Pins) : State := { s with plat := { s.plat with pins := f s.plat.pins } }
def State.setPair (s : State) (f : Pair → Pair) : State := { s with pair := f s.pair }
def State.setDeck (s : State) (f : Deck → Deck) : State := { s with fab := { s.fab with deck := f s.fab.deck } }
def State.setFold (s : State) (f : Fold → Fold) : State := { s with fab := { s.fab with fold := f s.fab.fold } }
def State.setDisc (s : State) (f : Discovery → Discovery) : State := { s with fab := { s.fab with disc := f s.fab.disc } }
def State.setCong (s : State) (f : Congestion → Congestion) : State := { s with fab := { s.fab with cong := f s.fab.cong } }
def State.setReb (s : State) (f : Rebuild → Rebuild) : State := { s with fab := { s.fab with reb := f s.fab.reb } }
def State.setSettle (s : State) (f : Settle → Settle) : State := { s with led := { s.led with settle := f s.led.settle } }

/-- IGNORED_CNT counts an ignored write (R11, R12). -/
def State.ignore (s : State) : State := { s with own := { s.own with ignored := satInc s.own.ignored } }

/-- The next free value of w bits; the counter advances (log 6). -/
def State.freeVal (s : State) (w : Nat) : BitVec w × State := (Config.free w s.fresh, { s with fresh := s.fresh + 1 })

/-- Raises a FAULT_CAUSE bit (R495). -/
def State.faultBit (s : State) (i : Nat) : State := s.setPins (fun p => { p with faultCause := putBit p.faultCause i true })
/-- Raises an ALERT_CAUSE bit (R495). -/
def State.alertBit (s : State) (i : Nat) : State := s.setPins (fun p => { p with alertCause := putBit p.alertCause i true })

/-- Posts an event to the reflex logic (R175, R176): it waits for EVENT_DISPATCH. -/
def State.post (s : State) (code : Byte) (subject : W16) (arg : BitVec 128) : State :=
  let e : Event := { code := code, subject := subject, arg := arg, frame := s.fab.frame, fepoch := s.dealers.fepoch }
  { s with reflex := { s.reflex with events := s.reflex.events ++ [e] } }

/-- Extends a measurement register: M ← SHA-384(M ‖ SHA-384(d)) (R409). -/
def State.extend (s : State) (i : Nat) (d : List Byte) : State :=
  let m := sha384 (toBytes 48 (s.meas i) ++ toBytes 48 (sha384 d))
  { s with asy := { s.asy with meas := SMap.set zDig s.asy.meas i m } }

/-- Sets a bit of a measurement-free log entry of the coin-cell domain (R425). -/
def State.vlog (s : State) (code detail : Byte) (data : W32) : State :=
  let v := s.vbat
  let e : VLog := { s := v.rtcS, sub := v.rtcSub, code := code, detail := detail, number := v.logNo, data := data }
  { s with vbat := { v with
      log := SMap.set noneOf v.log v.logNext.toNat (some e)
      logNext := v.logNext + 1
      logNo := v.logNo + 1 } }

/-- Fabric ports the variant enables (R1, R448). -/
def State.fabricPorts (s : State) : Nat :=
  if s.plat.opt.variant = 0 then 40 else if s.plat.opt.variant = 1 then 24 else 12

/-- This package's agent ID by pair position (R440). -/
def State.myId (s : State) : W16 := if s.plat.opt.reg.getLsbD 20 then 0xFFC1 else 0xFFC0
/-- The peer package's agent ID. -/
def State.peerId (s : State) : W16 := if s.plat.opt.reg.getLsbD 20 then 0xFFC0 else 0xFFC1

/-- The package governs the pod: ROLE bit 0 set and not held or fenced (R136, R192, R428). -/
def State.isActive (s : State) : Bool := s.dealers.role && !s.pair.fenced && !s.vbat.held

end Sys2Proof.Machine
end

