-- ==== Sys2Proof/Machine/Agents.lean ====
section
/-! DEFINITION. The commands that are one agent's own steps: flits, the injection and ejection interfaces, the command
set, partitions, mailboxes, microcode (02, 03 and 09 of the spec). -/

namespace Sys2Proof.Machine

/-- FLIT_ARRIVAL (R52, R54, R33–R35, R66). -/
def execFlitArrival (a : Nat) (p : Nat) (f : Flit) (s : State) : Result := s.onAgent a (·.arrive p f)

/-- OUTPUT_ALLOCATION (R57–R66, R75). -/
def execOutputAllocation (a : Nat) (s : State) : Result := s.onAgent a (·.allocate)

/-- HOST_OFFER (R55). -/
def execHostOffer (a : Nat) (f : Flit) (s : State) : Result := s.onAgent a (·.offer f)

/-- FLIT_ADMIT (R509, R62). -/
def execFlitAdmit (a : Nat) (s : State) : Result := s.onAgent a (·.admitFlits)

/-- EJECT_REMOVE (R67). -/
def execEjectRemove (a : Nat) (b : Bool) (s : State) : Result := s.onAgent a (·.ejectRemove b)

/-- EJECT_STALL (R67). -/
def execEjectStall (a : Nat) (b : Bool) (s : State) : Result := s.onAgent a (·.ejectStall b)

/-- PATH_LATCH_EXPIRE (R64). -/
def execPathLatchExpire (a : Nat) (src : W16) (seq : W16) (s : State) : Result := s.onAgent a (·.latchExpire src seq)

/-- RETX_TIMEOUT (R70). -/
def execRetxTimeout (a : Nat) (dest : W16) (seq : W16) (s : State) : Result := s.onAgent a (·.retxTimeout dest seq)

/-- REQUEST_ABANDON (R70). -/
def execRequestAbandon (a : Nat) (dest : W16) (seq : W16) (s : State) : Result := s.onAgent a (·.requestAbandon dest seq)

/-- MGMT_SINK_CONSUME (R506, R113–R115, R387). -/
def execMgmtSinkConsume (a : Nat) (s : State) : Result := s.onAgent a (·.consumeSink)

/-- SYNC_LOST (R72). -/
def execSyncLost (a : Nat) (s : State) : Result := s.onAgent a (·.syncLose)

/-- SLOT_EXCHANGE (R79). -/
def execSlotExchange (a : Nat) (s : State) : Result := s.onAgent a (·.slotExchange)

/-- CONVOY_OFFER (R76). -/
def execConvoyOffer (a : Nat) (q : Fin 16) (f : Flit) (s : State) : Result := s.onAgent a (·.convoyOffer q f)

/-- TELEMETRY_WINDOW (R82). -/
def execTelemetryWindow (a : Nat) (meas : List PortMeas) (s : State) : Result := s.onAgent a (·.telemetry meas)

/-- DRAINED (R98). -/
def execDrained (a : Nat) (s : State) : Result := s.onAgent a (·.tryDrained)

/-- COUNTER_LOW_READ (R92). -/
def execCounterLowRead (a : Nat) (ctrl : Bool) (i : Nat) (s : State) : Result := s.onAgent a (·.counterLow ctrl i)

/-- LOCAL_WRITE (R505). -/
def execLocalWrite (a : Nat) (off : Nat) (v : W32) (s : State) : Result := s.onAgent a (·.localWrite off v)

/-- ID_LOCK (R95). -/
def execIdLock (a : Nat) (s : State) : Result := s.onAgent a (·.idLock)

/-- SLOT_F_WRITE (R102). -/
def execSlotFWrite (a : Nat) (v : W32) (s : State) : Result := s.onAgent a (·.slotFWrite v)

/-- CARD_PLAY (R110, R111). -/
def execCardPlay (a : Nat) (s : State) : Result := s.onAgent a (·.cardPlay)

/-- COMMAND_PIECE (R114). -/
def execCommandPiece (a : Nat) (s : State) : Result := s.onAgent a (·.piece)

/-- CMD_PROBE (R117). -/
def execCmdProbe (a : Nat) (s : State) : Result := s.onAgent a (·.withCmd 0x01 Agent.cmdProbe)

/-- CMD_AGENT_READ (R117). -/
def execCmdAgentRead (a : Nat) (s : State) : Result := s.onAgent a (·.withCmd 0x02 Agent.cmdRead)

/-- CMD_AGENT_WRITE (R505). -/
def execCmdAgentWrite (a : Nat) (s : State) : Result := s.onAgent a (·.withCmd 0x03 Agent.cmdWrite)

/-- CMD_GATE (R117, R85, R89). -/
def execCmdGate (a : Nat) (s : State) : Result := s.onAgent a (·.withCmd 0x04 Agent.cmdGate)

/-- CMD_UNGATE (R117, R89). -/
def execCmdUngate (a : Nat) (s : State) : Result := s.onAgent a (·.withCmd 0x05 Agent.cmdUngate)

/-- CMD_SWAP (R117, R84, R89). -/
def execCmdSwap (a : Nat) (s : State) : Result := s.onAgent a (·.withCmd 0x06 Agent.cmdSwap)

/-- CMD_EXCHANGE (R117, R88, R89). -/
def execCmdExchange (a : Nat) (s : State) : Result := s.onAgent a (·.withCmd 0x07 Agent.cmdExchange)

/-- CMD_LOAD (R105). -/
def execCmdLoad (a : Nat) (s : State) : Result := s.onAgent a (·.withCmd 0x08 Agent.cmdLoad)

/-- CMD_ARM (R105). -/
def execCmdArm (a : Nat) (s : State) : Result := s.onAgent a (·.withCmd 0x09 Agent.cmdArm)

/-- CMD_DISARM (R105). -/
def execCmdDisarm (a : Nat) (s : State) : Result := s.onAgent a (·.withCmd 0x0A Agent.cmdDisarm)

/-- CMD_UNFENCE (R117). -/
def execCmdUnfence (a : Nat) (s : State) : Result := s.onAgent a (·.withCmd 0x0B Agent.cmdUnfence)

/-- CMD_RELEASE (R117, R44). -/
def execCmdRelease (a : Nat) (s : State) : Result := s.onAgent a (·.withCmd 0x0C Agent.cmdRelease)

/-- CMD_QUARANTINE (R117). -/
def execCmdQuarantine (a : Nat) (s : State) : Result := s.onAgent a (·.withCmd 0x0D Agent.cmdQuarantine)

/-- CMD_BIND (R117, R333). -/
def execCmdBind (a : Nat) (s : State) : Result := s.onAgent a (·.withCmd 0x0E Agent.cmdBind)

/-- CMD_PFENCE (R317, R319). -/
def execCmdPfence (a : Nat) (s : State) : Result := s.onAgent a (·.withCmd 0x10 Agent.cmdPfence)

/-- CMD_PRESET (R317, R319). -/
def execCmdPreset (a : Nat) (s : State) : Result := s.onAgent a (·.withCmd 0x11 Agent.cmdPreset)

/-- CMD_PUNFENCE (R317, R319). -/
def execCmdPunfence (a : Nat) (s : State) : Result := s.onAgent a (·.withCmd 0x12 Agent.cmdPunfence)

/-- CMD_UCODE_OPEN (R127). -/
def execCmdUcodeOpen (a : Nat) (s : State) : Result := s.onAgent a (·.withCmd 0x14 Agent.cmdUcOpen)

/-- CMD_UCODE_PATCH (R117). -/
def execCmdUcodePatch (a : Nat) (s : State) : Result := s.onAgent a (·.withCmd 0x15 Agent.cmdUcPatch)

/-- CMD_UCODE_COMMIT (R128). -/
def execCmdUcodeCommit (a : Nat) (s : State) : Result := s.onAgent a (·.withCmd 0x16 Agent.cmdUcCommit)

/-- CMD_SEC_MSG (R126). -/
def execCmdSecMsg (a : Nat) (s : State) : Result := s.onAgent a (·.withCmd 0x17 Agent.cmdSec)

/-- CMD_BANKCOPY (R117). -/
def execCmdBankcopy (a : Nat) (s : State) : Result := s.onAgent a (·.withCmd 0x18 Agent.cmdBankcopy)

/-- CMD_RESERVED_OPCODE (R117). -/
def execCmdReservedOpcode (a : Nat) (s : State) : Result := s.onAgent a (·.cmdReserved)

/-- UCODE_SWITCH (R128). -/
def execUcodeSwitch (a : Nat) (s : State) : Result := s.onAgent a (·.ucSwitch)

/-- UCODE_SELFTEST (R128). -/
def execUcodeSelftest (a : Nat) (pass : Bool) (s : State) : Result := s.onAgent a (·.ucTest pass)

/-- SEC_UP_MESSAGE (R126). -/
def execSecUpMessage (a : Nat) (msg : List Byte) (s : State) : Result := s.onAgent a (·.secUp msg)

/-- PART_FENCE_ACK (R317). -/
def execPartFenceAck (a : Nat) (p : Fin 16) (s : State) : Result := s.onAgent a (·.fenceAck p)

/-- FENCE_ACK_TIMEOUT (R317). -/
def execFenceAckTimeout (a : Nat) (p : Fin 16) (s : State) : Result := s.onAgent a (·.fenceTimeout p)

/-- DRAIN_WINDOW_END (R317). -/
def execDrainWindowEnd (a : Nat) (p : Fin 16) (s : State) : Result := s.onAgent a (·.drainEnd p)

/-- PART_FENCE_ACK_LOW (R317). -/
def execPartFenceAckLow (a : Nat) (p : Fin 16) (s : State) : Result := s.onAgent a (·.fenceAckLow p)

/-- PART_RST_DONE (R317). -/
def execPartRstDone (a : Nat) (p : Fin 16) (s : State) : Result := s.onAgent a (·.rstDone p)

/-- RESET_LIMIT_EXPIRE (R317). -/
def execResetLimitExpire (a : Nat) (p : Fin 16) (s : State) : Result := s.onAgent a (·.resetLimit p)

/-- KAT_WRITE (R317). -/
def execKatWrite (a : Nat) (p : Fin 16) (v : BitVec 2) (s : State) : Result := s.onAgent a (·.katWrite p v)

/-- PART_STATE_WRITE (R318). -/
def execPartStateWrite (a : Nat) (p : Fin 16) (v : BitVec 3) (s : State) : Result := s.onAgent a (·.stateWrite p v)

/-- PART_TICK (R120). -/
def execPartTick (a : Nat) (p : Fin 16) (s : State) : Result := s.onAgent a (·.partTick p)

/-- WATCHDOG_EXPIRE (R122). -/
def execWatchdogExpire (a : Nat) (p : Fin 16) (s : State) : Result := s.onAgent a (·.watchdog p)

/-- DOWN_MESSAGE_WRITE (R123). -/
def execDownMessageWrite (a : Nat) (v : W32) (s : State) : Result := s.onAgent a (·.downWrite v)

/-- UP_SEND (R123). -/
def execUpSend (a : Nat) (s : State) : Result := s.onAgent a (·.upSend)

/-- UP_DATA_WRITE (R123). -/
def execUpDataWrite (a : Nat) (i : Fin 8) (v : W32) (s : State) : Result := s.onAgent a (·.upWrite i v)

/-- MBX_CLAIM_READ (R124). -/
def execMbxClaimRead (a : Nat) (ctrl : Bool) (s : State) : Result := s.onAgent a (fun x => (x.claimRead ctrl).2)

/-- MBX_RELEASE (R124). -/
def execMbxRelease (a : Nat) (ctrl : Bool) (s : State) : Result := s.onAgent a (·.mbxRelease ctrl)

/-- MBX_RING (R124). -/
def execMbxRing (a : Nat) (ctrl : Bool) (s : State) : Result := s.onAgent a (·.mbxRing ctrl)

/-- MBX_DONE (R124). -/
def execMbxDone (a : Nat) (ctrl : Bool) (s : State) : Result := s.onAgent a (·.mbxDone ctrl)

/-- MBX_DATA_WRITE (R124). -/
def execMbxDataWrite (a : Nat) (ctrl : Bool) (i : Fin 10) (v : W32) (s : State) : Result := s.onAgent a (·.mbxData ctrl i v)

/-- MBX_LEASE_EXPIRE (R124). -/
def execMbxLeaseExpire (a : Nat) (s : State) : Result := s.onAgent a (·.mbxExpire)

/-- FW_BOOT (R125). -/
def execFwBoot (a : Nat) (s : State) : Result := s.onAgent a (·.fwBoot)

/-- AGENT_POWER_ON (R129 and the reset columns of 03). -/
def execAgentPowerOn (a : Nat) (b : Build) (s : State) : Result := s.onAgent a (fun x => { Agent.powerOn b with tx := x.tx })

end Sys2Proof.Machine
end

