-- ==== Sys2Proof/Machine/UciCore.lean ====
section
/-! DEFINITION. The dealer core (04 of the spec): fields of an instruction word, legality, contexts, the journal,
STATUS, halts, and how a long instruction starts and ends. -/

namespace Sys2Proof.Machine

/-! ## Fields (R137) -/

def uOp (w : W64) : Byte := bitsAt w 56 8
def uGp (w : W64) : Nat := (bitsAt w 52 3).toNat
def uGn (w : W64) : Bool := w.getLsbD 55
def uRd (w : W64) : Nat := (bitsAt w 47 5).toNat
def uRa (w : W64) : Nat := (bitsAt w 42 5).toNat
def uRb (w : W64) : Nat := (bitsAt w 37 5).toNat
def uTmo (w : W64) : Nat := (bitsAt w 33 4).toNat
def uMod (w : W64) : Nat := (bitsAt w 24 9).toNat
def uImm (w : W64) : BitVec 24 := bitsAt w 0 24
/-- imm24 as a signed value of 64 bits. -/
def uImmS (w : W64) : W64 := (uImm w).signExtend 64
def uImm32 (w : W64) : W32 := bitsAt w 0 32

/-! ## Legality (R138, R139 and the operand tables) -/

/-- What an opcode's table uses: rd, ra, rb; imm24 (0 unused, 1 any value, 2 a special number, 3 a COPY length);
how many mod values from 0 on; whether the instruction is long. -/
structure UShape where
  d : Bool
  a : Bool
  b : Bool
  imm : Nat
  mods : Nat
  long : Bool
  deriving DecidableEq, Repr

def uSh (d a b : Bool) (imm mods : Nat) (long : Bool) : Option UShape := some { d, a, b, imm, mods, long }

/-- The control and data instructions of format A (R149), BR and CALL apart. -/
def uShapeData (op : Nat) : Option UShape :=
  match op with
  | 0x03 => uSh false false false 0 1 false
  | 0x04 => uSh false true true 0 3 true
  | 0x05 => uSh false true false 1 1 false
  | 0x06 => uSh false false false 0 2 false
  | 0x07 => uSh false false false 1 1 false
  | 0x08 => uSh false false false 0 1 false
  | 0x11 | 0x13 | 0x14 | 0x15 | 0x16 | 0x17 => uSh true true true 0 1 false
  | 0x12 => uSh true true false 1 1 false
  | 0x18 => uSh true true true 0 2 false
  | 0x19 => uSh true true true 0 8 false
  | 0x1A => uSh true true false 1 8 false
  | 0x1B => uSh true true false 1 4 false
  | 0x1C => uSh false true true 1 4 false
  | 0x1D => uSh false true true 3 2 true
  | 0x1E => uSh true false false 2 1 false
  | 0x1F => uSh false true false 2 1 false
  | _ => none

/-- The fabric and checkpoint instructions (R153, R155). -/
def uShapeFab (op : Nat) : Option UShape :=
  match op with
  | 0x20 => uSh false true true 0 2 true
  | 0x21 => uSh false true false 0 3 true
  | 0x22 => uSh false true true 0 1 true
  | 0x23 => uSh false true true 0 2 true
  | 0x24 => uSh false true true 0 1 true
  | 0x25 => uSh false true false 0 1 true
  | 0x26 => uSh false true true 0 2 true
  | 0x27 => uSh false true false 0 2 true
  | 0x28 => uSh false true false 0 1 false
  | 0x29 => uSh false true false 0 2 true
  | 0x2A => uSh false true true 0 1 false
  | 0x2B => uSh false true true 0 1 true
  | 0x2C => uSh false true true 0 2 true
  | 0x2D => uSh true true false 0 1 false
  | 0x2E => uSh false true true 0 4 true
  | 0x2F => uSh false true false 0 2 true
  | 0x30 => uSh true true true 0 1 true
  | 0x40 => uSh false true true 0 2 true
  | 0x41 => uSh false true true 0 2 true
  | 0x42 => uSh true true true 0 4 true
  | 0x43 => uSh true true true 0 1 true
  | 0x44 => uSh false true true 0 1 true
  | _ => none

/-- The station, ledger, security and power instructions (R156–R159). -/
def uShapeDev (op : Nat) : Option UShape :=
  match op with
  | 0x50 => uSh true true true 0 1 true
  | 0x51 => uSh false true true 0 1 true
  | 0x52 => uSh false true false 0 3 true
  | 0x60 => uSh false true true 0 1 true
  | 0x61 => uSh false true true 0 1 true
  | 0x62 => uSh true true true 0 3 false
  | 0x63 => uSh false false false 0 1 true
  | 0x64 => uSh true true true 0 4 true
  | 0x70 => uSh true true true 0 2 true
  | 0x71 => uSh false true true 0 1 true
  | 0x72 => uSh false true false 0 1 true
  | 0x73 => uSh false true true 0 4 true
  | 0x80 => uSh false true false 0 2 false
  | 0x81 => uSh false true false 0 3 true
  | _ => none

def uShape (w : W64) : Option UShape :=
  let op := (uOp w).toNat
  if op = 0x01 ∨ op = 0x02 then
    (if uMod w = 1 then uSh false true false 0 2 false else uSh false false false 1 2 false)
  else if op < 0x20 then uShapeData op else if op < 0x50 then uShapeFab op else uShapeDev op

/-- imm24 within what its table allows. -/
def uImmOk (k : Nat) (i : BitVec 24) : Bool :=
  match k with
  | 0 => i = 0
  | 1 => true
  | 2 => decide (i.toNat ≤ 14)
  | _ => decide (1 ≤ i.toNat) && decide (i.toNat ≤ 65536)

/-- R138: a word that decodes to a legal instruction. MOVI alone has format M; CMP and CMPI name predicates 1–7. -/
def uLegal (w : W64) : Bool :=
  if uOp w = 0x10 then decide (bitsAt w 32 13 = 0)
  else match uShape w with
    | none => false
    | some h =>
      (h.d || decide (uRd w = 0)) && (h.a || decide (uRa w = 0)) && (h.b || decide (uRb w = 0)) &&
      uImmOk h.imm (uImm w) && decide (uMod w < h.mods) && (h.long || decide (uTmo w = 0)) &&
      (!(uOp w = 0x19 || uOp w = 0x1A) || (decide (1 ≤ uRd w) && decide (uRd w ≤ 7)))

/-! ## Contexts (R134–R136) -/

/-- Instructions of the store (R133). -/
def istoreSize : Nat := 131072
/-- Bytes of the data store (R133). -/
def dstoreSize : Nat := 0x400000

/-- A general register; g0 reads 0 (R135). -/
def Context.reg (x : Context) (i : Nat) : W64 := if i = 0 then 0 else SMap.get z64 x.g i
/-- Writes a general register; a write to g0 is discarded (R135). -/
def Context.setReg (x : Context) (i : Nat) (v : W64) : Context := if i = 0 then x else { x with g := SMap.set z64 x.g i v }
/-- A predicate; p0 reads 1 (R135). -/
def Context.pred (x : Context) (i : Nat) : Bool := decide (i = 0) || x.p.getLsbD i
/-- Writes a predicate; a write to p0 is discarded (R135). -/
def Context.setPred (x : Context) (i : Nat) (v : Bool) : Context := if i = 0 then x else { x with p := putBit x.p i v }
/-- PC + 1 in 17 bits. -/
def Context.next (x : Context) : Context := { x with pc := (x.pc + 1) % istoreSize }
/-- Whether the guard lets an instruction execute (R137). -/
def Context.guard (x : Context) (w : W64) : Bool := x.pred (uGp w) != uGn w

/-- The instruction word at a context's PC. -/
def State.fetch (s : State) (c : Nat) : W64 := SMap.get z64 s.dealers.core.istore (s.ctx c).pc

/-! ## The journal (R148, R184) -/

/-- Bytes a record takes in the ring (DESIGN CHOICE, log 7). -/
def JRec.size : JRec → Nat
  | .ctx _ _ => 512
  | .istore _ _ => 16
  | .dstore _ bs => 8 + bs.length

/-- Bytes of the ring in use. -/
def journalUsed (rs : List JRec) : Nat := (rs.map JRec.size).sum

/-- Whether the 1 MiB ring has room for the record of an instruction (R184, log 7). -/
def State.journalRoom (s : State) : Bool := decide (journalUsed s.dealers.journal + 512 ≤ 0x100000)

/-- A record brought into a core's image. -/
def JRec.apply (k : Core) (r : JRec) : Core :=
  match r with
  | .ctx c x => { k with ctx := SMap.set ctxDflt k.ctx c x }
  | .istore i w => { k with istore := SMap.set z64 k.istore i w }
  | .dstore a bs => { k with dstore := Mem.writeL k.dstore a bs }

/-- The applier frees the space that a record needs: it has taken the oldest records before that record is written (R184). -/
def freeSpace (need : Nat) : List JRec → Core → List JRec × Core
  | [], k => ([], k)
  | r :: rs, k => if journalUsed (r :: rs) + need ≤ 0x100000 then (r :: rs, k) else freeSpace need rs (r.apply k)

/-- Writes a record to the ring, which never holds more than 1 MiB. -/
def State.journal (s : State) (r : JRec) : State :=
  let x := freeSpace r.size s.dealers.journal s.dealers.shadow
  { s with dealers := { s.dealers with journal := x.1 ++ [r], shadow := x.2 } }

/-- Journals a context's whole architectural state (R184). -/
def State.journalCtx (s : State) (c : Nat) : State := s.journal (.ctx c (s.ctx c))

/-- The records of a data-store write: at most 4 KiB each (log 7). -/
def storeRecs (a : Nat) (bs : List Byte) : Nat → List JRec
  | 0 => []
  | n + 1 => if bs = [] then [] else .dstore a (bs.take 4096) :: storeRecs (a + 4096) (bs.drop 4096) n

/-- Writes the data store, and journals the write. -/
def State.dsWrite (s : State) (a : Nat) (bs : List Byte) : State :=
  (storeRecs a bs (bs.length / 4096 + 1)).foldl State.journal { s with dealers := { s.dealers with core := { s.dealers.core with
      dstore := Mem.writeL s.dealers.core.dstore a bs } } }

/-- Reads bytes of the data store. -/
def State.dsRead (s : State) (a n : Nat) : List Byte := Mem.readN s.dealers.core.dstore a n
/-- A little-endian value of n bytes of the data store. -/
def State.dsLE (s : State) (a n : Nat) : Nat := leNat (s.dsRead a n)

/-- Whether bytes lie within the data store. -/
def inDs (a n : Nat) : Bool := decide (a + n ≤ dstoreSize)

/-! ## Issue -/

/-- The dealer core issues: no takeover runs or failed, no handover stops issue, and the journal has room
(R184–R188). -/
def State.canIssue (s : State) : Bool :=
  decide (s.dealers.takeover = .none) && !s.dealers.handover && s.journalRoom

/-- No context of a priority has issued yet: context 0 is next. -/
def lastDflt (_ : Nat) : Nat := 15

/-- Highest priority first, and round robin within a priority: the candidate after the last one served (R134, R146). -/
def pickRound (prio : Nat → Nat) (last : Nat → Nat) (cs : List Nat) : Option Nat :=
  let top := (cs.map prio).foldl max 0
  let es := cs.filter (fun c => prio c = top)
  match es.find? (fun c => last top < c) with
  | some c => some c
  | none => es.head?

/-- The RUNNING contexts; one that gave its slot up under YIELD is passed over once, if another can issue (R149, log 8). -/
def State.issuers (s : State) : List Nat :=
  let cs := (List.range 16).filter (fun c => (s.ctx c).run = .running)
  match s.dealers.yielded with
  | none => cs
  | some y => let os := cs.filter (fun c => c ≠ y); if os = [] then cs else os

/-- The context that issues next (R134). -/
def State.issuer (s : State) : Option Nat :=
  pickRound (fun c => (s.ctx c).prio.toNat) (SMap.get lastDflt s.dealers.lastCtx) s.issuers

/-- A context may issue: it is the one R134 picks among the RUNNING contexts. -/
def State.mayIssue (s : State) (c : Nat) : Bool :=
  s.canIssue && decide ((s.ctx c).run = .running) && decide (s.issuer = some c)

/-- What issue leaves: the round robin stands at the context, and a slot given up is spent. -/
def State.issued (s : State) (c : Nat) : State :=
  { s with dealers := { s.dealers with lastCtx := SMap.set lastDflt s.dealers.lastCtx (s.ctx c).prio.toNat c, yielded := none } }

/-- The next instruction, nothing else changing. -/
def State.stepPc (s : State) (c : Nat) : State := s.modCtx c Context.next

/-- Issues the instruction at a context's PC if it is the one the command names: a false guard completes it without
effect (R137); an illegal word is left to ILLEGAL_INSTRUCTION. -/
def State.uci (s : State) (c : Nat) (op : Byte) (f : State → W64 → State) : State :=
  if s.mayIssue c ∧ uOp (s.fetch c) = op ∧ uLegal (s.fetch c) then
    let s1 := s.issued c
    if (s.ctx c).guard (s.fetch c) then f s1 (s.fetch c) else s1.stepPc c
  else s

/-! ## Halts (R138, R150, R175) -/

/-- EXIT from a cause and a HALT code. -/
def exitWord (cause : Byte) (code : BitVec 24) : W32 := code ++ cause

/-- R150: the change a context owns becomes unowned when the context halts, goes IDLE or is stopped. -/
def State.dropChange (s : State) (c : Nat) : State :=
  if s.dealers.change.owner = some c then
    { s with dealers := { s.dealers with change := { s.dealers.change with owner := none } } }
  else s

/-- Posts CONTEXT_HALT (R175); one that ends a context started by CONTEXT_HALT goes to the notice ring only (R179). -/
def State.postHalt (s : State) (c : Nat) : State :=
  let x := s.ctx c
  let arg : BitVec 128 := putField (putField (x.exit.setWidth 128) 4 (BitVec.ofNat 32 x.pc)) 8 x.startedBy
  let e : Event := { code := 0x0D, subject := BitVec.ofNat 16 c, arg := arg, ringOnly := decide (x.startedBy = 0x0D),
                     frame := s.fab.frame, fepoch := s.dealers.fepoch }
  { s with reflex := { s.reflex with events := s.reflex.events ++ [e] } }

/-- Halts a context with an EXIT value; PC stays (R138). -/
def State.halt (s : State) (c : Nat) (exit : W32) : State :=
  ((((s.modCtx c (fun x => { x with run := .halted, exit := exit, long := none, asleep := false })).dropChange c).postHalt
    c).journalCtx c)

/-! ## STATUS (R141) and how instructions end -/

/-- A STATUS value. -/
def statusWord (outcome reason done miss first : Nat) (op : Byte) : W64 :=
  op ++ BitVec.ofNat 8 first ++ satNat 16 miss ++ satNat 16 done ++ BitVec.ofNat 8 reason ++ BitVec.ofNat 8 outcome

/-- Writes STATUS and p7. -/
def Context.ended (x : Context) (outcome reason done miss first : Nat) (op : Byte) : Context :=
  { x with status := statusWord outcome reason done miss first op, p := putBit x.p 7 (decide (outcome = 0)) }

/-- Ends a short instruction that writes STATUS: PC + 1, journalled with its effect (R148). -/
def State.endShort (s : State) (c : Nat) (op : Byte) (outcome reason done miss first : Nat) : State :=
  (s.modCtx c (fun x => (x.ended outcome reason done miss first op).next)).journalCtx c

/-- Drops the commands that a context's instruction has waiting for restart tokens (R339). -/
def State.unhold (s : State) (c : Nat) : State :=
  s.setFold (fun f => { f with waiting := f.waiting.filter (fun x => decide (x.2.1 ≠ c)) })

/-- Ends a long instruction of a waiting context: STATUS, p7, PC + 1, RUNNING, journalled at completion (R141, R148). -/
def State.endLong (s : State) (c : Nat) (op : Byte) (outcome reason done miss first : Nat) : State :=
  ((s.unhold c).modCtx c (fun x => { (x.ended outcome reason done miss first op).next with run := .running, long := none })).journalCtx c

def State.succeed (s : State) (c : Nat) (op : Byte) (done miss : Nat) : State := s.endLong c op 0 0 done miss 0
/-- ABORT with a reason (R142) and nothing done. -/
def State.abort (s : State) (c : Nat) (op : Byte) (reason : Nat) : State := s.endLong c op 2 reason 0 0 0

/-- A long instruction's operands, read at issue. -/
def Running.ofWord (x : Context) (w : W64) : Running :=
  { word := w, ra := x.reg (uRa w), rb := x.reg (uRb w), rd := x.reg (uRd w) }

/-- Puts a context into WAITING in a long instruction; STATUS[1:0] reads RUNNING (R140, R141). -/
def State.wait (s : State) (c : Nat) (r : Running) : State :=
  s.modCtx c (fun x => { x with run := .waiting, long := some r, status := putBits x.status 0 (3 : BitVec 2) })

/-- The same, journalled at issue (R148). -/
def State.waitJ (s : State) (c : Nat) (r : Running) : State := (s.wait c r).journalCtx c

/-! ## Miss lists (R144) -/

/-- A miss record. -/
def missRec (m : Nat × W16 × Byte) : List Byte :=
  toBytes 2 m.2.1 ++ [m.2.2, 0] ++ toBytes 2 (BitVec.ofNat 16 m.1) ++ [0, 0]

/-- Writes the miss list at MISSPTR, if set, cut at the end of the store. -/
def State.writeMiss (s : State) (c : Nat) (ms : List (Nat × W16 × Byte)) : State :=
  let p := (s.ctx c).missptr.toNat
  if p = 0 then s
  else
    let ms := ms.take 65535
    let bs := toBytes 8 (BitVec.ofNat 64 ms.length) ++ ms.flatMap missRec
    s.dsWrite p (bs.take (dstoreSize - p))

/-! ## Depot (R11, R246) -/

/-- Bytes of a stack. -/
def stackSize : Nat := 24 * 0x40000000

/-- Whether a range lies in the enabled depot: every stack it touches is in service (R449, R452). -/
def State.inDepot (s : State) (a n : Nat) : Bool :=
  decide (a + n ≤ 6 * stackSize) &&
  (List.range 6).all (fun i =>
    s.plat.bring.online.getLsbD i || decide (a + n ≤ i * stackSize) || decide ((i + 1) * stackSize ≤ a) || decide (n = 0))

def State.depRead (s : State) (a n : Nat) : List Byte := Mem.readN s.depot.mem a n
def State.depLE (s : State) (a n : Nat) : Nat := leNat (s.depRead a n)
def State.depWrite (s : State) (a : Nat) (bs : List Byte) : State :=
  { s with depot := { s.depot with mem := Mem.writeL s.depot.mem a bs } }

end Sys2Proof.Machine
end

