-- ==== Sys2Proof/Machine/Send.lean ====
section
/-! DEFINITION. What the package sends into the fabric: paths, command flits and their pieces, the device's own
commands (R63, R114, R143, R146, R508). -/

namespace Sys2Proof.Machine

/-! ## HELLO fields (R38) -/

def helloId (h : Payload) : W16 := byteField h 0 16
def helloBuild (h : Payload) : Byte := byteField h 2 8
def helloProfile (h : Payload) : Byte := byteField h 3 8
def helloPorts (h : Payload) : Nat := (byteField h 4 8 : Byte).toNat
def helloArrival (h : Payload) : Nat := (byteField h 5 8 : Byte).toNat
def helloTgen (h : Payload) : W16 := byteField h 6 16
def helloFepoch (h : Payload) : W32 := byteField h 8 32
def helloUcode (h : Payload) : W32 := byteField h 16 32
def helloState (h : Payload) : Byte := byteField h 24 8
def helloUp (h : Payload) (p : Nat) : Bool := (byteField h 28 128 : BitVec 128).getLsbD p

/-! ## Paths -/

/-- R97: a package sub-port that is down. -/
def State.subDown (s : State) (p : Nat) : Bool := !(s.sub p).up || (s.sub p).tfence || decide (80 ≤ p)

/-- Outputs to the fabric are cut: the takeover failed, or the package fenced itself (R188, R192). -/
def State.cutOff (s : State) : Bool := decide (s.dealers.takeover = .failed) || s.pair.fenced

/-- The path-book record of an agent. -/
def State.known (s : State) (id : W16) : Option Known := s.fab.paths.find? (fun k => k.id = id)

/-- R508: the first held path whose first egress port is in service. -/
def State.pathFor (s : State) (id : W16) : Option (List Byte) :=
  match s.known id with
  | none => none
  | some k => k.paths.find? (fun p => match p.head? with | some e => !s.subDown e.toNat | none => false)

/-- Puts a flit on a sub-port: R60 applies to the send. -/
def State.sendOn (s : State) (p : Nat) (f : Flit) : State := s.emit (.flit p (f.hop false).seal)

/-- Sends a flit toward an agent (R508); it is not sent when no held path has a port in service, nor after a failed dealer
takeover or self-fence (R188, R192). -/
def State.sendTo (s : State) (id : W16) (f : Flit) : State :=
  match (if s.cutOff then none else s.pathFor id) with
  | some (e :: _) => s.sendOn e.toNat f
  | _ => s

/-- Opcodes that carry a table generation (R146). -/
def needsGen (op : Byte) : Bool := op = 0x04 || op = 0x05 || op = 0x06 || op = 0x07

/-- An agent's entry in the generation book. -/
def State.genOf (s : State) (id : W16) : Option W16 := SMap.get noneOf s.fab.gens id.toNat
/-- Makes an entry in the generation book; the first one locks FEPOCH (R136). -/
def State.setGen (s : State) (id g : W16) : State :=
  { s with fab := { s.fab with gens := SMap.set noneOf s.fab.gens id.toNat (some g) }
           dealers := { s.dealers with fepochLock := true } }

/-- The bytes of a command block (R114): epochs filled under R143, the generation under R146. -/
def cmdBlock (c : CmdSpec) (b1 : Byte) (cep dep : W16) (fep : W32) (gen : W16) (ws : List W32) : List Byte :=
  [c.op, b1] ++ toBytes 2 cep ++ toBytes 2 dep ++ toBytes 2 gen ++ toBytes 4 fep ++ toBytes 4 c.arg ++
    ws.flatMap (fun w => toBytes 4 w)

/-- Byte 1 of a block: data words, piece, more pieces to follow. -/
def cmdByte1 (n piece : Nat) (more : Bool) : Byte := BitVec.ofNat 8 (n + 16 * piece + (if more then 64 else 0))

/-- The generation a command to an agent carries. -/
def State.cmdGen (s : State) (id : W16) (c : CmdSpec) : W16 :=
  if needsGen c.op then (match s.genOf id with | some g => g + 1 | none => 0) else c.gen

/-- A table-routed command flit; its generation is the command's. -/
def State.cmdFlit (s : State) (id : W16) (c : CmdSpec) (seq : W16) (fep : W32) : Flit :=
  ({ cls := 4, dest := id, src := s.myId, seq := seq, age := 32,
     pay := payOf (cmdBlock c (cmdByte1 c.words.length 0 false) s.dealers.cepoch s.dealers.depoch fep c.gen
       c.words) } : Flit).seal

/-- A piece of a path-routed command (R63, R146): at most 3 words. -/
def State.pieceFlit (s : State) (path : List Byte) (c : CmdSpec) (piece : Nat) (seq : W16) (fep : W32) : Flit :=
  let ws := (c.words.drop (3 * piece)).take 3
  let more := decide (3 * (piece + 1) < c.words.length)
  ({ cls := 4, dest := 0xFFFF, src := s.myId, seq := seq, age := 32, path := true,
     pay := payOf ([BitVec.ofNat 8 path.length] ++ fitBytes 16 path ++
       cmdBlock c (cmdByte1 ws.length piece more) s.dealers.cepoch s.dealers.depoch fep c.gen ws) } : Flit).seal

/-- Sends a command, or its piece, to an agent: table-routed when the path book says so, else along the path it holds. -/
def State.sendCmd (s : State) (id : W16) (c : CmdSpec) (piece : Nat) (seq : W16) (fep : W32) : State :=
  match s.known id, (if s.cutOff then none else s.pathFor id) with
  | some k, some (e :: path) =>
    s.sendOn e.toNat (if k.table then s.cmdFlit id c seq fep else s.pieceFlit (e :: path) c piece seq fep)
  | _, _ => s

/-- Whether a response to the piece in hand completes the command. -/
def State.lastPiece (s : State) (id : W16) (c : CmdSpec) (piece : Nat) : Bool :=
  match s.known id with
  | some k => k.table || decide (c.words.length ≤ 3 * (piece + 1))
  | none => true

/-- Takes the next command seq. -/
def State.nextSeq (s : State) : W16 × State := (s.dealers.seq, { s with dealers := { s.dealers with seq := s.dealers.seq + 1 } })

/-- Sends a command of the device's own, under a new seq: it stands among them until its response comes (R146, R508). -/
def State.bgSend (s : State) (t : Target) (c : CmdSpec) : State :=
  let (q, s1) := s.nextSeq
  let k : CmdSpec := { c with gen := s.cmdGen t.agent c }
  let t' : Target := { t with seq := some q, gen := some k.gen, sentAt := s.us }
  ({ s1 with dealers := { s1.dealers with bg := s1.dealers.bg ++ [t'] } }).sendCmd t.agent k t.piece q s1.dealers.fepoch

/-- A command of the device's own to an agent: its first piece now, later pieces after the responses (R146). -/
def State.devCmd (s : State) (id : W16) (c : CmdSpec) : State :=
  if (s.known id).isNone ∨ (needsGen c.op ∧ s.genOf id = none) then s
  else s.bgSend { agent := id, idx := 0, steps := [.cmd c] } c

/-- A delivery that is not tried again: an agent no path reaches gets nothing (R397). -/
def State.devOnce (s : State) (id : W16) (c : CmdSpec) : State :=
  if (s.known id).isNone ∨ s.cutOff ∨ (s.pathFor id).isNone then s
  else s.bgSend { agent := id, idx := 0, steps := [.cmd c], once := true } c

/-- AGENT_WRITE of consecutive words (R117). -/
def agWrite (off : Nat) (ws : List W32) : CmdSpec := { op := 0x03, gen := 0, arg := BitVec.ofNat 32 off, words := ws }
/-- AGENT_READ of n consecutive words: the words carry nothing but their count (R117). -/
def agRead (off n : Nat) : CmdSpec := { op := 0x02, gen := 0, arg := BitVec.ofNat 32 off, words := List.replicate n 0 }
/-- A command with no data words. -/
def agCmd (op : Byte) (arg : W32) : CmdSpec := { op := op, gen := 0, arg := arg, words := [] }

end Sys2Proof.Machine
end

