-- ==== Sys2Proof/Machine/LedgerOps.lean ====
section
/-! DEFINITION. Operations over the ledger (11 of the spec): tallies and the waits on them, queues and their waiting
contexts, completions of class 8. -/

namespace Sys2Proof.Machine

/-! ## Tallies (R377, R378, R382) -/

def tallyStrict (t : Nat) : Bool := decide (t < 0x400)
/-- The ledger partition of a tally; a strict tally is partition 0's (R377). -/
def State.tallyPart (s : State) (t : Nat) : Nat := if tallyStrict t then 0 else (s.tally t).part.toNat

/-- R379, R383: a comparison of a count with a value: 0 at least, 1 equal, 2 at most. -/
def cmpHolds (cmp c v : Nat) : Bool :=
  match cmp with
  | 0 => decide (v ≤ c)
  | 1 => decide (c = v)
  | _ => decide (c ≤ v)

/-- R375: an operation on a partition's resources clears CLEAN. -/
def State.dirty (s : State) (p : Nat) : State := s.modLPart p (fun x => { x with clean := false })

/-- Adds to the entry of a tally in a list of sums. -/
def bump (l : List (W16 × W32)) (t : W16) (v : W32) : List (W16 × W32) :=
  if l.any (fun x => x.1 = t) then l.map (fun x => if x.1 = t then (t, x.2 + v) else x) else l ++ [(t, v)]

def addNew {α : Type} [DecidableEq α] (l : List α) (x : α) : List α := if l.contains x then l else l ++ [x]

/-- R388: a non-strict tally is touched under the current stamp. -/
def Stamp.touch (k : Stamp) (t : W16) : Stamp := { k with touched := bump k.touched t 0 }

/-- The current stamp. -/
def State.stamp (s : State) : W32 := s.led.settle.cur.stamp

/-- R194: a value the peer package is told: every change of a strict tally, and each settled value. -/
def State.mirrorTally (s : State) (t : Nat) (v : W32) : State :=
  s.setPair (fun p => { p with mirror := p.mirror ++ [.settled (BitVec.ofNat 16 t) v s.stamp] })

/-- Replaces a count. -/
def State.putCount (s : State) (t : Nat) (v : W32) : State :=
  let s := (s.modTally t (fun x => { x with count := v })).dirty (s.tallyPart t)
  if tallyStrict t then s.mirrorTally t v else s

/-- Posts TALLY_FAULT (R175, R378). -/
def State.tallyFault (s : State) (t : Nat) (v : Int) : State :=
  s.post 0x0B (BitVec.ofNat 16 t) (putField ((s.tally t).count.setWidth 128) 4 (BitVec.ofInt 64 v))

/-- An add (R378): none when a strict tally would leave 0 to 2^32 − 1. `isLocal` marks dealer, station and owner operations,
which settlement sums itself (R388). -/
def State.tallyAdd (s : State) (t : Nat) (v : Int) (isLocal : Bool) : Option State :=
  let sum : Int := (s.tally t).count.toNat + v
  if tallyStrict t then
    (if 0 ≤ sum ∧ sum < 0x100000000 then some (s.putCount t (BitVec.ofInt 32 sum)) else none)
  else
    let k := BitVec.ofNat 16 t
    let s := s.setSettle (fun x => { x with cur :=
      let c := x.cur.touch k
      if isLocal then { c with loc := bump c.loc k (BitVec.ofInt 32 v) } else c })
    some (s.putCount t (BitVec.ofInt 32 sum))

/-- A set (R382). -/
def State.tallySet (s : State) (t : Nat) (v : W32) : State :=
  let k := BitVec.ofNat 16 t
  let s := if tallyStrict t then s else s.setSettle (fun x => { x with cur :=
    let c := x.cur.touch k
    { c with sets := addNew c.sets k } })
  s.putCount t v

/-! ## Queues (R393–R397) -/

def Queue.size (q : Queue) : Nat := 2 ^ (q.order.toNat + 4)
def Queue.entry (q : Queue) : Nat := 16 * 2 ^ q.esize.toNat
def Queue.count (q : Queue) : Nat := (q.tail.toNat + q.size - q.head.toNat) % q.size
def Queue.isEmpty (q : Queue) : Bool := decide (q.head = q.tail)
/-- A queue holds at most ring size − 1 entries (R395). -/
def Queue.isFull (q : Queue) : Bool := decide (q.size ≤ q.count + 1)
def Queue.at (q : Queue) (i : Nat) : Nat := q.base.toNat + i * q.entry
def Queue.inc (q : Queue) (i : BitVec 15) : BitVec 15 := BitVec.ofNat 15 ((i.toNat + 1) % q.size)

/-- Reads an entry from the ring, in the depot or the ring SRAM. -/
def State.qRead (s : State) (q : Queue) (i : Nat) : List Byte :=
  if q.loc then Mem.readN s.led.sram (q.at i) q.entry else s.depRead (q.at i) q.entry
def State.qWrite (s : State) (q : Queue) (i : Nat) (bs : List Byte) : State :=
  if q.loc then { s with led := { s.led with sram := Mem.writeL s.led.sram (q.at i) bs } } else s.depWrite (q.at i) bs

/-- R397: an entry pushed to a tenant notice queue is also written to the delivery agent's DOWN_DATA; an unreachable agent is
not retried. -/
def State.deliverNotice (s : State) (q : Queue) (bs : List Byte) : State :=
  if q.kind = 2 ∧ q.deliver ≠ 0xFFFF then
    let ws := (List.range 8).map (fun i => (ofBytes 32 ((bs.drop (4 * i)).take 4) : W32))
    s.devOnce q.deliver (agWrite 0xC000 ws)
  else s

/-- Appends an entry (R394, R397): the queue has room. -/
def State.qPush (s : State) (n : Nat) (bs : List Byte) : State :=
  let q := s.queue n
  let s := (s.qWrite q q.tail.toNat (fitBytes q.entry bs)).modQueue n
    (fun q => { q with tail := q.inc q.tail, pushes := satInc q.pushes })
  (s.dirty q.part.toNat).deliverNotice q (fitBytes q.entry bs)

/-- Removes the head entry. -/
def State.qPop (s : State) (n : Nat) : State :=
  (s.modQueue n (fun q => { q with head := q.inc q.head })).dirty (s.queue n).part.toNat

/-- The head entry. -/
def State.qHead (s : State) (n : Nat) : List Byte := s.qRead (s.queue n) (s.queue n).head.toNat

/-- The wait entry at the head of a gated queue (R396): comparison, tally, value, limit. -/
def State.qWait (s : State) (n : Nat) : Option (Nat × Nat × Nat × Nat) :=
  let q := s.queue n
  let e := s.qHead n
  if q.en ∧ q.gated ∧ ¬ q.isEmpty ∧ e.head? = some 1 then
    some ((e.getD 1 0).toNat, leNat ((e.drop 2).take 2), leNat ((e.drop 4).take 4), leNat ((e.drop 8).take 4))
  else none

/-- STALLED (R394): the head is a wait entry whose condition does not hold. -/
def State.qStalled (s : State) (n : Nat) : Bool :=
  match s.qWait n with
  | some (cmp, t, v, _) => !cmpHolds cmp (s.tally t).count.toNat v
  | none => false

/-- Contexts waiting in QPOP (0x61) or QPUSH (0x60) on a queue. -/
def State.qWaiters (s : State) (op : Byte) (n : Nat) : List Nat :=
  (List.range 16).filter (fun c =>
    match (s.ctx c).long with
    | some r => decide (uOp r.word = op) && decide ((bitsAt r.ra 0 15).toNat = n)
    | none => false)

/-- One thing a queue does on its own: a wait entry that holds is removed (R396), else the lowest waiting QPOP takes the
head, else the lowest waiting QPUSH appends (log 9). -/
def State.qStep (s : State) (n : Nat) : Option State :=
  let q := s.queue n
  if ¬ q.en then none
  else if (s.qWait n).isSome ∧ ¬ s.qStalled n then some (s.qPop n)
  else
    match (if q.isEmpty ∨ s.qStalled n then none else (s.qWaiters 0x61 n).head?) with
    | some c =>
      let a := (match (s.ctx c).long with | some r => r.rb.toNat | none => 0)
      some (((s.dsWrite a (s.qHead n)).qPop n).succeed c 0x61 1 0)
    | none =>
      match (if q.isFull then none else (s.qWaiters 0x60 n).head?) with
      | some c =>
        let a := (match (s.ctx c).long with | some r => r.rb.toNat | none => 0)
        some ((s.qPush n (s.dsRead a q.entry)).succeed c 0x60 1 0)
      | none => none

/-- Runs a queue until it does nothing more on its own. -/
def State.qRun (s : State) (n : Nat) : Nat → State
  | 0 => s
  | k + 1 => match s.qStep n with | some t => t.qRun n k | none => s

/-- A bound on what one event lets a queue do: its entries, and 16 contexts. -/
def qFuel : Nat := 32800

/-- A device writer's entry would be written. -/
def State.qTakes (s : State) (n : Nat) : Bool := (s.queue n).en && !(s.queue n).isFull

/-- A device writer's push (R395): dropped and counted in LOST when the queue is full. -/
def State.qDevPush (s : State) (n : Nat) (bs : List Byte) : State :=
  let q := s.queue n
  if ¬ q.en then s
  else if q.isFull then s.modQueue n (fun q => { q with lost := satInc q.lost })
  else (s.qPush n bs).qRun n qFuel

/-! ## Completions (R379) -/

/-- The class-3 completion of a class-8 request. -/
def State.completionOf (s : State) (src seq : W16) (slice : BitVec 9) (t : W16) (op : Byte) (res : Byte) (count stamp : W32) : Flit :=
  ({ cls := 3, dest := src, src := s.myId, slice := slice, seq := seq, sep := (s.slice slice.toNat).sepoch.setWidth 8, age := 32,
     last := true, stat := if res.toNat ≤ 1 then 0 else 3,
     pay := payOf (toBytes 2 t ++ [op, res] ++ toBytes 4 count ++ toBytes 4 stamp) } : Flit).seal

/-! ## Waits (R382, R383) -/

/-- A stream's TWAIT ends: the engine resumes issuing (R259, R383). -/
def State.endTwait (s : State) (e : Nat) : State :=
  s.modEng e (fun x =>
    match x.str.twait with
    | some (_, _, _, t0) => { x with pc := x.pc + 1, str := { x.str with twait := none, twaitUs := x.str.twaitUs + (s.us - t0) } }
    | none => x)

/-- The engines whose streams wait in TWAIT on a tally; a stream whose end is decided waits no more (R265, R267). -/
def State.twaiters (s : State) (t : Nat) : List (Nat × Nat × W64) :=
  s.stat.eng.filterMap (fun p => match p.2.str.twait with
    | some (k, cmp, v, _) => if k.toNat = t ∧ p.2.str.ending.isNone then some (p.1, cmp, v) else none
    | none => none)

/-- The contexts waiting in WAITT on a tally: context, comparison, value. -/
def State.waitters (s : State) (t : Nat) : List (Nat × Nat × W64) :=
  (List.range 16).filterMap (fun c => match (s.ctx c).long with
    | some r => if uOp r.word = 0x04 ∧ (bitsAt r.ra 0 16).toNat = t then some (c, uMod r.word, r.rb) else none
    | none => none)

/-- WAITERS (R377): instructions and streams waiting on the tally; saturates at 15. -/
def State.waiters (s : State) (t : Nat) : Nat := min 15 ((s.twaiters t).length + (s.waitters t).length)

/-- Ends the WAITTs on a tally that now hold. -/
def State.wakeWaitt (s : State) (t : Nat) : State :=
  (s.waitters t).foldl (fun s x =>
    if cmpHolds x.2.1 (s.tally t).count.toNat x.2.2.toNat then s.succeed x.1 0x04 0 0 else s) s

/-- Ends the TWAITs on a tally that now hold. -/
def State.wakeTwait (s : State) (t : Nat) : State :=
  (s.twaiters t).foldl (fun s x =>
    if cmpHolds x.2.1 (s.tally t).count.toNat x.2.2.toNat then s.endTwait x.1 else s) s

/-- Answers a held class-8 WAIT (R380). -/
def State.answerHold (s : State) (h : WaitHold) (res : Byte) : State :=
  s.sendTo h.src (s.completionOf h.src h.seq h.slice h.tally 3 res (s.tally h.tally.toNat).count s.stamp)

/-- Answers the held class-8 WAITs on a tally that now hold. -/
def State.wakeHolds (s : State) (t : Nat) : State :=
  let met := fun (h : WaitHold) => decide (h.tally.toNat = t) && cmpHolds h.cmp (s.tally t).count.toNat h.value.toNat
  let s1 := { s with led := { s.led with holds := s.led.holds.filter (fun h => !met h) } }
  (s.led.holds.filter met).foldl (fun s h => s.answerHold h 0) s1

/-- Lets the gated queues whose head waits on a tally go on (R396). -/
def State.wakeQueues (s : State) (t : Nat) : State :=
  (s.led.queues.filterMap (fun p => if p.2.gated ∧ p.2.en then some p.1 else none)).foldl (fun s n =>
    match s.qWait n with
    | some (_, t', _, _) => if t' = t then s.qRun n qFuel else s
    | none => s) s

/-- R382: waiters are re-evaluated after each operation on a tally. -/
def State.wakeTally (s : State) (t : Nat) : State := (((s.wakeWaitt t).wakeTwait t).wakeHolds t).wakeQueues t

end Sys2Proof.Machine
end

