-- ==== Sys2Proof/Machine/FoldOps.lean ====
section
/-! DEFINITION. Books the controller keeps in the ledger: path book, link book, fold book and kitty, and what it streams
of them to its peer (R40, R46, R194, R324–R329, R338). -/

namespace Sys2Proof.Machine

/-- Queues an update for the peer package (R194). -/
def State.stream (s : State) (m : MirrorItem) : State := s.setPair (fun p => { p with mirror := p.mirror ++ [m] })

/-! ## Path book -/

/-- Inserts a path by length, the shorter first; a path already held is not held twice. -/
def addPath (ps : List (List Byte)) (p : List Byte) : List (List Byte) :=
  if ps.contains p then ps
  else (ps.takeWhile (fun q => decide (q.length ≤ p.length))) ++ p :: (ps.dropWhile (fun q => decide (q.length ≤ p.length)))

/-- A HELLO with its arrival port taken as 0. -/
def helloKey (h : Payload) : Payload := putField h 5 (0 : Byte)

/-- The fabric epoch of an agent's active tables, as its HELLO tells it: none while they are not valid (R38). -/
def helloTables (h : Payload) : Option W32 := if (helloState h).getLsbD 0 then some (helloFepoch h) else none

/-- Records an agent reached along a path: a new record, or a further path of one held; the later HELLO governs (R40). -/
def State.learn (s : State) (h : Payload) (path : List Byte) : State :=
  let id : W16 := byteField h 0 16
  let ks := match s.known id with
    | some _ => s.fab.paths.map (fun k => if k.id = id then { k with hello := helloKey h, paths := addPath k.paths path } else k)
    | none => s.fab.paths ++ [{ id := id, hello := helloKey h, paths := [path], quar := true }]
  ({ s with fab := { s.fab with paths := ks } }).stream (.path id path (match s.known id with | some k => k.table | none => false) (helloKey h))

def State.modKnown (s : State) (id : W16) (f : Known → Known) : State :=
  { s with fab := { s.fab with paths := s.fab.paths.map (fun k => if k.id = id then f k else k) } }

/-- Streams an agent's path-book record as it stands (R194). -/
def State.streamPath (s : State) (id : W16) : State :=
  match s.known id with
  | some k => (match k.paths with
    | p :: _ => s.stream (.path id p k.table k.hello)
    | [] => s)
  | none => s

/-- The first place of the pod whose agent has an ID: what a read of the agent's registers would find. -/
def State.agentById (s : State) (id : W16) : Option Agent := (s.agents.find? (fun p => p.2.id.id = id)).map (·.2)

/-! ## Link book -/

/-- A link joins two agents. -/
def LinkRec.joins (l : LinkRec) (a b : W16) : Bool := (decide (l.a = a) && decide (l.b = b)) || (decide (l.a = b) && decide (l.b = a))
/-- The port of a link at an agent. -/
def LinkRec.portAt (l : LinkRec) (a : W16) : Nat := if l.a = a then l.ap else l.bp
/-- The other end of a link. -/
def LinkRec.other (l : LinkRec) (a : W16) : W16 := if l.a = a then l.b else l.a

/-- The links of an agent. -/
def State.linksOf (s : State) (id : W16) : List LinkRec := s.fab.links.filter (fun l => decide (l.a = id) || decide (l.b = id))

/-- Every link of an agent is out of service: it has been cut. -/
def State.cutAway (s : State) (id : W16) : Bool := !(s.linksOf id).isEmpty && (s.linksOf id).all (·.cut)

/-- R46: an agent that has been cut is reached by path routing only. -/
def State.pathOnly (s : State) : State :=
  ((s.fab.paths.filter (fun k => k.table && s.cutAway k.id)).map (·.id)).foldl (fun s id =>
    (s.modKnown id (fun k => { k with table := false })).streamPath id) s

/-- Marks links cut or restored in the link book (R46). -/
def State.cutLinks (s : State) (hit : LinkRec → Bool) (cut : Bool) : State :=
  let ls := s.fab.links.filter hit
  let s1 := { s with fab := { s.fab with links := s.fab.links.map (fun l => if hit l then { l with cut := cut } else l) } }
  let s2 := ls.foldl (fun s l => s.stream (.linkCut l.a l.ap cut)) s1
  if cut then s2.pathOnly else s2

/-- The plan record of an agent. -/
def State.planOf (s : State) (id : W16) : Option PlanAgent := s.fab.plan.bind (fun p => p.agents.find? (fun x => x.id = id))

/-- Whether an agent is in a block (R46): the agent itself, or an agent whose plan record names the rack half. -/
def State.inBlock (s : State) (d : Desc) (id : W16) : Bool :=
  match descKind d with
  | 2 => decide (id = descPeer d)
  | 3 => (match s.planOf id with | some r => decide (r.rackHalf = (descHalf d).setWidth 16) | none => false)
  | _ => false

/-- Whether a link belongs to a block or leads into it. -/
def State.linkHit (s : State) (d : Desc) (l : LinkRec) : Bool :=
  if descKind d = 1 then
    (decide (l.a = descReporter d) && decide (l.ap = descRport d)) || (decide (l.b = descReporter d) && decide (l.bp = descRport d)) ||
    (decide (l.a = descPeer d) && decide (l.ap = descPport d)) || (decide (l.b = descPeer d) && decide (l.bp = descPport d))
  else s.inBlock d l.a || s.inBlock d l.b

/-- A block descriptor of kinds 1–3 with its reserved bits clear (R106). -/
def descOk (d : Desc) : Bool := decide (1 ≤ descKind d) && decide (descKind d ≤ 3) && decide (bitsAt d 0 4 = 0)

/-! ## Fault keys (R285) -/

def linkKey (l : LinkRec) : Desc := linkDesc l.a l.ap l.b (BitVec.ofNat 8 l.bp)
def blockKey (kind : BitVec 4) (peer : W16) (half : Byte) : Desc :=
  kind ++ (0 : Byte) ++ (0 : W16) ++ peer ++ (0xFF : Byte) ++ half ++ (0 : BitVec 4)
def agentKey (id : W16) : Desc := blockKey 2 id 0
def halfKey (h : Byte) : Desc := blockKey 3 0 h

/-- The key of the fault a descriptor reports, by whichever end. -/
def State.keyOf (s : State) (d : Desc) : Desc :=
  match descKind d with
  | 1 => match s.fab.links.find? (fun l =>
      (decide (l.a = descReporter d) && decide (l.ap = descRport d)) || (decide (l.b = descReporter d) && decide (l.bp = descRport d)) ||
      (decide (l.a = descPeer d) && decide (l.ap = descPport d)) || (decide (l.b = descPeer d) && decide (l.bp = descPport d))) with
    | some l => linkKey l
    | none => d
  | 2 => agentKey (descPeer d)
  | _ => halfKey (descHalf d)

/-! ## Fold book (R324–R328) -/

def foldPartDflt (_ : Nat) : FoldPart := {}
def foldAccDflt (_ : Nat) : FoldAcc := {}

def State.foldPart (s : State) (id : W16) (p : Nat) : FoldPart := SMap.get foldPartDflt s.fab.fold.parts (16 * id.toNat + p)
def State.modFoldPart (s : State) (id : W16) (p : Nat) (f : FoldPart → FoldPart) : State :=
  s.setFold (fun b => { b with parts := SMap.modify foldPartDflt b.parts (16 * id.toNat + p) f })
def State.foldAcc (s : State) (id : W16) : FoldAcc := SMap.get foldAccDflt s.fab.fold.accs id.toNat
def State.modFoldAcc (s : State) (id : W16) (f : FoldAcc → FoldAcc) : State :=
  s.setFold (fun b => { b with accs := SMap.modify foldAccDflt b.accs id.toNat f })

/-- A partition's count: resets within the window (R324). Times are in ms. -/
def State.foldCount (s : State) (id : W16) (p : Nat) : Nat :=
  ((s.foldPart id p).times.filter (fun t => decide (s.us / 1000 < t + 1000 * s.fab.fold.windowS.toNat))).length

/-- Records the time of a partition's reset, at 1 ms (R324). -/
def State.addReset (s : State) (id : W16) (p : Fin 16) : State :=
  s.modFoldPart id p (fun x => { x with times := (s.us / 1000 :: x.times).take 15 })

/-- Writes a fold log entry (R328). -/
def State.foldLog (s : State) (id : W16) (part : Byte) (cause : Byte) (count : Nat) (pend : Bool) : State :=
  let b := (s.known id).bind (·.bound)
  let flags : Byte := (if pend then 1 else 0) ||| (if b.isSome then 2 else 0)
  let sl : W16 := b.getD 0xFFFF
  let e : BitVec 256 := ofBytes 256 (toBytes 2 id ++ [part, cause, BitVec.ofNat 8 count, flags] ++ toBytes 2 sl ++
    toBytes 4 s.fab.frame ++ toBytes 4 s.dealers.fepoch ++
    toBytes 2 (match b with | some x => (s.slice x.toNat).sepoch | none => (0 : W16)))
  s.setFold (fun f => { f with
    log := SMap.set (fun _ => (0 : BitVec 256)) f.log f.logNext.toNat e
    logNext := f.logNext + 1
    logSeq := f.logSeq + 1 })

/-- Records a partition fold; a fold already recorded stays as it is. -/
def State.recordPartFold (s : State) (id : W16) (p : Fin 16) (cause : Byte) : State :=
  if (s.foldPart id p).folded then s
  else
    let n := s.foldCount id p
    let s := (s.foldLog id (BitVec.ofNat 8 p) cause n false).modFoldPart id p (fun x => { x with folded := true, due := false })
    (s.setFold (fun f => { f with folds := satInc f.folds })).stream (.fold id (some p) true false)

/-- Records an accelerator fold (R327); the unbind is pending when the agent cannot be reached. -/
def State.recordAccFold (s : State) (id : W16) (cause : Byte) : State :=
  if (s.foldAcc id).folded then s
  else
    let pend := (s.pathFor id).isNone
    let s := (s.foldLog id 0xFF cause 0 pend).modFoldAcc id (fun _ => { folded := true, unbindPending := pend })
    (s.setFold (fun f => { f with accFolds := satInc f.accFolds })).stream (.fold id none true pend)

/-- An unfolded partition: its record and its times are cleared (R318, R324). -/
def State.unfoldPart (s : State) (id : W16) (p : Fin 16) : State :=
  let was := (s.foldPart id p).folded
  let s := s.modFoldPart id p (fun _ => {})
  if was then s.stream (.fold id (some p) false false) else s

/-- What an accepted AGENT_WRITE unfolds: each partition whose STATE it writes 1 (R318). -/
def State.unfolds (s : State) (id : W16) (k : CmdSpec) : State :=
  if k.op ≠ 0x03 then s
  else (List.finRange 16).foldl (fun s p =>
    let off := 0xA004 + 0x40 * p.val
    if k.arg.toNat ≤ off ∧ (bitsAt (k.words.getD ((off - k.arg.toNat) / 4) 0) 4 3 : BitVec 3) = 1 then s.unfoldPart id p else s) s

/-- Writes an accelerator's fold book entry. -/
def State.setFoldAcc (s : State) (id : W16) (x : FoldAcc) : State :=
  if s.foldAcc id = x then s else (s.modFoldAcc id (fun _ => x)).stream (.fold id none x.folded x.unbindPending)

/-- An accelerator's own fold is undone when it is bound again, or returns from a power-on (R328, R335). -/
def State.unfoldAcc (s : State) (id : W16) : State := s.setFoldAcc id {}

/-- An acknowledged unbind: no unbind is pending, and the agent is recorded unbound (R336). -/
def State.unboundAcc (s : State) (id : W16) : State :=
  (s.setFoldAcc id { s.foldAcc id with unbindPending := false }).modKnown id (fun k => { k with bound := none })

/-- A HELLO that shows a power-on clears the accelerator's fold book entries, an unbind pending and its binding (R335). -/
def State.powerReturn (s : State) (id : W16) : State :=
  (((List.finRange 16).foldl (fun s p => s.unfoldPart id p) s).unfoldAcc id).modKnown id (fun k => { k with bound := none })

/-- Quarantines an agent, by its record and by command (R42). -/
def State.quarantine (s : State) (id : W16) : State :=
  (s.modKnown id (fun k => { k with quar := true })).devCmd id (agCmd 0x0D 0)

/-- Records a HELLO. A changed profile quarantines its agent as returning from repair (R26); an accelerator that shows a
power-on leaves the fold book (R335). -/
def State.relearn (s : State) (h : Payload) (path : List Byte) : State :=
  let id := helloId h
  let changed : Bool := match s.known id with
    | some k => decide (helloBuild h = 1) && decide (helloProfile k.hello ≠ helloProfile h)
    | none => false
  let s := s.learn h path
  let s := if changed then (s.setDisc (fun d => { d with quarantine := addNew d.quarantine id })).quarantine id else s
  if changed ∨ (helloBuild h = 1 ∧ (helloState h).getLsbD 3) then s.powerReturn id else s

/-- Whether every partition that the agent reports with EN set is folded (R325). -/
def State.allFolded (s : State) (id : W16) : Bool :=
  match s.agentById id with
  | some a => (List.range 16).any (fun p => (a.part p).en) &&
      (List.range 16).all (fun p => !(a.part p).en || (s.foldPart id p).folded)
  | none => false

/-! ## Kitty (R329) -/

/-- In service: known, and not cut off by its links. -/
def State.inService (s : State) (id : W16) : Bool := (s.known id).isSome && !s.cutAway id

def State.eligible (s : State) (id : W16) : Bool :=
  s.inService id &&
  (match s.known id with | some k => !k.quar && k.bound.isNone | none => false) &&
  (List.range 16).all (fun p => !(s.foldPart id p).folded) &&
  !(s.foldAcc id).folded && !(s.foldAcc id).unbindPending

/-- The lowest-ID eligible spare in the preferred region, or anywhere. -/
def State.drawSpare (s : State) (region : W16) : Option W16 :=
  let el := s.fab.kitty.filter s.eligible
  match el.find? (fun id => decide (bitsAt id 6 10 = region.setWidth 10) && decide (region ≠ 0xFFFF)) with
  | some id => some id
  | none => el.head?

/-! ## Power domains (R338, R339) -/

def State.domainOf (s : State) (id : W16) : Nat :=
  match s.planOf id with
  | some r => (bitsAt (SMap.get z8 s.fab.fold.domain r.rackHalf.toNat) 0 5).toNat
  | none => 0
def State.budget (s : State) (d : Nat) : Nat := (SMap.get budgetDflt s.fab.fold.budget d).toNat
/-- Tokens missing from a bucket; a bucket starts full. -/
def State.tokensOf (s : State) (d : Nat) : Nat := s.budget d - SMap.get zNat s.fab.fold.tokens d
def State.takeToken (s : State) (d : Nat) : State :=
  s.setFold (fun f => { f with tokens := SMap.modify zNat f.tokens d (· + 1) })

end Sys2Proof.Machine
end

