-- ==== Sys2Proof/Machine/UciRings.lean ====
section
/-! DEFINITION. The rings of a cube group and their closure (R16, R20–R25, R47–R49): which rings a block breaks, the
bypass each gets, and the closure records of CLOSE (R153). -/

namespace Sys2Proof.Machine

/-! ## Members and neighbours (R16, R20, R23) -/

/-- A member's coordinate in a dimension: 0 X, 1 Y, 2 Z. -/
def coordOf (m d : Nat) : Nat := m / 4 ^ d % 4

/-- The member at given coordinates. -/
def memberAt (x y z : Nat) : Nat := 16 * (z % 4) + 4 * (y % 4) + x % 4

/-- The neighbour in the + direction of a dimension; `flat` is P4/8, whose Y wrap is untwisted (R23). -/
def plusOf (flat : Bool) (m d : Nat) : Nat :=
  let x := coordOf m 0
  let y := coordOf m 1
  let z := coordOf m 2
  match d with
  | 0 => if x < 3 then memberAt (x + 1) y z else memberAt 0 (y + 1) z
  | 1 => if y < 3 then memberAt x (y + 1) z else memberAt x 0 (if flat then z else z + 1)
  | _ => if z < 3 then memberAt x y (z + 1) else memberAt (x + 2) y 0

/-- The neighbour in the − direction. -/
def minusOf (flat : Bool) (m d : Nat) : Nat :=
  ((List.range 64).find? (fun k => plusOf flat k d = m)).getD m

/-- The agent of a member of a region. -/
def agentOf (region m : Nat) : W16 := BitVec.ofNat 16 (64 * region + m)

/-! ## Links between agents -/

/-- A link is in service for data, the block of d being taken out. -/
def State.linkUp (s : State) (d : Desc) (l : LinkRec) : Bool := !l.cut && !l.reach && !s.linkHit d l

/-- An in-service link between two agents. -/
def State.linkOf (s : State) (d : Desc) (a b : W16) : Option LinkRec :=
  s.fab.links.find? (fun l => l.joins a b && s.linkUp d l)

/-- The block takes out a link between two agents, and no other link of theirs is in service. -/
def State.brokenBy (s : State) (d : Desc) (a b : W16) : Bool :=
  s.fab.links.any (fun l => l.joins a b && s.linkHit d l) && (s.linkOf d a b).isNone

/-! ## Rings

A ring is named by its region, its dimension and its line's two other coordinates; its links start at the line's four
members, the fourth link being the wrap (log 13). -/

structure Ring where
  region : Nat
  dim : Nat
  flat : Bool
  /-- the line's member with coordinate 0 -/
  base : Nat
  deriving DecidableEq, Repr

/-- The member n steps from another in the + direction. -/
def stepsFrom (flat : Bool) (m d : Nat) : Nat → Nat
  | 0 => m
  | n + 1 => stepsFrom flat (plusOf flat m d) d n

/-- Member i of a ring's line; 4 is the far end of its wrap link. -/
def Ring.member (r : Ring) (i : Nat) : Nat := stepsFrom r.flat r.base r.dim i
def Ring.id (r : Ring) (m : Nat) : W16 := agentOf r.region m

/-- The ring's two other coordinates. -/
def Ring.coords (r : Ring) : Nat × Nat :=
  match r.dim with
  | 0 => (coordOf r.base 1, coordOf r.base 2)
  | 1 => (coordOf r.base 0, coordOf r.base 2)
  | _ => (coordOf r.base 0, coordOf r.base 1)

/-- The profile of a region's group: its plan records', else P6/6 (R24, log 13). -/
def State.profileOf (s : State) (region : Nat) : Nat :=
  match s.fab.plan.bind (fun p => p.agents.find? (fun x => x.id.toNat / 64 = region)) with
  | some x => x.profile.toNat
  | none => 0

/-- The rings of a region (P4/8 has no Z links). -/
def State.rings (s : State) (region : Nat) : List Ring :=
  let flat := decide (s.profileOf region = 2)
  (if flat then [0, 1] else [0, 1, 2]).flatMap (fun d =>
    ((List.range 64).filter (fun m => coordOf m d = 0)).map (fun m =>
      { region := region, dim := d, flat := flat, base := m }))

/-- The regions whose rings a block can break. -/
def blockRegions (d : Desc) : List Nat :=
  ((match descKind d with
    | 1 => [(descReporter d).toNat / 64, (descPeer d).toNat / 64]
    | 2 => [(descPeer d).toNat / 64]
    | 3 => [(descHalf d).toNat]
    | _ => []).filter (fun r => decide (r < 128))).eraseDups

/-- A member is out of service: it lies inside the block, or was cut earlier. -/
def State.memberOut (s : State) (d : Desc) (r : Ring) (m : Nat) : Bool := s.inBlock d (r.id m) || s.cutAway (r.id m)

/-- Walks back from a member past members out of service: the gap's first edge. -/
def State.edgeBack (s : State) (d : Desc) (r : Ring) (m : Nat) : Nat → Nat
  | 0 => m
  | n + 1 =>
    let b := minusOf r.flat m r.dim
    if s.memberOut d r m then s.edgeBack d r b n else m

/-- Walks on to the gap's far edge. -/
def State.edgeOn (s : State) (d : Desc) (r : Ring) (m : Nat) : Nat → Nat
  | 0 => m
  | n + 1 => if s.memberOut d r m then s.edgeOn d r (plusOf r.flat m r.dim) n else m

/-- The first link of a ring that the block breaks. -/
def State.gapAt (s : State) (d : Desc) (r : Ring) : Option Nat :=
  (List.range 4).find? (fun i => s.brokenBy d (r.id (r.member i)) (r.id (r.member (i + 1))))

/-- Steps from one member to another in the + direction. -/
def gapLen (r : Ring) (a b : Nat) : Nat := ((List.range 16).find? (fun n => stepsFrom r.flat a r.dim (n + 1) = b)).getD 0 + 1

/-! ## Bypasses (R47) -/

/-- A tree bypass: the lowest level-1 switch that both edges reach. -/
def State.treeVia (s : State) (d : Desc) (a b : W16) : Option W16 :=
  ((s.fab.links.filter (fun l => (decide (l.a = a) || decide (l.b = a)) && s.linkUp d l)).map (·.other a)).foldl
    (fun best k =>
      if 0x8000 ≤ k.toNat ∧ k.toNat < 0xC000 ∧ (s.linkOf d k b).isSome ∧ (match best with | some x => decide (k.toNat < x.toNat) | none => true) = true then some k
      else best) none

/-- The members a cube bypass passes, from the first edge to the second, in the + or − direction of the next dimension. -/
def bypassPath (r : Ring) (a n : Nat) (plus : Bool) : List Nat :=
  let nd := (r.dim + 1) % 3
  let out := if plus then plusOf r.flat a nd else minusOf r.flat a nd
  let far := stepsFrom r.flat out r.dim n
  a :: (List.range (n + 1)).map (fun i => stepsFrom r.flat out r.dim i) ++
    [if plus then minusOf r.flat far nd else plusOf r.flat far nd]

/-- Every step of a path has an in-service link. -/
def State.pathUp (s : State) (d : Desc) (r : Ring) : List Nat → Bool
  | a :: b :: ms => (s.linkOf d (r.id a) (r.id b)).isSome && s.pathUp d r (b :: ms)
  | _ => true

/-- Whether a cube bypass serves: the next dimension has links, the path ends at the far edge, and every link is in service. -/
def State.cubeOk (s : State) (d : Desc) (r : Ring) (a b : Nat) (plus : Bool) : Bool :=
  let p := bypassPath r a (gapLen r a b) plus
  !(r.flat && decide ((r.dim + 1) % 3 = 2)) && decide (p.getLast? = some b) && s.pathUp d r p

/-- R47: the bypass, its hops and the far end of its first link: 0 chain, 1 tree, 2 cube +, 3 cube −. -/
def State.bypass (s : State) (d : Desc) (r : Ring) (a b : Nat) : Nat × Nat × Option W16 :=
  match s.treeVia d (r.id a) (r.id b) with
  | some k => (1, 2, some k)
  | none =>
    let n := gapLen r a b
    let nd := (r.dim + 1) % 3
    if s.cubeOk d r a b true then (2, n + 2, some (r.id (plusOf r.flat a nd)))
    else if s.cubeOk d r a b false then (3, n + 2, some (r.id (minusOf r.flat a nd)))
    else (0, 0, none)

/-- The ring a closure is of. -/
def State.ringOf (s : State) (k : Closure) : Ring :=
  let c1 := k.coord % 4
  let c2 := k.coord / 4
  { region := k.region.toNat, dim := k.dim, flat := decide (s.profileOf k.region.toNat = 2),
    base := match k.dim with | 0 => memberAt 0 c1 c2 | 1 => memberAt c1 0 c2 | _ => memberAt c1 c2 0 }

/-- The first member of a ring's wrap link. -/
def Ring.wrap (r : Ring) : W16 := r.id (r.member 3)

/-- The date line that an earlier closure of a ring moved to a bypass, while its link is in service. -/
def State.movedLine (s : State) (d : Desc) (r : Ring) : Option (W16 × Byte) :=
  (s.fab.closures.find? (fun k => decide (s.ringOf k = r) && decide (k.dlAgent ≠ r.wrap) && decide (k.dlAgent ≠ 0xFFFF) &&
    s.fab.links.any (fun l => ((decide (l.a = k.dlAgent) && decide (l.ap = k.dlPort.toNat)) ||
      (decide (l.b = k.dlAgent) && decide (l.bp = k.dlPort.toNat))) && s.linkUp d l))).map (fun k => (k.dlAgent, k.dlPort))

/-- R48: the date line stays on a wrap link that survives, or on the link it had moved to before; else it moves to the bypass's
first link. -/
def State.dateLineOf (s : State) (d : Desc) (r : Ring) (a : Nat) (first : Option W16) : W16 × Byte :=
  match s.linkOf d r.wrap (r.id (r.member 4)), s.movedLine d r with
  | some l, _ => (r.wrap, BitVec.ofNat 8 (l.portAt r.wrap))
  | none, some k => k
  | none, none =>
    match first.bind (s.linkOf d (r.id a)) with
    | some l => (r.id a, BitVec.ofNat 8 (l.portAt (r.id a)))
    | none => (0xFFFF, 0xFF)

/-- The closure of a ring the block breaks; none when it leaves the ring whole or leaves no two members at the gap. -/
def State.closureOf (s : State) (d : Desc) (r : Ring) : Option Closure :=
  match s.gapAt d r with
  | none => none
  | some i =>
    let a := s.edgeBack d r (r.member i) 16
    let b := s.edgeOn d r (r.member (i + 1)) 16
    if s.memberOut d r a ∨ s.memberOut d r b ∨ a = b then none
    else
      let (by_, hops, first) := s.bypass d r a b
      let dl := s.dateLineOf d r a first
      some { region := BitVec.ofNat 16 r.region, dim := r.dim, coord := r.coords.1 + 4 * r.coords.2, edgeA := r.id a, edgeB := r.id b,
             bypass := by_, hops := hops, dlAgent := dl.1, dlPort := dl.2 }

/-- The closures of a block, in ring order. -/
def State.closures (s : State) (d : Desc) : List Closure :=
  (blockRegions d).flatMap (fun g => (s.rings g).filterMap (s.closureOf d))

/-- A closure record's ring field: region, dimension, the two other coordinates (DESIGN CHOICE, log 122). -/
def Closure.ringWord (k : Closure) : W16 := BitVec.ofNat 16 (k.region.toNat + 128 * k.dim + 512 * k.coord)

/-- A 16-byte closure record (R153). -/
def closureRec (k : Closure) : List Byte :=
  toBytes 2 k.ringWord ++ toBytes 2 k.edgeA ++ toBytes 2 k.edgeB ++ [BitVec.ofNat 8 k.bypass, BitVec.ofNat 8 k.hops] ++
    toBytes 2 k.dlAgent ++ [k.dlPort, 0, 0, 0, 0, 0]

/-- Sets the date-line flag of the link at an agent's port. -/
def State.putDateLine (s : State) (a : W16) (p : Nat) (v : Bool) : State :=
  { s with fab := { s.fab with links := s.fab.links.map (fun l =>
      if (l.a = a ∧ l.ap = p) ∨ (l.b = a ∧ l.bp = p) then { l with dateLine := v } else l) } }

/-- Sets the date-line flag of every link between two agents. -/
def State.dateBetween (s : State) (a b : W16) (v : Bool) : State :=
  { s with fab := { s.fab with links := s.fab.links.map (fun l => if l.joins a b then { l with dateLine := v } else l) } }

/-- Takes a closure's date line away, from its bypass or from the wrap link. -/
def State.clearLine (s : State) (k : Closure) : State :=
  let r := s.ringOf k
  if k.dlAgent = 0xFFFF then s
  else if k.dlAgent = r.wrap then s.dateBetween r.wrap (r.id (r.member 4)) false
  else s.putDateLine k.dlAgent k.dlPort.toNat false

/-- Puts a closure's date line where its record names it. -/
def State.setLine (s : State) (k : Closure) : State :=
  let r := s.ringOf k
  if k.dlAgent = 0xFFFF then s
  else if k.dlAgent = r.wrap then s.dateBetween r.wrap (r.id (r.member 4)) true
  else s.putDateLine k.dlAgent k.dlPort.toNat true

/-- Applies a closure to the link book (R48): the ring's date line leaves where it was, and each closed ring has the one that its
latest closure names. -/
def State.applyClosure (s : State) (k : Closure) : State :=
  let r := s.ringOf k
  let olds := s.fab.closures.filter (fun x => decide (s.ringOf x = r))
  let s1 := olds.foldl State.clearLine (s.dateBetween r.wrap (r.id (r.member 4)) false)
  let ks := s.fab.closures.filter (fun x => decide (s.ringOf x ≠ r)) ++ [k]
  ks.foldl State.setLine { s1 with fab := { s1.fab with closures := ks } }

/-- Applies closures to the link book (R47, R48). -/
def State.applyClosures (s : State) (ks : List Closure) : State := ks.foldl State.applyClosure s

/-- R49: a restore brings a ring's original date line back. -/
def State.unclose (s : State) (d : Desc) : State :=
  (s.fab.closures.filter (fun k => (blockRegions d).contains k.region.toNat)).foldl (fun s k =>
    let r := s.ringOf k
    if (List.range 4).all (fun i => (s.linkOf 0 (r.id (r.member i)) (r.id (r.member (i + 1)))).isSome) then
      let t := (s.clearLine k).dateBetween r.wrap (r.id (r.member 4)) true
      let ks := t.fab.closures.filter (fun x => decide (x ≠ k))
      ks.foldl State.setLine { t with fab := { t.fab with closures := ks } }
    else s) s

/-! ## New links (R21) -/

/-- The wrap step from one member to another. -/
def wrapStep (flat : Bool) (a b : Nat) : Bool :=
  (if flat then [0, 1] else [0, 1, 2]).any (fun d => decide (coordOf a d = 3) && decide (plusOf flat a d = b))

/-- R21, R48: a link found between two agents of a group is a date line when it is its ring's wrap link, unless the ring is
closed with its date line elsewhere. -/
def State.dateLink (s : State) (a b : W16) : Bool :=
  let g := a.toNat / 64
  let flat := decide (s.profileOf g = 2)
  decide (g < 128) && decide (b.toNat / 64 = g) &&
  (wrapStep flat (a.toNat % 64) (b.toNat % 64) || wrapStep flat (b.toNat % 64) (a.toNat % 64)) &&
  s.fab.closures.all (fun k =>
    let r := s.ringOf k
    decide (k.dlAgent = r.wrap) || !((decide (r.wrap = a) && decide (r.id (r.member 4) = b)) || (decide (r.wrap = b) && decide (r.id (r.member 4) = a))))

/-- A link-book entry, the lower end first. -/
def State.newLink (s : State) (a : W16) (ap : Nat) (b : W16) (bp : Nat) (cut : Bool) : LinkRec :=
  if a.toNat ≤ b.toNat then { a := a, ap := ap, b := b, bp := bp, cut := cut, dateLine := s.dateLink a b }
  else { a := b, ap := bp, b := a, bp := ap, cut := cut, dateLine := s.dateLink a b }

/-- Enters a link in the link book and streams it (R194). -/
def State.enterLink (s : State) (l : LinkRec) : State :=
  let s := ({ s with fab := { s.fab with links := s.fab.links ++ [l] } }).stream (.link l.a l.ap l.b l.bp)
  if l.cut then s.stream (.linkCut l.a l.ap true) else s

/-! ## Cuts and restores (R46, R49) -/

/-- Takes a block's links out of service. A restore not yet in a table change waits until the change that carries the cut is
made: the cut is applied first (R49). -/
def State.cutOut (s : State) (hit : LinkRec → Bool) : State :=
  let s := if s.fab.cutPend then s else s.fab.restores.foldl (fun s d => s.cutLinks (s.linkHit d) true) s
  ({ s with fab := { s.fab with cutPend := true } }).cutLinks hit true

/-- Brings a block back in the link book: its links, and the date lines of its rings. -/
def State.putBack (s : State) (d : Desc) : State := (s.cutLinks (s.linkHit d) false).unclose d

/-- R49: records a restore; while a cut is pending it waits for the cut's table change. -/
def State.restore (s : State) (d : Desc) : State :=
  let s := { s with fab := { s.fab with restores := addNew s.fab.restores d } }
  if s.fab.cutPend then s else s.putBack d

/-- R49: a table change has been made. The cuts it carried are done; restores that waited for it are applied now, and others are
done with it. -/
def State.changeMade (s : State) : State :=
  if s.fab.cutPend then s.fab.restores.foldl State.putBack { s with fab := { s.fab with cutPend := false } }
  else { s with fab := { s.fab with restores := [] } }

end Sys2Proof.Machine
end

