-- ==== Sys2Proof/Machine/UciEngine.lean ====
section
/-! DEFINITION. The command engine (R143–R147, R154): targets, issue, resends, responses and notices that advance a long
instruction, and how an instruction with targets ends. -/

namespace Sys2Proof.Machine

/-! ## Targets -/

/-- A target (R146): without a path-book entry, or without a generation its commands need, it is sent nothing. -/
def State.target (s : State) (idx : Nat) (id : W16) (steps : List TStep) : Target :=
  let gen := steps.any (fun t => match t with | .cmd k => needsGen k.op | _ => false)
  let unsent := (s.known id).isNone || (gen && (s.genOf id).isNone)
  { agent := id, idx := idx, steps := steps, whole := steps,
    state := if unsent then 3 else if steps = [] then 1 else 0 }

/-- Targets for a list of agents, all with the same work. -/
def State.targets (s : State) (ids : List W16) (steps : List TStep) : List Target :=
  (ids.zipIdx).map (fun p => s.target p.2 p.1 steps)

/-- R145: an agent list in the data store. -/
def State.agentList (s : State) (a : Nat) : Option (List W16) :=
  if ¬ inDs a 8 then none
  else
    let n := s.dsLE a 2
    if n = 0 ∨ 9216 < n ∨ s.dsLE (a + 2) 6 ≠ 0 ∨ ¬ inDs a (8 * (1 + (n + 3) / 4)) then none
    else some ((List.range n).map (fun i => BitVec.ofNat 16 (s.dsLE (a + 8 + 2 * i) 2)))

/-- The steps of a mailbox exchange (R154) carrying a 40-byte message. -/
def exchange (msg : List Byte) : List TStep :=
  let ws := (List.range 10).map (fun i => (ofBytes 32 ((msg.drop (4 * i)).take 4) : W32))
  [.claim, .cmd (agWrite 0xC120 (ws.take 5)), .cmd (agWrite 0xC134 (ws.drop 5)), .cmd (agWrite 0xC104 [2]), .await 9 2,
   .read 0xC120 5, .read 0xC134 5, .cmd (agWrite 0xC100 [0])]

/-- Instructions that take one step with an agent at a time: card loads and exchanges (R153, R154). -/
def oneAtATime (op : Byte) : Bool := op = 0x27 || op = 0x40 || op = 0x41 || op = 0x44 || op = 0x64

/-- A port's first register as it is written back: its RW bits CUT, PEERQ and ARM as read, one of them replaced (R96). -/
def portWord (w : W32) (bit : Nat) (v : Bool) : W32 := putBit (w &&& 0xA4) bit v

/-- The command of a step; a port's bit is written over the word read before. -/
def Target.cmdOf (t : Target) : Option CmdSpec :=
  match t.steps.head? with
  | some (.cmd k) => some k
  | some .claim => some (agRead 0xC100 1)
  | some (.read off n) => some (agRead off n)
  | some (.portWrite off bit v) => some (agWrite off [portWord (t.got.getLastD 0) bit v])
  | some (.await _ _) => none
  | none => none

/-! ## Epochs (R143) -/

/-- INSTALL, DRAIN, SWAP, ARM and ADMIT (release). -/
def epochChecked (w : W64) : Bool :=
  uOp w = 0x24 || uOp w = 0x25 || uOp w = 0x26 || uOp w = 0x27 || (uOp w = 0x2F && decide (uMod w = 0))

/-- The fabric epoch an instruction's commands carry. -/
def State.cmdEpoch (s : State) (c : Nat) (w : W64) : W32 := if epochChecked w then (s.ctx c).epoch else s.dealers.fepoch

/-! ## Ending -/

def Target.isMiss (t : Target) : Bool := t.counts && decide (t.state ≠ 1)

/-- Misses in list order (R144). -/
def Running.misses (r : Running) : List (Nat × W16 × Byte) :=
  r.missed ++ (r.targets.filter Target.isMiss).map (fun t => (t.idx, t.agent, t.status.getD 0xFF))

/-- SWAP's second phase, UNGATE: its agents are not what DONE counts, but one that refuses is a miss (R89, R153). -/
def Running.ungating (r : Running) : Bool := decide (uOp r.word = 0x26) && decide (r.phase = 1)

/-- Targets completed. -/
def Running.doneCount (r : Running) : Nat :=
  if r.ungating then r.done else r.done + (r.targets.filter (fun t => t.counts && decide (t.state = 1))).length

/-- R153 PROBE: the attempts made on paths that got no HELLO. -/
def State.probeSlots (s : State) (r : Running) : State :=
  if uOp r.word = 0x20 then
    (r.targets.filter Target.isMiss).foldl (fun s t =>
      s.dsWrite (r.rb.toNat + 64 * t.idx + 48) (BitVec.ofNat 8 t.tries :: List.replicate 15 0)) s
  else s

/-- Ends an instruction with targets: DONE, MISS and FIRST from its targets, and its miss list (R141, R144). The miss list is
also how the Dealer reports an agent that answered GEN_MISMATCH (R89; DESIGN CHOICE, log 103). -/
def State.endTargets (s : State) (c : Nat) (r : Running) (outcome reason : Nat) : State :=
  ((if r.targets = [] ∧ r.missed = [] then s else (s.probeSlots r).writeMiss c r.misses)).endLong c (uOp r.word) outcome reason r.doneCount
    r.misses.length r.first.toNat

/-- R142: the abort reason recorded is the first to occur: REFUSED when a target has already refused. -/
def Running.cause (r : Running) (reason : Nat) : Nat := if r.first ≠ 0 then 0x13 else reason

def State.putRun (s : State) (c : Nat) (r : Running) : State := s.modCtx c (fun x => { x with long := some r })

def Running.setTarget (r : Running) (i : Nat) (t : Target) : Running := { r with targets := r.targets.set i t }

/-- Every DEPOSED instruction: the fabric and checkpoint ones (R153, R155). -/
def fabricOp (op : Byte) : Bool := decide (0x20 ≤ op.toNat) && decide (op.toNat ≤ 0x44)

/-- R192: ends every fabric and checkpoint instruction with ABORT DEPOSED. -/
def State.deposeAll (s : State) : State :=
  (List.range 16).foldl (fun s c => match (s.ctx c).long with
    | some r => if fabricOp (uOp r.word) then s.endTargets c r 2 (r.cause 0x12) else s
    | none => s) s

/-! ## Table images (R151) -/

def State.imgLE (s : State) (b off n : Nat) : Nat := s.depLE (b + off) n
/-- Total length of an image. -/
def State.imgLen (s : State) (b : Nat) : Nat := s.imgLE b 40 8

/-- An agent list inside an image, of `lo` agents or more: a slice that no record changes has an empty swap list (R151). -/
def State.imgList (s : State) (b off lo : Nat) : Option (List W16) :=
  let n := s.imgLE b off 2
  if n < lo ∨ 9216 < n ∨ s.imgLE b (off + 2) 6 ≠ 0 ∨ s.imgLen b < off + 8 * (1 + (n + 3) / 4) then none
  else some ((List.range n).map (fun i => BitVec.ofNat 16 (s.imgLE b (off + 8 + 2 * i) 2)))

/-- A slice entry of an image: slice, flags, endpoint list, swap list. -/
structure ImgSlice where
  slice : Nat
  drain : Bool
  ends : List W16
  swap : List W16
  deriving DecidableEq, Repr

/-- A record of an image: agent, OBJ, byte offset, words. -/
structure ImgRec where
  agent : W16
  obj : Nat
  off : Nat
  words : List W32
  deriving DecidableEq, Repr

def State.imgSlice (s : State) (b off : Nat) : Option ImgSlice :=
  let sl := s.imgLE b off 2
  let fl := s.imgLE b (off + 2) 2
  if 511 < sl ∨ 1 < fl ∨ s.imgLE b (off + 4) 4 ≠ 0 ∨ s.imgLen b < off + 16 then none
  else
    match s.imgList b (s.imgLE b (off + 8) 4) 1, s.imgList b (s.imgLE b (off + 12) 4) 0 with
    | some e, some w => some { slice := sl, drain := decide (fl = 1), ends := e, swap := w }
    | _, _ => none

def State.imgSlices (s : State) (b off : Nat) : Nat → Option (List ImgSlice)
  | 0 => some []
  | n + 1 => match s.imgSlice b off, s.imgSlices b (off + 16) n with
    | some x, some l => some (x :: l)
    | _, _ => none

def State.imgRecs (s : State) (b off : Nat) : Nat → Option (List ImgRec)
  | 0 => some []
  | n + 1 =>
    let k := s.imgLE b (off + 3) 1
    let w := s.imgLE b (off + 4) 4
    if 3 < s.imgLE b (off + 2) 1 ∨ k = 0 ∨ 8 < k ∨ w % 4 ≠ 0 ∨ 0x4000 < w + 4 * k ∨ s.imgLen b < off + 8 + 4 * k then none
    else match s.imgRecs b (off + 8 + 8 * ((k + 1) / 2)) n with
      | some l => some ({ agent := BitVec.ofNat 16 (s.imgLE b off 2), obj := s.imgLE b (off + 2) 1, off := w,
                          words := (List.range k).map (fun i => BitVec.ofNat 32 (s.imgLE b (off + 8 + 4 * i) 4)) } :: l)
      | none => none

/-- A table image (R151). -/
structure Image where
  fromEpoch : W32
  agents : List W16
  slices : List ImgSlice
  recs : List ImgRec
  deriving DecidableEq, Repr

/-- The image at a depot address, none when malformed. -/
def State.image (s : State) (b : Nat) : Option Image :=
  if ¬ s.inDepot b 48 ∨ ¬ s.inDepot b (s.imgLen b) ∨ s.imgLen b < 48 ∨ 512 < s.imgLE b 8 2 ∨ s.imgLE b 10 6 ≠ 0 then none
  else
    match s.imgList b (s.imgLE b 16 8) 1, s.imgSlices b (s.imgLE b 24 8) (s.imgLE b 8 2),
          s.imgRecs b (s.imgLE b 32 8) (s.imgLE b 4 4) with
    | some ag, some sl, some rs =>
      if rs.all (fun r => ag.contains r.agent) then
        some { fromEpoch := BitVec.ofNat 32 (s.imgLE b 0 4), agents := ag, slices := sl, recs := rs }
      else none
    | _, _, _ => none

/-- Whether the image's bytes match its verification record (R151, R289). -/
def State.imageVerified (s : State) (b : Nat) : Bool :=
  match s.fab.deck.verified.find? (fun v => v.1 = b) with
  | some v => decide (v.2 = sha384 (s.depRead b (s.imgLen b)))
  | none => false

def State.setChange (s : State) (f : Change → Change) : State :=
  let d := s.dealers
  let h := f d.change
  ({ s with dealers := { d with change := h } }).stream (.change h.isOpen h.target h.image h.swapped)

/-! ## What a completed target or instruction does -/

/-- DOWN_DATA replies and exchange replies: the 40 bytes read. -/
def Target.reply (t : Target) : List Byte := t.got.flatMap (fun w => toBytes 4 w)

/-- R153 ARM: what the controller records of a hand slot (R301). -/
def State.recordHand (s : State) (r : Running) (t : Target) : State :=
  let e := r.ra.toNat + 8 + 16 * t.idx
  let slot := s.dsLE (e + 2) 1
  let card := s.dsLE (e + 8) 8
  let v : Option HandRec := if uMod r.word = 1 then none
    else some { card := BitVec.ofNat 32 (s.depLE (card + 4) 4), repair := s.depLE (card + 16) 4
                fault := BitVec.ofNat 64 (s.depLE (card + 32) 8), state := 2 }
  if t.counts then s.setDeck (fun d => { d with hands := SMap.set noneOf d.hands (4 * t.agent.toNat + slot) v }) else s

/-- The effect of one target's completion, beside counting it. -/
def State.targetDone (s : State) (r : Running) (t : Target) (pay : Payload) : State :=
  match (uOp r.word).toNat with
  | 0x20 =>
    let s := s.dsWrite (r.rb.toNat + 64 * t.idx) (toBytes 48 pay ++ [BitVec.ofNat 8 t.tries] ++ List.replicate 15 0)
    if uMod r.word = 1 then s.relearn pay (t.got.map (fun w => w.setWidth 8)) else s
  | 0x27 => s.recordHand r t
  | 0x2C =>
    if uMod r.word = 0 then s.recordPartFold t.agent ⟨(bitsAt r.rb 0 4).toNat, (bitsAt r.rb 0 4).isLt⟩ 7
    else s.unboundAcc t.agent
  | 0x2E =>
    if uMod r.word % 2 = 1 then s.unboundAcc t.agent
    else (s.modKnown t.agent (fun k => { k with bound := some (bitsAt r.rb 0 16) })).unfoldAcc t.agent
  | 0x2F => s.modKnown t.agent (fun k => { k with quar := decide (uMod r.word = 1) })
  | 0x30 => (match t.whole.head? with
    | some (.cmd k) => s.unfolds t.agent k
    | _ => s)
  | 0x64 => if uMod r.word = 1 then s.dsWrite r.rd.toNat (fitBytes 40 t.reply) else s
  | _ => s

/-- An agent has work of several commands in hand, or waiting. -/
def State.bgBusy (s : State) (id : W16) : Bool := s.dealers.bg.any (fun t => decide (t.agent = id) && decide (1 < t.whole.length))

/-- Work of several commands with an agent, by the device itself: one at a time for each agent, since its commands share the
agent's windows. -/
def State.devTarget (s : State) (t : Target) : State :=
  if t.state ≠ 0 then s
  else if s.bgBusy t.agent then { s with dealers := { s.dealers with bg := s.dealers.bg ++ [t] } }
  else match t.cmdOf with
    | none => s
    | some k => s.bgSend t k

/-- Starts work of several commands with an agent, by the device itself. -/
def State.devSteps (s : State) (id : W16) (ks : List TStep) : State := s.devTarget (s.target 0 id ks)

/-- The work that waited for an agent's last to end. -/
def State.bgNext (s : State) (id : W16) : State :=
  if s.dealers.bg.any (fun t => decide (t.agent = id) && decide (1 < t.whole.length) && t.seq.isSome) then s
  else match s.dealers.bg.find? (fun t => decide (t.agent = id) && t.seq.isNone) with
    | none => s
    | some t =>
      let s1 := { s with dealers := { s.dealers with bg := s.dealers.bg.filter (fun u => decide (u ≠ t)) } }
      match t.cmdOf with
      | none => s1
      | some k => s1.bgSend t k

/-- R146, R508: a command of the device's own that has had no answer for CMD_RESEND µs is sent again with the same seq; a
delivery that is not retried ends there (R397). -/
def State.bgResend (s : State) : State :=
  if s.dealers.takeover ≠ .none then s
  else
    let due (t : Target) : Bool := t.seq.isSome && decide (t.sentAt + s.dealers.cmdResend.toNat ≤ s.us)
    let rest := s.dealers.bg.filter (fun t => !(due t && t.once))
    let s1 := { s with dealers := { s.dealers with bg := rest.map (fun t => if due t then { t with sentAt := s.us } else t) } }
    (rest.filter due).foldl (fun s t => match t.cmdOf, t.seq with
      | some k, some q => s.sendCmd t.agent { k with gen := t.gen.getD k.gen } t.piece q s.dealers.fepoch
      | _, _ => s) s1

/-! ## Probes (R37, R39) -/

/-- Sends a command along a path of egress ports, the first being a sub-port of the package's own. -/
def State.sendPath (s : State) (path : List Byte) (k : CmdSpec) (seq : W16) : State :=
  match path with
  | [] => s
  | e :: _ => if s.cutOff ∨ s.subDown e.toNat then s else s.sendOn e.toNat (s.pieceFlit path k 0 seq s.dealers.fepoch)

/-- Opens a probe of a path; a path of more than 16 ports is not probed. -/
def State.probe (s : State) (path : List Byte) (tries : Nat) : State :=
  if path = [] ∨ 16 < path.length ∨ s.fab.disc.probes.any (fun x => x.path = path) then s
  else
    let (q, s) := s.nextSeq
    (s.setDisc (fun d => { d with probes := d.probes ++ [{ path := path, seq := q, tries := tries }] })).sendPath path (agCmd 0x01 0) q

/-! ## The arm plan (R304) -/

/-- An accelerator's ID (R38). -/
def isAccel (id : W16) : Bool := decide (id.toNat < 0x2000)

/-- Whether an end of a link is up, as far as its holder's port says. -/
def State.endUp (s : State) (id : W16) (p : Nat) : Bool :=
  if id = s.myId then (s.sub p).up
  else match s.agentById id with
    | some a => (a.port p).up
    | none => true

/-- A link of the book is trained and in service (R304). -/
def State.linkLive (s : State) (l : LinkRec) : Bool := !l.cut && !l.reach && s.endUp l.a l.ap && s.endUp l.b l.bp

/-- An agent's trained links in service, of the link book. -/
def State.liveLinks (s : State) (id : W16) : List LinkRec :=
  s.fab.links.filter (fun l => (decide (l.a = id) || decide (l.b = id)) && s.linkLive l)

/-- An accelerator with no uplink in service, every P12/0 member being one. -/
def State.cubeOnly (s : State) (id : W16) : Bool :=
  isAccel id && (s.liveLinks id).all (fun l => isAccel (l.other id))

/-- R304: whether the plan arms an agent's end of a link. -/
def State.planArms (s : State) (id : W16) (l : LinkRec) : Bool :=
  s.linkLive l && (!isAccel id || s.cubeOnly id || !isAccel (l.other id) || s.cubeOnly (l.other id))

/-- The writes of an agent's ARM bits, each over the port's register just read. -/
def State.armSteps (s : State) (id : W16) : List TStep :=
  (s.fab.links.filter (fun l => decide (l.a = id) || decide (l.b = id))).flatMap (fun l =>
    [.read (0x100 + 16 * l.portAt id) 1, .portWrite (0x100 + 16 * l.portAt id) 7 (s.planArms id l)])

/-- The different neighbours whose ports facing an agent the plan arms. -/
def State.armedFrom (s : State) (id : W16) : List W16 :=
  (((s.liveLinks id).filter (fun l => s.planArms (l.other id) l)).map (fun l => l.other id)).eraseDups

/-- Agents that hold a card by the deck's record. -/
def State.cardHolders (s : State) : List W16 :=
  (s.fab.paths.map (fun k => k.id)).filter (fun id =>
    (List.range 4).any (fun k => (SMap.get noneOf s.fab.deck.hands (4 * id.toNat + k)).isSome))

/-- The ARM bits of the package's own ports: every trained port whose link is in service (R304). -/
def State.armOwn (s : State) : State :=
  (List.range 80).foldl (fun s p => s.modSub p (fun q => { q with
    arm := s.fab.links.any (fun l => ((decide (l.a = s.myId) && decide (l.ap = p)) || (decide (l.b = s.myId) && decide (l.bp = p))) &&
      s.linkLive l) })) s

/-- R304: the arm plan, written by the device's own commands when a table exchange closes, and the report, with the change's
completion, of the card holders with fewer than two armed inbound ports (log 85). -/
def State.armPlan (s : State) : State :=
  let thin := s.cardHolders.filter (fun id => decide ((s.armedFrom id).length < 2))
  let s := ((s.setDeck (fun d => { d with thin := thin })).emit (.change s.dealers.fepoch thin)).armOwn
  (s.fab.paths.filter (fun k => decide (k.id.toNat < 0xFFC0))).foldl (fun s k => s.devSteps k.id (s.armSteps k.id)) s

/-- What an agent's HELLO would say once it has exchanged its banks: generation, fabric epoch, tables valid (R38, R88). -/
def helloExchanged (h : Payload) (g : W16) (e : W32) : Payload :=
  putField (putField (putField h 6 g) 8 e) 24 (helloState h ||| 1)

/-- An agent has taken the tables of a new fabric epoch under a generation: the books record it (R44, R88). -/
def State.bookExchange (s : State) (id g : W16) (e : W32) : State :=
  (((s.setGen id g).stream (.generation id g)).modKnown id (fun k =>
    { k with table := true, hello := helloExchanged k.hello g e })).streamPath id

/-- What the deck's records forget with a fabric epoch: the faults that have played in it, and the sequences that have ended
(R293, R306). -/
def State.newEpoch (s : State) : State :=
  s.setDeck (fun d => { d with played := [], placement := [], unhanded := d.unhanded.filter (fun u => decide (u.phase = 0)) })

/-- SWAP in exchange mode, once every agent has answered: the book takes the generation each acknowledged, then FEPOCH,
EPOCH, the change record and the arm plan (R88, R153, R304). -/
def State.closeChange (s : State) (c : Nat) (r : Running) : State :=
  let e := s.dealers.fepoch + 1
  let s := r.targets.foldl (fun s t => match t.gen with
    | some g => s.bookExchange t.agent g e
    | none => s) s
  let s := (({ s with dealers := { s.dealers with fepoch := e } }).stream (.fepoch e)).changeMade
  ((s.modCtx c (fun x => { x with epoch := e })).setChange (fun _ => {})).newEpoch.armPlan

/-- The change an exchange closes is still open (R150): another context's exchange may have closed it (log 104). -/
def State.stillOpen (s : State) (r : Running) : Bool :=
  s.dealers.change.isOpen && decide (s.dealers.change.image = r.ra.toNat)

/-- Ends an instruction all of whose targets completed. -/
def State.finish (s : State) (c : Nat) (r : Running) : State :=
  if uOp r.word = 0x26 ∧ uMod r.word = 1 then
    (if s.stillOpen r then (s.closeChange c r).endTargets c r 0 0 else s.endTargets c r 2 0x18)
  else s.endTargets c r 0 0

/-- Goes on to the next phase: SWAP ungates once every agent on the swap list has answered OK, and marks the slice (R153). -/
def State.nextPhase (s : State) (c : Nat) (r : Running) (next : List Target) (rest : List (List Target)) : State :=
  let s := if uOp r.word = 0x26 then s.setChange (fun h => { h with swapped := putBit h.swapped (bitsAt r.rb 0 9).toNat true }) else s
  s.putRun c { r with targets := next, later := rest, phase := r.phase + 1, done := r.doneCount,
                      missed := r.misses }

/-- Whether an instruction's INSTALL found its image not verified. -/
def Running.notVerified (r : Running) : Bool := decide (uOp r.word = 0x25) && decide (r.arg = 1)

/-- R150, R153: an image that is not verified closes its change, unless a slice of it has been swapped meanwhile. -/
def State.closeUnverified (s : State) (r : Running) : State :=
  if s.stillOpen r ∧ s.dealers.change.swapped = 0 then s.setChange (fun _ => {}) else s

/-- Looks whether an instruction's targets are all resolved, and ends it or goes on. Targets never sent leave it open until
its tmo limit (R153 SWAP, log 11). -/
def State.resolve (s : State) (c : Nat) : State :=
  match (s.ctx c).long with
  | none => s
  | some r =>
    if r.targets.any (fun t => t.state = 0) then s
    else if r.notVerified then (s.closeUnverified r).endTargets c r 2 (r.cause 0x16)
    else if r.first ≠ 0 then s.endTargets c r 2 0x13
    else if r.targets.any (fun t => t.state = 3 && t.counts) then s
    else if r.targets.any (fun t => t.state = 2 && t.counts) then s.endTargets c r 1 2
    else match r.later with
      | next :: rest => s.nextPhase c r next rest
      | [] => s.finish c r

/-- A target is refused with a status (R146): not resent. -/
def State.refuseTarget (s : State) (c i : Nat) (r : Running) (t : Target) (status first : Byte) : State :=
  let r := { r.setTarget i { t with state := 2, status := some status, seq := none } with
    first := if r.first = 0 ∧ ¬ (uOp r.word = 0x29 ∧ ¬ t.counts) then first else r.first }
  (s.putRun c r).resolve c

/-- A target completes. -/
def State.completeTarget (s : State) (c i : Nat) (r : Running) (t : Target) (pay : Payload) : State :=
  (((s.putRun c (r.setTarget i { t with state := 1, seq := none, steps := [] }))).targetDone r t pay).resolve c

/-- The refusing code of a checkpoint reply (R346): 0x80 plus the result. -/
def replyRefusal (op : Byte) (reply : List Byte) : Option Byte :=
  if (op = 0x40 ∨ op = 0x41 ∨ op = 0x44) ∧ reply.getD 1 0 ≠ 0 then some (0x80 + reply.getD 1 0) else none

/-- A target's step in hand is done: the next one is in hand, or the target is complete. -/
def State.advance (s : State) (c i : Nat) (r : Running) (t : Target) (pay : Payload) : State :=
  let t := { t with steps := t.steps.drop 1, seq := none, piece := 0 }
  if t.steps = [] then
    match replyRefusal (uOp r.word) t.reply with
    | some f => s.refuseTarget c i r { t with status := some f } f f
    | none => s.completeTarget c i r t pay
  else s.putRun c (r.setTarget i t)

/-! ## Issue and resend (R146, R339) -/

/-- Sends a target's command in hand, or its piece. PROBE goes along the path it tries. -/
def State.sendTarget (s : State) (c : Nat) (r : Running) (t : Target) (k : CmdSpec) (seq : W16) : State :=
  if uOp r.word = 0x20 then
    match t.got.map (fun w => w.setWidth 8) with
    | [] => s
    | (e : Byte) :: path =>
      if s.subDown e.toNat then s else s.sendOn e.toNat (s.pieceFlit (e :: path) k 0 seq (s.cmdEpoch c r.word))
  else s.sendCmd t.agent k t.piece seq (s.cmdEpoch c r.word)

/-- R409, R455: a UCODE_COMMIT that is issued extends register 7 with the digest written to the agent's UC_DIGEST. -/
def State.measureCommit (s : State) (id : W16) (k : CmdSpec) : State :=
  if k.op = 0x16 then
    match s.agentById id with
    | some a => s.extend 7 (toBytes 48 a.uc.digest)
    | none => ({ s with fresh := s.fresh + 1 } : State).extend 7 (toBytes 48 (Config.free 384 s.fresh))
  else s

/-- Issues a target's command in hand under a new seq; the generation it carries stays its own (R146). -/
def State.issueNow (s : State) (c i : Nat) (r : Running) (t : Target) (k : CmdSpec) : State :=
  let (q, s) := (s.measureCommit t.agent k).nextSeq
  let g := s.cmdGen t.agent k
  let t := { t with seq := some q, tries := t.tries + 1, gen := some g, sentAt := s.us }
  (s.putRun c (r.setTarget i t)).sendTarget c r t { k with gen := g } q

/-- R153, R194: INSTALL's records wait until the peer has acknowledged the opened change, unless in solo mode. -/
def State.peerOk (s : State) (r : Running) (k : CmdSpec) : Bool :=
  !(uOp r.word = 0x25 && k.op = 0x03) || decide (s.pair.solo ≠ .off) || s.pair.changeAcked

/-- R339: a PRESET command takes a token of its domain, or is held. R45: a release not yet sent when the fabric epoch has
advanced is withdrawn, its ADMIT ending as R143 ends it before a resend (log 98). -/
def State.issueTarget (s : State) (c i : Nat) (r : Running) (t : Target) (k : CmdSpec) : State :=
  let d := s.domainOf t.agent
  if uOp r.word = 0x2F ∧ uMod r.word = 0 ∧ (s.ctx c).epoch ≠ s.dealers.fepoch then s.endTargets c r 2 (r.cause 0x11)
  else if k.op = 0x11 ∧ t.piece = 0 then
    if s.fab.fold.waiting.any (fun x => x.2.1 = c && x.2.2 = i) then s
    else if 0 < s.tokensOf d ∧ ¬ s.fab.fold.waiting.any (fun x => x.1 = d) then (s.takeToken d).issueNow c i r t k
    else s.setFold (fun f => { f with waiting := f.waiting ++ [(d, c, i)], held := satInc f.held })
  else if s.peerOk r k then s.issueNow c i r t k else s

/-- Whether a target may be sent its command: open, nothing in flight, its turn, no BIND increment held (phase 9, R334),
and no claim that waits to be read again (R154). -/
def Running.ready (r : Running) (i : Nat) (t : Target) : Bool :=
  decide (t.state = 0) && t.seq.isNone && decide (r.phase ≠ 9) && !(decide (t.steps.head? = some .claim) && t.status.isSome) &&
  (!oneAtATime (uOp r.word) || !(r.targets.take i).any (fun u => u.agent = t.agent && u.state = 0))

/-- A target is in a mailbox exchange with its agent: its claim is in flight or held (R154). -/
def Target.exchanging (t : Target) (id : W16) : Bool :=
  decide (t.agent = id) && decide (t.state = 0) && decide (t.whole.head? = some .claim) &&
  (decide (t.steps.head? ≠ some .claim) || t.seq.isSome)

/-- R154: one exchange per agent at a time, over all instructions. -/
def State.mbxFree (s : State) (t : Target) : Bool :=
  decide (t.steps.head? ≠ some .claim) ||
  (List.range 16).all (fun c => match (s.ctx c).long with
    | some r => !r.targets.any (fun u => u.exchanging t.agent)
    | none => true)

/-- The engine has a command to send for a target, or to hold for a token (R146, R153, R339). -/
def State.sendable (s : State) (c i : Nat) (r : Running) (t : Target) : Bool :=
  match t.cmdOf with
  | none => false
  | some k => r.ready i t && s.peerOk r k && s.mbxFree t && !(k.op = 0x11 && s.fab.fold.waiting.any (fun x => x.2.1 = c && x.2.2 = i))

/-- The contexts whose instructions have commands to send. -/
def State.senders (s : State) : List Nat :=
  (List.range 16).filter (fun c => match (s.ctx c).long with
    | some r => (r.targets.zipIdx).any (fun p => s.sendable c p.2 r p.1)
    | none => false)

/-- R146: the command engine's rate is shared by context priority, round robin within one. Which target of an instruction
goes first is the command's (log 8). -/
def State.engineTurn (s : State) : Option Nat :=
  pickRound (fun c => (s.ctx c).prio.toNat) (SMap.get lastDflt s.dealers.lastCmd) s.senders

/-- CMD_ISSUE (R146). -/
def State.cmdIssue (s : State) (c i : Nat) : State :=
  match (s.ctx c).long with
  | none => s
  | some r =>
    match r.targets[i]? with
    | none => s
    | some t =>
      match t.cmdOf with
      | some k =>
        if s.sendable c i r t ∧ s.engineTurn = some c ∧ s.dealers.takeover = .none then
          ({ s with dealers := { s.dealers with lastCmd := SMap.set lastDflt s.dealers.lastCmd (s.ctx c).prio.toNat c } }).issueTarget c i r t k
        else s
      | none => s

/-- A target is given up: PROBE after three attempts (R39), and CUT's ports inside the block (R153). -/
def State.giveUp (s : State) (c i : Nat) (r : Running) (t : Target) : State :=
  (s.putRun c (r.setTarget i { t with state := 2, seq := none, agent := if uOp r.word = 0x20 then 0xFFFF else t.agent })).resolve c

/-- CMD_RESEND (R143, R146): the same command with the same seq, after the epoch check. A claim that found the mailbox held
is read again (R154). -/
def State.cmdResend (s : State) (c i : Nat) : State :=
  match (s.ctx c).long with
  | none => s
  | some r =>
    match r.targets[i]? with
    | none => s
    | some t =>
      match t.cmdOf, t.seq with
      | some k, some q =>
        if t.state ≠ 0 then s
        else if epochChecked r.word ∧ (s.ctx c).epoch ≠ s.dealers.fepoch then s.endTargets c r 2 (r.cause 0x11)
        else if (uOp r.word = 0x20 ∧ 3 ≤ t.tries) ∨ ¬ t.counts ∧ uOp r.word = 0x29 then s.giveUp c i r t
        else
          let t := { t with tries := t.tries + 1, sentAt := s.us }
          (s.putRun c (r.setTarget i t)).sendTarget c r t { k with gen := t.gen.getD k.gen } q
      | some k, none =>
        if t.steps.head? = some .claim ∧ t.status.isSome ∧ t.state = 0 ∧ s.mbxFree t ∧ s.dealers.takeover = .none then s.issueTarget c i r t k
        else s
      | none, _ => s

/-! ## Responses (R144, R146) -/

/-- A context waiting on a response: context and target. -/
def State.awaited (s : State) (f : Flit) : Option (Nat × Nat) :=
  (List.range 16).findSome? (fun c => match (s.ctx c).long with
    | none => none
    | some r =>
      (r.targets.findIdx? (fun t => t.state = 0 && t.seq = some f.seq && (uOp r.word = 0x20 || t.agent = f.src))).map (fun i => (c, i)))

/-- The status a response carries; a HELLO counts as OK (R115). -/
def rspStatus (k : CmdSpec) (f : Flit) : Byte := if k.op = 0x01 ∧ f.stat = 0 then 0 else byteField f.pay 1 8

/-- Data words of a response. -/
def rspWords (f : Flit) (n : Nat) : List W32 := (List.range n).map (fun i => byteField f.pay (16 + 4 * i) 32)

/-- The last piece's response, or the command's (R146, R153, R154). -/
def State.answered (s : State) (c i : Nat) (r : Running) (t : Target) (f : Flit) (status : Byte) : State :=
  let t := { t with status := some status }
  if status = 0x0C ∧ uOp r.word = 0x2B ∧ t.okSeen then
    s.putRun c (r.setTarget i { t with seq := none, steps := t.steps.drop 1 })
  else if status ≠ 0 then
    s.refuseTarget c i r { t with agent := if uOp r.word = 0x20 then f.src else t.agent } status status
  else match t.steps.head? with
    | some .claim => if rspWords f 1 = [0] then s.advance c i r t f.pay else s.putRun c (r.setTarget i { t with seq := none })
    | some (.read _ n) => s.advance c i r { t with got := t.got ++ rspWords f n } f.pay
    | _ =>
      -- PRESET's earlier OK outlives a dealer takeover (R153)
      let s := s.advance c i r { t with okSeen := decide (uOp r.word = 0x2B) } f.pay
      if uOp r.word = 0x2B then s.journalCtx c else s

/-- A response to a target of a running instruction. -/
def State.onResponse (s : State) (c i : Nat) (f : Flit) : State :=
  match (s.ctx c).long with
  | none => s
  | some r =>
    match r.targets[i]? with
    | none => s
    | some t =>
      match t.cmdOf with
      | none => s
      | some k =>
        let status := rspStatus k f
        let s := if uOp r.word = 0x30 then s.dsWrite (r.rd.toNat + 48 * t.idx) (toBytes 48 f.pay) else s
        if uOp r.word ≠ 0x20 ∧ ¬ s.lastPiece t.agent k t.piece then
          (if status = 0 then s.putRun c (r.setTarget i { t with piece := t.piece + 1, seq := none, status := some 0 })
           else s.refuseTarget c i r t status status)
        else s.answered c i r t f status

/-- A hand slot's record after its load has ended: ARMED, or gone when it was refused (R301). -/
def State.handLoaded (s : State) (t : Target) (slot : Nat) (ok : Bool) : State :=
  let arm : Option HandRec → Option HandRec := fun h => match h with
    | some x => if x.state = 1 ∧ t.hand.contains (slot, x.card) then (if ok then some { x with state := 2 } else none) else h
    | none => none
  s.setDeck (fun d => { d with hands := SMap.modify noneOf d.hands (4 * t.agent.toNat + slot) arm })

/-- What an OK to a command of the device's own records: a card is armed (R301), an accelerator is unbound (R336). -/
def State.bgDone (s : State) (t : Target) (k : CmdSpec) : State :=
  if k.op = 0x09 then s.handLoaded t (k.arg.toNat % 4) true
  else if k.op = 0x0E ∧ k.arg.getLsbD 31 then s.unboundAcc t.agent
  else s

/-- The end of a target's work: cards that a refusal left unarmed are in no slot; an agent whose slot tables are all written
is recorded (R282). -/
def State.bgEnd (s : State) (t : Target) (ok : Bool) : State :=
  let s := if ok then s else t.hand.foldl (fun s h => s.handLoaded t h.1 false) s
  let s := if ok ∧ t.slots then
      s.setDeck (fun d => { d with convoy := d.convoy.map (fun c => { c with acked := c.acked ++ [t.agent], last := s.fab.frame }) })
    else s
  s.bgNext t.agent

/-- A response to a command of the device's own: its next piece, its next command, or its end. A refusal drops the rest of
that target's work. -/
def State.bgResponse (s : State) (f : Flit) : State :=
  let d := s.dealers
  match d.bg.find? (fun t => t.seq = some f.seq && t.agent = f.src) with
  | none => s
  | some t =>
    let others := d.bg.filter (fun u => decide (u ≠ t))
    match t.cmdOf with
    | none => s
    | some k =>
      let last := s.lastPiece t.agent k t.piece
      let ok := decide (rspStatus k f = 0)
      let got := match t.steps.head? with | some (.read _ n) => t.got ++ rspWords f n | _ => t.got
      let t' : Target := if last then { t with steps := t.steps.drop 1, piece := 0, got := got } else { t with piece := t.piece + 1 }
      let s := if last && ok then s.bgDone t k else s
      let s := { s with dealers := { s.dealers with bg := others } }
      match (if ok then t'.cmdOf else none) with
      | none => s.bgEnd t ok
      | some k' => s.bgSend t' k'

/-- CMD_RESPONSE (R146): completes or refuses its target, or is discarded (R144). -/
def State.cmdResponse (s : State) (f : Flit) : State :=
  if f.cls ≠ 5 ∨ f.crc ≠ f.crcOf ∨ f.dest ≠ s.myId then s
  else match (if s.dealers.takeover = .none then s.awaited f else none) with
    | some (c, i) => s.onResponse c i f
    | none => s.bgResponse f

/-! ## Notices an instruction waits on (R118, R153, R154) -/

/-- Drops an awaited notice from a target's work. -/
def Target.met (t : Target) (code sub : Byte) : Target :=
  { t with steps := t.steps.filter (fun x => decide (x ≠ .await code sub)) }

/-- Whether a target still awaits a notice. -/
def Target.awaits (t : Target) (code sub : Byte) : Bool := t.steps.contains (.await code sub)

/-- A DRAINED notice and a DRAIN (R153): its slice, and the generation its GATE carried. -/
def State.drainedHit (s : State) (r : Running) (f : Flit) : Bool :=
  uOp r.word = 0x24 && decide ((bitsAt r.rb 0 16 : W16) = byteField f.pay 2 16) &&
    (match s.genOf f.src with | some g => decide (byteField f.pay 4 16 = g + 1) | none => false)

/-- The instructions that wait on a notice: context, target index. -/
def State.noticeHits (s : State) (src : W16) (p : Running → Target → Bool) : List (Nat × Nat) :=
  (List.range 16).flatMap (fun c => match (s.ctx c).long with
    | none => []
    | some r => (r.targets.zipIdx).filterMap (fun x =>
        if x.1.agent = src ∧ x.1.state = 0 ∧ p r x.1 then some (c, x.2) else none))

/-- Applies a function to a context's running instruction and a target of it. -/
def State.onTarget (s : State) (c i : Nat) (g : State → Running → Target → State) : State :=
  match (s.ctx c).long with
  | none => s
  | some r => match r.targets[i]? with
    | none => s
    | some t => g s r t

/-- A DRAINED notice ends the DRAIN targets it answers. -/
def State.drainedNotice (s : State) (f : Flit) : State :=
  (s.noticeHits f.src (fun r t => s.drainedHit r f && t.awaits 1 0)).foldl (fun s x =>
    s.onTarget x.1 x.2 (fun s r t => s.completeTarget x.1 x.2 r t f.pay)) s

/-- An MBX_CMD notice: DONE goes on to the reply; CLAIM_EXPIRED and ABORTED, at any point from the claim to the release,
repeat the exchange from its claim (R154). -/
def State.mbxNotice (s : State) (f : Flit) : State :=
  let kind : Byte := byteField f.pay 1 8
  (s.noticeHits f.src (fun _ t => t.exchanging f.src && decide (t.steps.head? ≠ some .claim))).foldl (fun s x =>
    s.onTarget x.1 x.2 (fun s r t =>
      if kind = 2 then s.putRun x.1 (r.setTarget x.2 (t.met 9 2))
      else if kind = 3 ∨ kind = 4 then
        s.putRun x.1 (r.setTarget x.2 { t with steps := t.whole, seq := none, piece := 0, got := [], status := none })
      else s)) s

/-- The partition an instruction names. -/
def Running.part (r : Running) : Byte := bitsAt r.rb 0 8

/-- Whether an instruction waits on a PART notice's event (R153): FENCE, UNFENCE mode 1, PRESET. -/
def partWaits (r : Running) (part ev : Byte) : Bool :=
  decide (r.part = part) &&
  ((uOp r.word = 0x22 && (ev = 1 || ev = 2)) ||
   (uOp r.word = 0x23 && decide (uMod r.word = 1) && ev = 8) ||
   (uOp r.word = 0x2B && (ev = 3 || ev = 4 || ev = 5 || ev = 6)))

/-- What a PART notice does to an instruction that waits on it (R153, R326). -/
def State.partAct (s : State) (c i : Nat) (r : Running) (t : Target) (ev : Byte) (folded : Bool) : State :=
  match ev.toNat with
  | 2 => s.endTargets c r 1 1
  | 3 => s.putRun c (r.setTarget i (t.met 7 3))
  | 4 => s.endTargets c r 1 1
  | 5 => if folded then s.refuseTarget c i r t 0x0C 0x0C else s.completeTarget c i r t 0
  | 6 => s.endTargets c r 2 0x14
  | _ => s.completeTarget c i r t 0

/-- Gives a PART notice to the instructions that wait on it. -/
def State.partInsn (s : State) (src : W16) (part ev : Byte) (folded : Bool) : State :=
  (s.noticeHits src (fun r _ => partWaits r part ev)).foldl (fun s x =>
    s.onTarget x.1 x.2 (fun s r t => s.partAct x.1 x.2 r t ev folded)) s

end Sys2Proof.Machine
end

