-- ==== Sys2Proof/Machine/PkgPorts.lean ====
section
/-! DEFINITION. The package's own fabric ports and lanes, the trumps it raises and forwards, frames, and lane retrains at
the package and at agents (R72, R73, R107, R108, R312–R315, R471–R475, R507). -/

namespace Sys2Proof.Machine

/-! ## Lanes (R471) -/

/-- The first lane of a sub-port: two lanes each, four for a fabric port, twenty for a gate. -/
def laneOfSub (p : Nat) : Nat := 20 * (p / 10) + 4 * (p / 2 % 5) + 2 * (p % 2)
/-- The sub-port of a lane. -/
def subOfLane (l : Nat) : Nat := 2 * (5 * (l / 20) + l % 20 / 4) + l % 4 / 2
/-- The unit number of a gate's temperature sensor. -/
def gateUnit (l : Nat) : Nat := 40 + l / 20
/-- A temperature in °C, 0 when below 0, from the stored reading (°C + 128). -/
def tempByte (n : Nat) : Byte := satNat 8 (n - 128)
def State.gateTemp (s : State) (l : Nat) : Byte := tempByte (SMap.get zNat s.plat.pwr.temps (gateUnit l))

/-- Contexts in TRAIN on a sub-port, in a mode. -/
def State.trainers (s : State) (p mode : Nat) : List Nat :=
  (List.range 16).filter (fun c => match (s.ctx c).long with
    | some r => uOp r.word = 0x21 && decide (uMod r.word = mode) && decide (r.arg = p)
    | none => false)

/-- Ends the TRAINs of a sub-port. -/
def State.endTrain (s : State) (p mode done : Nat) : State :=
  (s.trainers p mode).foldl (fun s c => s.succeed c 0x21 done 0) s

/-- Whether a lane may start a retrain now: at most 4 of a gate's lanes, never both lanes of a sub-port (R473). -/
def State.laneRoom (s : State) (l : Nat) : Bool :=
  decide (((List.range 20).filter (fun k => (s.lane (20 * (l / 20) + k)).st = 3)).length < 4) &&
  decide ((s.lane (if l % 2 = 0 then l + 1 else l - 1)).st ≠ 3)

/-- Starts a retrain, or lets it wait (R473, R474). -/
def State.laneStart (s : State) (l : Nat) : State :=
  if (s.lane l).st ≠ 2 then s
  else if s.laneRoom l then
    (s.modLane l (fun x => { x with st := 3, windows := 0, best := 0, start := some s.fab.frame, adopt := none, waiting := false })).modSub
      (subOfLane l) (fun q => { q with retrain := true, tRetrain := true })
  else s.modLane l (fun x => { x with waiting := true })

/-- The waiting lane of a gate with the lowest margin. -/
def State.nextLane (s : State) (l : Nat) : Option Nat :=
  ((List.range 20).filterMap (fun k =>
    let j := 20 * (l / 20) + k
    if (s.lane j).waiting ∧ (s.lane j).st = 2 ∧ s.laneRoom j then some j else none)).foldl
      (fun b j => match b with
        | none => some j
        | some i => if (s.lane j).margin.toNat < (s.lane i).margin.toNat then some j else some i) none

/-- Ends a retrain: adopted or not (R474, R475); the next waiting lane starts. -/
def State.laneEnd (s : State) (l : Nat) (adopted : Bool) : State :=
  if (s.lane l).st ≠ 3 then s
  else
    let t := s.gateTemp l
    let s := s.modLane l (fun x =>
      let y := { x with st := 2, calFrame := s.fab.frame, start := none, adopt := none }
      if adopted then { y with ok := satInc y.ok, tempTrain := t, margin := y.best } else { y with abort := satInc y.abort })
    let s := s.setPwr (fun p => if adopted then { p with calDone := satInc p.calDone } else { p with calAbort := satInc p.calAbort })
    let p := subOfLane l
    let other := if l % 2 = 0 then l + 1 else l - 1
    let s := if (s.lane other).st = 3 then s else s.modSub p (fun q => { q with retrain := false })
    let s := s.endTrain p 1 (if adopted then 1 else 0)
    match s.nextLane l with
    | some j => s.laneStart j
    | none => s

/-- The lanes of a sub-port take a state. -/
def State.lanesTo (s : State) (p : Nat) (st : BitVec 3) : State :=
  [laneOfSub p, laneOfSub p + 1].foldl (fun s l => (s.laneEnd l false).modLane l (fun x => { x with st := st, waiting := false })) s

/-- Whether a sub-port's gate is present and its port enabled on the variant (R1, R448). -/
def State.subEnabled (s : State) (p : Nat) : Bool := decide (p / 2 < s.fabricPorts) && s.plat.opt.gateEn.getLsbD (p / 10)

/-- R487: outside board test a port that is not split 2×2 counts as disabled for TRAIN. -/
def State.subTrains (s : State) (p : Nat) : Bool :=
  s.subEnabled p && (decide ((s.gport (p / 2)).bifMode = 1) || s.plat.opt.reg.getLsbD 21)

/-! ## Trumps at the package (R107, R108, R187) -/

/-- Sub-ports a trump is copied to. -/
def State.trumpSubs (s : State) (inp : Option Nat) : List Nat :=
  (List.range 80).filter (fun p => !s.subDown p && s.subEnabled p && decide (inp ≠ some p))

/-- The package's own ports a descriptor fences (R108 step 3). -/
def State.fenceSubs (s : State) (d : Desc) : List Nat :=
  (List.range 80).filter (fun p =>
    match descKind d with
    | 1 => (decide (descReporter d = s.myId) && decide (descRport d = p)) || (decide (descPeer d = s.myId) && decide (descPport d = p))
    | 2 => decide ((s.sub p).peerId = descPeer d)
    | _ => false)

/-- Enters a descriptor in the package's trump filter (R108 step 1). -/
def State.filterIn (s : State) (d : Desc) : State :=
  { s with fab := { s.fab with filter := keepLast 16 (s.fab.filter.filter (· ≠ d) ++ [d]) } }

/-- Forwards a trump, unless the hop limit stops it, and fences the package's own ports. -/
def State.trumpOut (s : State) (inp : Option Nat) (f : Flit) : State :=
  let d : Desc := byteField f.pay 0 64
  let s := if f.spent then s else (s.trumpSubs inp).foldl (fun s p => s.sendOn p f) s
  (s.fenceSubs d).foldl (fun s p => s.modSub p (fun q => { q with tfence := true })) s

/-- A trump received, or raised for one of the package's ports: filtered, forwarded, fenced, and posted (R108, R175). -/
def State.pkgTrump (s : State) (inp : Option Nat) (f : Flit) : State :=
  let d : Desc := byteField f.pay 0 64
  if inp.isSome ∧ s.fab.filter.contains d then s
  else
    let s := if s.fab.disc.active then s.setDisc (fun x => { x with cuts := x.cuts ++ [d] }) else s
    let s := ((s.filterIn d).trumpOut inp f).post 0x01 (descReporter d) (putField (d.setWidth 128) 8 (byteField f.pay 8 32 : W32))
    if descKind d = 1 then s.setDeck (fun k => { k with trumps := k.trumps ++ [(descPeer d, s.us)] }) else s

/-- R107: the package raises a kind 1 trump for a sub-port. -/
def State.raise (s : State) (p : Nat) : State :=
  s.pkgTrump none (trumpFlit s.myId (linkDesc s.myId p (s.sub p).peerId (s.sub p).peerPort) s.dealers.fepoch s.fab.frame)

/-- A sub-port clears UP (R313–R315); for a local reason it sends DOWN sets; with TFENCE clear it raises a trump. -/
def State.pkgPortDown (s : State) (p : Nat) (isLocal : Bool) : State :=
  if p < 80 ∧ (s.sub p).up then
    let fenced := (s.sub p).tfence
    let s := (s.modSub p (fun q => { q with up := false, trained := false, tDown := true, retrain := false })).lanesTo p 0
    let s := if isLocal then s.emit (.downSets p) else s
    if fenced then s else s.raise p
  else s

/-- Runs a port event at the package or at an agent. -/
def State.portEvent (s : State) (who : Option Nat) (p : Nat) (isLocal : Bool) : Result :=
  match who with
  | none => .next (s.pkgPortDown p isLocal)
  | some a => s.onAgent a (fun x => x.portDown p isLocal)

/-- LANE_SIGNAL_LOSS (R313). -/
def execLaneSignalLoss (who : Option Nat) (p : Nat) (s : State) : Result := s.portEvent who p true

/-- FEC_UNCORR_LIMIT (R313). -/
def execFecUncorrLimit (who : Option Nat) (p : Nat) (s : State) : Result := s.portEvent who p true

/-- LINK_IDLE (R313). -/
def execLinkIdle (who : Option Nat) (p : Nat) (s : State) : Result := s.portEvent who p true

/-- DOWN_SET_RECEIVED (R313, R314). -/
def execDownSetReceived (who : Option Nat) (p : Nat) (s : State) : Result := s.portEvent who p false

/-- Training of a sub-port completes (R96, R315, R471): TFENCE keeps its value; a TRAIN waiting on it ends. -/
def State.pkgTrained (s : State) (p : Nat) (peer : W16) (pport : Byte) (flight : W16) : State :=
  if s.subEnabled p ∧ ¬ (s.gport (p / 2)).takenDown.getLsbD (p % 2) then
    let s := s.modSub p (fun q => { q with trained := true, up := true, peerId := peer, peerPort := pport, flight := flight })
    let s := [laneOfSub p, laneOfSub p + 1].foldl (fun s l =>
      let t := s.gateTemp l
      s.modLane l (fun x => { x with st := 2, tempTrain := t })) s
    let r := s.freeVal 2
    (r.2.modGPort (p / 2) (fun g => { g with polInv := putBits g.polInv (2 * (p % 2)) r.1 })).endTrain p 0 1
  else s

/-- LINK_TRAINED (R315). -/
def execLinkTrained (who : Option Nat) (p : Nat) (peer : W16) (pport : Byte) (flight : W16) (s : State) : Result :=
  match who with
  | none => .next (s.pkgTrained p peer pport flight)
  | some a => s.onAgent a (fun x => x.linkTrained p peer pport flight)

/-- TRUMP_RECEIVE (R108): at the package a received trump passes the port and CRC checks first. -/
def execTrumpReceive (who : Option Nat) (inp : Option Nat) (f : Flit) (s : State) : Result :=
  match who with
  | none => .next (
      if f.cls ≠ 7 then s
      else match inp with
        | some p => if s.subDown p ∨ f.crc ≠ f.crcOf then s else s.pkgTrump inp f
        | none => s.pkgTrump none f)
  | some a => s.onAgent a (fun x => x.trumpReceive inp f)

/-- TRUMP_FILTER_EXPIRE (R108). -/
def execTrumpFilterExpire (who : Option Nat) (d : Desc) (s : State) : Result :=
  match who with
  | none => .next { s with fab := { s.fab with filter := s.fab.filter.filter (· ≠ d) } }
  | some a => s.onAgent a (fun x => x.filterExpire d)

/-! ## Neighbours by the plan -/

/-- The ends of a planned link, seen from an agent: its port, the other end and its port. -/
def PlanLink.endAt (l : PlanLink) (id : W16) : Option (Byte × W16 × Byte) :=
  if l.a = id then some (l.ap, l.b, l.bp) else if l.b = id then some (l.bp, l.a, l.ap) else none

/-- The agents at the package's ports in service, by the plan: port and agent. -/
def State.neighbours (s : State) : List (Byte × W16) :=
  match s.fab.plan with
  | none => []
  | some pl => pl.links.filterMap (fun l => match l.endAt s.myId with
      | some (p, k, _) => if s.subDown p.toNat then none else some (p, k)
      | none => none)

/-- An agent's planned port toward the peer package. -/
def State.peerPort (s : State) (k : W16) : Option Byte :=
  s.fab.plan.bind (fun pl => pl.links.findSome? (fun l => match l.endAt k with
    | some (q, x, _) => if x = s.peerId then some q else none
    | none => none))

/-! ## The margin watch (R472) -/

/-- A port's margin in a window: MARGIN_LOW is posted after MARGIN_WIN windows below LOW_MARGIN, and not again before a
window of LOW_MARGIN + 4; a port for which it was posted counts 16. -/
def State.marginWatch (s : State) (id : W16) (p : Nat) (m : BitVec 6) : State :=
  let k := 128 * id.toNat + p
  let low := s.plat.pwr.lowMargin.toNat
  let c := SMap.get (fun _ => (0 : Nat)) s.fab.cong.lowWins k
  let put (n : Nat) (s : State) : State :=
    { s with fab := { s.fab with cong := { s.fab.cong with lowWins := SMap.set (fun _ => (0 : Nat)) s.fab.cong.lowWins k n } } }
  if c = 16 then (if low + 4 ≤ m.toNat then put 0 s else s)
  else if low ≤ m.toNat then put 0 s
  else if c + 1 < s.plat.pwr.marginWin.toNat then put (c + 1) s
  else (put 16 s).post 0x09 id ((m.setWidth 8 ++ BitVec.ofNat 8 p).setWidth 128)

/-- The package watches its own ports at the end of each window of 100 frames: a port's margin is its worse lane's. -/
def State.ownMargins (s : State) : State :=
  if s.fab.frame.toNat % 100 ≠ 0 then s
  else ((List.range 80).filter (fun p => (s.sub p).up)).foldl (fun s p =>
    let a := (s.lane (laneOfSub p)).margin
    let b := (s.lane (laneOfSub p + 1)).margin
    s.marginWatch s.myId p (if a.toNat < b.toNat then a else b)) s

/-! ## Frames (R72, R73) -/

/-- A microsecond passes: CTIMERs count down and CYCLE counts its 2,000 core cycles (R133, R136), the lease counts milliseconds (R165), the clock counts (R425). -/
def State.microsecond (s : State) : State :=
  let t := s.us + 1
  let cs := (List.range 16).foldl (fun m c => SMap.modify ctxDflt m c (fun x => if x.ctimer = 0 then x else { x with ctimer := x.ctimer - 1 }))
    s.dealers.core.ctx
  let own := if t % 1000 = 0 ∧ s.own.leaseLeft ≠ 0 then { s.own with leaseLeft := s.own.leaseLeft - 1 } else s.own
  let clk := (s.vbat.rtcS ++ s.vbat.rtcSub) + BitVec.ofNat 47 (t * 32768 / 1000000 - s.us * 32768 / 1000000)
  { s with us := t, dealers := { s.dealers with core := { s.dealers.core with ctx := cs }, cycle := s.dealers.cycle + 2000 }, own := own,
           vbat := { s.vbat with rtcS := bitsAt clk 15 32, rtcSub := bitsAt clk 0 15 } }

/-- R73: the standby has a sync parent, and a port toward it in service. -/
def State.synced (s : State) : Bool :=
  match s.pair.syncParent with
  | some k => s.neighbours.any (fun n => n.2 = k)
  | none => false

/-- SYNC_EXCHANGE (R72, R73): an agent, or the standby package, takes its parent's frame number. -/
def execSyncExchange (who : Option Nat) (frame : W32) (s : State) : Result :=
  match who with
  | none => .next (if s.dealers.role ∨ ¬ s.synced then s else { s with fab := { s.fab with frame := frame } })
  | some a => s.onAgent a (·.sync frame)

/-! ## Retrains at an agent (R473–R475) -/

/-- An agent's live margin on a lane. -/
def Agent.laneMargin (a : Agent) (l : Nat) : BitVec 6 := if l % 2 = 0 then (a.port (l / 2)).margin0 else (a.port (l / 2)).margin1

/-- An agent retrains at most one lane at a time; never one by a temperature change or by TRAIN (R473). -/
def Agent.calStart (a : Agent) (l : Nat) (cause : RetrainCause) : Agent :=
  if a.cal.isNone ∧ (a.port (l / 2)).up ∧ (cause = .margin ∨ cause = .peer) then
    { (a.modPort (l / 2) (fun q => { q with retrain := true, tRetrain := true })) with
      cal := some { lane := l, start := a.id.frame, windows := 0, best := 0, adopt := none } }
  else a

/-- An agent's retrain ends. -/
def Agent.calEnd (a : Agent) (l : Nat) (adopted : Bool) : Agent :=
  match a.cal with
  | some c =>
    if c.lane = l then
      { (a.modPort (l / 2) (fun q =>
          let q := { q with retrain := false }
          if adopted then (if l % 2 = 0 then { q with margin0 := c.best } else { q with margin1 := c.best }) else q)) with cal := none }
    else a
  | none => a

/-- A calibration window at an agent: a rest slot of the lane's port (R474). -/
def Agent.calWindow (a : Agent) (l : Nat) (m : BitVec 6) : Agent :=
  match a.cal with
  | some c =>
    if c.lane = l ∧ a.inRest (l / 2) then
      { a with cal := some { c with windows := c.windows + 1, best := if c.best.toNat < m.toNat then m else c.best } }
    else a
  | none => a

/-- After 4,096 windows the better setting is chosen, or the retrain ends (R474). -/
def Agent.calChoose (a : Agent) (l : Nat) : Agent :=
  match a.cal with
  | some c =>
    if c.lane = l ∧ 4096 ≤ c.windows ∧ c.adopt.isNone then
      (if (a.laneMargin l).toNat < c.best.toNat then { a with cal := some { c with adopt := some (a.id.frame + 2) } } else a.calEnd l false)
    else a
  | none => a

/-- The chosen setting is adopted from its frame on. -/
def Agent.calAdopt (a : Agent) (l : Nat) : Agent :=
  match a.cal with
  | some c => (match c.adopt with
    | some fr => if c.lane = l ∧ ¬ newer fr a.id.frame then a.calEnd l true else a
    | none => a)
  | none => a

/-- 5,000 frames have passed since a frame. -/
def framesOut (start now : W32) : Bool := decide (5000 ≤ (now - start).toNat)

/-- 5,000 frames without 4,096 windows end a retrain. -/
def Agent.calTimeout (a : Agent) (l : Nat) : Agent :=
  match a.cal with
  | some c => if c.lane = l ∧ c.windows < 4096 ∧ framesOut c.start a.id.frame then a.calEnd l false else a
  | none => a

/-- A lane's margin moves with its live setting (R470). -/
def Agent.laneAdapt (a : Agent) (l : Nat) (m : BitVec 6) : Agent :=
  if (a.port (l / 2)).up then a.modPort (l / 2) (fun q => if l % 2 = 0 then { q with margin0 := m } else { q with margin1 := m }) else a

/-! ## Retrain commands -/

/-- A package lane's trigger: for a temperature trigger the gate lies more than RETRAIN_DT from TEMP_TRAIN (R473). -/
def State.retrainDue (s : State) (l : Nat) (cause : RetrainCause) : Bool :=
  decide (l < 160) && (decide (cause ≠ .temperature) ||
    decide (s.plat.pwr.retrainDt.toNat < max ((s.gateTemp l).toNat - (s.lane l).tempTrain.toNat) ((s.lane l).tempTrain.toNat - (s.gateTemp l).toNat)))

/-- LANE_RETRAIN_START (R473); a trigger during a retrain changes nothing (R475). -/
def execLaneRetrainStart (who : Option Nat) (lane : Nat) (cause : RetrainCause) (s : State) : Result :=
  match who with
  | none => .next (if s.retrainDue lane cause then s.laneStart lane else s)
  | some a => s.onAgent a (fun x => x.calStart lane cause)

/-- CALIBRATION_WINDOW (R474). -/
def execCalibrationWindow (who : Option Nat) (lane : Nat) (margin : BitVec 6) (s : State) : Result :=
  match who with
  | none => .next (if lane < 160 ∧ (s.lane lane).st = 3 then s.modLane lane (fun x =>
      { x with windows := satInc x.windows, best := if x.best.toNat < margin.toNat then margin else x.best }) else s)
  | some a => s.onAgent a (fun x => x.calWindow lane margin)

/-- RETRAIN_CHOOSE (R474). -/
def execRetrainChoose (who : Option Nat) (lane : Nat) (s : State) : Result :=
  match who with
  | none => .next (
      let x := s.lane lane
      if lane < 160 ∧ x.st = 3 ∧ 4096 ≤ x.windows.toNat ∧ x.adopt.isNone then
        (if x.margin.toNat < x.best.toNat then s.modLane lane (fun x => { x with adopt := some (s.fab.frame + 2) }) else s.laneEnd lane false)
      else s)
  | some a => s.onAgent a (fun x => x.calChoose lane)

/-- RETRAIN_ADOPT (R474). -/
def execRetrainAdopt (who : Option Nat) (lane : Nat) (s : State) : Result :=
  match who with
  | none => .next (match (s.lane lane).adopt with
      | some fr => if lane < 160 ∧ ¬ newer fr s.fab.frame then s.laneEnd lane true else s
      | none => s)
  | some a => s.onAgent a (fun x => x.calAdopt lane)

/-- A package lane's retrain that has run 5,000 frames without 4,096 windows. -/
def State.retrainLate (s : State) (l : Nat) : Bool :=
  match (s.lane l).start with
  | some f => decide ((s.lane l).windows.toNat < 4096) && framesOut f s.fab.frame
  | none => false

/-- RETRAIN_TIMEOUT (R474). -/
def execRetrainTimeout (who : Option Nat) (lane : Nat) (s : State) : Result :=
  match who with
  | none => .next (if lane < 160 ∧ s.retrainLate lane then s.laneEnd lane false else s)
  | some a => s.onAgent a (fun x => x.calTimeout lane)

/-- LANE_ADAPT (R470): one step of the live setting; the margin it measures is the operand. -/
def execLaneAdapt (who : Option Nat) (lane : Nat) (margin : BitVec 6) (s : State) : Result :=
  match who with
  | none => .next (if lane < 160 ∧ (s.lane lane).st = 2 then s.modLane lane (fun x => { x with margin := margin }) else s)
  | some a => s.onAgent a (fun x => x.laneAdapt lane margin)

end Sys2Proof.Machine
end

