-- ==== Sys2Proof/Machine/UciFabric.lean ====
section
/-! DEFINITION. The fabric instructions (R150–R153): how each one issues. What ends them is the command engine's. -/

namespace Sys2Proof.Machine

/-- R153, R143: a package that is not active ends a fabric or checkpoint instruction with DEPOSED; an epoch-checked one
compares EPOCH with FEPOCH. -/
def State.fabGate (s : State) (c : Nat) (w : W64) (f : State → State) : State :=
  if ¬ s.isActive then s.abort c (uOp w) 0x12
  else if epochChecked w ∧ (s.ctx c).epoch ≠ s.dealers.fepoch then s.abort c (uOp w) 0x11
  else f s

/-- The same for PLAY, CLOSE and DRAW, which are short. -/
def State.fabShort (s : State) (c : Nat) (w : W64) (f : State → State) : State :=
  if ¬ s.isActive then s.endShort c (uOp w) 2 0x12 0 0 0 else f s

/-- Issues an instruction's targets; it ends at once when none is open (R140). -/
def State.startTargets (s : State) (c : Nat) (r : Running) (ts : List Target) : State :=
  (s.waitJ c { r with targets := ts }).resolve c

/-- Halts with BOUNDS when an instruction's fixed area leaves the data store (R138, log 12). -/
def State.inStore (s : State) (c a n : Nat) (f : State → State) : State :=
  if inDs a n then f s else s.halt c (exitWord 4 0)

/-- A long instruction over an agent list in g[ra] (R145). -/
def State.overList (s : State) (c : Nat) (w : W64) (f : State → Running → List W16 → State) : State :=
  let r := Running.ofWord (s.ctx c) w
  match s.agentList r.ra.toNat with
  | none => s.abort c (uOp w) 0x1A
  | some ids => f s r ids

/-- A long instruction with the one agent that g[ra] names. -/
def State.oneAgent (s : State) (c : Nat) (w : W64) (steps : List TStep) : State :=
  let r := Running.ofWord (s.ctx c) w
  s.startTargets c r [s.target 0 (bitsAt r.ra 0 16) steps]

/-! ## PROBE, TRAIN -/

/-- A probe list: its paths (R153). -/
def State.probeList (s : State) (a : Nat) : Option (List (List Byte)) :=
  let n := s.dsLE a 8
  if ¬ inDs a 8 ∨ n = 0 ∨ 1024 < n ∨ ¬ inDs a (8 + 24 * n) then none
  else
    let ps := (List.range n).map (fun i => s.dsRead (a + 8 + 24 * i) 24)
    if ps.all (fun e => decide (1 ≤ (e.headD 0).toNat) && decide ((e.headD 0).toNat ≤ 16) && decide (leNat (e.drop 17) = 0)) then
      some (ps.map (fun e => (e.drop 1).take (e.headD 0).toNat))
    else none

/-- PROBE's targets: one per path, which its `got` keeps. -/
def probeTargets (ps : List (List Byte)) : List Target :=
  ps.zipIdx.map (fun p =>
    { agent := 0xFFFF, idx := p.2, steps := [.cmd (agCmd 0x01 0)], whole := [], got := p.1.map (fun b => b.setWidth 32) })

def State.issueProbe (s : State) (c : Nat) (w : W64) : State :=
  s.fabGate c w (fun s =>
    let r := Running.ofWord (s.ctx c) w
    match s.probeList r.ra.toNat with
    | none => s.abort c 0x20 0x1A
    | some ps => s.inStore c r.rb.toNat (64 * ps.length) (fun s => s.startTargets c r (probeTargets ps)))

/-- PROBE (R153). -/
def execUciProbe (c : Fin 16) (s : State) : Result := .next (s.uci c 0x20 (fun s w => s.issueProbe c w))

/-- TRAIN on a sub-port of the package's own. -/
def State.trainPort (s : State) (c : Nat) (r : Running) (p : Nat) : State :=
  match uMod r.word with
  | 0 => (s.modGPort (p / 2) (fun g => { g with takenDown := putBit g.takenDown (p % 2) false })).waitJ c { r with arg := p }
  | 1 =>
    let l := laneOfSub p
    (if (s.lane l).st = 3 ∨ (s.lane (l + 1)).st = 3 then s else s.laneStart l).waitJ c { r with arg := p }
  | _ => ((s.pkgPortDown p true).modGPort (p / 2) (fun g => { g with takenDown := putBit g.takenDown (p % 2) true })).succeed c 0x21 1 0

def State.issueTrain (s : State) (c : Nat) (w : W64) : State :=
  s.fabGate c w (fun s =>
    let r := Running.ofWord (s.ctx c) w
    let fp := (bitsAt r.ra 0 8).toNat
    let sub := (bitsAt r.ra 8 2).toNat
    if 39 < fp ∨ 1 < sub ∨ ¬ s.subTrains (2 * fp + sub) then s.abort c 0x21 0x1A
    else s.trainPort c r (2 * fp + sub))

/-- TRAIN (R153). -/
def execUciTrain (c : Fin 16) (s : State) : Result := .next (s.uci c 0x21 (fun s w => s.issueTrain c w))

/-! ## FENCE, UNFENCE, PRESET -/

def State.issueFence (s : State) (c : Nat) (w : W64) : State :=
  s.fabGate c w (fun s => s.oneAgent c w
    [.cmd (agCmd 0x10 (bitsAt ((s.ctx c).reg (uRb w)) 0 32)), .await 7 1])

/-- FENCE (R153). -/
def execUciFence (c : Fin 16) (s : State) : Result := .next (s.uci c 0x22 (fun s w => s.issueFence c w))

def State.issueUnfence (s : State) (c : Nat) (w : W64) : State :=
  s.fabGate c w (fun s =>
    let b : W32 := bitsAt ((s.ctx c).reg (uRb w)) 0 32
    s.oneAgent c w (if uMod w = 0 then [.cmd (agCmd 0x0B b)] else [.cmd (agCmd 0x12 b), .await 7 8]))

/-- UNFENCE (R153). -/
def execUciUnfence (c : Fin 16) (s : State) : Result := .next (s.uci c 0x23 (fun s w => s.issueUnfence c w))

/-- PRESET; a repeat of it after a takeover keeps the earlier OK of its command (R153). -/
def State.issuePreset (s : State) (c : Nat) (w : W64) : State :=
  s.fabGate c w (fun s =>
    let r := Running.ofWord (s.ctx c) w
    let ok := match (s.ctx c).long with
      | some q => decide (uOp q.word = 0x2B) && q.targets.any (·.okSeen)
      | none => false
    let t := s.target 0 (bitsAt r.ra 0 16) [.cmd (agCmd 0x11 (bitsAt r.rb 0 32)), .await 7 3, .await 7 5]
    s.startTargets c r [{ t with okSeen := ok }])

/-- PRESET (R153). -/
def execUciPreset (c : Fin 16) (s : State) : Result := .next (s.uci c 0x2B (fun s w => s.issuePreset c w))

/-! ## Table changes (R150–R153) -/

/-- DRAIN and SWAP: the open change names the image; an unowned change is adopted. -/
def State.inChange (s : State) (c : Nat) (w : W64) (f : State → Running → Image → State) : State :=
  let r := Running.ofWord (s.ctx c) w
  let h := s.dealers.change
  if ¬ h.isOpen ∨ h.image ≠ r.ra.toNat then s.abort c (uOp w) 0x18
  else match s.image r.ra.toNat with
    | none => s.abort c (uOp w) 0x1A
    | some im => f (if h.owner.isNone then s.setChange (fun h => { h with owner := some c }) else s) r im

/-- The image's entry of the slice in g[rb]. -/
def State.ofSlice (s : State) (c : Nat) (w : W64) (f : State → Running → ImgSlice → State) : State :=
  s.inChange c w (fun s r im =>
    match im.slices.find? (fun e => e.slice = r.rb.toNat) with
    | none => s.abort c (uOp w) 0x1A
    | some e => f s r e)

def State.issueDrain (s : State) (c : Nat) (w : W64) : State :=
  s.fabGate c w (fun s => s.ofSlice c w (fun s r e =>
    s.startTargets c r (s.targets e.ends [.cmd (agCmd 0x04 (BitVec.ofNat 32 e.slice)), .await 1 0])))

/-- DRAIN (R153). -/
def execUciDrain (c : Fin 16) (s : State) : Result := .next (s.uci c 0x24 (fun s w => s.issueDrain c w))

/-- An agent's records: TBL_PAGE before the first and whenever OBJ changes, then the words (R152). -/
def recSteps (bank : W32) : Option Nat → List ImgRec → List TStep
  | _, [] => []
  | last, x :: xs =>
    let page := if last = some x.obj then [] else [.cmd (agWrite 0x5000 [BitVec.ofNat 32 x.obj ||| (bank <<< 8)])]
    page ++ .cmd (agWrite (0x1000 + x.off) x.words) :: recSteps bank (some x.obj) xs

/-- INSTALL's target for an agent of the set (R152). -/
def State.installTarget (s : State) (im : Image) (i : Nat) (id : W16) : Target :=
  match s.genOf id with
  | none => { agent := id, idx := i, steps := [], state := 3 }
  | some g =>
    s.target i id (.cmd (agCmd 0x18 0) ::
      recSteps (if (g + 1).getLsbD 0 then 1 else 0) none (im.recs.filter (fun x => x.agent = id)))

/-- R150: INSTALL opens a change, adopts an unowned one, or writes its own again. -/
def State.openChange (s : State) (c : Nat) (image : Nat) : State :=
  let h := s.dealers.change
  if h.isOpen then (if h.owner.isNone then s.setChange (fun h => { h with owner := some c }) else s)
  else (s.setPair (fun p => { p with changeAcked := false })).setChange (fun _ =>
    { isOpen := true, owner := some c, target := s.dealers.fepoch + 1, image := image, swapped := 0 })

def State.issueInstall (s : State) (c : Nat) (w : W64) : State :=
  s.fabGate c w (fun s =>
    let r := Running.ofWord (s.ctx c) w
    let h := s.dealers.change
    match s.image r.ra.toNat with
    | none => s.abort c 0x25 0x1A
    | some im =>
      if im.fromEpoch ≠ (s.ctx c).epoch then s.abort c 0x25 0x1A
      else if h.isOpen ∧ (h.image ≠ r.ra.toNat ∨ h.swapped ≠ 0) then s.abort c 0x25 0x17
      else
        let s := s.openChange c r.ra.toNat
        s.startTargets c { r with arg := if s.imageVerified r.ra.toNat then 0 else 1 }
          (im.agents.zipIdx.map (fun p => s.installTarget im p.2 p.1)))

/-- INSTALL (R153). -/
def execUciInstall (c : Fin 16) (s : State) : Result := .next (s.uci c 0x25 (fun s w => s.issueInstall c w))

/-- SWAP: a slice, or the exchange that closes the change. -/
def State.issueSwap (s : State) (c : Nat) (w : W64) : State :=
  s.fabGate c w (fun s =>
    if uMod w = 0 then
      s.ofSlice c w (fun s r e =>
        let sl : W32 := BitVec.ofNat 32 e.slice
        s.startTargets c { r with later := [s.targets e.ends [.cmd (agCmd 0x05 sl)]] }
          (s.targets e.swap [.cmd (agCmd 0x06 sl)]))
    else
      s.inChange c w (fun s r im =>
        if im.slices.any (fun e => !s.dealers.change.swapped.getLsbD e.slice) then s.abort c 0x26 0x19
        else s.startTargets c r (s.targets im.agents [.cmd (agCmd 0x07 0)])))

/-- SWAP (R153). -/
def execUciSwap (c : Fin 16) (s : State) : Result := .next (s.uci c 0x26 (fun s w => s.issueSwap c w))

/-! ## ARM (R105, R153, R287) -/

/-- A card list's entries: agent, slot, card address. -/
def State.cardList (s : State) (a : Nat) : Option (List (W16 × Nat × Nat)) :=
  let n := s.dsLE a 8
  if ¬ inDs a 8 ∨ n = 0 ∨ ¬ inDs a (8 + 16 * n) then none
  else
    let es := (List.range n).map (fun i => s.dsRead (a + 8 + 16 * i) 16)
    if es.all (fun e => decide ((e.getD 2 0).toNat ≤ 3) && decide (leNat ((e.drop 3).take 5) = 0)) then
      some (es.map (fun e => (ofBytes 16 (e.take 2), (e.getD 2 0).toNat, leNat (e.drop 8))))
    else none

/-- 32-bit words of the depot. -/
def State.depWords (s : State) (a n : Nat) : List W32 := (List.range n).map (fun i => BitVec.ofNat 32 (s.depLE (a + 4 * i) 4))

/-- AGENT_WRITEs of consecutive words, eight at a time. -/
def writeSteps (off : Nat) (ws : List W32) : Nat → List TStep
  | 0 => []
  | n + 1 => if ws = [] then [] else .cmd (agWrite off (ws.take 8)) :: writeSteps (off + 32) (ws.drop 8) n

/-- An entry replacement's five words, through its hand page. -/
def State.entrySteps (s : State) (card slot i : Nat) : List TStep :=
  (if i % 128 = 0 then [.cmd (agWrite 0x8200 [BitVec.ofNat 32 (2 * slot + i / 128)])] else []) ++
    [.cmd (agWrite (0x9000 + 32 * (i % 128)) (s.depWords (card + 96 + 32 * i) 5))]

/-- Loading and arming one card: LOAD, header, entries, ARM. -/
def State.cardSteps (s : State) (slot card : Nat) : List TStep :=
  let n := s.depLE (card + 2) 2
  let head := (BitVec.ofNat 32 (n * 65536)) :: s.depWords (card + 4) 3 ++ s.depWords (card + 32) 16
  .cmd (agCmd 0x08 (BitVec.ofNat 32 slot)) :: writeSteps (0x8000 + 0x80 * slot) head 3 ++
    (List.range n).flatMap (s.entrySteps card slot) ++ [.cmd (agCmd 0x09 (BitVec.ofNat 32 slot))]

/-- Whether a card record is one for its agent (R287). -/
def State.cardOk (s : State) (e : W16 × Nat × Nat) : Bool :=
  s.inDepot e.2.2 96 && decide (BitVec.ofNat 16 (s.depLE e.2.2 2) = e.1) &&
  decide (1 ≤ s.depLE (e.2.2 + 2) 2) && decide (s.depLE (e.2.2 + 2) 2 ≤ 256) &&
  s.inDepot e.2.2 (96 + 32 * s.depLE (e.2.2 + 2) 2)

/-- The target of a card entry; a card of another epoch is not sent (R153). -/
def State.cardTarget (s : State) (c : Nat) (w : W64) (i : Nat) (e : W16 × Nat × Nat) : Target :=
  if uMod w = 1 then s.target i e.1 [.cmd (agCmd 0x0A (BitVec.ofNat 32 e.2.1))]
  else if BitVec.ofNat 32 (s.depLE (e.2.2 + 8) 4) ≠ (s.ctx c).epoch then
    { agent := e.1, idx := i, steps := [], state := 2, status := some 0x05 }
  else s.target i e.1 (s.cardSteps e.2.1 e.2.2)

/-- The write of HAND_OK after each agent's last entry. -/
def State.handTargets (s : State) (w : W64) (es : List (W16 × Nat × Nat)) : List Target :=
  if uMod w = 1 then []
  else (es.map (·.1)).eraseDups.map (fun id => { s.target es.length id [.cmd (agWrite 0x10 [2])] with counts := false })

def State.issueArm (s : State) (c : Nat) (w : W64) : State :=
  s.fabGate c w (fun s =>
    let r := Running.ofWord (s.ctx c) w
    match s.cardList r.ra.toNat with
    | none => s.abort c 0x27 0x1A
    | some es =>
      if uMod w = 0 ∧ ¬ es.all s.cardOk then s.abort c 0x27 0x1A
      else
        let ts := es.zipIdx.map (fun p => s.cardTarget c w p.2 p.1)
        s.startTargets c { r with first := if ts.any (fun t => t.state = 2) then 0x05 else 0 } (ts ++ s.handTargets w es))

/-- ARM (R153). -/
def execUciArm (c : Fin 16) (s : State) : Result := .next (s.uci c 0x27 (fun s w => s.issueArm c w))

/-! ## PLAY -/

/-- Originates a trump (R153): its reporter is the package and its rport 0; the package's own filter and fences act on it. -/
def State.originate (s : State) (d : Desc) : State :=
  let d := putBits (putBits d 36 s.myId) 52 (0 : Byte)
  (s.filterIn d).trumpOut none (trumpFlit s.myId d s.dealers.fepoch s.fab.frame)

/-- PLAY (R153). -/
def execUciPlay (c : Fin 16) (s : State) : Result :=
  .next (s.uci c 0x28 (fun s w => s.fabShort c w (fun s =>
    let d : Desc := (s.ctx c).reg (uRa w)
    if descOk d then (s.originate d).endShort c 0x28 0 0 0 0 0 else s.endShort c 0x28 2 0x1A 0 0 0)))

/-! ## CUT, CLOSE -/

/-- An end of a link that CUT writes: agent, port, and whether it lies inside the block. -/
def State.cutEnds (s : State) (d : Desc) : List (W16 × Nat × Bool) :=
  (s.fab.links.filter (s.linkHit d)).flatMap (fun l => [(l.a, l.ap, s.inBlock d l.a), (l.b, l.bp, s.inBlock d l.b)])

/-- CUT's targets: the agents' ports; those inside the block do not count (R153). -/
def State.cutTargets (s : State) (d : Desc) (v : Bool) : List Target :=
  ((s.cutEnds d).filter (fun e => decide (e.1.toNat < 0xFFC0))).zipIdx.map (fun p =>
    { s.target p.2 p.1.1 [.read (0x100 + 16 * p.1.2.1) 1, .portWrite (0x100 + 16 * p.1.2.1) 2 v] with counts := !p.1.2.2 })

/-- CUT on the package's own sub-ports (R507). -/
def State.cutOwn (s : State) (d : Desc) (v : Bool) : State :=
  ((s.cutEnds d).filter (fun e => decide (e.1 = s.myId))).foldl (fun s e => s.modSub e.2.1 (fun q => { q with cut := v })) s

/-- The agents of a block by the path book. -/
def State.blockAgents (s : State) (d : Desc) : List W16 := (s.fab.paths.map (·.id)).filter (s.inBlock d)

/-- R49: a restored block's agents are quarantined and probed again. -/
def State.revisit (s : State) (d : Desc) : State :=
  (s.blockAgents d).foldl (fun s id => match s.pathFor id with
    | some p => (s.quarantine id).probe p 0
    | none => s.quarantine id) s

/-- CUT in the books: the cut, or the restore and what it brings with it (R46, R49). -/
def State.cutBook (s : State) (d : Desc) (v : Bool) : State :=
  if v then s.cutOut (s.linkHit d) else (s.restore d).revisit d

def State.issueCut (s : State) (c : Nat) (w : W64) : State :=
  s.fabGate c w (fun s =>
    let r := Running.ofWord (s.ctx c) w
    let d : Desc := r.ra
    let v := decide (uMod w = 0)
    if s.dealers.change.isOpen then s.abort c 0x29 0x17
    else if ¬ descOk d then s.abort c 0x29 0x1A
    else
      ((s.cutOwn d v).cutBook d v).startTargets c r (s.cutTargets d v))

/-- CUT (R153). -/
def execUciCut (c : Fin 16) (s : State) : Result := .next (s.uci c 0x29 (fun s w => s.issueCut c w))

/-- CLOSE (R47, R48, R153). -/
def execUciClose (c : Fin 16) (s : State) : Result :=
  .next (s.uci c 0x2A (fun s w => s.fabShort c w (fun s =>
    let d : Desc := (s.ctx c).reg (uRa w)
    let a := ((s.ctx c).reg (uRb w)).toNat
    if ¬ descOk d then s.endShort c 0x2A 2 0x1A 0 0 0
    else
      let cs := s.closures d
      s.inStore c a (16 * cs.length) (fun s =>
        ((s.applyClosures cs).dsWrite a (cs.flatMap closureRec)).endShort c 0x2A 0 0 cs.length 0 0))))

/-! ## FOLD, DRAW, BIND, ADMIT, ACMD -/

def State.issueFold (s : State) (c : Nat) (w : W64) : State :=
  s.fabGate c w (fun s =>
    let r := Running.ofWord (s.ctx c) w
    let id : W16 := bitsAt r.ra 0 16
    if uMod w = 0 then s.oneAgent c w [.cmd (agWrite (0xA004 + 0x40 * (bitsAt r.rb 0 4).toNat) [0x50])]
    else (s.recordAccFold id 7).oneAgent c w [.cmd (agCmd 0x0E 0x80000000)])

/-- FOLD (R153, R327). -/
def execUciFold (c : Fin 16) (s : State) : Result := .next (s.uci c 0x2C (fun s w => s.issueFold c w))

/-- DRAW (R153, R329): a short instruction, journalled with the register it writes. -/
def execUciDraw (c : Fin 16) (s : State) : Result :=
  .next (s.uci c 0x2D (fun s w => s.fabShort c w (fun s =>
    match s.drawSpare (bitsAt ((s.ctx c).reg (uRa w)) 0 16) with
    | none => s.endShort c 0x2D 2 0x15 0 0 0
    | some id =>
      let s := { s with fab := { s.fab with kitty := s.fab.kitty.filter (· ≠ id) } }
      ((s.stream (.kitty s.fab.kitty)).modCtx c (fun x => x.setReg (uRd w) (id.setWidth 64))).endShort c 0x2D 0 0 1 0 0)))

/-- The BIND command of an agent. -/
def State.bindStep (s : State) (r : Running) : TStep :=
  let sl : BitVec 9 := bitsAt r.rb 0 9
  .cmd { op := 0x0E, gen := 0,
         arg := if uMod r.word % 2 = 1 then (sl.setWidth 32) ||| 0x80000000 else sl.setWidth 32,
         words := [((s.slice sl.toNat).sepoch.setWidth 32)] }

/-- Increments a slice's epoch (R153, R334). -/
def State.incEpoch (s : State) (sl : Nat) : State := s.modSlice sl (fun x => { x with sepoch := x.sepoch + 1, incAt := some s.us })

/-- Whether the ledger holds an increment of a slice (R334). -/
def State.incHeld (s : State) (sl : Nat) : Bool :=
  match (s.slice sl).incAt with
  | some t => decide (s.us < t + 1000)
  | none => false

/-- Sends BIND to an instruction's agents; `arg` records that the increment has been made. -/
def State.bindNow (s : State) (c : Nat) (r : Running) (ids : List W16) : State :=
  s.startTargets c { r with phase := 0, arg := 1 } (s.targets ids [s.bindStep r])

def State.issueBind (s : State) (c : Nat) (w : W64) : State :=
  s.fabGate c w (fun s => s.overList c w (fun s r ids =>
    let sl := (bitsAt r.rb 0 9).toNat
    let made : Bool := match (s.ctx c).long with
      | some q => decide (uOp q.word = 0x2E) && decide (q.arg = 1)
      | none => false
    if uMod w < 2 ∨ made then s.bindNow c r ids
    else if s.incHeld sl then s.waitJ c { r with phase := 9, targets := s.targets ids [s.bindStep r] }
    else (s.incEpoch sl).bindNow c r ids))

/-- BIND (R153). -/
def execUciBind (c : Fin 16) (s : State) : Result := .next (s.uci c 0x2E (fun s w => s.issueBind c w))

/-- BIND_INCREMENT_HOLD_EXPIRE (R334): the first BIND held for the slice increments it and proceeds. -/
def execBindIncrementHoldExpire (sl : BitVec 9) (s : State) : Result :=
  .next (
    if s.incHeld sl.toNat then s
    else match (List.range 16).find? (fun c => match (s.ctx c).long with
        | some r => decide (uOp r.word = 0x2E) && decide (r.phase = 9) && decide (bitsAt r.rb 0 9 = sl)
        | none => false) with
      | none => s
      | some c => match (s.ctx c).long with
        | none => s
        | some r => (s.incEpoch sl.toNat).bindNow c r (r.targets.map (·.agent)))

/-- R44: the tables of the current fabric epoch are installed and active at an agent, and its generation is in the book. -/
def State.tablesCurrent (s : State) (k : Known) : Bool :=
  decide (helloTables k.hello = some s.dealers.fepoch) && decide (s.genOf k.id = some (helloTgen k.hello))

/-- R44: an agent's hand is as the controller staged it: no card of its is still being loaded. -/
def State.handStaged (s : State) (id : W16) : Bool :=
  (List.range 4).all (fun j => match SMap.get noneOf s.fab.deck.hands (4 * id.toNat + j) with
    | some h => decide (h.state ≠ 1)
    | none => true)

/-- What the controller checks before it sends RELEASE (R44, R45, R117, R336, R454): no unbind pending, the microcode its
record shows is the pod's version, its tables are the current fabric epoch's, and its hand is staged. -/
def State.releaseHeld (s : State) (id : W16) : Bool :=
  (s.foldAcc id).unbindPending ||
  (match s.known id with
   | some k => decide (helloUcode k.hello ≠ s.plat.bring.ucPodVer) || !s.tablesCurrent k || !s.handStaged id
   | none => false)

/-- ADMIT's target: an agent that may not be released is sent no RELEASE, and counts as refused with NOT_READY (R336). -/
def State.admitTarget (s : State) (w : W64) (i : Nat) (id : W16) : Target :=
  if uMod w = 0 ∧ s.releaseHeld id then { agent := id, idx := i, steps := [], state := 2, status := some 0x08 }
  else s.target i id [.cmd (agCmd (if uMod w = 0 then 0x0C else 0x0D) 0)]

def State.issueAdmit (s : State) (c : Nat) (w : W64) : State :=
  s.fabGate c w (fun s => s.overList c w (fun s r ids =>
    let ts := ids.zipIdx.map (fun p => s.admitTarget w p.2 p.1)
    s.startTargets c { r with first := if ts.any (fun t => t.state = 2) then 0x08 else 0 } ts))

/-- ADMIT (R153). -/
def execUciAdmit (c : Fin 16) (s : State) : Result := .next (s.uci c 0x2F (fun s w => s.issueAdmit c w))

/-- ACMD's block (R114, R153): none for PROBE, for SEC_MSG, which only the Assayer sends (R126, R405), or a block whose count, piece or reserved bits no whole command has. -/
def acmdSpec (bs : List Byte) : Option CmdSpec :=
  let n := (bs.getD 1 0).toNat
  if bs.getD 0 0 = 0x01 ∨ bs.getD 0 0 = 0x17 ∨ 8 < n then none
  else some { op := bs.getD 0 0, gen := ofBytes 16 ((bs.drop 6).take 2), arg := ofBytes 32 ((bs.drop 12).take 4),
              words := (List.range n).map (fun i => ofBytes 32 ((bs.drop (16 + 4 * i)).take 4)) }

def State.issueAcmd (s : State) (c : Nat) (w : W64) : State :=
  s.fabGate c w (fun s => s.overList c w (fun s r ids =>
    s.inStore c r.rb.toNat 48 (fun s => s.inStore c r.rd.toNat (48 * ids.length) (fun s =>
      match acmdSpec (s.dsRead r.rb.toNat 48) with
      | none => s.abort c 0x30 0x1A
      | some k => s.startTargets c r (s.targets ids [.cmd k])))))

/-- ACMD (R153). -/
def execUciAcmd (c : Fin 16) (s : State) : Result := .next (s.uci c 0x30 (fun s w => s.issueAcmd c w))

end Sys2Proof.Machine
end

