-- ==== Sys2Proof/Machine/Reflex.lean ====
section
/-! DEFINITION. Events, reflex bindings, the pending queue, starting and stopping programs (R135, R172 STOP, R174–R180). -/

namespace Sys2Proof.Machine

/-! ## Bindings (R174) -/

abbrev Binding := BitVec 128

def State.binding (s : State) (i : Nat) : Binding := SMap.get (fun _ => (0 : Binding)) s.reflex.bind i
def State.setBinding (s : State) (i : Nat) (b : Binding) : State :=
  { s with reflex := { s.reflex with bind := SMap.set (fun _ => (0 : Binding)) s.reflex.bind i b } }

def Binding.code (b : Binding) : Byte := byteField b 0 8
def Binding.valid (b : Binding) : Bool := b.getLsbD 8
def Binding.coalesce (b : Binding) : Bool := b.getLsbD 9
def Binding.mask (b : Binding) : W16 := byteField b 2 16
def Binding.fvalue (b : Binding) : W16 := byteField b 4 16
def Binding.fmask (b : Binding) : W16 := byteField b 6 16
def Binding.entry (b : Binding) : Nat := (bitsAt b 64 17).toNat
def Binding.prio (b : Binding) : BitVec 2 := bitsAt b 96 2
def Binding.runMs (b : Binding) : Nat := (byteField b 14 16 : W16).toNat

/-- A binding matches an event. -/
def Binding.matches (b : Binding) (e : Event) : Bool :=
  b.valid && decide (b.code = e.code) && decide ((e.subject ^^^ b.fvalue) &&& b.fmask = 0)

/-! ## Event records (R176) -/

/-- The 32 bytes of an event record. -/
def Event.record (e : Event) (flags : Byte) (n : Nat) (slot : W16) : List Byte :=
  [e.code, flags] ++ toBytes 2 (BitVec.ofNat 16 (min n 65535)) ++ toBytes 2 e.subject ++ toBytes 2 slot ++ toBytes 4 e.frame ++
    toBytes 4 e.fepoch ++ toBytes 16 e.arg

/-- Entries of a session's ring by its order field (R168). -/
def ringSize (o : BitVec 4) : Nat := 2 ^ (o.toNat + 4)

/-- Writes a record to a session's notice ring, or drops and counts it (R173). -/
def State.noticeRing (s : State) (n : Nat) (bs : List Byte) : State :=
  let x := s.session n
  if x.nqBase = 0 then s
  else if (x.nqTail.toNat + 1) % ringSize x.nqOrder = x.nqHead.toNat then
    s.modSession n (fun x => { x with nqLost := satInc x.nqLost })
  else (s.depWrite (x.nqBase.toNat + 32 * x.nqTail.toNat) bs).modSession n (fun x =>
    { x with nqTail := BitVec.ofNat 16 ((x.nqTail.toNat + 1) % ringSize x.nqOrder) })

/-- R173: the owner session's notice ring gets every event; with no owner it is posted nowhere (log 14). -/
def State.toOwner (s : State) (e : Event) : State :=
  if s.own.owner = 0 then s else s.noticeRing (s.own.owner - 1) (e.record 0 1 0xFFFF)

/-! ## Starting and stopping programs (R135, R172, R177) -/

/-- The argument block of a context (R172). -/
def argBlock (c : Nat) : Nat := 0x3FF000 + 256 * c

/-- Starts a program: everything but PC, EPOCH and STATUS is 0 (R135); the argument block is written and cleared behind. -/
def State.startCtx (s : State) (c entry : Nat) (prio : BitVec 2) (args : List Byte) (code : Byte) (limit : Nat) : State :=
  let s := s.dsWrite (argBlock c) (fitBytes 256 args)
  let x := s.ctx c
  ((s.dropChange c).setCtx c ({ run := .running, pc := entry, epoch := s.dealers.fepoch, status := x.status, prio := prio,
                                startedBy := code, runLimit := limit } : Context)).journalCtx c

/-- IDLE, or HALTED with EXIT cause HALT (R177). -/
def State.usable (s : State) (c : Nat) : Bool :=
  let x := s.ctx c
  decide (x.run = .idle) || (decide (x.run = .halted) && decide (bitsAt x.exit 0 8 = (1 : Byte)))

/-- The lowest usable context of a mask. -/
def State.freeCtx (s : State) (m : W16) : Option Nat := (List.range 16).find? (fun c => m.getLsbD c && s.usable c)

/-- STOP (R172): a long instruction ends with ABORT HOST and PC stays on it; EXIT cause HOST. -/
def State.stopCtx (s : State) (c : Nat) : State :=
  let x := s.ctx c
  if x.run = .running ∨ x.run = .waiting then
    let s1 := match x.long with
      | some r => (s.endTargets c r 2 0x10).modCtx c (fun y => { y with pc := x.pc })
      | none => if x.asleep then s.stepPc c else s
    s1.halt c (exitWord 7 0)
  else s

/-! ## Dispatch (R177–R180) -/

/-- Events that a package that is not active dispatches (R180). -/
def standbyEvent (code : Byte) : Bool :=
  code = 0x0D || code = 0x0E || code = 0x0F || code = 0x10 || code = 0x11 || code = 0x15 || code = 0x16

/-- A binding's next record carries the lost bit once (R178). -/
def State.takeLost (s : State) (slot : Nat) : Byte × State :=
  (if s.reflex.lost.getLsbD slot then 1 else 0, { s with reflex := { s.reflex with lost := putBit s.reflex.lost slot false } })

/-- Starts a dispatch on a context. -/
def State.startDispatch (s : State) (c : Nat) (d : Dispatch) : State :=
  let b := s.binding d.slot
  let (l, s) := s.takeLost d.slot
  s.startCtx c b.entry b.prio (d.ev.record (l ||| (if d.coalesced then 2 else 0)) d.count (BitVec.ofNat 16 d.slot)) d.ev.code b.runMs

/-- Two dispatches that a coalescing binding joins. -/
def Dispatch.same (a b : Dispatch) : Bool :=
  decide (a.slot = b.slot) && decide (a.ev.code = b.ev.code) && decide (a.ev.subject = b.ev.subject) && decide (a.ev.arg = b.ev.arg)

/-- What the peer is told of a pending dispatch (R194). -/
def Dispatch.raw (d : Dispatch) : BitVec 256 :=
  ofBytes 256 (d.ev.record (if d.coalesced then 2 else 0) d.count (BitVec.ofNat 16 d.slot))

/-- A dispatch that finds no usable context waits, joins a waiting one, or is lost (R178). -/
def State.pendDispatch (s : State) (d : Dispatch) : State :=
  let r := s.reflex
  if (s.binding d.slot).coalesce ∧ r.pend.any (fun x => x.same d) then
    let up (x : Dispatch) : Dispatch := { x with count := x.count + 1, coalesced := true }
    (r.pend.filter (fun x => x.same d)).foldl (fun s x => s.stream (.pendingAdd (up x).raw))
      { s with reflex := { r with pend := r.pend.map (fun x => if x.same d then up x else x) } }
  else if 4096 ≤ r.pend.length then
    { s with reflex := { r with reflexLost := satInc r.reflexLost, lost := putBit r.lost d.slot true } }
  else ({ s with reflex := { r with pend := r.pend ++ [d] } }).stream (.pendingAdd d.raw)

/-- One binding's dispatch of an event. -/
def State.dispatch (s : State) (slot : Nat) (e : Event) : State :=
  let d : Dispatch := { slot := slot, ev := e }
  match s.freeCtx (s.binding slot).mask with
  | some c => s.startDispatch c d
  | none => s.pendDispatch d

/-- The bindings an event is dispatched to. -/
def State.hitSlots (s : State) (e : Event) : List Nat :=
  if e.ringOnly ∨ ¬ (s.isActive ∨ standbyEvent e.code) then [] else (List.range 256).filter (fun i => (s.binding i).matches e)

/-- EVENT_DISPATCH (R173, R177, R179, R180): the oldest event not yet posted. Through a takeover gap events wait (R187). -/
def execEventDispatch (s : State) : Result :=
  .next (
    match s.reflex.events with
    | [] => s
    | e :: es =>
      if s.dealers.takeover ≠ .none then s
      else
        let s := ({ s with reflex := { s.reflex with events := es } }).toOwner e
        (s.hitSlots e).foldl (fun s i => s.dispatch i e) s)

/-- A waiting dispatch can start now: a context of its mask is usable, and a package that is not active starts only the
events of its own, never a mirrored dispatch (R180). -/
def State.canStart (s : State) (d : Dispatch) : Bool :=
  (s.freeCtx (s.binding d.slot).mask).isSome && (s.isActive || (standbyEvent d.ev.code && !d.mirrored))

/-- The waiting dispatch served next: highest binding priority, then the oldest (R178). -/
def State.nextPending (s : State) : Option Dispatch :=
  (s.reflex.pend.filter s.canStart).foldl (fun b d => match b with
    | none => some d
    | some x => if (s.binding x.slot).prio.toNat < (s.binding d.slot).prio.toNat then some d else some x) none

/-- Drops the first entry of a list equal to one. -/
def dropFirst {α : Type} [DecidableEq α] : List α → α → List α
  | [], _ => []
  | y :: ys, x => if y = x then ys else y :: dropFirst ys x

/-- PENDING_DISPATCH_START (R178); the queue is closed through a takeover gap (R185). -/
def execPendingDispatchStart (s : State) : Result :=
  .next (
    if s.dealers.takeover ≠ .none then s
    else match s.nextPending with
      | none => s
      | some d => match s.freeCtx (s.binding d.slot).mask with
        | none => s
        | some c =>
          (({ s with reflex := { s.reflex with pend := dropFirst s.reflex.pend d } }).stream (.pendingTake d.raw)).startDispatch c d)

/-- RUN_LIMIT_EXPIRE (R179); one that comes in a takeover gap is kept for the new dealer (R182). -/
def execRunLimitExpire (c : Fin 16) (s : State) : Result :=
  .next (if s.dealers.takeover = .checking then { s with dealers := { s.dealers with runOut := addNew s.dealers.runOut c } }
    else if (s.ctx c).runLimit ≠ 0 then s.stopCtx c else s)

/-- TICK (R175). -/
def execTick (s : State) : Result :=
  .next (if s.own.tickUs = 0 then s else s.post 0x15 0 (s.fab.frame.setWidth 128))

end Sys2Proof.Machine
end

