-- ==== Sys2Proof/Machine/UciCheckpoint.lean ====
section
/-! DEFINITION. The checkpoint instructions (R155, R345, R346, R361, R363). -/

namespace Sys2Proof.Machine

/-- An exchange with every agent of a list. -/
def State.exchangeAll (s : State) (c : Nat) (w : W64) (f : List Byte → List Byte) : State :=
  s.fabGate c w (fun s => s.overList c w (fun s r ids =>
    s.inStore c r.rb.toNat 40 (fun s => s.startTargets c r (s.targets ids (exchange (f (s.dsRead r.rb.toNat 40)))))))

/-- SNAP and GUARD: mod[0] is the message's flag bit 0 (R155, R345). -/
def modFlag (w : W64) (msg : List Byte) : List Byte :=
  msg.set 1 (putBit (msg.getD 1 0) 0 (decide (uMod w = 1)))

def State.issueSnap (s : State) (c : Nat) (w : W64) : State := s.exchangeAll c w (modFlag w)

/-- SNAP (R155). -/
def execUciSnap (c : Fin 16) (s : State) : Result := .next (s.uci c 0x40 (fun s w => s.issueSnap c w))

/-- GUARD (R155). -/
def execUciGuard (c : Fin 16) (s : State) : Result := .next (s.uci c 0x41 (fun s w => s.issueSnap c w))

def State.issueDraincp (s : State) (c : Nat) (w : W64) : State := s.exchangeAll c w id

/-- DRAINCP (R155). -/
def execUciDraincp (c : Fin 16) (s : State) : Result := .next (s.uci c 0x44 (fun s w => s.issueDraincp c w))

/-- DIGEST over the bytes read: mode bit 0 compares with the result area instead of writing it. -/
def State.digest (s : State) (c : Nat) (r : Running) (n : Nat) (bs : List Byte) : State :=
  let d := toBytes 48 (sha384 bs)
  let a := r.rd.toNat
  if uMod r.word % 2 = 0 then (s.dsWrite a d).succeed c 0x42 n 0
  else if s.dsRead a 48 = d then s.succeed c 0x42 n 0 else s.abort c 0x42 0x1A

def State.issueDigest (s : State) (c : Nat) (w : W64) : State :=
  s.fabGate c w (fun s =>
    let r := Running.ofWord (s.ctx c) w
    let n := r.rb.toNat
    let a := r.ra.toNat
    if n = 0 ∨ 1048576 < n then s.abort c 0x42 0x1A
    else s.inStore c r.rd.toNat 48 (fun s =>
      if 2 ≤ uMod w then (if s.inDepot a (48 * n) then s.digest c r n (s.depRead a (48 * n)) else s.abort c 0x42 0x1A)
      else s.inStore c a (48 * n) (fun s => s.digest c r n (s.dsRead a (48 * n)))))

/-- DIGEST (R155): the dealer's hash unit ends it within the instruction (log 15). -/
def execUciDigest (c : Fin 16) (s : State) : Result := .next (s.uci c 0x42 (fun s w => s.issueDigest c w))

/-- The seal of a manifest: SHA-384 with bytes 48–99 taken as 0 (R363). -/
def sealOf (bs : List Byte) : Digest := sha384 (splice bs 48 (List.replicate 52 0))

/-- A job's last sealed generation and seal. -/
def State.lastSeal (s : State) (job : Nat) : Option (W32 × Digest) := SMap.get noneOf s.dealers.sealed job

/-- Whether a generation may be sealed: newer than the job's last, or that one again with the same seal (R155). -/
def sealOk (last : Option (W32 × Digest)) (g : W32) (d : Digest) : Bool :=
  match last with
  | none => true
  | some (h, e) => newer g h || (decide (g = h) && decide (d = e))

def State.issueSeal (s : State) (c : Nat) (w : W64) : State :=
  s.fabGate c w (fun s =>
    let r := Running.ofWord (s.ctx c) w
    let a := r.ra.toNat
    let n := r.rb.toNat
    let g : W32 := bitsAt r.rd 0 32
    if n < 128 ∨ ¬ s.inDepot a n then s.abort c 0x43 0x1A
    else
      let d := sealOf (s.depRead a n)
      let job := s.depLE (a + 4) 4
      if sealOk (s.lastSeal job) g d then
        let s := s.depWrite (a + 48) (toBytes 48 d ++ toBytes 4 g)
        ({ s with dealers := { s.dealers with sealed := SMap.set noneOf s.dealers.sealed job (some (g, d)) } }).succeed c 0x43 0 0
      else s.abort c 0x43 0x22)

/-- SEAL (R155, R363). -/
def execUciSeal (c : Fin 16) (s : State) : Result := .next (s.uci c 0x43 (fun s w => s.issueSeal c w))

end Sys2Proof.Machine
end

