-- ==== Sys2Proof/Machine/HostBase.lean ====
section
/-! DEFINITION. Who may write the host address map, and how an ignored write is counted (R4, R11–R13, R15, R168). A
register's write answers none when it is ignored as a whole. -/

namespace Sys2Proof.Machine

/-- The session owns the device (R165). -/
def State.isOwner (s : State) (n : Nat) : Bool := decide (s.own.owner = n + 1)

/-- An ignored write or doorbell of a session: IGNORED_CNT and SESS_IGNORED. -/
def State.ignoreBy (s : State) (n : Nat) : State := s.ignore.modSession n (fun x => { x with ignored := satInc x.ignored })

/-- A write by a session: an observer's is ignored (R4), and the owner's where its register ignores it. -/
def State.ownerWrite (s : State) (n : Nat) (f : State → Option State) : State :=
  if s.isOwner n then (f s).getD (s.ignoreBy n) else s.ignoreBy n

/-- Whether a written word sets no bit outside a mask (R13, R15). -/
def within (v mask : W32) : Bool := decide (v &&& ~~~mask = 0)

/-- A value in a range. -/
def inRange (v : W32) (lo hi : Nat) : Bool := decide (lo ≤ v.toNat) && decide (v.toNat ≤ hi)

end Sys2Proof.Machine
end

