-- ==== Sys2Proof/Machine/LedgerMbx.lean ====
section
/-! DEFINITION. The ledger mailboxes (R398–R403): posts, claims, turns, leases, and the MBX instruction's ledger modes
(R157, R402). -/

namespace Sys2Proof.Machine

/-! ## Parties (R399) -/

/-- The party number of a dealer context. -/
def ctxParty (c : Nat) : Byte := BitVec.ofNat 8 (16 + c)
/-- The party number of a host session. -/
def hostParty (n : Nat) : Byte := BitVec.ofNat 8 (1 + n)
def isHost (p : Byte) : Bool := decide (1 ≤ p.toNat) && decide (p.toNat ≤ 8)
def isCtx (p : Byte) : Bool := decide (16 ≤ p.toNat) && decide (p.toNat ≤ 31)

/-- A party is a mailbox's server; SERVER 9 is any dealer context. -/
def LMbx.serves (x : LMbx) (p : Byte) : Bool := decide (x.server = p) || (decide (x.server = 9) && isCtx p)

/-- A party may act: a host session only as the owner's (R399). -/
def State.partyActs (s : State) (p : Byte) : Bool := !isHost p || s.isOwner (p.toNat - 1)

/-- A party's act that is ignored: a host session's is also counted in SESS_IGNORED. -/
def State.ignoreParty (s : State) (p : Byte) : State := if isHost p then s.ignoreBy (p.toNat - 1) else s.ignore

def State.mbxDirty (s : State) (m : Nat) : State := s.dirty (s.mbx m).part.toNat

/-! ## Notices (R400) -/

/-- POST: sets FULL; a post over a waiting notice collides, except for a device server, where it waits. -/
def State.mbxPost (s : State) (m : Nat) : State :=
  let x := s.mbx m
  (if x.server = 33 ∧ x.full then s.modMbx m (fun x => { x with heldPost := true })
   else s.modMbx m (fun x => { x with full := true, coll := x.coll || x.full, posts := satInc x.posts,
                                      colls := if x.full then satInc x.colls else x.colls })).mbxDirty m

/-- TAKE: clears FULL; a post that waited for it is made. -/
def State.mbxTake (s : State) (m : Nat) : State :=
  (s.modMbx m (fun x =>
    let y := { x with full := false, data := x.heldData.getD x.data, heldData := none }
    if x.heldPost then { y with full := true, heldPost := false, posts := satInc x.posts } else y)).mbxDirty m

/-- Writes DATA: while a device server's mailbox is FULL the words wait beside the notice (R400). -/
def LMbx.putData (x : LMbx) (d : BitVec 320) : LMbx :=
  if x.server = 33 ∧ x.full ∧ ¬ x.cmd then { x with heldData := some d } else { x with data := d }
/-- The DATA that a poster's next words go into. -/
def LMbx.staged (x : LMbx) : BitVec 320 := if x.server = 33 ∧ x.full ∧ ¬ x.cmd then x.heldData.getD x.data else x.data

/-! ## Claims and turns (R401) -/

/-- A read of CLAIM by a party: the value, and what it changes. -/
def State.mbxClaim (s : State) (p : Byte) (m : Nat) : Byte × State :=
  let x := s.mbx m
  if ¬ s.partyActs p then (if x.claim = 0 then 0xFF else x.claim, s)
  else if x.claim = 0 ∧ ¬ x.serves p then (0, (s.modMbx m (fun x => { x with claim := p })).mbxDirty m)
  else if x.claim = p then (0, s)
  else (x.claim, s)

/-- Release: RING and DONE clear too. -/
def LMbx.release (x : LMbx) : LMbx := { x with claim := 0, ring := false, done := false }

/-- Whether a party may write DATA of a command mailbox now. -/
def LMbx.turn (x : LMbx) (p : Byte) : Bool :=
  (decide (x.claim = p) && !x.ring) || (x.serves p && decide (x.claim ≠ 0) && x.ring && !x.done)

/-- The lease ends (R401). -/
def LMbx.expire (x : LMbx) : LMbx := if x.claim = 0 then x else { x.release with expired := true }

/-! ## MBX on a ledger mailbox (R402) -/

/-- Contexts waiting in MBX on a ledger mailbox. -/
def State.mbxWaiters (s : State) (m : Nat) : List Nat :=
  (List.range 16).filter (fun c => match (s.ctx c).long with
    | some r => uOp r.word = 0x64 && decide (2 ≤ uMod r.word) && decide ((bitsAt r.ra 0 12).toNat = m)
    | none => false)

/-- 32 or 40 bytes of DATA. -/
def LMbx.bytes (x : LMbx) (n : Nat) : List Byte := toBytes n x.data

/-- One step of a context's MBX on a notice mailbox; none while it waits. -/
def State.mbxNoticeStep (s : State) (c : Nat) (r : Running) (m : Nat) : Option State :=
  let x := s.mbx m
  if uMod r.word = 2 then
    if x.server = 33 ∧ x.full then none
    else
      let d : BitVec 320 := putBits x.data 0 (ofBytes 256 (s.dsRead r.rb.toNat 32) : BitVec 256)
      some (((s.modMbx m (fun x => { x with data := d })).mbxPost m).succeed c 0x64 1 (if x.full then 1 else 0))
  else if x.full then some (((s.dsWrite r.rd.toNat (x.bytes 32)).mbxTake m).succeed c 0x64 1 0)
  else none

/-- A holder's step: claim and RING (phase 0), then the reply and release (phase 1). An exchange re-executed after a takeover
writes out of turn once its RING stands: ignored and counted (R401, R402). -/
def State.mbxHolderStep (s : State) (c : Nat) (r : Running) (m : Nat) : Option State :=
  let x := s.mbx m
  if x.claim ≠ ctxParty c then
    if r.phase = 1 then some (s.putRun c { r with phase := 0 })
    else if x.claim = 0 ∧ ¬ x.serves (ctxParty c) then some ((s.modMbx m (fun x => { x with claim := ctxParty c })).mbxDirty m)
    else none
  else if r.phase = 0 ∧ x.ring then some (s.ignore.putRun c { r with phase := 1 })
  else if r.phase = 0 then
    some ((s.modMbx m (fun x => { x with data := ofBytes 320 (s.dsRead r.rb.toNat 40), ring := true })).putRun c { r with phase := 1 })
  else if x.done then some (((s.dsWrite r.rd.toNat (x.bytes 40)).modMbx m LMbx.release).succeed c 0x64 1 0)
  else none

/-- A context acts as the server: SERVER is 9, and another party holds a RING not yet answered (R402). -/
def LMbx.asksServer (x : LMbx) (c : Nat) : Bool :=
  decide (x.server = 9) && decide (x.claim ≠ 0) && decide (x.claim ≠ ctxParty c) && x.ring && !x.done

/-- One step of a context's MBX on a command mailbox. -/
def State.mbxCmdStep (s : State) (c : Nat) (r : Running) (m : Nat) : Option State :=
  let x := s.mbx m
  if uMod r.word = 3 then
    (if x.ring ∧ ¬ x.done then some ((s.dsWrite r.rd.toNat (x.bytes 40)).succeed c 0x64 1 0) else none)
  else if x.asksServer c then
    some ((s.modMbx m (fun x => { x with data := ofBytes 320 (s.dsRead r.rb.toNat 40), done := true })).succeed c 0x64 1 0)
  else s.mbxHolderStep c r m

/-- One step of a context waiting in MBX on a ledger mailbox. -/
def State.mbxStep (s : State) (c m : Nat) : Option State :=
  match (s.ctx c).long with
  | none => none
  | some r => if (s.mbx m).cmd then s.mbxCmdStep c r m else s.mbxNoticeStep c r m

/-- Lets the contexts waiting on a mailbox go on, lowest number first, as long as one can. -/
def State.mbxWake (s : State) (m : Nat) : Nat → State
  | 0 => s
  | n + 1 => match (s.mbxWaiters m).findSome? (fun c => s.mbxStep c m) with
    | some t => t.mbxWake m n
    | none => s

/-- A bound on what one event lets 16 contexts do on a mailbox. -/
def mbxFuel : Nat := 96

/-- Issues MBX modes 2 and 3 (R402). -/
def State.mbxLedger (s : State) (c : Nat) (w : W64) : State :=
  let r := Running.ofWord (s.ctx c) w
  let m := (bitsAt r.ra 0 12).toNat
  let x := s.mbx m
  let n := if x.cmd then 40 else 32
  if ¬ x.en ∨ (uMod w = 3 ∧ x.server ≠ 9) ∨ (uMod w = 2 ∧ ¬ x.cmd ∧ x.serves (ctxParty c)) then s.abort c 0x64 0x1A
  else
    s.inStore c (if uMod w = 2 then r.rb.toNat else r.rd.toNat) n (fun s =>
      s.inStore c (if uMod w = 2 ∧ x.cmd ∧ ¬ x.asksServer c then r.rd.toNat else 0) n (fun s => (s.waitJ c r).mbxWake m mbxFuel))

/-- MBX (R154, R157): modes 0 and 1 act on an agent's mailboxes. -/
def State.issueMbx (s : State) (c : Nat) (w : W64) : State :=
  let r := Running.ofWord (s.ctx c) w
  match uMod w with
  | 0 => s.inStore c r.rb.toNat 32 (fun s =>
      let ws := (List.range 8).map (fun i => (ofBytes 32 (s.dsRead (r.rb.toNat + 4 * i) 4) : W32))
      s.oneAgent c w [.cmd (agWrite 0xC000 ws)])
  | 1 => s.inStore c r.rb.toNat 40 (fun s => s.inStore c r.rd.toNat 40 (fun s =>
      s.oneAgent c w (exchange (s.dsRead r.rb.toNat 40))))
  | _ => s.mbxLedger c w

/-- MBX (R157). -/
def execUciMbx (c : Fin 16) (s : State) : Result := .next (s.uci c 0x64 (fun s w => s.issueMbx c w))

/-! ## Mailbox commands -/

/-- A party acts on a mailbox in use, or is ignored; those who wait on it go on. -/
def State.partyOn (s : State) (p : Byte) (m : Nat) (ok : LMbx → Bool) (f : State → State) : State :=
  if s.partyActs p ∧ (s.mbx m).en ∧ ok (s.mbx m) then (f s).mbxWake m mbxFuel else s.ignoreParty p

/-- LEDGER_MBX_POST (R400). -/
def execLedgerMbxPost (party : Byte) (m : BitVec 12) (s : State) : Result :=
  .next (s.partyOn party m.toNat (fun x => !x.cmd && !x.serves party) (fun s => s.mbxPost m.toNat))

/-- LEDGER_MBX_TAKE (R400). -/
def execLedgerMbxTake (party : Byte) (m : BitVec 12) (s : State) : Result :=
  .next (s.partyOn party m.toNat (fun x => !x.cmd && x.serves party) (fun s => s.mbxTake m.toNat))

/-- LEDGER_MBX_CLAIM_READ (R401); a host session is answered with the value. -/
def execLedgerMbxClaimRead (party : Byte) (m : BitVec 12) (s : State) : Result :=
  .next (
    let x := s.mbx m.toNat
    let r := if x.en ∧ x.cmd then s.mbxClaim party m.toNat else (x.claim, s)
    if isHost party then r.2.emit (.value (party.toNat - 1) (0x04000008 + 0x100 * m.toNat) (r.1.setWidth 32)) else r.2)

/-- LEDGER_MBX_RELEASE (R401). -/
def execLedgerMbxRelease (party : Byte) (m : BitVec 12) (s : State) : Result :=
  .next (s.partyOn party m.toNat (fun x => x.cmd && decide (x.claim = party)) (fun s => (s.modMbx m.toNat LMbx.release).mbxDirty m.toNat))

/-- LEDGER_MBX_RING (R401). -/
def execLedgerMbxRing (party : Byte) (m : BitVec 12) (s : State) : Result :=
  .next (s.partyOn party m.toNat (fun x => x.cmd && decide (x.claim = party))
    (fun s => (s.modMbx m.toNat (fun x => { x with ring := true })).mbxDirty m.toNat))

/-- LEDGER_MBX_DONE (R401). -/
def execLedgerMbxDone (party : Byte) (m : BitVec 12) (s : State) : Result :=
  .next (s.partyOn party m.toNat (fun x => x.cmd && x.serves party && decide (x.claim ≠ 0) && x.ring)
    (fun s => (s.modMbx m.toNat (fun x => { x with done := true })).mbxDirty m.toNat))

/-- LEDGER_MBX_LEASE_EXPIRE (R401): the claim is released; a context's exchange repeats from its claim (R402). -/
def execLedgerMbxLeaseExpire (m : BitVec 12) (s : State) : Result :=
  .next ((s.modMbx m.toNat LMbx.expire).mbxWake m.toNat mbxFuel)

/-- What a party's reset does to a mailbox (R403). -/
def LMbx.abortBy (x : LMbx) (p : Byte) : LMbx :=
  if x.server = p ∧ x.server ≠ 0 then { x.release with data := 0, full := false, heldData := none, heldPost := false, aborted := true }
  else if x.claim = p then { x.release with aborted := true }
  else x

/-- A mailbox that a party's reset aborts. -/
def LMbx.hitBy (x : LMbx) (p : Byte) : Bool := x.en && ((decide (x.server = p) && decide (x.server ≠ 0)) || (decide (x.claim = p) && decide (p ≠ 0)))

/-- A party resets: its exchanges abort, and contexts in MBX on those mailboxes end with REFUSED and FIRST 0xFE (R403). -/
def State.abortParty (s : State) (p : Byte) : State :=
  (0 :: s.led.mbx.map (·.1)).eraseDups.foldl (fun s m =>
    if (s.mbx m).hitBy p then
      (s.mbxWaiters m).foldl (fun s c => s.endLong c 0x64 2 0x13 0 1 0xFE) (s.modMbx m (fun x => x.abortBy p))
    else s) s

/-- PARTY_RESET_ABORT (R403). -/
def execPartyResetAbort (party : Byte) (s : State) : Result := .next (s.abortParty party)

end Sys2Proof.Machine
end

