-- ==== Sys2Proof/Machine/LedgerWrites.lean ====
section
/-! DEFINITION. Owner writes of the ledger's registers (R375–R377, R391, R394, R395, R398): each answers none when ignored. -/

namespace Sys2Proof.Machine

/-! ## Partitions, slices, tallies -/

/-- TALLY_USED (R375): non-strict tallies with EN set. -/
def State.tallyUsed (s : State) (p : Nat) : Nat :=
  (s.led.tallies.filter (fun x => decide (0x400 ≤ x.1) && x.2.en && decide (x.2.part.toNat = p))).length
/-- QUEUE_USED. -/
def State.queueUsed (s : State) (p : Nat) : Nat := (s.led.queues.filter (fun x => x.2.en && decide (x.2.part.toNat = p))).length
/-- MBX_USED; mailbox 0 is in use unless its pair says otherwise. -/
def State.mbxUsed (s : State) (p : Nat) : Nat :=
  ((0 :: s.led.mbx.map (·.1)).eraseDups.filter (fun m => (s.mbx m).en && decide ((s.mbx m).part.toNat = p))).length

/-- A partition's table entry (R375). -/
def State.wPart (s : State) (p off : Nat) (v : W32) : Option State :=
  match off with
  | 0 =>
    if ¬ within v 0x8000FFFF then none
    else if (s.lpart p).tenant = bitsAt v 0 16 then some s
    else if (s.lpart p).clean then some (s.modLPart p (fun x => { x with tenant := bitsAt v 0 16 }))
    else none
  | 4 => if inRange v 0 65536 then some (s.modLPart p (fun x => { x with tallyQuota := bitsAt v 0 17 })) else none
  | 0xC => if inRange v 0 32768 then some (s.modLPart p (fun x => { x with queueQuota := bitsAt v 0 16 })) else none
  | 0x14 => if inRange v 0 4096 then some (s.modLPart p (fun x => { x with mbxQuota := bitsAt v 0 13 })) else none
  | _ => none

/-- A slice-table entry (R376). -/
def State.wSlice (s : State) (i : Nat) (v : W32) : Option State :=
  if within v 0xFFFF00BF then some (s.modSlice i (fun x => { x with part := bitsAt v 0 6, valid := v.getLsbD 7 })) else none

/-- COUNT (R377, R382): an owner write is a set. -/
def State.wTallyCount (s : State) (t : Nat) (v : W32) : Option State := some ((s.tallySet t v).wakeTally t)

/-- PART and EN of a tally (R377). -/
def State.wTallyCfg (s : State) (t : Nat) (v : W32) : Option State :=
  let x := s.tally t
  let p : BitVec 6 := bitsAt v 0 6
  let en := v.getLsbD 7
  let counted := decide (x.en) && decide (x.part = p)
  if tallyStrict t ∨ s.waiters t ≠ 0 ∨ ¬ within v 0xF3BF then none
  else if en ∧ ¬ counted ∧ (s.lpart p.toNat).tallyQuota.toNat < s.tallyUsed p.toNat + 1 then none
  else
    let s := s.modTally t (fun y => { y with part := p, en := en })
    some (if en then s.dirty p.toNat else s)

/-! ## Control block (R391) -/

def State.wSettleReg (s : State) (off : Nat) (v : W32) : Option State :=
  let x := s.led.settle
  match off with
  | 0 => if inRange v 500 10000 ∧ x.grace.toNat + 200 ≤ v.toNat then some (s.setSettle (fun x => { x with period := bitsAt v 0 14 })) else none
  | 4 => if inRange v 20 900 ∧ v.toNat + 200 ≤ x.period.toNat then some (s.setSettle (fun x => { x with grace := bitsAt v 0 10 })) else none
  | 0x10 => if inRange v 1 60000 then some (s.setSettle (fun x => { x with waitLimit := bitsAt v 0 16 })) else none
  | 0x14 => some (s.setSettle (fun x => { x with driftThresh := v }))
  | _ =>
    if 0x40 ≤ off ∧ off < 0x80 ∧ within v 0xFFFF then
      some { s with led := { s.led with evq := SMap.set z16 s.led.evq ((off - 0x40) / 4) (bitsAt v 0 16) } }
    else none

/-! ## Queues (R393–R395) -/

/-- Queues the owner may configure whole. -/
def ownerQueue (q : Nat) : Bool := decide (32 ≤ q) && decide (q ≤ 0x7EFF)
/-- Device queues, of which the owner sets BASE, ORDER, LOC and EN. -/
def deviceQueue (q : Nat) : Bool := decide (0x7FF0 ≤ q) && decide (q ≤ 0x7FF2)

/-- The configuration word at +0x08. -/
def Queue.setCfg (x : Queue) (dev : Bool) (v : W32) : Queue :=
  let y := { x with order := bitsAt v 0 4, loc := v.getLsbD 7 }
  if dev then y
  else { y with esize := bitsAt v 4 3, kind := bitsAt v 8 3, prodHost := v.getLsbD 11, consHost := v.getLsbD 12,
                gated := v.getLsbD 13, part := bitsAt v 16 6 }

/-- Reserved encodings of ORDER, ESIZE and KIND. -/
def Queue.codesOk (x : Queue) : Bool := decide (x.order.toNat ≤ 11) && decide (x.esize.toNat ≤ 4) && decide (x.kind.toNat ≤ 5)

/-- R395: whether EN may be set. -/
def State.queueFits (s : State) (x : Queue) : Bool :=
  let len := x.size * x.entry
  let share := 0x20000 * x.part.toNat
  decide (x.base.toNat % x.entry = 0) &&
  (if x.loc then decide (share ≤ x.base.toNat) && decide (x.base.toNat + len ≤ share + 0x20000) else s.inDepot x.base.toNat len) &&
  decide (s.queueUsed x.part.toNat < (s.lpart x.part.toNat).queueQuota.toNat) &&
  !(decide (x.kind = 3) && decide (x.esize ≠ 2)) && !(decide (x.kind = 2) && decide (x.deliver ≠ 0xFFFF) && decide (x.esize ≠ 1))

/-- Clearing EN discards the entries and ends the waiting QPUSHes and QPOPs. -/
def State.queueOff (s : State) (q : Nat) : State :=
  let cs := s.qWaiters 0x60 q ++ s.qWaiters 0x61 q
  let s := s.modQueue q (fun x => { x with en := false, head := 0, tail := 0 })
  cs.foldl (fun s c => match (s.ctx c).long with
    | some r => s.abort c (uOp r.word) 0x1A
    | none => s) s

/-- A write of +0x08 (log 16): with EN set it can only clear EN. -/
def State.wQueueCfg (s : State) (q : Nat) (v : W32) : Option State :=
  let x := s.queue q
  if ¬ within v 0x3F7FFF then none
  else if x.en then (if v.getLsbD 14 then none else some (s.queueOff q))
  else
    let y := x.setCfg (deviceQueue q) v
    if ¬ y.codesOk then none
    else if v.getLsbD 14 then
      (if s.queueFits y then
        some ((s.modQueue q (fun _ => { y with en := true, head := 0, tail := 0, lost := 0 })).dirty y.part.toNat)
       else none)
    else some (s.modQueue q (fun _ => y))

/-- HEAD (R394, R395): the owner consumes up to TAIL. -/
def State.wQueueHead (s : State) (q : Nat) (v : W32) : Option State :=
  let x := s.queue q
  if ¬ x.en ∨ ¬ x.consHost ∨ x.size ≤ v.toNat ∨ x.count < (v.toNat + x.size - x.head.toNat) % x.size then none
  else some (((s.modQueue q (fun x => { x with head := bitsAt v 0 15 })).dirty x.part.toNat).qRun q qFuel)

/-- The entries an owner's TAIL write adds are delivered like any pushed to a tenant notice queue (R397). -/
def State.deliverNew (s : State) (q : Queue) (from_ n : Nat) : State :=
  (List.range n).foldl (fun s i => s.deliverNotice q (s.qRead q ((from_ + i) % q.size))) s

/-- TAIL (R394, R395): the owner produces up to ring size − 1 entries. -/
def State.wQueueTail (s : State) (q : Nat) (v : W32) : Option State :=
  let x := s.queue q
  let n := (v.toNat + x.size - x.tail.toNat) % x.size
  if ¬ x.en ∨ ¬ x.prodHost ∨ x.size ≤ v.toNat ∨ x.size ≤ x.count + n then none
  else
    let s := (s.modQueue q (fun x => { x with tail := bitsAt v 0 15, pushes := satAdd x.pushes n })).dirty x.part.toNat
    some ((s.deliverNew x x.tail.toNat n).qRun q qFuel)

/-- A write of a queue descriptor word (R394). -/
def State.wQueue (s : State) (q off : Nat) (v : W32) : Option State :=
  if ¬ (ownerQueue q ∨ deviceQueue q) then none
  else match off with
    | 0 => if (s.queue q).en then none else some (s.modQueue q (fun x => { x with base := putBits x.base 0 v }))
    | 4 => if (s.queue q).en then none else some (s.modQueue q (fun x => { x with base := putBits x.base 32 v }))
    | 8 => s.wQueueCfg q v
    | 0xC => if (s.queue q).en ∨ deviceQueue q ∨ ¬ within v 0xFFFF then none else some (s.modQueue q (fun x => { x with deliver := bitsAt v 0 16 }))
    | 0x10 => s.wQueueHead q v
    | 0x14 => s.wQueueTail q v
    | _ => none

/-! ## Mailboxes (R398) -/

/-- The configuration word at +0x00 (log 16). -/
def State.wMbxCfg (s : State) (m : Nat) (v : W32) : Option State :=
  let x := s.mbx m
  let p : BitVec 6 := bitsAt v 8 6
  if m = 0 ∨ ¬ within v 0xFF3F03 then none
  else if x.en then (if v.getLsbD 1 then none else some (s.modMbx m (fun x => { x with en := false })))
  else
    let y := { x with cmd := v.getLsbD 0, part := p, server := bitsAt v 16 8 }
    if v.getLsbD 1 then
      (if s.mbxUsed p.toNat < (s.lpart p.toNat).mbxQuota.toNat then
        some ((s.modMbx m (fun _ => { y with en := true, full := false, coll := false, ring := false, done := false, expired := false,
                                             aborted := false, data := 0, heldData := none, heldPost := false })).dirty p.toNat)
       else none)
    else some (s.modMbx m (fun _ => y))

/-- The status word at +0x0C: each field follows its own code (R12). The W1C bits clear; RING, DONE, POST and TAKE act for
their party, and one out of turn is ignored, and counted (R400, R401). -/
def State.wMbxStatus (s : State) (n m : Nat) (v : W32) : Option State :=
  let x := s.mbx m
  let p := hostParty n
  let post := !x.cmd && !x.serves p
  let take := !x.cmd && x.serves p
  let ring := x.cmd && decide (x.claim = p)
  let done := x.cmd && x.serves p && decide (x.claim ≠ 0) && x.ring
  if ¬ within v 0x33F then none
  else
    let s := s.modMbx m (fun y => { y with coll := y.coll && !v.getLsbD 1, expired := y.expired && !v.getLsbD 4,
                                            aborted := y.aborted && !v.getLsbD 5, ring := y.ring || (v.getLsbD 2 && ring),
                                            done := y.done || (v.getLsbD 3 && done) })
    let s := if v.getLsbD 8 && post then s.mbxPost m else s
    let s := if v.getLsbD 9 && take then s.mbxTake m else s
    let s := (s.mbxDirty m).mbxWake m mbxFuel
    some (if (v.getLsbD 2 && !ring) || (v.getLsbD 3 && !done) || (v.getLsbD 8 && !post) || (v.getLsbD 9 && !take) then s.ignoreBy n else s)

/-- A DATA word: a poster writes a notice, the parties of an exchange in turn. -/
def State.wMbxData (s : State) (n m i : Nat) (v : W32) : Option State :=
  let x := s.mbx m
  let ok := if x.cmd then x.turn (hostParty n) else !x.serves (hostParty n)
  if ok then some ((s.modMbx m (fun x => x.putData (putBits x.staged (32 * i) v))).mbxDirty m) else none

/-- A write of a ledger mailbox word by the owner's session n. -/
def State.wMbx (s : State) (n m off : Nat) (v : W32) : Option State :=
  let x := s.mbx m
  if off = 0 then s.wMbxCfg m v
  else if off = 4 then
    (if m = 0 ∨ x.en ∨ ¬ inRange v 10 10000 then none else some (s.modMbx m (fun x => { x with lease := bitsAt v 0 14 })))
  else if ¬ x.en then none
  else if off = 8 then
    (if x.cmd ∧ x.claim = hostParty n ∧ v = 0 then some (((s.modMbx m LMbx.release).mbxDirty m).mbxWake m mbxFuel) else none)
  else if off = 0xC then s.wMbxStatus n m v
  else if 0x20 ≤ off ∧ off < 0x48 then s.wMbxData n m ((off - 0x20) / 4) v
  else none

/-! ## Commands -/

/-- TALLY_COUNT_WRITE (R382). -/
def execTallyCountWrite (n : Fin 8) (t : W16) (v : W32) (s : State) : Result :=
  .next (s.ownerWrite n (fun s => s.wTallyCount t.toNat v))

/-- TALLY_CONFIG_WRITE (R377). -/
def execTallyConfigWrite (n : Fin 8) (t : W16) (v : W32) (s : State) : Result :=
  .next (s.ownerWrite n (fun s => s.wTallyCfg t.toNat v))

/-- QUEUE_DESCRIPTOR_WRITE (R395): the words at +0x00 to +0x0C. -/
def execQueueDescriptorWrite (n : Fin 8) (q : BitVec 15) (off : Nat) (v : W32) (s : State) : Result :=
  .next (s.ownerWrite n (fun s => if off ≤ 0xC then s.wQueue q.toNat off v else none))

/-- QUEUE_HEAD_WRITE (R395). -/
def execQueueHeadWrite (n : Fin 8) (q : BitVec 15) (v : W32) (s : State) : Result :=
  .next (s.ownerWrite n (fun s => s.wQueue q.toNat 0x10 v))

/-- QUEUE_TAIL_WRITE (R395). -/
def execQueueTailWrite (n : Fin 8) (q : BitVec 15) (v : W32) (s : State) : Result :=
  .next (s.ownerWrite n (fun s => s.wQueue q.toNat 0x14 v))

/-- PART_TENANT_WRITE (R375). -/
def execPartTenantWrite (n : Fin 8) (p : Fin 64) (v : W32) (s : State) : Result :=
  .next (s.ownerWrite n (fun s => s.wPart p 0 v))

/-- WAIT_ENTRY_EXPIRE (R396): the entry is marked expired, and its consumer may take it. -/
def execWaitEntryExpire (q : BitVec 15) (s : State) : Result :=
  .next (
    if s.qStalled q.toNat then
      let x := s.queue q.toNat
      (s.qWrite x x.head.toNat (2 :: (s.qHead q.toNat).drop 1)).qRun q.toNat qFuel
    else s)

/-- LEDGER_DIE_ERROR (R374): the other die serves both halves; nothing is lost. -/
def execLedgerDieError (b : Bool) (s : State) : Result :=
  .next ({ s with led := { s.led with degraded := true, failedHalf := b } }.alertBit 1)

end Sys2Proof.Machine
end

