-- ==== Sys2Proof/Machine/LedgerTally.lean ====
section
/-! DEFINITION. Tally operations from the fabric (R332, R378–R384), the ledger instructions TALLY, QPUSH, QPOP and SETTLE
(R157), and settlement (R385–R392). -/

namespace Sys2Proof.Machine

/-! ## Class 8 (R379–R384) -/

def t8Tally (f : Flit) : W16 := byteField f.pay 0 16
def t8Op (f : Flit) : Byte := byteField f.pay 2 8
def t8Cmp (f : Flit) : Byte := byteField f.pay 3 8
def t8Val (f : Flit) : W32 := byteField f.pay 4 32
def t8Hold (f : Flit) : Byte := byteField f.pay 8 8

/-- A request with a reserved operation, comparison, hold of 0 or nonzero reserved byte is BAD_OP. -/
def t8Bad (f : Flit) : Bool :=
  decide (t8Op f = 0) || decide (3 < (t8Op f).toNat) || decide (f.pay >>> 72 ≠ 0) ||
  (if t8Op f = 3 then decide (2 < (t8Cmp f).toNat) || decide (t8Hold f = 0)
   else decide (t8Cmp f ≠ 0) || decide (t8Hold f ≠ 0) || (decide (t8Op f = 2) && decide (t8Val f ≠ 0)))

/-- Whether a slice's operation may reach a tally (R378). -/
def State.t8Allowed (s : State) (f : Flit) : Bool :=
  let t := (t8Tally f).toNat
  let e := s.slice f.slice.toNat
  !tallyStrict t && (s.tally t).en && e.valid && decide ((s.tally t).part = e.part)

/-- Counts a refusal (R378). -/
def State.deny (s : State) (p : Option Nat) : State :=
  let s := { s with led := { s.led with denied := satInc s.led.denied } }
  match p with
  | some p => s.modLPart p (fun x => { x with denied := satInc x.denied })
  | none => s

/-- Sends a completion (R379, R508). -/
def State.complete8 (s : State) (f : Flit) (res : Byte) (count stamp : W32) : State :=
  s.sendTo f.src (s.completionOf f.src f.seq f.slice (t8Tally f) (t8Op f) res count stamp)

/-- The duplicate filter entry of an ADD younger than 200 µs (R381, log 17). -/
def State.filterHit (s : State) (f : Flit) : Option FilterEnt :=
  s.led.filter.find? (fun e => decide (e.src = f.src) && decide (e.seq = f.seq) && decide (e.tally = t8Tally f) &&
    decide (e.operand = t8Val f) && decide (s.us < e.at_ + 200))

/-- Makes a filter entry: entries older than 200 µs give way, oldest first. -/
def State.filterAdd (s : State) (e : FilterEnt) : State :=
  let old := s.led.filter.filter (fun x => decide (s.us < x.at_ + 200))
  { s with led := { s.led with filter := old ++ [e] } }

def State.filterRoom (s : State) : Bool := decide ((s.led.filter.filter (fun x => decide (s.us < x.at_ + 200))).length < 65536)

/-- An agent's ADD is counted under the current stamp (R388). -/
def Stamp.adder (k : Stamp) (a : W16) (p : BitVec 6) : Stamp :=
  if k.agents.any (fun x => x.agent = a) then k else { k with agents := k.agents ++ [{ agent := a, part := p }] }

/-- An ADD that is allowed (R380, R381). -/
def State.add8 (s : State) (f : Flit) : State :=
  let t := (t8Tally f).toNat
  if ¬ s.filterRoom then { s with led := { s.led with filterFull := satInc s.led.filterFull } }
  else match s.tallyAdd t (t8Val f).toInt false with
    | none => s
    | some s1 =>
      let s1 := s1.setSettle (fun x => { x with cur := x.cur.adder f.src (s.slice f.slice.toNat).part })
      let fl := s1.completionOf f.src f.seq f.slice (t8Tally f) 1 0 (s1.tally t).count s1.stamp
      let e : FilterEnt := { src := f.src, seq := f.seq, tally := t8Tally f, operand := t8Val f, completion := fl, at_ := s.us }
      ((s1.filterAdd e).sendTo f.src fl).wakeTally t

/-- A WAIT that is allowed (R380). -/
def State.wait8 (s : State) (f : Flit) : State :=
  let t := (t8Tally f).toNat
  let n := (s.tally t).count
  let s := s.dirty (s.tally t).part.toNat
  if cmpHolds (t8Cmp f).toNat n.toNat (t8Val f).toNat then s.complete8 f 0 n s.stamp
  else if 4096 ≤ s.led.holds.length then s.complete8 f 1 n s.stamp
  else
    let h : WaitHold := { src := f.src, seq := f.seq, slice := f.slice, tally := t8Tally f, cmp := (t8Cmp f).toNat, value := t8Val f }
    { s with led := { s.led with holds := s.led.holds ++ [h] } }

/-- Applies an operation (R332, R378–R381). -/
def State.apply8 (s : State) (f : Flit) : State :=
  let e := s.slice f.slice.toNat
  if e.sepoch.setWidth 8 ≠ f.sep then { s with led := { s.led with stale := satInc s.led.stale } }
  else if t8Bad f then s.complete8 f 3 0 0
  else match (if t8Op f = 1 then s.filterHit f else none) with
    | some x => ({ s with led := { s.led with filtered := satInc s.led.filtered } }).sendTo x.src x.completion
    | none =>
      if ¬ s.t8Allowed f then (s.deny (if e.valid then some e.part.toNat else none)).complete8 f 2 0 0
      else if t8Op f = 1 then s.add8 f
      else if t8Op f = 2 then
        (s.dirty (s.tally (t8Tally f).toNat).part.toNat).complete8 f 0 (s.tally (t8Tally f).toNat).count s.stamp
      else s.wait8 f

/-- A class-8 flit reaches the package (R384): discarded on a standby, queued in a takeover gap. -/
def State.class8 (s : State) (f : Flit) : State :=
  if f.cls ≠ 8 ∨ f.crc ≠ f.crcOf ∨ f.dest ≠ s.myId then s
  else if ¬ s.dealers.role then { s with led := { s.led with standbyDrop := satInc s.led.standbyDrop } }
  else if s.dealers.takeover ≠ .none then
    (if 65536 ≤ s.led.gap.length then { s with led := { s.led with gapDrop := satInc s.led.gapDrop } }
     else { s with led := { s.led with gap := s.led.gap ++ [.flit f] } })
  else s.apply8 f

/-- TALLY_ADD (R380): also a request with a reserved operation. -/
def execTallyAdd (f : Flit) (s : State) : Result := .next (if t8Op f = 2 ∨ t8Op f = 3 then s else s.class8 f)

/-- TALLY_READ (R380). -/
def execTallyRead (f : Flit) (s : State) : Result := .next (if t8Op f = 2 then s.class8 f else s)

/-- TALLY_WAIT (R380). -/
def execTallyWait (f : Flit) (s : State) : Result := .next (if t8Op f = 3 then s.class8 f else s)

/-- TALLY_WAIT_HOLD_EXPIRE (R380). -/
def execTallyWaitHoldExpire (src : W16) (seq : W16) (s : State) : Result :=
  .next (match s.led.holds.find? (fun h => decide (h.src = src) && decide (h.seq = seq)) with
    | none => s
    | some h => ({ s with led := { s.led with holds := dropFirst s.led.holds h } }).answerHold h 1)

/-! ## TALLY, QPUSH, QPOP (R157) -/

/-- TALLY's operation: the state, or a fault. -/
def State.tallyOp (s : State) (t : Nat) (mode : Nat) (v : W64) : Option State :=
  match mode with
  | 0 => some (s.dirty (s.tallyPart t))
  | 1 => some (s.tallySet t (bitsAt v 0 32))
  | _ => s.tallyAdd t v.toInt true

/-- TALLY: rd receives the count after the operation; on a fault it keeps its value. -/
def State.uTally (s : State) (c : Nat) (w : W64) : State :=
  let x := s.ctx c
  let t := (bitsAt (x.reg (uRa w)) 0 16).toNat
  let v := x.reg (uRb w)
  if uMod w = 1 ∧ 0x100000000 ≤ v.toNat then s.endShort c 0x62 2 0x1A 0 0 0
  else match s.tallyOp t (uMod w) v with
    | none => (s.tallyFault t v.toInt).endShort c 0x62 2 0x1B 0 0 0
    | some s1 =>
      let n : W64 := (s1.tally t).count.setWidth 64
      let s1 := (s1.modCtx c (fun x => x.setReg (uRd w) n)).endShort c 0x62 0 0 0 0 0
      if uMod w = 0 then s1 else s1.wakeTally t

/-- TALLY (R157). -/
def execUciTally (c : Fin 16) (s : State) : Result := .next (s.uci c 0x62 (fun s w => s.uTally c w))

/-- QPUSH and QPOP may name a queue (R393). -/
def State.qUsable (s : State) (q : Nat) : Bool := (ownerQueue q || deviceQueue q) && (s.queue q).en

/-- QPUSH and QPOP at issue: they wait, and the queue goes on with what it can. -/
def State.issueQueue (s : State) (c : Nat) (w : W64) : State :=
  let r := Running.ofWord (s.ctx c) w
  let q := (bitsAt r.ra 0 15).toNat
  if ¬ s.qUsable q then s.abort c (uOp w) 0x1A
  else s.inStore c r.rb.toNat (s.queue q).entry (fun s => (s.wait c r).qRun q qFuel)

/-- QPUSH (R157, R395). -/
def execUciQpush (c : Fin 16) (s : State) : Result := .next (s.uci c 0x60 (fun s w => s.issueQueue c w))

/-- QPOP (R157, R395). -/
def execUciQpop (c : Fin 16) (s : State) : Result := .next (s.uci c 0x61 (fun s w => s.issueQueue c w))

/-! ## Settlement (R385–R390) -/

/-- SETTLE (R157): joins a settlement that runs, else asks for a boundary at the next frame start (log 18). -/
def State.issueSettle (s : State) (c : Nat) (w : W64) : State :=
  let r := Running.ofWord (s.ctx c) w
  match s.led.settle.open_.getLast? with
  | some k => s.waitJ c { r with arg := k.stamp.toNat }
  | none => (s.setSettle (fun x => { x with asked := true })).waitJ c { r with arg := s.stamp.toNat }

/-- SETTLE (R157). -/
def execUciSettle (c : Fin 16) (s : State) : Result := .next (s.uci c 0x63 (fun s w => s.issueSettle c w))

/-- An answer is complete: its final flit is known and none before it is missing. -/
def Answer.complete (a : Answer) : Bool :=
  match a.last with
  | some n => (List.range (n + 1)).all (fun i => a.got.contains i)
  | none => false

/-- Agents of a stamp whose answer still lacks a flit. -/
def Stamp.missing (k : Stamp) : List W16 := (k.agents.filter (fun a => !a.complete)).map (·.agent)

/-- A CALL flit (R387). -/
def State.callFlit (s : State) (a : W16) (k : W32) : Flit :=
  ({ cls := 9, dest := a, src := s.myId, age := 32, pay := putField (1 : Payload) 4 k } : Flit).seal

/-- Sends CALL(k) to agents. -/
def State.sendCalls (s : State) (k : W32) (ids : List W16) : State := ids.foldl (fun s a => s.sendTo a (s.callFlit a k)) s

def State.stampOf (s : State) (k : W32) : Option Stamp := s.led.settle.open_.find? (fun x => x.stamp = k)
def State.modStamp (s : State) (k : W32) (f : Stamp → Stamp) : State :=
  s.setSettle (fun x => { x with open_ := x.open_.map (fun y => if y.stamp = k then f y else y) })

/-- R388 step 1: the boundary ends stamp k; R_k and the agents are recorded. -/
def State.boundary (s : State) : State :=
  let k := s.led.settle.cur
  let k := { k with touched := k.touched.map (fun x => (x.1, (s.tally x.1.toNat).count)) }
  s.setSettle (fun x => { x with open_ := x.open_ ++ [k], cur := { stamp := k.stamp + 1 }, asked := false })

/-- SETTLEMENT_BOUNDARY (R385): at a frame start where FRAME mod SETTLE_P = 0, or the first after a SETTLE. -/
def execSettlementBoundary (s : State) : Result :=
  .next (if s.led.settle.asked ∨ s.fab.frame.toNat % s.led.settle.period.toNat = 0 then s.boundary else s)

/-- The sum A_k of a tally: entries of the stamp, and late ones for stamps it was not skipped for. -/
def State.agentSum (s : State) (k : Stamp) (t : W16) : W32 :=
  (k.entries.filter (fun e => decide (e.1 = t) && (decide (e.2.1 = k.stamp) ||
    (match SMap.get noneOf s.led.settle.skipUpto t.toNat with
     | some u => newer e.2.1 u
     | none => true)))).foldl (fun a e => a + e.2.2) 0

/-- The partitions whose agents' answers were incomplete or missing. -/
def Stamp.badParts (k : Stamp) : List (BitVec 6) :=
  (k.agents.filter (fun a => a.incomplete || !a.complete)).map (·.part)

/-- Writes a drift log entry (R389) and posts DRIFT. -/
def State.logDrift (s : State) (k : W32) (t : W16) (d r v : W32) : State :=
  let e := toBytes 2 t ++ [0, 0] ++ toBytes 4 k ++ toBytes 4 d ++ toBytes 4 r ++ toBytes 4 v ++ toBytes 4 s.fab.frame ++
    [(s.tally t.toNat).part.setWidth 8, 0, 0, 0, 0, 0, 0, 0]
  let s := s.qDevPush 0x7FF2 e
  let th := s.led.settle.driftThresh.toNat
  if th ≠ 0 ∧ th ≤ d.toInt.natAbs then s.post 0x14 t (putField (d.setWidth 128) 4 k) else s

/-- Settles one tally (R388): the state, and 1 if a drift entry was written. -/
def State.settleOne (s : State) (k : Stamp) (t : W16) : State × Nat :=
  let x := s.tally t.toNat
  let rk := match k.touched.find? (fun y => y.1 = t) with | some y => y.2 | none => x.settled
  if k.sets.contains t ∨ k.badParts.contains x.part then
    ((((s.modTally t.toNat (fun x => { x with settled := rk, drift := 0, skipped := true })).setSettle (fun z =>
      { z with skip := satInc z.skip, skipUpto := SMap.set noneOf z.skipUpto t.toNat (some k.stamp) })).setPair (fun p =>
      { p with mirror := p.mirror ++ [.settled t rk k.stamp] })), 0)
  else
    let l := match k.loc.find? (fun y => y.1 = t) with | some y => y.2 | none => 0
    let v := x.settled + l + s.agentSum k t
    let d := rk - v
    let s := ((s.modTally t.toNat (fun x => { x with count := x.count - d, settled := v, drift := d, skipped := false })).dirty
      (s.tallyPart t.toNat)).setPair (fun p => { p with mirror := p.mirror ++ [.settled t v k.stamp] })
    if d = 0 then (s, 0) else ((s.logDrift k.stamp t d rk v).wakeTally t.toNat, if s.qTakes 0x7FF2 then 1 else 0)

/-- The tallies a settlement examines: touched, or named in a late entry; strict tallies never settle. -/
def Stamp.tallies (k : Stamp) : List W16 :=
  ((k.touched.map (·.1) ++ (k.entries.filter (fun e => e.2.1 ≠ k.stamp)).map (·.1)).eraseDups).filter (fun t => !tallyStrict t.toNat)

/-- A catch-up stamp adds what its agents report (R390). -/
def State.catchOne (s : State) (e : W16 × W32 × W32) : State :=
  if tallyStrict e.1.toNat then s
  else (s.modTally e.1.toNat (fun x => { x with count := x.count + e.2.2, settled := x.settled + e.2.2 })).wakeTally e.1.toNat

/-- Ends the SETTLEs that wait on a stamp (R157, R389). -/
def State.endSettles (s : State) (k : W32) (done miss : Nat) : State :=
  (List.range 16).foldl (fun s c => match (s.ctx c).long with
    | some r => if uOp r.word = 0x63 ∧ r.arg = k.toNat then s.succeed c 0x63 done miss else s
    | none => s) s

/-- Settlement of a stamp finalizes (R388–R390). -/
def State.finalize (s : State) (k : Stamp) : State :=
  let s := s.setSettle (fun x => { x with open_ := x.open_.filter (fun y => y.stamp ≠ k.stamp), settledNo := k.stamp })
  if k.catchUp then
    (k.entries.foldl (fun s e => s.catchOne e) s).endSettles k.stamp
      ((k.entries.map (·.1)).eraseDups.filter (fun t => !tallyStrict t.toNat)).length 0
  else
    let ts := k.tallies
    let r := ts.foldl (fun (a : State × Nat) t => let b := a.1.settleOne k t; (b.1, a.2 + b.2)) (s, 0)
    (r.1.setSettle (fun x => { x with results := keepLast 16 (x.results ++ [(k.stamp, ts.length, r.2)]) })).endSettles k.stamp ts.length r.2

/-- R388 steps 2 and 4: CALLs go out, or the stamp finalizes when nothing is missing; in a takeover gap they are deferred. -/
def State.call (s : State) (k : Stamp) : State :=
  if s.dealers.takeover ≠ .none then s.modStamp k.stamp (fun x => { x with deferred := true })
  else if k.missing = [] then s.finalize k
  else (s.modStamp k.stamp (fun x => { x with called := true, deferred := false })).sendCalls k.stamp k.missing

/-- SETTLEMENT_CALL (R388). -/
def execSettlementCall (k : W32) (s : State) : Result :=
  .next (match s.stampOf k with | some x => s.call x | none => s)

/-- SETTLEMENT_RECALL (R388). -/
def execSettlementRecall (k : W32) (s : State) : Result :=
  .next (match s.stampOf k with
    | some x => if ¬ x.called then s
        else if s.dealers.takeover ≠ .none then s.modStamp k (fun x => { x with deferred := true })
        else s.sendCalls k x.missing
    | none => s)

/-- SETTLEMENT_FINALIZE (R388): at GRACE_US + 150 µs, or deferred through a takeover gap. -/
def execSettlementFinalize (k : W32) (s : State) : Result :=
  .next (match s.stampOf k with
    | some x => if s.dealers.takeover ≠ .none then s.modStamp k (fun x => { x with deferred := true }) else s.finalize x
    | none => s)

/-- Step 5 of a takeover: deferred CALLs go to agents whose answers still lack a flit (R388, R392). -/
def State.runDeferred (s : State) : State :=
  (s.led.settle.open_.filter (·.deferred)).foldl (fun s k => match s.stampOf k.stamp with | some x => s.call x | none => s) s

/-- Entry i of a REPORT. -/
def repEntry (f : Flit) (i : Nat) : W16 × W32 × W32 :=
  (byteField f.pay (12 + 6 * i) 16, byteField f.pay 4 32, byteField f.pay (14 + 6 * i) 32)

/-- The settlement a REPORT flit belongs to: its stamp's, else the oldest later one whose answer from the agent lacks a
flit (R387, log 19). -/
def State.reportStamp (s : State) (f : Flit) : Option Stamp :=
  let mine := s.led.settle.open_.filter (fun k => k.agents.any (fun a => a.agent = f.src))
  let k : W32 := byteField f.pay 4 32
  match mine.find? (fun x => x.stamp = k) with
  | some x => some x
  | none => mine.find? (fun x => newer x.stamp k && x.missing.contains f.src)

/-- Takes a REPORT flit into an answer; a repeat changes nothing. -/
def Stamp.take (k : Stamp) (f : Flit) : Stamp :=
  let i := (byteField f.pay 8 16 : W16).toNat
  let flags : Byte := byteField f.pay 1 8
  let n := (byteField f.pay 2 8 : Byte).toNat
  if k.agents.any (fun a => decide (a.agent = f.src) && a.got.contains i) then k
  else { k with
    entries := k.entries ++ (List.range n).map (repEntry f)
    agents := k.agents.map (fun a => if a.agent = f.src then
      { a with got := a.got ++ [i], last := if flags.getLsbD 0 then some i else a.last, incomplete := a.incomplete || flags.getLsbD 1 } else a) }

/-- A REPORT reaches the ledger (R387, R388). -/
def State.report (s : State) (f : Flit) : State :=
  if f.cls ≠ 9 ∨ f.crc ≠ f.crcOf ∨ f.dest ≠ s.myId ∨ byteField f.pay 0 8 ≠ (2 : Byte) ∨ 6 < (byteField f.pay 2 8 : Byte).toNat then s
  else match s.reportStamp f with
    | none => s
    | some k =>
      let s := s.modStamp k.stamp (fun x => x.take f)
      match s.stampOf k.stamp with
      | some x => if x.called ∧ x.missing = [] ∧ s.dealers.takeover = .none then s.finalize x else s
      | none => s

/-- REPORT (R387). -/
def execReport (f : Flit) (s : State) : Result := .next (s.report f)

end Sys2Proof.Machine
end

