-- ==== Sys2Proof/Machine/StiNum.lean ====
section
/-! DEFINITION. Exact numbers, rounding and the number formats of the station dies (06 of the spec, R205–R215, R221–R224). -/

namespace Sys2Proof.Machine

/-! ## Rounding (R213, R214) -/

/-- One step of the Galois LFSR (R214). -/
def lfsrStep (s : W32) : W32 := if s.getLsbD 0 then (s >>> 1) ^^^ 0x80200003 else s >>> 1

/-- A starting state of 0 is replaced by 1 (R214). -/
def lfsrStart (s : W32) : W32 := if s = 0 then 1 else s

/-- The ACCUM generator's start for output tile t (R214). -/
def lfsrAccum (seed : W32) (t : Nat) : W32 := seed ^^^ BitVec.ofNat 32 (t * 0x9E3779B9)

/-- Rounds num / den to one of the integers beside it; an exact value draws no random bits (R213). `even` says whether the
lower neighbour's code ends in 0. Answers whether the upper neighbour is taken, and the generator. -/
def roundUp (sr : Bool) (l : W32) (num den : Nat) (even : Bool) : Bool × W32 :=
  let r := num % den
  if r = 0 then (false, l)
  else
    let l := lfsrStep l
    (if sr then decide (65536 ≤ r * 65536 / den + (bitsAt l 0 16).toNat)
     else decide (den < 2 * r) || (decide (2 * r = den) && !even), l)

/-- Rounds a magnitude num / den (formats with a sign bit). -/
def roundMag (sr : Bool) (l : W32) (num den : Nat) : Nat × W32 :=
  let q := num / den
  let (u, l) := roundUp sr l num den (q % 2 = 0)
  (if u then q + 1 else q, l)

/-- Rounds a two's complement value num / den: the neighbours bound the value itself. -/
def roundInt (sr : Bool) (l : W32) (num : Int) (den : Nat) : Int × W32 :=
  let q := num / (den : Int)
  let (u, l) := roundUp sr l (num % (den : Int)).toNat den (q % 2 = 0)
  (if u then q + 1 else q, l)

/-! ## Exact numbers -/

/-- A value in the multiply modes: a sign, a magnitude and a power of two; infinities; NaN. -/
inductive Num where
  | fin (neg : Bool) (m : Nat) (e : Int)
  | inf (neg : Bool)
  | nan
  deriving DecidableEq, Repr

def Num.zero : Num := .fin false 0 0

/-- The value v × 2^e. -/
def Num.ofInt (v : Int) (e : Int) : Num := .fin (decide (v < 0)) v.natAbs e

/-- The numerator of a finite value at a smaller exponent. -/
def scaled (neg : Bool) (m : Nat) (e base : Int) : Int :=
  let v : Int := (m * 2 ^ (e - base).toNat : Nat)
  if neg then -v else v

/-- The exact sum; ∞ − ∞ is NaN (R217). -/
def Num.add : Num → Num → Num
  | .nan, _ => .nan
  | _, .nan => .nan
  | .inf a, .inf b => if a = b then .inf a else .nan
  | .inf a, .fin _ _ _ => .inf a
  | .fin _ _ _, .inf b => .inf b
  | .fin n m e, .fin n' m' e' =>
    let b := min e e'
    let v := scaled n m e b + scaled n' m' e' b
    if v = 0 then .fin (n && n') 0 0 else .ofInt v b

def Num.neg : Num → Num
  | .fin n m e => .fin (!n) m e
  | .inf n => .inf (!n)
  | .nan => .nan

/-- The exact product; 0 × ∞ is NaN. -/
def Num.mul : Num → Num → Num
  | .nan, _ => .nan
  | _, .nan => .nan
  | .inf a, .inf b => .inf (a != b)
  | .inf a, .fin n m _ => if m = 0 then .nan else .inf (a != n)
  | .fin n m _, .inf b => if m = 0 then .nan else .inf (b != n)
  | .fin n m e, .fin n' m' e' => .fin (n != n') (m * m') (e + e')

def Num.isFin : Num → Bool
  | .fin _ _ _ => true
  | _ => false

def Num.isZero : Num → Bool
  | .fin _ m _ => decide (m = 0)
  | _ => false

/-- Whether |a| ≤ |b| for finite magnitudes m × 2^e. -/
def magLe (m : Nat) (e : Int) (m' : Nat) (e' : Int) : Bool :=
  decide (m * 2 ^ (e - min e e').toNat ≤ m' * 2 ^ (e' - min e e').toNat)

/-- The value divided by 2^u as a fraction. -/
def fracOf (m : Nat) (e u : Int) : Nat × Nat := if u ≤ e then (m * 2 ^ (e - u).toNat, 1) else (m, 2 ^ (u - e).toNat)

/-! ## Binary formats (R206, R211) -/

/-- A binary floating format: significand bits, exponent of the least subnormal, exponent field width, total width. -/
structure Flt where
  p : Nat
  qmin : Int
  ew : Nat
  w : Nat
  deriving DecidableEq, Repr

def fp32 : Flt := { p := 24, qmin := -149, ew := 8, w := 32 }
def bf16 : Flt := { p := 8, qmin := -133, ew := 8, w := 16 }
def fp16 : Flt := { p := 11, qmin := -24, ew := 5, w := 16 }

/-- Exponent of the largest finite value's unit. -/
def Flt.qmax (f : Flt) : Int := f.qmin + (2 ^ f.ew - 3 : Nat)

/-- The value a code stands for. -/
def Flt.decode (f : Flt) (c : Nat) : Num :=
  let frac := c % 2 ^ (f.p - 1)
  let ex := c / 2 ^ (f.p - 1) % 2 ^ f.ew
  let n := decide (2 ^ (f.w - 1) ≤ c % 2 ^ f.w)
  if ex = 2 ^ f.ew - 1 then (if frac = 0 then .inf n else .nan)
  else if ex = 0 then .fin n frac f.qmin
  else .fin n (frac + 2 ^ (f.p - 1)) (f.qmin + (ex - 1 : Nat))

/-- The code of a value the format holds; every NaN is the canonical one (R211). -/
def Flt.encode (f : Flt) (x : Num) : Nat :=
  let top := 2 ^ (f.p - 1)
  match x with
  | .nan => (2 ^ f.ew - 1) * top + top / 2
  | .inf n => (if n then 2 ^ (f.w - 1) else 0) + (2 ^ f.ew - 1) * top
  | .fin n m e =>
    let s := if n then 2 ^ (f.w - 1) else 0
    if m = 0 then s
    else
      let t : Int := (Nat.log2 m : Int) + e
      let q := max f.qmin (t - (f.p - 1 : Nat))
      let k := (fracOf m e q).1 / (fracOf m e q).2
      if k < top then s + k else s + ((q - f.qmin).toNat + 1) * top + (k - top)

/-- Rounds a finite value to the precision of a format, the exponent not bounded above. -/
def Flt.round (f : Flt) (sr : Bool) (l : W32) (x : Num) : Num × W32 :=
  match x with
  | .fin n m e =>
    if m = 0 then (x, l)
    else
      let q := max f.qmin ((Nat.log2 m : Int) + e - (f.p - 1 : Nat))
      let (k, l) := roundMag sr l (fracOf m e q).1 (fracOf m e q).2
      (.fin n k q, l)
  | _ => (x, l)

/-- Whether a finite value lies beyond the largest finite value of a format. -/
def Flt.beyond (f : Flt) (x : Num) : Bool :=
  match x with
  | .fin _ m e => !magLe m e (2 ^ f.p - 1) f.qmax
  | _ => false

/-- ACCUM and SHADOW: a rounded result beyond the range becomes ∞ (R217, log 20). The flag says that it did. -/
def Flt.roundInf (f : Flt) (sr : Bool) (l : W32) (x : Num) : Num × Bool × W32 :=
  let (y, l) := f.round sr l x
  if f.beyond y then (match y with | .fin n _ _ => .inf n | z => z, true, l) else (y, false, l)

/-! ## Format codes and tiles (R205, R248) -/

/-- Bytes of a tile (R205). -/
def tileBytes (fmt : Nat) : Nat :=
  match fmt with
  | 0 | 1 => 544
  | 2 => 256
  | 3 => 224
  | 4 => 512
  | 5 => 1024
  | 6 | 7 | 8 => 2048
  | _ => 4096

def isCost (fmt : Nat) : Bool := fmt = 4 || fmt = 5 || fmt = 6

/-- The largest finite value of a cost format (R210). -/
def costMax (fmt : Nat) : Nat := if fmt = 4 then 14 else if fmt = 5 then 254 else 65534

/-- The operand pairings of R216, the accumulator formats and the GRID modes. -/
def gridOk (mode a b acc : Nat) : Bool :=
  match mode with
  | 0 => a = 0 && b = 0 && acc = 9
  | 1 => a = 1 && b = 1 && acc = 10
  | 2 => a = 2 && (b = 2 || b = 1) && acc = 10
  | 3 => a = 3 && (b = 3 || b = 2 || b = 1) && acc = 10
  | 4 => a = 4 && b = 4 && (acc = 5 || acc = 6)
  | 5 => a = 5 && b = 5 && (acc = 5 || acc = 6)
  | 6 => a = 6 && b = 6 && acc = 6
  | _ => false

/-- The output formats of R221; the accumulator format itself is always allowed (R249). -/
def packOk (acc out : Nat) : Bool :=
  decide (acc = out) ||
  (match acc with
   | 9 => out = 0 || out = 1 || out = 2 || out = 3 || out = 7 || out = 8 || out = 9
   | 10 => out = 1 || out = 2 || out = 3 || out = 7 || out = 8 || out = 9 || out = 10
   | _ => isCost out)

/-- A byte of a string; a byte beyond it reads as 0. -/
def byteAt (bs : List Byte) (i : Nat) : Nat := (bs.getD i 0).toNat

/-- Two's complement value of an 8-bit number. -/
def int8 (v : Nat) : Int := (BitVec.ofNat 8 v).toInt

/-! ## UNPACK (R206–R210) -/

/-- A decoded line: element values, the exponent all of them are multiplied by (none for NaN), a reserved code was read. -/
structure Line where
  els : List Int
  exp : Option Int
  bad : Bool
  deriving DecidableEq, Repr

/-- Nibbles of bytes, low first. -/
def nibbles (bs : List Byte) : List Nat := bs.flatMap (fun b => [b.toNat % 16, b.toNat / 16])

/-- E2M1 in halves (R206). -/
def e2m1 (c : Nat) : Int :=
  let m : Int := [0, 1, 2, 3, 4, 6, 8, 12].getD (c % 8) 0
  if c / 8 % 2 = 1 then -m else m

/-- INT4 (R207). -/
def int4 (c : Nat) : Int := if c = 8 then -7 else if c < 8 then c else (c : Int) - 16

/-- INT2 (R208). -/
def int2 (c : Nat) : Int := if c < 2 then c else (c : Int) - 4

/-- The five trits of a byte, t_0 first; a reserved byte reads as zeros (R209). -/
def trits (b : Nat) : List Int :=
  if 243 ≤ b then [0, 0, 0, 0, 0]
  else (List.range 5).map (fun m => ((b / 3 ^ m % 3 : Nat) : Int) - 1)

/-- Line n of a multiply operand's tile; `texp` is the tensor exponent (R205). -/
def unpackLine (fmt : Nat) (texp : Int) (bs : List Byte) (n : Nat) : Line :=
  match fmt with
  | 0 =>
    let c := byteAt bs (512 + n)
    { els := (nibbles ((bs.drop (16 * n)).take 16)).map e2m1, exp := if c = 255 then none else some ((c : Int) - 128), bad := false }
  | 1 =>
    let ns := nibbles ((bs.drop (16 * n)).take 16)
    { els := ns.map int4, exp := some (int8 (byteAt bs (512 + n))), bad := ns.contains 8 }
  | 2 =>
    { els := ((bs.drop (8 * n)).take 8).flatMap (fun b => (List.range 4).map (fun q => int2 (b.toNat / 4 ^ q % 4))),
      exp := some texp, bad := false }
  | _ =>
    let l := (bs.drop (7 * n)).take 7
    let ts := l.flatMap (fun b => trits b.toNat)
    { els := ts.take 32, exp := some texp,
      bad := l.any (fun b => decide (243 ≤ b.toNat)) || (ts.drop 32).any (fun t => decide (t ≠ 0)) }

def unpackTile (fmt : Nat) (texp : Int) (bs : List Byte) : List Line := (List.range 32).map (unpackLine fmt texp bs)

/-- A cost element: its value under the guard (none is ∞), and its own code (R226). -/
structure CEl where
  v : Option Nat
  raw : Nat
  unres : Bool
  deriving DecidableEq, Repr

/-- The code of cost element i of a tile. -/
def costCode (fmt : Nat) (bs : List Byte) (i : Nat) : Nat :=
  if fmt = 4 then byteAt bs (i / 2) / 16 ^ (i % 2) % 16
  else if fmt = 5 then byteAt bs i
  else byteAt bs (2 * i) + 256 * byteAt bs (2 * i + 1)

/-- Bit i of an unresolved bitmap (R205). -/
def bmpBit (bm : List Byte) (i : Nat) : Bool := decide (byteAt bm (i / 8) / 2 ^ (i % 8) % 2 = 1)

/-- A cost operand read with its bitmap (empty: none): an unresolved element counts as ∞ (R226). -/
def costEl (fmt : Nat) (bs bm : List Byte) (i : Nat) : CEl :=
  let c := costCode fmt bs i
  let u := bmpBit bm i
  { v := if u ∨ costMax fmt < c then none else some c, raw := c, unres := u }

def costTile (fmt : Nat) (bs bm : List Byte) : List (List CEl) :=
  (List.range 32).map (fun n => (List.range 32).map (fun k => costEl fmt bs bm (32 * n + k)))

/-- Cost addition in a receiving format (R210): none is ∞; the flag says that a finite sum saturated. -/
def costAdd (mx : Nat) (a b : Option Nat) : Option Nat × Bool :=
  match a, b with
  | some x, some y => (some (min (x + y) mx), decide (mx < x + y))
  | _, _ => (none, false)

/-- The smaller of two costs. -/
def costMin (a b : Option Nat) : Option Nat :=
  match a, b with
  | some x, some y => some (min x y)
  | some x, none => some x
  | none, b => b

/-- a is strictly below b. -/
def costLt (a b : Option Nat) : Bool :=
  match a, b with
  | some x, some y => decide (x < y)
  | some _, none => true
  | none, _ => false

/-! ## PACK (R221–R224) -/

/-- The numeric events PACK records: PACK_SAT, NONFINITE, UNDERFLOW. -/
structure PFlags where
  sat : Bool := false
  nonfin : Bool := false
  under : Bool := false
  deriving DecidableEq, Repr

def PFlags.or (a b : PFlags) : PFlags := { sat := a.sat || b.sat, nonfin := a.nonfin || b.nonfin, under := a.under || b.under }

/-- The smallest s with |x| ≤ top × 2^s for every element (R222), elements finite and not all zero. -/
def blockExp (top : Nat) (m : Nat) (e : Int) : Int :=
  let k : Int := (Nat.log2 m : Int) + e - (Nat.log2 top : Int)
  if magLe m e top (k - 1) then k - 1 else if magLe m e top k then k else k + 1

/-- The largest magnitude of a block. -/
def blockMax (xs : List Num) : Nat × Int :=
  xs.foldl (fun a x => match x with
    | .fin _ m e => if magLe m e a.1 a.2 then a else (m, e)
    | _ => a) (0, 0)

/-- The E2M1 code of a magnitude in halves. -/
def e2m1Code (h : Nat) : Nat :=
  if h ≤ 4 then h else if h ≤ 6 then 5 else if h ≤ 8 then 6 else 7

/-- Rounds a magnitude to E2M1 halves: units of 0.5, 1 and 2 above 0, 2 and 4 (R206, R213). -/
def e2m1Round (sr : Bool) (l : W32) (m : Nat) (e : Int) : Nat × W32 :=
  let u : Int := if magLe 2 0 m e then (if magLe 4 0 m e then 1 else 0) else -1
  let (k, l) := roundMag sr l (fracOf m e u).1 (fracOf m e u).2
  (k * 2 ^ (u + 1).toNat, l)

/-- One element of a block to MXFP4, divided by 2^s: code, clamped, rounded to zero. -/
def packE2M1 (sr : Bool) (l : W32) (s : Int) (x : Num) : Nat × PFlags × W32 :=
  match x with
  | .fin n m e =>
    if m = 0 then (0, {}, l)
    else if ¬ magLe m (e - s) 6 0 then ((if n then 15 else 7), { sat := true }, l)
    else
      let (h, l) := e2m1Round sr l m (e - s)
      if h = 0 then (0, { under := true }, l) else ((if n then 8 else 0) + e2m1Code h, {}, l)
  | _ => (0, {}, l)

/-- One element to a two's complement integer from lo to hi, divided by 2^s. -/
def packInt (sr : Bool) (l : W32) (s lo hi : Int) (x : Num) : Int × PFlags × W32 :=
  match x with
  | .fin n m e =>
    if m = 0 then (0, {}, l)
    else
      let fr := fracOf m e s
      let v : Int := if n then -(fr.1 : Int) else fr.1
      let (k, l) := roundInt sr l v fr.2
      if k < lo then (lo, { sat := true }, l) else if hi < k then (hi, { sat := true }, l)
      else (k, { under := decide (k = 0) }, l)
  | _ => (0, { nonfin := true }, l)

/-- One element to BF16, FP16 or FP32 (R223): its code. -/
def packFlt (f : Flt) (sr : Bool) (l : W32) (x : Num) : Nat × PFlags × W32 :=
  match x with
  | .fin n _ _ =>
    if f.beyond x then (f.encode (.fin n (2 ^ f.p - 1) f.qmax), { sat := true }, l)
    else
      let (y, l) := f.round sr l x
      (f.encode y, { under := y.isZero && !x.isZero }, l)
  | y => (f.encode y, { nonfin := true }, l)

/-- Threads the generator and the flags through a list of elements. -/
def packAll {α : Type} (g : W32 → Num → α × PFlags × W32) (l : W32) (fl : PFlags) : List Num → List α × PFlags × W32
  | [] => ([], fl, l)
  | x :: xs =>
    let (c, f, l) := g l x
    let (cs, fl, l) := packAll g l (fl.or f) xs
    (c :: cs, fl, l)

/-- Two nibbles a byte, low first. -/
def joinNibbles : List Nat → List Byte
  | a :: b :: r => BitVec.ofNat 8 (a + 16 * b) :: joinNibbles r
  | _ => []

/-- A block of 32 cells to MXFP4 or INT4 (R222): 16 bytes, the scale byte, flags. -/
def packBlock (fmt : Nat) (sr : Bool) (l : W32) (xs : List Num) : List Byte × Byte × PFlags × W32 :=
  if xs.any (fun x => !x.isFin) then
    (List.replicate 16 0, if fmt = 0 then 0xFF else 0x80, { nonfin := true }, l)
  else
    let (m, e) := blockMax xs
    if m = 0 then (List.replicate 16 0, if fmt = 0 then 0 else 0x80, {}, l)
    else
      let lo : Int := if fmt = 0 then -127 else -128
      let s := blockExp (if fmt = 0 then 6 else 7) m e
      let f0 : PFlags := { sat := decide (127 < s) || decide (s < lo) }
      let s := if 127 < s then 127 else if s < lo then lo else s
      if fmt = 0 then
        let (cs, fl, l) := packAll (fun l x => packE2M1 sr l s x) l f0 xs
        (joinNibbles cs, BitVec.ofInt 8 (s + 127), fl, l)
      else
        let (cs, fl, l) := packAll (fun l x => packInt sr l s (-7) 7 x) l f0 xs
        (joinNibbles (cs.map (fun v => (BitVec.ofInt 4 v).toNat)), BitVec.ofInt 8 s, fl, l)

/-- The rows of a 1,024-cell tile. -/
def rowsOf {α : Type} (xs : List α) : List (List α) := (List.range 32).map (fun i => (xs.drop (32 * i)).take 32)

/-- Blocks of a tile in order: element bytes, scale bytes. -/
def packBlocks (fmt : Nat) (sr : Bool) (l : W32) (fl : PFlags) : List (List Num) → List Byte × List Byte × PFlags × W32
  | [] => ([], [], fl, l)
  | r :: rs =>
    let (bs, sc, f, l) := packBlock fmt sr l r
    let (b2, s2, fl, l) := packBlocks fmt sr l (fl.or f) rs
    (bs ++ b2, sc :: s2, fl, l)

/-- Four INT2 codes a byte. -/
def joinCrumbs : List Nat → List Byte
  | a :: b :: c :: d :: r => BitVec.ofNat 8 (a + 4 * b + 16 * c + 64 * d) :: joinCrumbs r
  | _ => []

/-- A row of 32 trits in 7 bytes, padding trits 0 (R209). -/
def joinTrits (ts : List Int) : List Byte :=
  (List.range 7).map (fun b => BitVec.ofNat 8
    (((List.range 5).map (fun m => ((ts.getD (5 * b + m) 0) + 1).toNat * 3 ^ m)).sum))

/-- PACK of the 1,024 cells of a multiply mode (R222, R223): the tile, flags. -/
def packTile (fmt : Nat) (sr : Bool) (oexp : Int) (l : W32) (xs : List Num) : List Byte × PFlags :=
  match fmt with
  | 0 | 1 =>
    let (bs, sc, fl, _) := packBlocks fmt sr l {} (rowsOf xs)
    (bs ++ sc, fl)
  | 2 =>
    let (cs, fl, _) := packAll (fun l x => packInt sr l oexp (-2) 1 x) l {} xs
    (joinCrumbs (cs.map (fun v => (BitVec.ofInt 2 v).toNat)), fl)
  | 3 =>
    let (cs, fl, _) := packAll (fun l x => packInt sr l oexp (-1) 1 x) l {} xs
    ((rowsOf cs).flatMap joinTrits, fl)
  | 7 =>
    let (cs, fl, _) := packAll (packFlt bf16 sr) l {} xs
    (cs.flatMap (fun c => toBytes 2 (BitVec.ofNat 16 c)), fl)
  | 8 =>
    let (cs, fl, _) := packAll (packFlt fp16 sr) l {} xs
    (cs.flatMap (fun c => toBytes 2 (BitVec.ofNat 16 c)), fl)
  | 9 =>
    let (cs, fl, _) := packAll (packFlt fp32 sr) l {} xs
    (cs.flatMap (fun c => toBytes 4 (BitVec.ofNat 32 c)), fl)
  | _ =>
    let (cs, fl, _) := packAll (fun l x => packInt sr l oexp (-0x80000000) 0x7FFFFFFF x) l {} xs
    (cs.flatMap (fun c => toBytes 4 (BitVec.ofInt 32 c)), fl)

/-- The code of a cost value. -/
def costEnc (fmt : Nat) (v : Option Nat) : Nat := v.getD (costMax fmt + 1)

/-- Cost codes as tile bytes (R205). -/
def costBytes (fmt : Nat) (cs : List Nat) : List Byte :=
  if fmt = 4 then joinNibbles cs
  else if fmt = 5 then cs.map (fun c => BitVec.ofNat 8 c)
  else cs.flatMap (fun c => toBytes 2 (BitVec.ofNat 16 c))

/-- PACK to a cost format (R224): a finite value above the target's largest becomes the ∞ code and unresolved. -/
def packCost (fmt : Nat) (v : Option Nat) : Option Nat × Bool :=
  match v with
  | some x => if costMax fmt < x then (none, true) else (some x, false)
  | none => (none, false)

/-- Bits as bytes, bit i in bit i mod 8 of byte i div 8. -/
def bitBytes (bs : List Bool) : List Byte :=
  (List.range (bs.length / 8)).map (fun i =>
    BitVec.ofNat 8 (((List.range 8).map (fun k => if bs.getD (8 * i + k) false then 2 ^ k else 0)).sum))

/-! ## GF(2^8) (R212) -/

/-- Multiplication by x modulo 0x11D. -/
def gfX (b : Byte) : Byte := if b.getLsbD 7 then (b <<< 1) ^^^ 0x1D else b <<< 1

/-- Multiplication in GF(2^8). -/
def gfMul (c b : Byte) : Byte :=
  ((List.range 8).foldl (fun (a : Byte × Byte) i => (if c.getLsbD i then a.1 ^^^ a.2 else a.1, gfX a.2)) (0, b)).1

/-- out ⊕ (c ⊗ in) over equal strings (R232). -/
def gfMac (c : Byte) (out inp : List Byte) : List Byte := List.zipWith (fun o i => o ^^^ gfMul c i) out inp

end Sys2Proof.Machine
end

