-- ==== Sys2Proof/Machine/StiTile.lean ====
section
/-! DEFINITION. What the stations compute for one output tile (06 of the spec, R216–R229): GRID, ACCUM, SHADOW, the
comparison and PACK, over the bytes LOAD brings. -/

namespace Sys2Proof.Machine

/-- The operand tiles of one tile step: A, B, and their unresolved bitmaps (empty when not read). -/
structure TStepIn where
  a : List Byte
  b : List Byte
  abm : List Byte := []
  bbm : List Byte := []
  deriving DecidableEq, Repr

/-- What an output tile is computed from. -/
structure TileIn where
  mode : Nat
  accF : Nat
  srA : Bool
  srP : Bool
  eacc : Int
  oexp : Int
  /-- the output format, or none without PACK (R220) -/
  out : Option Nat
  fmtA : Nat
  fmtB : Nat
  texpA : Int
  texpB : Int
  steps : List TStepIn
  /-- preload tile and its bitmap -/
  pre : Option (List Byte × List Byte)
  /-- SOURCE copies: their formats and tiles -/
  src : Option (Nat × Nat × List TStepIn)
  sampled : Bool
  tau : Nat
  seed : W32
  t : Nat

/-- What STORE writes of an output tile, and how the comparison ended. -/
structure TileOut where
  bytes : List Byte
  flags : W16
  bmp : List Byte
  wit : List Byte
  /-- bytes 8–15 of a divergence record (R230) -/
  div : Option (W32 × W32)
  deriving DecidableEq, Repr

/-- Numeric events of ACCUM: ACC_SAT, NAN. -/
structure AFlags where
  sat : Bool := false
  nan : Bool := false
  deriving DecidableEq, Repr

def AFlags.or (a b : AFlags) : AFlags := { sat := a.sat || b.sat, nan := a.nan || b.nan }

/-- The pairs of lines of the 1,024 cells, row-major. -/
def linePairs (as bs : List Line) : List (Line × Line) := as.flatMap (fun a => bs.map (fun b => (a, b)))

/-- The exact block sum of a pair of lines. -/
def dot (a b : Line) : Int := (List.zipWith (fun x y => x * y) a.els b.els).sum

/-- The exponent of a pair of lines, none for NaN. -/
def expSum (a b : Line) : Option Int :=
  match a.exp, b.exp with
  | some x, some y => some (x + y)
  | _, _ => none

/-- One tile step over the cells: the generator steps in row-major order (R214). -/
def accAll {α : Type} (g : W32 → α → Line → Line → α × AFlags × W32) (l : W32) (fl : AFlags) :
    List (α × Line × Line) → List α × AFlags × W32
  | [] => ([], fl, l)
  | (c, a, b) :: r =>
    let (c, f, l) := g l c a b
    let (cs, fl, l) := accAll g l (fl.or f) r
    (c :: cs, fl, l)

/-- ACCUM in MAC4-F (R217). -/
def accumF (sr : Bool) (l : W32) (c : Num) (a b : Line) : Num × AFlags × W32 :=
  match expSum a b with
  | none => (.nan, { nan := true }, l)
  | some e =>
    match c with
    | .fin _ _ _ =>
      let (y, ov, l) := fp32.roundInf sr l (c.add (.ofInt (dot a b) e))
      (y, { sat := ov }, l)
    | _ => (c, {}, l)

/-- Clamps to INT32. -/
def clamp32 (v : Int) : Int × Bool :=
  if v < -0x80000000 then (-0x80000000, true) else if 0x7FFFFFFF < v then (0x7FFFFFFF, true) else (v, false)

/-- ACCUM in the integer multiply modes (R218). -/
def accumI (sr : Bool) (eacc : Int) (l : W32) (c : Int) (a b : Line) : Int × AFlags × W32 :=
  let x := (expSum a b).getD 0 - eacc
  let den : Nat := 2 ^ (-x).toNat
  let (v, l) := roundInt sr l (c * (den : Int) + dot a b * 2 ^ x.toNat) den
  let (v, ov) := clamp32 v
  (v, { sat := ov }, l)

/-- Runs ACCUM over all tile steps in ascending order of b. -/
def accSteps {α : Type} (g : W32 → α → Line → Line → α × AFlags × W32) (l : W32) (fl : AFlags) (cs : List α) :
    List (List Line × List Line) → List α × AFlags
  | [] => (cs, fl)
  | (as, bs) :: r =>
    let (cs, fl, l) := accAll g l fl (cs.zip (linePairs as bs))
    accSteps g l fl cs r

/-! ## Min-plus (R218, R219, R226) -/

/-- A min-plus cell: value, witness, unresolved bit, smallest lower bound. -/
structure MpCell where
  v : Option Nat
  wit : Nat
  unres : Bool
  lb : Option Nat
  deriving DecidableEq, Repr

/-- One term of a cell; k is the global K index. Terms with an unresolved operand only bound from below. -/
def mpTerm (mx : Nat) (c : MpCell × Bool) (k : Nat) (a b : CEl) : MpCell × Bool :=
  if a.unres ∨ b.unres then
    let lbOf (x : CEl) : Option Nat := if x.unres then some x.raw else x.v
    ({ c.1 with lb := costMin c.1.lb (costAdd mx (lbOf a) (lbOf b)).1 }, c.2)
  else
    let (t, sat) := costAdd mx a.v b.v
    let x := c.1
    let x := if costLt t x.v then { x with v := t, wit := k } else x
    ({ x with unres := x.unres || sat }, c.2 || sat)

/-- A cell over one tile step. -/
def mpStep (mx base : Nat) (c : MpCell × Bool) (as bs : List CEl) : MpCell × Bool :=
  ((as.zip bs).zipIdx).foldl (fun c p => mpTerm mx c (base + p.2) p.1.1 p.1.2) c

/-- All cells over the tile steps from K tile `k` on; the Bool is ACC_SAT. -/
def mpSteps (mx : Nat) (k : Nat) (cs : List (MpCell × Bool)) : List (List (List CEl) × List (List CEl)) → List (MpCell × Bool)
  | [] => cs
  | (as, bs) :: r =>
    let ps := as.flatMap (fun a => bs.map (fun b => (a, b)))
    mpSteps mx (k + 1) (List.zipWith (fun c p => mpStep mx (32 * k) c p.1 p.2) cs ps) r

/-- The guard's last step (R226). -/
def MpCell.settle (c : MpCell) : MpCell := { c with unres := c.unres || costLt c.lb c.v }

/-- The cells' start (R220). -/
def mpStart (accF : Nat) (pre : Option (List Byte × List Byte)) : List MpCell :=
  (List.range 1024).map (fun i => match pre with
    | none => { v := none, wit := 0xFFFF, unres := false, lb := none }
    | some (bs, bm) =>
      let c := costCode accF bs i
      { v := if costMax accF < c then none else some c, wit := 0xFFFE, unres := bmpBit bm i, lb := none })

/-! ## SHADOW (R227, R229) -/

/-- A value as BF16 under RNE; beyond the range it is ±∞ (log 20). -/
def toBf16 (x : Num) : Num := (bf16.roundInf false 1 x).1

/-- Shadow operands of a tile: the decoded elements, each times its exponent. -/
def shadowOfLines (ls : List Line) : List (List Num) :=
  ls.map (fun l => l.els.map (fun v => match l.exp with
    | some e => toBf16 (.ofInt v e)
    | none => .nan))

/-- Shadow operands from a SOURCE copy in BF16 or FP16, in the same tile geometry. -/
def shadowOfSource (fmt : Nat) (bs : List Byte) : List (List Num) :=
  (List.range 32).map (fun n => (List.range 32).map (fun k =>
    let c := byteAt bs (2 * (32 * n + k)) + 256 * byteAt bs (2 * (32 * n + k) + 1)
    if fmt = 8 then toBf16 (fp16.decode c) else bf16.decode c))

/-- FP32 accumulation of the products of two lines, k ascending, RNE. -/
def shadowDot (c : Num) (as bs : List Num) : Num :=
  (as.zip bs).foldl (fun c p => (fp32.roundInf false 1 (c.add (p.1.mul p.2))).1) c

def shadowSteps (cs : List Num) : List (List (List Num) × List (List Num)) → List Num
  | [] => cs
  | (as, bs) :: r =>
    let ps := as.flatMap (fun a => bs.map (fun b => (a, b)))
    shadowSteps (List.zipWith (fun c p => shadowDot c p.1 p.2) cs ps) r

/-- A multiply cell as FP32 (R229): an INT32 cell stands for c × 2^Eacc. -/
def asFp32 (x : Num) : Num := (fp32.roundInf false 1 x).1

/-- The larger of two magnitudes; not finite ones do not count (log 20). -/
def maxMag (a : Nat × Int) (x : Num) : Nat × Int :=
  match x with
  | .fin _ m e => if magLe m e a.1 a.2 then a else (m, e)
  | _ => a

/-- The FP32 code of a quotient of magnitudes under RNE. -/
def quot32 (m : Nat) (e : Int) (m' : Nat) (e' : Int) : W32 :=
  let sh := 64 + Nat.log2 m'
  let q := m * 2 ^ sh / m'
  let st := if m * 2 ^ sh % m' = 0 then 0 else 1
  BitVec.ofNat 32 (fp32.encode (asFp32 (.fin false (2 * q + st) (e - e' - (sh + 1 : Nat)))))

/-- The comparison in the multiply modes: whether the tile diverges, e and max|s| as FP32 (R229, R230). -/
def compareMac (tau : Nat) (g s : List Num) : Bool × W32 × W32 :=
  let ps := g.zip s
  let odd := ps.any (fun p => p.1.isFin != p.2.isFin || (!p.1.isFin && p.1 ≠ .nan && p.2 ≠ .nan && decide (p.1 ≠ p.2)))
  let fin := ps.filter (fun p => p.1.isFin && p.2.isFin)
  let d := fin.foldl (fun a p => maxMag a (p.1.add p.2.neg)) (0, 0)
  let ms := fin.foldl (fun a p => maxMag a p.2) (0, 0)
  let smax := BitVec.ofNat 32 (fp32.encode (.fin false ms.1 ms.2))
  if odd then (true, 0x7F800000, smax)
  else if d.1 = 0 then (false, 0, smax)
  else if ms.1 = 0 then (true, 0x7F800000, 0)
  else (!magLe d.1 (d.2 + tau) ms.1 ms.2, quot32 d.1 d.2 ms.1 ms.2, smax)

/-! ## The tile -/

/-- The flags word of a tile (R225), ECC aside. -/
def flagsWord (sat psat unres nan nonfin bad under samp div : Bool) : W16 :=
  (bitW sat 0 ||| bitW psat 1 ||| bitW unres 2 ||| bitW nan 3 ||| bitW nonfin 4 ||| bitW bad 5 ||| bitW under 6 |||
   bitW samp 7 ||| bitW div 8).setWidth 16

/-- The accumulator cells stored without PACK: FP32 or INT32 codes. -/
def rawF (cs : List Num) : List Byte := cs.flatMap (fun c => toBytes 4 (BitVec.ofNat 32 (fp32.encode c)))
def rawI (cs : List Int) : List Byte := cs.flatMap (fun c => toBytes 4 (BitVec.ofInt 32 c))

/-- The lines of all tile steps. -/
def TileIn.lines (x : TileIn) : List (List Line × List Line) :=
  x.steps.map (fun s => (unpackTile x.fmtA x.texpA s.a, unpackTile x.fmtB x.texpB s.b))

/-- Whether a reserved code was read (R225). -/
def badRead (ls : List (List Line × List Line)) : Bool := ls.any (fun p => p.1.any Line.bad || p.2.any Line.bad)
/-- Whether a NaN scale was read. -/
def nanRead (ls : List (List Line × List Line)) : Bool :=
  ls.any (fun p => p.1.any (fun l => l.exp.isNone) || p.2.any (fun l => l.exp.isNone))

/-- SHADOW's cells of a sampled multiply tile. -/
def TileIn.shadow (x : TileIn) (ls : List (List Line × List Line)) (start : List Num) : List Num :=
  shadowSteps start (match x.src with
    | some (fa, fb, ss) => ss.map (fun s => (shadowOfSource fa s.a, shadowOfSource fb s.b))
    | none => ls.map (fun p => (shadowOfLines p.1, shadowOfLines p.2)))

def TileIn.lfsrA (x : TileIn) : W32 := lfsrStart (lfsrAccum x.seed x.t)
def TileIn.lfsrP (x : TileIn) : W32 := lfsrStart (x.lfsrA ^^^ 0xA5A5A5A5)

/-- A shadow cell in place of an INT32 cell: rounded at Eacc under RNE; a NaN leaves the cell's value open (log 20). -/
def shadowInt (eacc : Int) (free : BitVec 32) (x : Num) : Int × Bool :=
  match x with
  | .nan => (free.toInt, false)
  | .inf n => if n then (-0x80000000, true) else (0x7FFFFFFF, true)
  | .fin n m e =>
    let fr := fracOf m e eacc
    clamp32 (roundInt false 1 (if n then -(fr.1 : Int) else fr.1) fr.2).1

/-- A tile in MAC4-F. -/
def TileIn.macF (x : TileIn) : TileOut :=
  let ls := x.lines
  let start := (List.range 1024).map (fun i => match x.pre with
    | some (bs, _) => fp32.decode (ofBytes 32 ((bs.drop (4 * i)).take 4)).toNat
    | none => .zero)
  let (g, fl) := accSteps (accumF x.srA) x.lfsrA {} start ls
  let s := if x.sampled then x.shadow ls start else []
  let (dv, e, ms) := if x.sampled then compareMac x.tau g s else (false, 0, 0)
  let cs := if dv then s else g
  let (bytes, pf) := (match x.out with
    | some f => packTile f x.srP x.oexp x.lfsrP cs
    | none => (rawF cs, {}))
  { bytes := bytes, bmp := List.replicate 128 0, wit := List.replicate 2048 0xFF
    flags := flagsWord fl.sat pf.sat false (fl.nan || nanRead ls) pf.nonfin (badRead ls) pf.under x.sampled dv
    div := if dv then some (e, ms) else none }

/-- The value the spec leaves open for cell i, the same for the same descriptor, operands and seed (R201, log 20). -/
def TileIn.nanCell (x : TileIn) (i : Nat) : BitVec 32 :=
  let tiles (l : List TStepIn) : List Byte := l.flatMap (fun s => s.a ++ s.b ++ s.abm ++ s.bbm)
  Config.nanCell
    [x.mode, x.accF, if x.srA then 1 else 0, if x.srP then 1 else 0, x.eacc, x.oexp, (match x.out with | some f => f | none => -1),
     x.fmtA, x.fmtB, x.texpA, x.texpB, x.tau]
    (tiles x.steps ++ (match x.pre with | some (a, b) => a ++ b | none => []) ++
      (match x.src with | some (_, _, l) => tiles l | none => [])) x.seed x.t i

/-- A tile in MAC4-I, MAC2 or TERN. -/
def TileIn.macI (x : TileIn) : TileOut :=
  let ls := x.lines
  let start := (List.range 1024).map (fun i => match x.pre with
    | some (bs, _) => (ofBytes 32 ((bs.drop (4 * i)).take 4) : W32).toInt
    | none => 0)
  let (g, fl) := accSteps (accumI x.srA x.eacc) x.lfsrA {} start ls
  let toF (c : Int) : Num := asFp32 (.ofInt c x.eacc)
  let s := if x.sampled then x.shadow ls (start.map toF) else []
  let (dv, e, ms) := if x.sampled then compareMac x.tau (g.map toF) s else (false, 0, 0)
  let sc := if dv then (s.zipIdx).map (fun p => shadowInt x.eacc (x.nanCell p.2) p.1) else []
  let cs := if dv then sc.map (fun p => p.1) else g
  let (bytes, pf) := (match x.out with
    | some f => packTile f x.srP x.oexp x.lfsrP (cs.map (fun c => .ofInt c x.eacc))
    | none => (rawI cs, {}))
  { bytes := bytes, bmp := List.replicate 128 0, wit := List.replicate 2048 0xFF
    flags := flagsWord (fl.sat || sc.any (fun p => p.2)) pf.sat false fl.nan pf.nonfin (badRead ls) pf.under x.sampled dv
    div := if dv then some (e, ms) else none }

/-- A tile in a min-plus mode. -/
def TileIn.minPlus (x : TileIn) : TileOut :=
  let ts := x.steps.map (fun s => (costTile x.fmtA s.a s.abm, costTile x.fmtB s.b s.bbm))
  let start := (mpStart x.accF x.pre).map (fun c => (c, false))
  let gs := mpSteps (costMax x.accF) 0 start ts
  let g := gs.map (fun c => c.1.settle)
  let s := if x.sampled then (mpSteps (costMax 6) 0 start ts).map (fun c => c.1.v) else []
  let diff := ((g.zip s).filter (fun p => !p.1.unres && decide (p.1.v ≠ p.2))).length
  let dv := decide (0 < diff)
  let narrow (v : Option Nat) : Option Nat × Bool := costAdd (costMax x.accF) v (some 0)
  let cs := if dv then List.zipWith (fun c v => { c with v := (narrow v).1, unres := c.unres || (narrow v).2 }) g s else g
  let packed := cs.map (fun c => match x.out with
    | some f => packCost f c.v
    | none => (c.v, false))
  let un := List.zipWith (fun c p => c.unres || p.2) cs packed
  let f := x.out.getD x.accF
  { bytes := costBytes f (packed.map (fun p => costEnc f p.1))
    bmp := bitBytes un
    wit := cs.flatMap (fun c => toBytes 2 (if c.v = none then (0xFFFF : W16) else BitVec.ofNat 16 c.wit))
    flags := flagsWord (gs.any (fun c => c.2) || (dv && s.any (fun v => (narrow v).2))) false (un.any (fun b => b)) false false
      false false x.sampled dv
    div := if dv then some (BitVec.ofNat 32 diff, 0) else none }

/-- The output tile (R216–R229). -/
def TileIn.run (x : TileIn) : TileOut :=
  if x.mode = 0 then x.macF else if x.mode ≤ 3 then x.macI else x.minPlus

end Sys2Proof.Machine
end

