-- ==== Sys2Proof/Machine/StiMem.lean ====
section
/-! DEFINITION. What a stream reaches and how LOAD and STORE read and write it (R246, R415, R422): scratch, the depot, landing
windows (R366), and protected ranges under a captured key. -/

namespace Sys2Proof.Machine

def State.str (s : State) (e : Nat) : Stream := (s.eng e).str
def State.modStr (s : State) (e : Nat) (f : Stream → Stream) : State := s.modEng e (fun x => { x with str := f x.str })

/-- Decides a stream's end by a fault (R267): the first cause stands. STREAM_FAULT carries it out. -/
def State.faultStr (s : State) (e : Nat) (code : Byte) : State :=
  s.modStr e (fun x => if x.ending.isSome then x else { x with ending := some code })

/-- The engine runs a stream whose end is not decided. -/
def State.runs (s : State) (e : Nat) : Bool := decide ((s.eng e).st = 1) && (s.str e).ending.isNone

/-! ## Reach (R246, R422) -/

/-- 2 MiB, the unit of the allocation table. -/
def allocUnit : Nat := 0x200000

def Alloc.holds (x : Alloc) (u : Nat) : Bool := decide (x.base.toNat ≤ u) && decide (u < x.base.toNat + x.size.toNat)

/-- The allocation entries that hold a 2 MiB unit, not FREE. -/
def State.allocsAt (s : State) (u : Nat) : List Alloc :=
  (s.depot.allocs.filter (fun p => p.2.holds u && decide (p.2.st ≠ 0))).map (fun p => p.2)

/-- Whether a range meets a scrub in progress or waiting (R422). -/
def State.scrubbing (s : State) (a n : Nat) : Bool := s.depot.scrubs.any (fun x => decide (x.addr < a + n) && decide (a < x.addr + x.len))

/-- Whether a stream of a tenant reaches a depot range. -/
def State.reaches (s : State) (t : W16) (a n : Nat) : Bool :=
  s.inDepot a n && !s.scrubbing a n &&
  (List.range ((a + n + allocUnit - 1) / allocUnit - a / allocUnit)).all (fun i =>
    let l := s.allocsAt (a / allocUnit + i)
    if t = 0 then l.all (fun x => decide (x.st = 1) && decide (x.tenant = 0))
    else l.any (fun x => decide (x.st = 1) && decide (x.tenant = t)))

/-- Where an address leads. -/
inductive Place where
  | scratch (a : Nat)
  | depot (a : Nat)
  deriving DecidableEq, Repr

/-- R246: the place of an access, none when it faults with BOUNDS. -/
def State.place (s : State) (e : Nat) (a : W64) (n : Nat) : Option Place :=
  if a.getLsbD 63 then
    let o := (bitsAt a 0 22).toNat
    if bitsAt a 22 41 ≠ 0 ∨ 0x400000 < o + n then none else some (.scratch o)
  else if s.reaches (s.eng e).tenant a.toNat n then some (.depot a.toNat) else none

/-! ## Landing windows as LOAD sees them (R366) -/

/-- A span rounded up to a power of two, in bytes (R365). -/
def Landing.spacing (w : Landing) : Nat :=
  let m := w.span / 0x100000
  0x100000 * (if 2 ^ Nat.log2 m = m then m else 2 ^ (Nat.log2 m + 1))

/-- First virtual address of a window's input. -/
def Landing.base (w : Landing) : Nat := w.vbase + w.input * w.spacing

/-- Bytes landed. -/
def Landing.landed (w : Landing) : Nat := if w.last then w.span else min w.span (48 * w.n)

def Landing.poisoned (w : Landing) (line : Nat) : Bool :=
  w.bad.contains line || (match w.stopAt with | some o => decide (o < 64 * line + 64) | none => false)

/-- Every line has landed and been read (R366). -/
def Landing.spent (w : Landing) : Bool := decide (w.landed = w.span) && decide (w.span / 64 ≤ w.read.length)

/-- The lines of n bytes from offset x on. -/
def linesOf (x n : Nat) : List Nat := (List.range ((x + n + 63) / 64 - x / 64)).map (fun i => x / 64 + i)

/-- A window opens at its frame (R404, by serial arithmetic). -/
def State.isOpen (s : State) (w : Landing) : Bool := !older s.fab.frame w.openAt

/-- The open window a tenant's access falls in. -/
def State.window (s : State) (t : W16) (a n : Nat) : Option Landing :=
  s.fab.reb.windows.find? (fun w => s.isOpen w && decide (w.tenant = t) && decide (w.base ≤ a) && decide (a + n ≤ w.base + w.span))

/-- The outcome of a LOAD: bytes and what reading them changed, a landing hold, or a fault code (R264). -/
inductive Ld (α : Type) where
  | ok (v : α) (s : State)
  | hold
  | fault (c : Byte)

/-- Goes on with what a LOAD brought. -/
def Ld.bind {α β : Type} (x : Ld α) (f : α → State → Ld β) : Ld β :=
  match x with
  | .ok v s => f v s
  | .hold => .hold
  | .fault c => .fault c

/-- LOAD from a window: holds until the lines have landed, marks them read; the window closes when it is spent. -/
def State.loadWindow (s : State) (w : Landing) (a n : Nat) : Ld (List Byte) :=
  let x := a - w.base
  let ls := linesOf x n
  if ls.any w.poisoned then .fault 3
  else if ls.any (fun l => decide (w.landed < min w.span (64 * l + 64))) then .hold
  else
    let bs := (List.range n).map (fun i => Mem.read s.depot.mem (w.ring + (x + i) % w.size))
    let w' := { w with read := ls.foldl addNew w.read }
    let upd (l : List Landing) : List Landing :=
      if w'.spent then l.filter (fun v => decide (v ≠ w)) else l.map (fun v => if v = w then w' else v)
    .ok bs (s.setReb (fun r => { r with windows := upd r.windows }))

/-- An uncorrectable or poisoned line of the depot (R264). -/
def State.badLine (s : State) (a n : Nat) : Bool := s.depot.bad.any (fun l => decide (64 * l < a + n) && decide (a < 64 * l + 64))

/-- LOAD of n bytes without a key. -/
def State.loadPlain (s : State) (e : Nat) (a : W64) (n : Nat) : Ld (List Byte) :=
  match (if a.getLsbD 63 then none else s.window (s.eng e).tenant a.toNat n) with
  | some w => s.loadWindow w a.toNat n
  | none =>
    match s.place e a n with
    | none => .fault 9
    | some (.scratch o) => .ok (Mem.readN (s.eng e).scratch o n) s
    | some (.depot o) => if s.badLine o n then .fault 3 else .ok (s.depRead o n) s

/-! ## Protected data (R415) -/

/-- IV and additional data of a unit. -/
def unitIv (k : KeyVal) (u : Nat) : List Byte := toBytes 4 k.packId ++ toBytes 8 (BitVec.ofNat 64 u)
def unitAad (u : Nat) : List Byte := toBytes 8 (BitVec.ofNat 64 u)

/-- A unit decrypted, none when its tag fails. -/
def State.openUnit (s : State) (k : KeyVal) (u : Nat) : Option (List Byte) :=
  Config.gcmOpen k.key (unitIv k u) (unitAad u) (s.depRead (k.data + 4096 * u) 4096) (s.depRead (k.tag + 16 * u) 16)

/-- LOAD keeps the last two units it verified under a key index (R415). -/
def Stream.keepUnit (x : Stream) (i u : Nat) (bs : List Byte) : Stream :=
  let mine := keepLast 2 (x.units.filter (fun c => c.1 = i) ++ [(i, u, bs)])
  { x with units := x.units.filter (fun c => decide (c.1 ≠ i)) ++ mine }

/-- A unit under a key index: one that LOAD keeps, else fetched whole and its tag verified. -/
def State.loadUnit (s : State) (e i : Nat) (k : KeyVal) (u : Nat) : Ld (List Byte) :=
  match (s.str e).units.find? (fun c => decide (c.1 = i) && decide (c.2.1 = u)) with
  | some c => .ok c.2.2 s
  | none =>
    if s.badLine (k.data + 4096 * u) 4096 ∨ s.badLine (k.tag + 16 * u) 16 then .fault 3
    else match s.openUnit k u with
      | none => .fault 5
      | some bs => .ok bs (s.modStr e (fun x => x.keepUnit i u bs))

/-- Units in order. -/
def State.loadUnits (s : State) (e i : Nat) (k : KeyVal) (u : Nat) : Nat → Ld (List Byte)
  | 0 => .ok [] s
  | n + 1 => (s.loadUnit e i k u).bind (fun a s => (s.loadUnits e i k (u + 1) n).bind (fun b s => .ok (a ++ b) s))

/-- The captured key of an index 0–3; index 15 is none. -/
def Stream.key (x : Stream) (i : Nat) : Option CapKey := if i = 15 then none else SMap.get noneOf x.keys i

/-- Whether a range lies in a captured key's range. -/
def KeyVal.covers (k : KeyVal) (a : W64) (n : Nat) : Bool :=
  !a.getLsbD 63 && decide (k.data ≤ a.toNat) && decide (a.toNat + n ≤ k.data + k.len)

/-- LOAD of n bytes, under a key index or 15 (R233, R415). -/
def State.load (s : State) (e : Nat) (a : W64) (n key : Nat) : Ld (List Byte) :=
  if key = 15 then s.loadPlain e a n
  else match (s.str e).key key with
    | none => .fault 9
    | some c =>
      let k := c.val
      if ¬ k.covers a n ∨ s.place e a n = none then .fault 9
      else
        let u := (a.toNat - k.data) / 4096
        let m := (a.toNat - k.data + n + 4095) / 4096 - u
        (s.loadUnits e key k u m).bind (fun bs s => .ok ((bs.drop (a.toNat - k.data - 4096 * u)).take n) s)

/-! ## STORE -/

/-- Remembers a depot range the stream wrote (R265), joined to the last one where it goes on. -/
def noteRange (l : List (Nat × Nat)) (a n : Nat) : List (Nat × Nat) :=
  match l with
  | (b, m) :: r => if b + m = a then (b, m + n) :: r else (a, n) :: l
  | [] => [(a, n)]

/-- Writes depot bytes for a stream. -/
def State.storeDepot (s : State) (e a : Nat) (bs : List Byte) : State :=
  let good (l : Nat) : Bool := decide (a ≤ 64 * l) && decide (64 * l + 64 ≤ a + bs.length)
  let s := s.depWrite a bs
  let s := { s with depot := { s.depot with bad := s.depot.bad.filter (fun l => !good l) } }
  s.modStr e (fun x => { x with wrote := noteRange x.wrote a bs.length })

/-- Writes a gathered unit and its tag (R415); bytes not written are 0. -/
def State.sealUnit (s : State) (e : Nat) (k : KeyVal) (x : EncUnit) : State :=
  let pt := (List.range 4096).map (fun i => (SMap.get noneOf x.got i).getD 0)
  let (ct, tag) := Config.gcmSeal k.key (unitIv k x.u) (unitAad x.u) pt
  (s.storeDepot e (k.data + 4096 * x.u) (fitBytes 4096 ct)).storeDepot e (k.tag + 16 * x.u) (fitBytes 16 tag)

/-- Puts a unit's partial bytes back, or writes it when all 4,096 have come. -/
def State.gather (s : State) (e : Nat) (k : KeyVal) (x : EncUnit) : State :=
  let s := s.modStr e (fun y => { y with enc := y.enc.filter (fun z => !(decide (z.k = x.k) && decide (z.u = x.u))) })
  if x.got.length = 4096 then s.sealUnit e k x else s.modStr e (fun y => { y with enc := y.enc ++ [x] })

/-- An encrypted write, unit by unit. -/
def State.storeKeyed (s : State) (e : Nat) (key : Nat) (k : KeyVal) (off : Nat) (bs : List Byte) : State :=
  (List.range ((off + bs.length + 4095) / 4096 - off / 4096)).foldl (fun s i =>
    let u := off / 4096 + i
    let x := ((s.str e).enc.find? (fun z => decide (z.k = key) && decide (z.u = u))).getD { k := key, u := u }
    let part := (bs.zipIdx).filter (fun p => decide ((off + p.2) / 4096 = u))
    s.gather e k { x with got := part.foldl (fun m p => SMap.set noneOf m ((off + p.2) % 4096) (some p.1)) x.got }) s

/-- Writes bytes where an address leads. -/
def State.put (s : State) (e : Nat) (a : W64) (bs : List Byte) : State :=
  match s.place e a bs.length with
  | none => s.faultStr e 9
  | some (.scratch o) => s.modEng e (fun x => { x with scratch := Mem.writeL x.scratch o bs })
  | some (.depot o) => s.storeDepot e o bs

/-- STORE of bytes, under a key index or 15; a stream whose end is decided stores nothing. -/
def State.store (s : State) (e : Nat) (a : W64) (bs : List Byte) (key : Nat) : State :=
  if ¬ s.runs e ∨ bs = [] then s
  else if key = 15 then s.put e a bs
  else match (s.str e).key key with
    | none => s.faultStr e 9
    | some c =>
      if ¬ c.val.covers a bs.length ∨ s.place e a bs.length = none then s.faultStr e 9
      else s.storeKeyed e key c.val (a.toNat - c.val.data) bs

/-- At END, partly written units are written with zeros (R415). -/
def State.flushUnits (s : State) (e : Nat) : State :=
  ((s.str e).enc.foldl (fun s x => match (s.str e).key x.k with
    | some c => s.sealUnit e c.val x
    | none => s) s).modStr e (fun y => { y with enc := [] })

/-- LOAD of several ranges in order; all of them, or the first hold or fault. -/
def State.loadAll (s : State) (e : Nat) (key : Nat) : List (W64 × Nat) → Ld (List Byte)
  | [] => .ok [] s
  | (a, n) :: r => (s.load e a n key).bind (fun bs s => (s.loadAll e key r).bind (fun cs s => .ok (bs ++ cs) s))

end Sys2Proof.Machine
end

