-- ==== Sys2Proof/Machine/StiCheck.lean ====
section
/-! DEFINITION. Station tile instruction words (R247) and the launch checks (R249, R416). -/

namespace Sys2Proof.Machine

/-! ## Fields (R247) -/

def sOp (w : BitVec 128) : Nat := (bitsAt w 120 8).toNat
def sMod (w : BitVec 128) : Nat := (bitsAt w 112 8).toNat
def sX (w : BitVec 128) : Nat := (bitsAt w 108 4).toNat
def sY (w : BitVec 128) : Nat := (bitsAt w 104 4).toNat
def sZ (w : BitVec 128) : Nat := (bitsAt w 100 4).toNat
def sImm32 (w : BitVec 128) : W32 := bitsAt w 64 32
def sImm64 (w : BitVec 128) : W64 := bitsAt w 0 64
/-- Bits of imm32 as a number. -/
def sI (w : BitVec 128) (lo n : Nat) : Nat := (bitsAt (sImm32 w) lo n : BitVec n).toNat

/-! ## Legality of a word (R249, check 3) -/

/-- A key index, 0–3 or 15 for none (R252). -/
def keyOk (k : Nat) : Bool := decide (k ≤ 3) || decide (k = 15)

/-- Which of x, y, z and imm64 an instruction uses. -/
def sShape (op : Nat) : Option (Bool × Bool × Bool × Bool) :=
  match op with
  | 0x01 | 0x02 | 0x04 | 0x21 | 0x3E | 0x3F => some (false, false, false, false)
  | 0x03 => some (false, false, false, true)
  | 0x05 | 0x0A | 0x0B | 0x2A => some (false, true, false, true)
  | 0x08 | 0x09 | 0x12 | 0x13 => some (true, true, false, true)
  | 0x10 | 0x11 | 0x20 | 0x30 | 0x3A | 0x3B | 0x3C => some (true, true, false, false)
  | 0x28 | 0x29 | 0x2B | 0x31 | 0x3D => some (true, false, false, false)
  | 0x38 => some (true, false, false, true)
  | 0x39 => some (true, true, true, false)
  | _ => none

/-- The mod and imm32 fields hold values their instruction's table gives. -/
def sFields (isByte : Bool) (w : BitVec 128) : Bool :=
  let m := sMod w
  let i := sImm32 w
  match sOp w with
  | 0x01 => decide (m ≤ 1) && decide (i.toNat < 2048)
  | 0x02 => decide (m ≤ 6) && decide (sI w 0 4 ≤ 11) && decide (sI w 6 2 = 0) && decide (sI w 24 8 = 0)
  | 0x03 => decide (m = 0) && decide (1 ≤ sI w 0 16) && decide (sI w 0 16 ≤ 4096) && decide (1 ≤ sI w 16 16) &&
      decide (sI w 16 16 ≤ 4096) && decide (1 ≤ (sImm64 w).toNat) && decide ((sImm64 w).toNat ≤ 4096)
  | 0x04 => decide (m = 0) && decide (4 ≤ sI w 0 4) && decide (sI w 0 4 ≤ 10) && decide (sI w 4 5 ≤ 23) &&
      decide (i &&& ~~~0x11FF = 0)
  | 0x05 => decide (m = 0) && decide (1 ≤ i.toNat) && decide (i.toNat ≤ 65536)
  | 0x08 => decide (m = 0) && decide (sX w ≤ (if isByte then 7 else 4)) && decide (sI w 0 4 ≤ 11) &&
      (decide (sI w 4 8 = 0) || decide (sI w 0 4 = 2) || decide (sI w 0 4 = 3)) && keyOk (sI w 12 4) && decide (sI w 17 15 = 0)
  | 0x09 => decide (m = 0) && decide (sX w ≤ 4) && decide (i = 0)
  | 0x0A => decide (m = 0) && decide (sI w 0 4 ≤ 11) && decide (sI w 4 8 = 0) && keyOk (sI w 12 4) && decide (sI w 16 16 = 0) &&
      (!isByte || decide (sI w 0 4 = 11))
  | 0x0B => decide (m ≤ 2) && decide (i.toNat ≤ 1)
  | 0x10 => keyOk (m % 16) && keyOk (m / 16) && decide (1 ≤ i.toNat)
  | 0x11 => decide (m = 0)
  | 0x12 => decide (m = 0) && decide (sX w ≤ (if isByte then 7 else 4)) && decide (1 ≤ i.toNat) && decide (i.toNat ≤ 4096)
  | 0x13 => decide (m = 0) && decide (sX w ≤ (if isByte then 7 else 4)) && decide (sI w 0 4 = 0) && keyOk (sI w 12 4) &&
      decide (sI w 16 16 = 0)
  | 0x28 => decide (m = 0) && decide (1 ≤ i.toNat) && decide (i.toNat ≤ 8)
  | 0x29 => decide (m ≤ 1) && decide (1 ≤ i.toNat) && decide (i.toNat ≤ 4096)
  | 0x2A => (if isByte then decide (m ≤ 8) else decide (m = 8)) && decide (128 ≤ i.toNat) && decide (i.toNat ≤ 16777216) &&
      decide (i.toNat % 128 = 0)
  | 0x30 => decide (m ≤ 2) && decide (i = 0)
  | 0x31 | 0x3A | 0x3B => decide (m = 0)
  | 0x3C => decide (sX w ≤ 3) && (if m = 0 then decide (1 ≤ i.toNat) && decide (sY w = 0) else decide (m = 1) && decide (i = 0))
  | 0x3D => decide (m = 0) && decide (sX w ≤ 3) && decide (i = 0)
  | _ => decide (m = 0) && decide (i = 0)

/-- A legal word: no reserved opcode, no unused field set, no reserved value. -/
def sLegal (isByte : Bool) (w : BitVec 128) : Bool :=
  match sShape (sOp w) with
  | none => false
  | some (x, y, z, i) =>
    (x || decide (sX w = 0)) && (y || decide (sY w = 0)) && (z || decide (sZ w = 0)) && (i || decide (sImm64 w = 0)) &&
    decide ((bitsAt w 96 4 : BitVec 4) = 0) && sFields isByte w

/-! ## Routes (R203, R251) -/

def routeOk (isByte : Bool) (r : BitVec 11) : Bool :=
  if isByte then decide (r &&& 0x03E = 0) && r.getLsbD 0 && (r.getLsbD 6 || r.getLsbD 10)
  else decide (r &&& 0x41F = 0x41F) && decide (r &&& 0x380 = 0)

/-- Whether an instruction belongs to the kind of stream and uses only stations on its route (R249, check 5). -/
def belongs (isByte : Bool) (r : BitVec 11) (w : BitVec 128) : Bool :=
  match sOp w with
  | 0x02 | 0x03 | 0x04 | 0x05 | 0x09 | 0x0B | 0x20 | 0x21 => !isByte
  | 0x2B => isByte
  | 0x28 => isByte && r.getLsbD 7
  | 0x29 => isByte && (if sMod w = 0 then r.getLsbD 8 else r.getLsbD 9)
  | 0x2A => r.getLsbD 6
  | 0x10 | 0x0A => r.getLsbD 10
  | _ => true

/-! ## The scan (R249) -/

/-- The program from an index to its first END, none when no END lies within the store. -/
def Die.prog (d : Die) (i : Nat) : Nat → Option (List (BitVec 128))
  | 0 => none
  | n + 1 =>
    let w := SMap.get (fun _ => (0 : BitVec 128)) d.store i
    if sOp w = 0x3F then some [w] else (d.prog (i + 1) n).map (fun l => w :: l)

/-- An active loop of the scan: its counter, and the formats in effect at the LOOP. -/
structure LoopMark where
  l : Nat
  slots : SMap (Option (Nat × Bool))
  out : Option Nat
  deriving DecidableEq, Repr

/-- What the scan has seen: formats in effect, preamble, loops. -/
structure Chk where
  ok : Bool := true
  isByte : Bool := false
  route : BitVec 11 := 0
  /-- preamble opcodes seen -/
  pre : List Nat := []
  closed : Bool := false
  /-- active loops, innermost first -/
  loops : List LoopMark := []
  /-- slots: format, read with bitmap -/
  slots : SMap (Option (Nat × Bool)) := []
  out : Option Nat := none
  wit : Bool := false
  mode : Nat := 7
  accF : Nat := 15
  kt : Nat := 0
  source : Bool := false
  compute : Bool := false
  /-- key indices used to decrypt and to encrypt -/
  dec : List Nat := []
  enc : List Nat := []
  deriving DecidableEq, Repr

def Chk.fail (c : Chk) : Chk := { c with ok := false }
def Chk.must (c : Chk) (b : Bool) : Chk := if b then c else c.fail

/-- A key index in use; 15 is none. -/
def addKey (l : List Nat) (k : Nat) : List Nat := if k = 15 then l else addNew l k

/-- Check 7: a format given inside a loop agrees with the one in effect at the LOOP. -/
def Chk.sameSlot (c : Chk) (x f : Nat) : Bool :=
  c.loops.all (fun l => match SMap.get noneOf l.slots x with
    | some (g, _) => decide (g = f)
    | none => true)
def Chk.sameOut (c : Chk) (f : Nat) : Bool :=
  c.loops.all (fun l => match l.out with
    | some g => decide (g = f)
    | none => true)

/-- Check 8, at a TILE or RUN. -/
def Chk.tileOk (c : Chk) : Bool :=
  (match SMap.get noneOf c.slots 0, SMap.get noneOf c.slots 1 with
   | some (a, _), some (b, _) => gridOk c.mode a b c.accF
   | _, _ => false) &&
  (match c.out with
   | some f => packOk c.accF f && (c.route.getLsbD 5 || decide (f = c.accF))
   | none => true) &&
  c.slots.all (fun p => match p.2 with
    | some (f, b) => !b || isCost f
    | none => true) &&
  !(c.source && decide (4 ≤ c.mode)) && !(c.wit && decide (2047 < c.kt)) && decide (0 < c.kt)

/-- The preamble opcodes. -/
def isPre (op : Nat) : Bool := decide (1 ≤ op) && decide (op ≤ 5)

/-- One instruction of the scan, after STREAM. -/
def Chk.step (c : Chk) (w : BitVec 128) : Chk :=
  let op := sOp w
  let c := (c.must (sLegal c.isByte w)).must (belongs c.isByte c.route w)
  let c := if isPre op then { c.must (!c.closed && !c.pre.contains op) with pre := op :: c.pre } else c
  let c := if [0x10, 0x11, 0x20, 0x21, 0x2B, 0x30, 0x31, 0x3C].contains op then { c with closed := true } else c
  match op with
  | 0x02 => { c with mode := sMod w, accF := sI w 0 4 }
  | 0x03 => { c with kt := (sImm64 w).toNat }
  | 0x04 => { c with source := (sImm32 w).getLsbD 12 }
  | 0x08 =>
    let c := c.must (c.sameSlot (sX w) (sI w 0 4))
    { c with slots := SMap.set noneOf c.slots (sX w) (some (sI w 0 4, (sImm32 w).getLsbD 16)), dec := addKey c.dec (sI w 12 4) }
  | 0x0A => { c.must (c.sameOut (sI w 0 4)) with out := some (sI w 0 4), enc := addKey c.enc (sI w 12 4) }
  | 0x0B => if sMod w = 2 then { c with wit := (sImm32 w).getLsbD 0 } else c
  | 0x10 => { c with dec := addKey c.dec (sMod w % 16), enc := addKey c.enc (sMod w / 16) }
  | 0x13 => { c with dec := addKey c.dec (sI w 12 4) }
  | 0x20 | 0x21 => { c.must c.tileOk with compute := true }
  | 0x2B => { c with compute := true }
  | 0x3C =>
    { c.must (decide (c.loops.length < 4) && !c.loops.any (fun l => l.l = sX w)) with loops := ⟨sX w, c.slots, c.out⟩ :: c.loops }
  | 0x3D => match c.loops with
    | l :: r => { c.must (l.l = sX w) with loops := r }
    | [] => c.fail
  | _ => c

/-- The scan of a program (R249). -/
def checkProg (ws : List (BitVec 128)) : Chk :=
  match ws with
  | [] => Chk.fail {}
  | w :: r =>
    let b := decide (sMod w = 1)
    let c : Chk := { isByte := b, route := bitsAt (sImm32 w) 0 11, pre := [1] }
    let c := (c.must (decide (sOp w = 1) && sLegal b w)).must (routeOk b c.route)
    let c := r.foldl Chk.step c
    (c.must (c.loops = [] && c.compute)).must (b || (c.pre.contains 2 && c.pre.contains 3))

/-! ## The launch block (R243) -/

def lb (bs : List Byte) (o n : Nat) : Nat := leNat ((bs.drop o).take n)

/-- Whether a captured key index may be used (R249 check 10, R416). -/
def State.keyUsable (s : State) (bs : List Byte) (bit : Nat) (k : Nat) : Bool :=
  let n := lb bs (32 + k) 1
  let x := s.keySlot n
  decide (n ≤ 63) && decide (x.st = 1) && decide (x.tenant.toNat = lb bs 0 2) && x.use.getLsbD bit

/-- Check 10: the launch block itself. -/
def State.blockOk (s : State) (bs : List Byte) : Bool :=
  decide (lb bs 14 2 = 0) && decide (lb bs 36 12 = 0) && decide (lb bs 112 16 = 0) && decide (lb bs 2 2 ≤ 4095) &&
  decide (lb bs 16 8 % 128 = 0) && decide (lb bs 24 8 % 8 = 0) &&
  s.reaches (BitVec.ofNat 16 (lb bs 0 2)) (lb bs 16 8) 128 && s.reaches (BitVec.ofNat 16 (lb bs 0 2)) (lb bs 24 8) 8 &&
  (List.range 4).all (fun k => decide (lb bs (32 + k) 1 ≤ 63) || decide (lb bs (32 + k) 1 = 0xFF))

/-- The die's check of a stream before an engine is assigned (R249). -/
def State.launchOk (s : State) (d : Nat) (bs : List Byte) : Bool :=
  match (s.die d).prog (lb bs 2 2) (4096 - lb bs 2 2) with
  | none => false
  | some ws =>
    let c := checkProg ws
    c.ok && s.blockOk bs && c.dec.all (s.keyUsable bs 0) && c.enc.all (s.keyUsable bs 1)

end Sys2Proof.Machine
end

