-- ==== Sys2Proof/Machine/StiExec.lean ====
section
/-! DEFINITION. The station tile instructions (07 of the spec, R250–R261): one meaning per opcode, over the instruction at the
engine's PC in its die's program store. -/

namespace Sys2Proof.Machine

/-- The instruction an engine issues next. -/
def State.stiWord (s : State) (e : Nat) : BitVec 128 :=
  SMap.get (fun _ => (0 : BitVec 128)) (s.die (e / 8)).store (s.eng e).pc

/-- Scalar registers; s0 reads 0 and discards writes (R245). -/
def Stream.reg (x : Stream) (i : Nat) : W64 := if i = 0 then 0 else SMap.get z64 x.s i
def Stream.setReg (x : Stream) (i : Nat) (v : W64) : Stream := if i = 0 then x else { x with s := SMap.set z64 x.s i v }

/-- The address s[y] + imm64. -/
def Stream.addr (x : Stream) (w : BitVec 128) : W64 := x.reg (sY w) + sImm64 w

/-- Issues the instruction at the PC if it is the one the command names: the stream runs, its end is not decided, it does not
wait in TWAIT, its die is awake (R250). -/
def State.sti (s : State) (e : Nat) (op : Nat) (f : State → BitVec 128 → State) : State :=
  if s.runs e ∧ (s.str e).twait.isNone ∧ sOp (s.stiWord e) = op then f s (s.stiWord e) else s

/-- The next instruction. -/
def State.stiNext (s : State) (e : Nat) : State := s.modEng e (fun x => { x with pc := (x.pc + 1) % 4096 })

/-- Changes the stream and goes on. -/
def State.stiSet (s : State) (e : Nat) (f : Stream → Stream) : State := (s.modStr e f).stiNext e

/-- The configurations held with a new one (R250). -/
def Stream.confs (x : Stream) (c : Conf) : List Conf := (x.jobs.map Job.conf).foldl addNew [c]

/-- A configuration instruction: issue stalls while a fourth configuration would be needed (R250). -/
def State.stiConf (s : State) (e : Nat) (f : Conf → Conf) : State :=
  let c := f (s.str e).conf
  if 3 < ((s.str e).confs c).length then s else s.stiSet e (fun x => { x with conf := c })

/-- A compute instruction: one runs and two queue behind it; issue stalls while the queue is full (R250). -/
def State.stiJob (s : State) (e : Nat) (j : Job) : State :=
  if 3 ≤ (s.str e).jobs.length then s else s.stiSet e (fun x => { x with jobs := x.jobs ++ [j] })

/-! ## Declaration and safeguards (R251) -/

def State.tStream (s : State) (e : Nat) (w : BitVec 128) : State :=
  s.stiSet e (fun x => { x with pre := { x.pre with isByte := decide (sMod w = 1), route := bitsAt (sImm32 w) 0 11 } })

/-- STI_STREAM (R251). -/
def execStiStream (e : Fin 320) (s : State) : Result := .next (s.sti e 0x01 (fun s w => s.tStream e w))

def State.tMode (s : State) (e : Nat) (w : BitVec 128) : State :=
  let i := sImm32 w
  s.stiSet e (fun x => { x with pre := { x.pre with
    mode := sMod w, accF := sI w 0 4, srA := i.getLsbD 4, srP := i.getLsbD 5, eacc := bitsAt i 8 8, oexp := bitsAt i 16 8 } })

/-- STI_MODE (R251). -/
def execStiMode (e : Fin 320) (s : State) : Result := .next (s.sti e 0x02 (fun s w => s.tMode e w))

def State.tGeom (s : State) (e : Nat) (w : BitVec 128) : State :=
  s.stiSet e (fun x => { x with pre := { x.pre with mt := sI w 0 16, nt := sI w 16 16, kt := (bitsAt (sImm64 w) 0 16).toNat } })

/-- STI_GEOM (R251). -/
def execStiGeom (e : Fin 320) (s : State) : Result := .next (s.sti e 0x03 (fun s w => s.tGeom e w))

def State.tShcfg (s : State) (e : Nat) (w : BitVec 128) : State :=
  let t := sI w 4 5
  s.stiSet e (fun x => { x with pre := { x.pre with
    n := 2 ^ sI w 0 4, tau := if t = 0 then 4 else t, source := (sImm32 w).getLsbD 12 } })

/-- STI_SHCFG (R251): τ 0 means 4. -/
def execStiShcfg (e : Fin 320) (s : State) : Result := .next (s.sti e 0x04 (fun s w => s.tShcfg e w))

def State.tDivring (s : State) (e : Nat) (w : BitVec 128) : State :=
  s.stiSet e (fun x => { x with pre := { x.pre with divRing := some (x.addr w, (sImm32 w).toNat) } })

/-- STI_DIVRING (R251). -/
def execStiDivring (e : Fin 320) (s : State) : Result := .next (s.sti e 0x05 (fun s w => s.tDivring e w))

/-! ## Operands and outputs (R252) -/

/-- A slot's tensor exponent as a byte. -/
def sExp (w : BitVec 128) : Byte := bitsAt (sImm32 w) 4 8

def State.tOpnd (s : State) (e : Nat) (w : BitVec 128) : State :=
  let x := s.str e
  let old : W64 := match SMap.get noneOf x.conf.slots (sX w) with | some o => o.bmp | none => SMap.get z64 x.conf.early (sX w)
  let sl : OpSlot := { fmt := sI w 0 4, addr := x.addr w, exp := sExp w, key := sI w 12 4, withBmp := (sImm32 w).getLsbD 16, bmp := old }
  s.stiConf e (fun c => { c with slots := SMap.set noneOf c.slots (sX w) (some sl) })

/-- STI_OPND (R252). -/
def execStiOpnd (e : Fin 320) (s : State) : Result := .next (s.sti e 0x08 (fun s w => s.tOpnd e w))

def State.tObmp (s : State) (e : Nat) (w : BitVec 128) : State :=
  let a := (s.str e).addr w
  s.stiConf e (fun c => match SMap.get noneOf c.slots (sX w) with
    | some o => { c with slots := SMap.set noneOf c.slots (sX w) (some { o with bmp := a }) }
    | none => { c with early := SMap.set z64 c.early (sX w) a })

/-- STI_OBMP (R252). -/
def execStiObmp (e : Fin 320) (s : State) : Result := .next (s.sti e 0x09 (fun s w => s.tObmp e w))

def State.tOutd (s : State) (e : Nat) (w : BitVec 128) : State :=
  let a := (s.str e).addr w
  s.stiConf e (fun c => { c with out := some (a, sI w 0 4, sI w 12 4) })

/-- STI_OUTD (R252). -/
def execStiOutd (e : Fin 320) (s : State) : Result := .next (s.sti e 0x0A (fun s w => s.tOutd e w))

def State.tOaux (s : State) (e : Nat) (w : BitVec 128) : State :=
  let a : Option W64 := if (sImm32 w).getLsbD 0 then some ((s.str e).addr w) else none
  s.stiConf e (fun c => match sMod w with
    | 0 => { c with flagsAt := a }
    | 1 => { c with bmpAt := a }
    | _ => { c with witAt := a })

/-- STI_OAUX (R252). -/
def execStiOaux (e : Fin 320) (s : State) : Result := .next (s.sti e 0x0B (fun s w => s.tOaux e w))

/-! ## Data movement (R254) -/

/-- Copies lines of 64 bytes in order from line `k` on; a landing hold stops it where it stands, a fault ends the stream. -/
def State.moveLines (s : State) (e : Nat) (src dst : W64) (dk ek : Nat) (k : Nat) : Nat → State
  | 0 => s
  | n + 1 =>
    let o := BitVec.ofNat 64 (64 * k)
    match s.load e (src + o) 64 dk with
    | .fault c => s.faultStr e c
    | .hold => s
    | .ok bs s =>
      let s := s.store e (dst + o) bs ek
      if s.runs e then (s.modStr e (fun x => { x with moved := k + 1 })).moveLines e src dst dk ek (k + 1) n else s

/-- MOVE retires when its last line is written; it waits for the computes before it, which share LOAD and STORE (log 21). -/
def State.tMove (s : State) (e : Nat) (w : BitVec 128) : State :=
  let x := s.str e
  let n := (sImm32 w).toNat
  if x.jobs ≠ [] then s
  else
    let s := s.moveLines e (x.reg (sX w)) (x.reg (sY w)) (sMod w % 16) (sMod w / 16) x.moved (n - x.moved)
    if s.runs e ∧ (s.str e).moved = n then s.stiSet e (fun x => { x with moved := 0 }) else s

/-- STI_MOVE (R254). -/
def execStiMove (e : Fin 320) (s : State) : Result := .next (s.sti e 0x10 (fun s w => s.tMove e w))

def State.tLds (s : State) (e : Nat) (w : BitVec 128) : State :=
  let a := (s.str e).reg (sY w) + (sImm32 w).signExtend 64
  if bitsAt a 0 3 ≠ (0 : BitVec 3) then s.faultStr e 9
  else match s.place e a 8 with
    | some (.scratch o) => s.stiSet e (fun x => x.setReg (sX w) (Mem.readLE (s.eng e).scratch o 8 64))
    | _ => s.faultStr e 9

/-- STI_LDS (R254): an address that is not an aligned scratch address faults with BOUNDS. -/
def execStiLds (e : Fin 320) (s : State) : Result := .next (s.sti e 0x11 (fun s w => s.tLds e w))

/-- Bytes of the prefetch buffer (R254). -/
def prefetchSize : Nat := 0x10000

def State.tPrefetch (s : State) (e : Nat) (w : BitVec 128) : State :=
  let x := s.str e
  let b := tileBytes (match SMap.get noneOf x.conf.slots (sX w) with | some o => o.fmt | none => 11)
  let n := b * min (sImm32 w).toNat (prefetchSize / b)
  let a := x.addr w
  match s.load e a n 15 with
  | .ok bs s => s.stiSet e (fun x => { x with prefetch := some (sX w, a, bs) })
  | .hold => s.stiNext e
  | .fault c => s.faultStr e c

/-- STI_PREFETCH (R254): whole tiles, in the order the slot uses them, as many as the buffer holds. -/
def execStiPrefetch (e : Fin 320) (s : State) : Result := .next (s.sti e 0x12 (fun s w => s.tPrefetch e w))

/-- MODEL keeps the format and the bitmap setting; prefetched tiles of the same slot and address are used, others dropped. -/
def State.tModel (s : State) (e : Nat) (w : BitVec 128) : State :=
  let x := s.str e
  let a := x.addr w
  let pre : List Byte := match x.prefetch with
    | some (sl, pa, bs) => if sl = sX w ∧ pa = a then bs else []
    | none => []
  match SMap.get noneOf x.conf.slots (sX w) with
  | none => s.stiSet e (fun x => { x with prefetch := none })
  | some o =>
    let o := { o with addr := a, exp := sExp w, key := sI w 12 4, pre := pre }
    let c := { x.conf with slots := SMap.set noneOf x.conf.slots (sX w) (some o) }
    if 3 < (x.confs c).length then s else s.stiSet e (fun x => { x with conf := c, prefetch := none })

/-- STI_MODEL (R254). -/
def execStiModel (e : Fin 320) (s : State) : Result := .next (s.sti e 0x13 (fun s w => s.tModel e w))

/-! ## Compute (R256) -/

def State.tTile (s : State) (e : Nat) (w : BitVec 128) : State :=
  let x := s.str e
  let i := (x.reg (sX w)).toNat
  let j := (x.reg (sY w)).toNat
  if 3 ≤ x.jobs.length then s
  else if x.pre.mt ≤ i ∨ x.pre.nt ≤ j then s.faultStr e 0x0A
  else s.stiJob e { conf := x.conf, work := .tiles i j false }

/-- STI_TILE (R256): coordinates outside Mt or Nt fault with ILLEGAL. -/
def execStiTile (e : Fin 320) (s : State) : Result := .next (s.sti e 0x20 (fun s w => s.tTile e w))

/-- STI_RUN (R256). -/
def execStiRun (e : Fin 320) (s : State) : Result :=
  .next (s.sti e 0x21 (fun s _ => s.stiJob e { conf := (s.str e).conf, work := .tiles 0 0 true }))

/-- A LAYOUT range list (R257), none when an entry is not a multiple of 64 bytes, not 64-byte aligned, or sets a reserved byte. -/
def parseRanges (bs : List Byte) : Nat → Option (List (W64 × Nat))
  | 0 => some []
  | n + 1 =>
    let a : W64 := ofBytes 64 (bs.take 8)
    let l := leNat ((bs.drop 8).take 4)
    if l % 64 ≠ 0 ∨ leNat ((bs.drop 12).take 4) ≠ 0 ∨ bitsAt a 0 6 ≠ (0 : BitVec 6) then none
    else (parseRanges (bs.drop 16) n).map (fun r => (a, l) :: r)

/-- Reads a LAYOUT list from scratch: a fault code, or its ranges. -/
def State.readRanges (s : State) (e : Nat) (l : Option (W64 × Nat)) : Except Byte (List (W64 × Nat)) :=
  match l with
  | none => .ok []
  | some (a, n) =>
    match s.place e a (16 * n) with
    | some (.scratch o) => (match parseRanges (Mem.readN (s.eng e).scratch o (16 * n)) n with
      | some r => .ok r
      | none => .error 0x0A)
    | _ => .error 9

/-- Bytes a range list holds. -/
def rangeSum (r : List (W64 × Nat)) : Nat := (r.map (fun p => p.2)).sum

/-- Every slot address and the output address advance (R256). -/
def Conf.advance (c : Conf) (n : W64) : Conf :=
  let move (o : OpSlot) : OpSlot := { o with addr := o.addr + n, pre := [] }
  { c with slots := c.slots.map (fun p => (p.1, p.2.map move)), out := c.out.map (fun o => (o.1 + n, o.2)) }

/-- BYTES: its run-time checks (R258) come before the first tile. -/
def State.tBytes (s : State) (e : Nat) (w : BitVec 128) : State :=
  let x := s.str e
  let r := x.pre.route
  let v := x.reg (sX w)
  let n := v.toNat
  let msg := match x.conf.hash with | some h => h.2.2 | none => 0
  if 3 ≤ x.jobs.length then s
  else if n % 64 ≠ 0 ∨ r.getLsbD 6 ∧ (msg = 0 ∨ n % (4 * msg) ≠ 0) then s.faultStr e 0x0A
  else match s.readRanges e (if r.getLsbD 8 then x.conf.layIn else none), s.readRanges e (if r.getLsbD 9 then x.conf.layOut else none) with
    | .error c, _ => s.faultStr e c
    | _, .error c => s.faultStr e c
    | .ok ri, .ok ro =>
      if (r.getLsbD 8 && decide (rangeSum ri < n)) || (r.getLsbD 9 && decide (rangeSum ro < n)) then s.faultStr e 0x0A
      else
        let ri := if r.getLsbD 8 then some ri else none
        let ro := if r.getLsbD 9 then some ro else none
        let job : Job := { conf := x.conf, work := .bytes n 0 ri ro (List.replicate 4 ([], 0)) x.hmsg }
        let s := if n = 0 then s else s.modStr e (fun x => { x with jobs := x.jobs ++ [job] })
        s.stiSet e (fun x => { x with conf := x.conf.advance v, hmsg := x.hmsg + (if msg = 0 then 0 else n / msg) })

/-- STI_BYTES (R258). -/
def execStiBytes (e : Fin 320) (s : State) : Result := .next (s.sti e 0x2B (fun s w => s.tBytes e w))

/-! ## Byte stations (R257) -/

/-- STI_GFCOEF (R257). -/
def execStiGfcoef (e : Fin 320) (s : State) : Result :=
  .next (s.sti e 0x28 (fun s w =>
    let v := (s.str e).reg (sX w)
    s.stiConf e (fun c => { c with gf := some (v, (sImm32 w).toNat) })))

/-- STI_LAYOUT (R257). -/
def execStiLayout (e : Fin 320) (s : State) : Result :=
  .next (s.sti e 0x29 (fun s w =>
    let l := some ((s.str e).reg (sX w), (sImm32 w).toNat)
    s.stiConf e (fun c => if sMod w = 0 then { c with layIn := l } else { c with layOut := l })))

/-- HASHCFG starts the message numbering again; in a matrix stream it issues when the computes before it are done, whose
messages keep their numbers (log 21). -/
def State.tHashcfg (s : State) (e : Nat) (w : BitVec 128) : State :=
  let x := s.str e
  let c := { x.conf with hash := some (sMod w, x.addr w, (sImm32 w).toNat) }
  if 3 < (x.confs c).length ∨ (¬ x.pre.isByte ∧ x.jobs ≠ []) then s
  else s.stiSet e (fun x => { x with conf := c, hmsg := 0, hbuf := [] })

/-- STI_HASHCFG (R257). -/
def execStiHashcfg (e : Fin 320) (s : State) : Result := .next (s.sti e 0x2A (fun s w => s.tHashcfg e w))

/-! ## Tallies (R259, R260, R378) -/

/-- Whether a stream of a tenant may reach a tally (R378). -/
def State.streamTally (s : State) (tn : W16) (t : Nat) : Bool :=
  if tn = 0 then tallyStrict t || decide (s.tallyPart t = 0)
  else !tallyStrict t && (s.tally t).en && decide ((s.lpart (s.tallyPart t)).tenant = tn)

/-- A refused tally operation: counted against the tally's partition, and the stream faults. -/
def State.denyStream (s : State) (e t : Nat) : State := (s.deny (some (s.tallyPart t))).faultStr e 8

/-- TWAIT: it waits until the comparison holds. -/
def State.tTwait (s : State) (e : Nat) (w : BitVec 128) : State :=
  let x := s.str e
  let t : W16 := bitsAt (x.reg (sX w)) 0 16
  let v := x.reg (sY w)
  if ¬ s.streamTally (s.eng e).tenant t.toNat then s.denyStream e t.toNat
  else
    let s := s.dirty (s.tallyPart t.toNat)
    if cmpHolds (sMod w) (s.tally t.toNat).count.toNat v.toNat then s.stiNext e
    else s.modStr e (fun x => { x with twait := some (t, sMod w, v, s.us) })

/-- STI_TWAIT (R259). -/
def execStiTwait (e : Fin 320) (s : State) : Result := .next (s.sti e 0x30 (fun s w => s.tTwait e w))

/-- A stream's TSIG applied; a refusal or a strict fault ends the stream, if it still runs. -/
def State.applySig (s : State) (e : Nat) (handle t : W16) (v : W32) : State :=
  let live := s.runs e && decide ((s.eng e).handle = handle)
  let n := t.toNat
  if ¬ s.streamTally (s.eng e).tenant n then (if live then s.denyStream e n else s.deny (some (s.tallyPart n)))
  else match s.tallyAdd n v.toInt true with
    | none => let s := s.tallyFault n v.toInt; if live then s.faultStr e 8 else s
    | some s => s.wakeTally n

/-- TSIG: after every earlier write of the stream is complete in the depot, a unit an encrypted write still gathers among them
(R260, R415; log 108); during a takeover gap it queues in the ledger. -/
def State.tTsig (s : State) (e : Nat) (w : BitVec 128) : State :=
  let x := s.str e
  let t : W16 := bitsAt (x.reg (sX w)) 0 16
  let h := (s.eng e).handle
  if x.jobs ≠ [] ∨ x.enc ≠ [] then s
  else if s.dealers.takeover ≠ .none then
    { s.stiNext e with led := { s.led with gap := s.led.gap ++ [.sig e h t (sImm32 w)] } }
  else
    let s := s.applySig e h t (sImm32 w)
    if s.runs e then s.stiNext e else s

/-- STI_TSIG (R259, R260). -/
def execStiTsig (e : Fin 320) (s : State) : Result := .next (s.sti e 0x31 (fun s w => s.tTsig e w))

/-- The queued operations of a takeover gap are applied in order of arrival (R187, R384). -/
def State.applyGap (s : State) : State :=
  s.led.gap.foldl (fun s o => match o with
    | .flit f => s.apply8 f
    | .sig e h t v => s.applySig e h t v) { s with led := { s.led with gap := [] } }

/-! ## Scalar and loop (R261) -/

/-- STI_SETI (R261). -/
def execStiSeti (e : Fin 320) (s : State) : Result :=
  .next (s.sti e 0x38 (fun s w => s.stiSet e (fun x => x.setReg (sX w) (sImm64 w))))

/-- STI_ADD (R261). -/
def execStiAdd (e : Fin 320) (s : State) : Result :=
  .next (s.sti e 0x39 (fun s w => s.stiSet e (fun x => x.setReg (sX w) (x.reg (sY w) + x.reg (sZ w)))))

/-- STI_ADDI (R261). -/
def execStiAddi (e : Fin 320) (s : State) : Result :=
  .next (s.sti e 0x3A (fun s w => s.stiSet e (fun x => x.setReg (sX w) (x.reg (sY w) + (sImm32 w).signExtend 64))))

/-- STI_MULI (R261). -/
def execStiMuli (e : Fin 320) (s : State) : Result :=
  .next (s.sti e 0x3B (fun s w => s.stiSet e (fun x => x.setReg (sX w) (x.reg (sY w) * (sImm32 w).setWidth 64))))

/-- The index after the ENDL of a counter, looked for from an index on. -/
def Die.afterEndl (d : Die) (l : Nat) (i : Nat) : Nat → Nat
  | 0 => i
  | n + 1 =>
    let w := SMap.get (fun _ => (0 : BitVec 128)) d.store i
    if sOp w = 0x3D ∧ sX w = l then (i + 1) % 4096 else d.afterEndl l ((i + 1) % 4096) n

/-- LOOP: a count of 0 continues after the matching ENDL. -/
def State.tLoop (s : State) (e : Nat) (w : BitVec 128) : State :=
  let x := s.str e
  let n : W32 := if sMod w = 0 then sImm32 w else bitsAt (x.reg (sY w)) 0 32
  let pc := (s.eng e).pc
  if n = 0 then s.modEng e (fun y => { y with pc := (s.die (e / 8)).afterEndl (sX w) ((pc + 1) % 4096) 4096 })
  else s.stiSet e (fun x => { x with loops := SMap.set noneOf x.loops (sX w) (some (n, (pc + 1) % 4096)) })

/-- STI_LOOP (R261). -/
def execStiLoop (e : Fin 320) (s : State) : Result := .next (s.sti e 0x3C (fun s w => s.tLoop e w))

/-- ENDL: decrements; while the counter is not 0, issue continues after the matching LOOP. -/
def State.tEndl (s : State) (e : Nat) (w : BitVec 128) : State :=
  match SMap.get noneOf (s.str e).loops (sX w) with
  | none => s.stiNext e
  | some (n, i) =>
    if n = 1 then s.stiSet e (fun x => { x with loops := SMap.set noneOf x.loops (sX w) none })
    else s.modEng e (fun y => { y with pc := i, str := { y.str with loops := SMap.set noneOf y.str.loops (sX w) (some (n - 1, i)) } })

/-- STI_ENDL (R261). -/
def execStiEndl (e : Fin 320) (s : State) : Result := .next (s.sti e 0x3D (fun s w => s.tEndl e w))

/-- STI_NOP (R261). -/
def execStiNop (e : Fin 320) (s : State) : Result := .next (s.sti e 0x3E (fun s _ => s.stiNext e))

end Sys2Proof.Machine
end

