-- ==== Sys2Proof/Machine/SecKeys.lean ====
section
/-! DEFINITION. Key slots (R406, R413–R418): what holds a key, the unwrapping of a blob, KEYLOAD and the end of an erase. -/

namespace Sys2Proof.Machine

/-- Writes a key slot; the serving Assayer copies it to the mirror (R406). -/
def State.setSlot (s : State) (n : Nat) (x : KeySlot) : State :=
  let put (t : Store) : Store := { t with slots := SMap.set keyDflt t.slots n x }
  { s with asy := { s.asy with store := put s.asy.store, mirror := if s.asy.mirrorOk then put s.asy.mirror else s.asy.mirror } }

/-- What a stream captures of a slot (R416). -/
def KeySlot.capture (x : KeySlot) : KeyVal :=
  { key := x.key, data := x.data, tag := x.tag, len := 4096 * x.units.toNat, packId := x.packId, kgen := x.kgen, use := x.use,
    tenant := x.tenant }

/-- The KGENs that running streams hold of a slot, one for each engine that captured it. -/
def State.holders (s : State) (n : Nat) : List (Nat × W16) :=
  s.stat.eng.flatMap (fun p =>
    if p.2.st = 1 then
      ((p.2.str.keys.filterMap (fun k => match k.2 with
        | some c => if c.slot = n then some (p.1, c.val.kgen) else none
        | none => none)).take 1)
    else [])

/-- HOLD_CUR and HOLD_OLD (R413); both saturate at 255. -/
def State.holdCur (s : State) (n : Nat) : Nat := min 255 ((s.holders n).filter (fun h => h.2 = (s.keySlot n).kgen)).length
def State.holdOld (s : State) (n : Nat) : Nat := min 255 ((s.holders n).filter (fun h => h.2 ≠ (s.keySlot n).kgen)).length

/-! ## Blobs (R414) -/

/-- ASCII bytes. -/
def ascii (x : String) : List Byte := x.toList.map (fun c => BitVec.ofNat 8 c.toNat)

/-- The release key a blob names, usable. -/
def State.relKey (s : State) (id : Nat) : Option ReleaseKey :=
  s.asy.store.release.find? (fun k => decide (k.id.toNat = id) && k.usable)

/-- The key-encryption key of a blob's wrap, none when its release key or set is not the one held. `b` is the 208-byte block. -/
def State.kek (s : State) (b : List Byte) : Option (BitVec 256) :=
  let id := (b.drop 28).take 4
  match lb b 20 1 with
  | 1 => (s.relKey (lb b 28 4)).map (fun k =>
      Config.hkdf (toBytes 48 (Config.ecdh k.priv (ofBytes 768 ((b.drop 64).take 96)))) id (ascii "UFM release"))
  | 2 =>
    if s.vbat.setValid ∧ lb b 28 4 = s.vbat.setId.toNat ∧ lb b 64 96 = 0 then
      some (Config.hkdf (toBytes 32 s.vbat.setKey) id (ascii "UFM pack" ++ (b.drop 24).take 4))
    else none
  | _ => none

/-- Reserved fields, ranges and alignments of a KEYLOAD block. -/
def State.blobShape (s : State) (b : List Byte) : Bool :=
  let data := lb b 0 8
  let tag := lb b 8 8
  let len := lb b 32 8
  decide (lb b 16 4 = 1) && decide (lb b 21 1 < 4) && decide (lb b 40 8 = 0) && decide (lb b 60 4 = 0) &&
  decide (data % 4096 = 0) && decide (tag % 16 = 0) && decide (len % 4096 = 0) && decide (4096 ≤ len) &&
  decide (len ≤ 0x400000000) && s.inDepot data len && s.inDepot tag (16 * (len / 4096)) && !s.vbat.held

/-- The unwrapped key, none when the blob is rejected (KEY_INVALID). -/
def State.unwrap (s : State) (b : List Byte) : Option (BitVec 256) :=
  if s.blobShape b then
    match s.kek b with
    | none => none
    | some k => (Config.gcmOpen k ((b.drop 48).take 12) ((b.drop 16).take 144) ((b.drop 160).take 32) ((b.drop 192).take 16)).map
        (fun x => ofBytes 256 x)
  else none

/-- Loads a slot: the release key is used up, KGEN advances, register 9 is extended (R409, R414, R417). -/
def State.loadSlot (s : State) (n : Nat) (b : List Byte) (k : BitVec 256) : State :=
  let x := s.keySlot n
  let y : KeySlot :=
    { st := 1, use := bitsAt (b.getD 21 0) 0 2, wrap := bitsAt (b.getD 20 0) 0 2, tenant := ofBytes 16 ((b.drop 22).take 2),
      kgen := x.kgen + 1, packId := ofBytes 32 ((b.drop 24).take 4), units := BitVec.ofNat 23 (lb b 32 8 / 4096), key := k,
      data := lb b 0 8, tag := lb b 8 8 }
  let use1 (t : Store) : Store :=
    if lb b 20 1 = 1 then { t with release := t.release.map (fun r => if r.id.toNat = lb b 28 4 then { r with usable := false } else r) } else t
  let s := { s with asy := { s.asy with store := use1 s.asy.store, mirror := use1 s.asy.mirror } }
  (s.setSlot n y).extend 9 (b.drop 16)

/-- KEYLOAD in a waiting context: it waits while the slot is being erased or a previous key is held (R417, R418). -/
def State.tryKeyload (s : State) (c : Nat) (r : Running) : State :=
  let n := r.ra.toNat
  let b := r.data.flatMap (fun w => toBytes 8 w)
  if (s.keySlot n).st = 2 ∨ s.holdOld n ≠ 0 then s
  else match s.unwrap b with
    | none => s.abort c 0x71 0x1E
    | some k => (s.loadSlot n b k).succeed c 0x71 0 0

/-- KEYLOAD at issue (R158): its block is read; a block outside the data store halts the context (R138). -/
def State.issueKeyload (s : State) (c : Nat) (w : W64) : State :=
  let r := Running.ofWord (s.ctx c) w
  s.inStore c r.rb.toNat 208 (fun s =>
    let s := s.waitJ c r
    if 64 ≤ r.ra.toNat then s.abort c 0x71 0x1A
    else
      let d := (List.range 26).map (fun i => BitVec.ofNat 64 (s.dsLE (r.rb.toNat + 8 * i) 8))
      let r := { r with data := d }
      (s.putRun c r).tryKeyload c r)

/-- KEYLOAD (R158). -/
def execUciKeyload (c : Fin 16) (s : State) : Result := .next (s.uci c 0x71 (fun s w => s.issueKeyload c w))

/-! ## Erase (R417) -/

/-- Starts the erase of a slot: every stream that holds a key of it ends with KEY_ERASED. -/
def State.startErase (s : State) (n : Nat) : State :=
  if (s.keySlot n).st = 0 then s
  else (s.holders n).foldl (fun s h => s.faultStr h.1 6) (s.setSlot n { s.keySlot n with st := 2 })

/-- A stream captured a key of a slot. -/
def Stream.captured (x : Stream) (n : Nat) : Bool :=
  x.keys.any (fun k => match k.2 with
    | some c => decide (c.slot = n)
    | none => false)

/-- Whether a stream that captured a key of the slot still has to finish for an erase: it runs, or its engine scrubs itself before
its record. -/
def State.eraseBusy (s : State) (n : Nat) : Bool := decide (s.holders n ≠ []) ||
  s.stat.eng.any (fun p => match p.2.after with
    | .record _ _ _ => decide (p.2.st = 2) && p.2.str.captured n
    | _ => false)

/-- An erase whose streams are done empties its slot, and ends the KEYERASE and starts the KEYLOADs that wait on it. -/
def State.eraseStep (s : State) (n : Nat) : State :=
  if (s.keySlot n).st = 2 ∧ ¬ s.eraseBusy n then
    let s := s.setSlot n { kgen := (s.keySlot n).kgen }
    let s := (List.range 16).foldl (fun s c => match (s.ctx c).long with
      | some r => if uOp r.word = 0x72 ∧ r.ra.toNat = n then s.succeed c 0x72 0 0 else s
      | none => s) s
    s
  else s

/-- Everything keys wait on: erases, then KEYLOADs. -/
def State.keyWake (s : State) : State :=
  let s := (List.range 64).foldl State.eraseStep s
  (List.range 16).foldl (fun s c => match (s.ctx c).long with
    | some r => if uOp r.word = 0x71 then s.tryKeyload c r else s
    | none => s) s

/-- KEYERASE at issue (R158). -/
def State.issueKeyerase (s : State) (c : Nat) (w : W64) : State :=
  let r := Running.ofWord (s.ctx c) w
  let s := s.waitJ c r
  if 64 ≤ r.ra.toNat then s.abort c 0x72 0x1A
  else if (s.keySlot r.ra.toNat).st = 0 then s.succeed c 0x72 0 0
  else (s.startErase r.ra.toNat).keyWake

/-- KEYERASE (R158). -/
def execUciKeyerase (c : Fin 16) (s : State) : Result := .next (s.uci c 0x72 (fun s w => s.issueKeyerase c w))

end Sys2Proof.Machine
end

