-- ==== Sys2Proof/Machine/StiRun.lean ====
section
/-! DEFINITION. What an engine does with a queued compute: the next output tile of a matrix stream, the next byte tile of a byte
stream (R204, R216–R230, R232–R235, R253, R258). -/

namespace Sys2Proof.Machine

/-! ## LOAD for a matrix tile (R253, R254) -/

/-- Tile number `idx` of a slot; prefetched bytes are used. -/
def State.loadTile (s : State) (e : Nat) (o : OpSlot) (idx : Nat) : Ld (List Byte) :=
  let b := tileBytes o.fmt
  if o.key = 15 ∧ b * (idx + 1) ≤ o.pre.length then .ok ((o.pre.drop (b * idx)).take b) s
  else s.load e (o.addr + BitVec.ofNat 64 (b * idx)) b o.key

/-- A slot's bitmap of tile `idx`, empty when the slot is read without. -/
def State.loadBmp (s : State) (e : Nat) (o : OpSlot) (idx : Nat) : Ld (List Byte) :=
  if o.withBmp then s.load e (o.bmp + BitVec.ofNat 64 (128 * idx)) 128 15 else .ok [] s

/-- The operands of the steps k … of output tile (i, j). -/
def State.loadSteps (s : State) (e : Nat) (a b : OpSlot) (i j kt : Nat) (k : Nat) : Nat → Ld (List TStepIn)
  | 0 => .ok [] s
  | n + 1 =>
    (s.loadTile e a (i * kt + k)).bind (fun ta s => (s.loadBmp e a (i * kt + k)).bind (fun ba s =>
      (s.loadTile e b (j * kt + k)).bind (fun tb s => (s.loadBmp e b (j * kt + k)).bind (fun bb s =>
        (s.loadSteps e a b i j kt (k + 1) n).bind (fun r s => .ok ({ a := ta, b := tb, abm := ba, bbm := bb } :: r) s)))))

/-- The preload tile, when slot 2 names one in the accumulator's own format (R220). -/
def State.loadPre (s : State) (e : Nat) (o : Option OpSlot) (accF idx : Nat) : Ld (Option (List Byte × List Byte)) :=
  match o with
  | none => .ok none s
  | some o =>
    if o.fmt = accF then
      (s.loadTile e o idx).bind (fun t s => (s.loadBmp e o idx).bind (fun b s => .ok (some (t, b)) s))
    else .ok none s

/-- The SOURCE copies of a sampled tile (R227), when both slots name a BF16 or FP16 copy (log 20). -/
def State.loadSource (s : State) (e : Nat) (on : Bool) (a b : Option OpSlot) (i j kt : Nat) :
    Ld (Option (Nat × Nat × List TStepIn)) :=
  match on, a, b with
  | true, some a, some b =>
    if (a.fmt = 7 ∨ a.fmt = 8) ∧ (b.fmt = 7 ∨ b.fmt = 8) then
      (s.loadSteps e { a with withBmp := false } { b with withBmp := false } i j kt 0 kt).bind
        (fun r s => .ok (some (a.fmt, b.fmt, r)) s)
    else .ok none s
  | _, _, _ => .ok none s

/-- The output format PACK encodes to; none when the route has no PACK, or no output is named. -/
def outFmt (c : Conf) (p : Preamble) : Option Nat :=
  if p.route.getLsbD 5 then c.out.map (fun o => o.2.1) else none

/-- Everything an output tile is computed from. -/
def State.loadJob (s : State) (e : Nat) (c : Conf) (i j : Nat) : Ld TileIn :=
  let x := s.str e
  let p := x.pre
  let samp := decide ((x.t + (s.eng e).seed.toNat) % p.n = 0)
  match SMap.get noneOf c.slots 0, SMap.get noneOf c.slots 1 with
  | some a, some b =>
    (s.loadSteps e a b i j p.kt 0 p.kt).bind (fun steps s =>
      (s.loadPre e (SMap.get noneOf c.slots 2) p.accF (i * p.nt + j)).bind (fun pre s =>
        (s.loadSource e (p.source && samp) (SMap.get noneOf c.slots 3) (SMap.get noneOf c.slots 4) i j p.kt).bind (fun src s =>
          .ok { mode := p.mode, accF := p.accF, srA := p.srA, srP := p.srP, eacc := p.eacc.toInt, oexp := p.oexp.toInt,
                out := outFmt c p, fmtA := a.fmt, fmtB := b.fmt, texpA := a.exp.toInt, texpB := b.exp.toInt, steps := steps,
                pre := pre, src := src, sampled := samp, tau := p.tau, seed := (s.eng e).seed, t := x.t } s)))
  | _, _ => .fault 9

/-! ## STORE for a matrix tile (R225, R229, R230, R253) -/

/-- An auxiliary output at its tile's place. -/
def State.storeAux (s : State) (e : Nat) (at_ : Option W64) (idx n : Nat) (bs : List Byte) : State :=
  match at_ with
  | some a => s.store e (a + BitVec.ofNat 64 (n * idx)) (fitBytes n bs) 15
  | none => s

/-- N after a divergence (R228). -/
def nextN (n : Nat) : Nat := max 16 (n / 2)

/-- The divergence record (R230). -/
def State.divRecord (s : State) (e : Nat) (d : W32 × W32) : List Byte :=
  let x := s.str e
  toBytes 4 (BitVec.ofNat 32 x.t) ++ toBytes 2 (BitVec.ofNat 16 e) ++
    [BitVec.ofNat 8 x.pre.mode, BitVec.ofNat 8 (if 4 ≤ x.pre.mode then 0 else x.pre.tau)] ++
    toBytes 4 d.1 ++ toBytes 4 d.2 ++ toBytes 4 s.fab.frame ++ toBytes 2 (s.eng e).handle ++
    toBytes 2 (BitVec.ofNat 16 (nextN x.pre.n)) ++ List.replicate 8 0

/-- Writes a divergence record, or counts the divergence (R230, R251). -/
def State.diverge (s : State) (e : Nat) (d : W32 × W32) : State :=
  let x := s.str e
  let s := (match x.pre.divRing with
    | some (a, cap) =>
      if x.divs < cap then
        (s.store e (a + BitVec.ofNat 64 (32 * x.divs)) (s.divRecord e d) 15).modStr e (fun x => { x with divs := x.divs + 1 })
      else s.modStr e (fun x => { x with unrec := x.unrec + 1 })
    | none => s.modStr e (fun x => { x with unrec := x.unrec + 1 }))
  s.modEng e (fun y => { y with diverged := y.diverged + 1, str := { y.str with pre := { y.str.pre with n := nextN y.str.pre.n } } })

/-- Whole messages at the front of a string, and the rest. -/
def messages (len : Nat) (bs : List Byte) : Nat → List (List Byte) × List Byte
  | 0 => ([], bs)
  | n + 1 =>
    if bs.length < len then ([], bs)
    else
      let (ms, r) := messages len (bs.drop len) n
      (bs.take len :: ms, r)

/-- Writes the digests of messages from number m on (R257). -/
def State.digests (s : State) (e : Nat) (a : W64) (m : Nat) : List (List Byte) → State
  | [] => s
  | x :: r => (s.store e (a + BitVec.ofNat 64 (48 * m)) (toBytes 48 (sha384 x)) 15).digests e a (m + 1) r

/-- HASH taps the packed output tiles as stored (R257). -/
def State.hashTile (s : State) (e : Nat) (c : Conf) (bs : List Byte) : State :=
  match (if (s.str e).pre.route.getLsbD 6 then c.hash else none) with
  | some (_, a, len) =>
    let x := s.str e
    let (ms, r) := messages len (x.hbuf ++ bs) ((x.hbuf ++ bs).length / len)
    (s.digests e a x.hmsg ms).modStr e (fun x =>
      { x with hbuf := r, hmsg := x.hmsg + ms.length, hashed := x.hashed + bs.length })
  | none => s

/-- Counts the flags of a tile (R225, R262). -/
def Stream.countFlags (x : Stream) (f : W16) : Stream :=
  { x with flagCnt := (List.range 10).foldl (fun m i =>
      if f.getLsbD i then SMap.set zNat m i (SMap.get zNat m i + 1) else m) x.flagCnt }

/-- A tile is complete: TILES, FLAGS_OR, SAMPLED and the stream's counts. -/
def State.tileDone (s : State) (e : Nat) (f : W16) : State :=
  s.modEng e (fun y =>
    let x := y.str
    { y with tiles := y.tiles + 1, flagsOr := y.flagsOr ||| f, sampled := if f.getLsbD 7 then y.sampled + 1 else y.sampled
             str := { (x.countFlags f) with t := x.t + 1, ecc := false } })

/-- What follows the tile in hand: the next tile of a RUN, or the next compute. -/
def Stream.nextTile (x : Stream) (j : Job) (rest : List Job) : Stream :=
  match j.work with
  | .tiles i k all =>
    let k' := if k + 1 < x.pre.nt then k + 1 else 0
    let i' := if k + 1 < x.pre.nt then i else i + 1
    if all ∧ i' < x.pre.mt then { x with jobs := { j with work := .tiles i' k' true } :: rest } else { x with jobs := rest }
  | .bytes _ _ _ _ _ _ => { x with jobs := rest }

/-- Stores an output tile with its auxiliary outputs, in the order output, flags, bitmaps, witnesses, divergence, digests. -/
def State.storeTile (s : State) (e : Nat) (c : Conf) (idx : Nat) (o : TileOut) (f : W16) : State :=
  let s := (match c.out with
    | some (a, fmt, key) => s.store e (a + BitVec.ofNat 64 (tileBytes fmt * idx)) o.bytes key
    | none => s)
  let s := ((s.storeAux e c.flagsAt idx 2 (toBytes 2 f)).storeAux e c.bmpAt idx 128 o.bmp).storeAux e c.witAt idx 2048 o.wit
  let s := (match o.div with | some d => s.diverge e d | none => s)
  s.hashTile e c o.bytes

/-- The next output tile (TILE_COMPLETE of a matrix stream). -/
def State.matrixTile (s : State) (e : Nat) (j : Job) (rest : List Job) (i k : Nat) : State :=
  match s.loadJob e j.conf i k with
  | .hold => s
  | .fault c => s.faultStr e c
  | .ok ti s =>
    let x := s.str e
    let o := ti.run
    let f := o.flags ||| (bitW x.ecc 9).setWidth 16
    let s := s.storeTile e j.conf (i * x.pre.nt + k) o f
    if s.runs e then (s.tileDone e f).modStr e (fun x => x.nextTile j rest) else s

/-! ## Byte tiles (R232–R235, R258) -/

/-- The part of a range list that holds n bytes from offset `off` on. -/
def subRanges (r : List (W64 × Nat)) (off n : Nat) : List (W64 × Nat) :=
  match r with
  | [] => []
  | (a, l) :: r =>
    if n = 0 then []
    else if l ≤ off then subRanges r (off - l) n
    else
      let m := min n (l - off)
      (a + BitVec.ofNat 64 off, m) :: subRanges r 0 (n - m)

/-- Input i's bytes of a byte tile: slot addresses in sequence, input 0 gathered when LAYOUT (in) is on the route; bytes the
prefetch buffer held for the slot are used (R254). -/
def State.byteInput (s : State) (e : Nat) (c : Conf) (inR : Option (List (W64 × Nat))) (i off n : Nat) : Ld (List Byte) :=
  match (if i = 0 then inR else none), SMap.get noneOf c.slots i with
  | some r, o => s.loadAll e (match o with | some o => o.key | none => 15) (subRanges r off n)
  | none, some o =>
    if o.key = 15 ∧ off + n ≤ o.pre.length then .ok ((o.pre.drop off).take n) s
    else s.load e (o.addr + BitVec.ofNat 64 off) n o.key
  | none, none => .fault 9

/-- The inputs a byte tile reads: those GF combines, or input 0, and the one HASH taps (R257). -/
def byteUses (route : BitVec 11) (c : Conf) : List Nat :=
  let l := if route.getLsbD 7 then (match c.gf with | some (_, k) => List.range k | none => []) else [0]
  match (if route.getLsbD 6 then c.hash else none) with
  | some (tap, _, _) => if tap = 8 then l else addNew l tap
  | none => l

/-- Inputs read once each, in order, under their numbers. -/
def State.byteLoad (s : State) (e : Nat) (c : Conf) (inR : Option (List (W64 × Nat))) (off n : Nat) :
    List Nat → Ld (List (Nat × List Byte))
  | [] => .ok [] s
  | i :: r => (s.byteInput e c inR i off n).bind (fun bs s => (s.byteLoad e c inR off n r).bind (fun m s => .ok ((i, bs) :: m) s))

/-- An input that was read. -/
def inputOf (m : List (Nat × List Byte)) (i : Nat) : List Byte :=
  match m.find? (fun p => p.1 = i) with | some p => p.2 | none => []

/-- The output bytes of a byte tile before LAYOUT (out): GF's sum (R232), or input 0. -/
def byteOut (route : BitVec 11) (c : Conf) (n : Nat) (m : List (Nat × List Byte)) : List Byte :=
  if route.getLsbD 7 then
    (match c.gf with
     | some (coef, k) => (List.range k).foldl (fun acc i => gfMac (bitsAt coef (8 * i) 8) acc (inputOf m i)) (List.replicate n 0)
     | none => List.replicate n 0)
  else inputOf m 0

/-- What HASH taps of a byte tile (R257). -/
def byteTap (route : BitVec 11) (c : Conf) (m : List (Nat × List Byte)) (out : List Byte) : List Byte :=
  match (if route.getLsbD 6 then c.hash else none) with
  | some (tap, _, _) => if tap = 8 then out else inputOf m tap
  | none => []

/-- Writes bytes over ranges in order. -/
def State.scatter (s : State) (e key : Nat) (bs : List Byte) : List (W64 × Nat) → State
  | [] => s
  | (a, n) :: r => (s.store e a (bs.take n) key).scatter e key (bs.drop n) r

/-- STORE of a byte tile. -/
def State.byteStore (s : State) (e : Nat) (c : Conf) (outR : Option (List (W64 × Nat))) (off : Nat) (bs : List Byte) : State :=
  if ¬ (s.str e).pre.route.getLsbD 10 then s
  else match outR, c.out with
    | some r, o => s.scatter e (match o with | some o => o.2.2 | none => 15) bs (subRanges r off bs.length)
    | none, some (a, _, key) => s.store e (a + BitVec.ofNat 64 off) bs key
    | none, none => s

/-- A byte tile's place: quarter, offset in the range, length; and whether it is the last of the range (R258). -/
def byteTile (hash : Bool) (n done : Nat) : Nat × Nat × Nat × Bool :=
  if hash then
    let q := n / 4
    let k := done / 4
    (done % 4, done % 4 * q + 4096 * k, min 4096 (q - 4096 * k), decide (4 * ((q + 4095) / 4096) ≤ done + 1))
  else (0, 4096 * done, min 4096 (n - 4096 * done), decide ((n + 4095) / 4096 ≤ done + 1))

/-- The next byte tile (TILE_COMPLETE of a byte stream): one from each quarter in turn when HASH is on the route. -/
def State.bytesTile (s : State) (e : Nat) (j : Job) (rest : List Job) (n done : Nat) (inR outR : Option (List (W64 × Nat)))
    (cores : List (List Byte × Nat)) (base : Nat) : State :=
  let c := j.conf
  let route := (s.str e).pre.route
  let (q, off, len, last) := byteTile (route.getLsbD 6) n done
  match s.byteLoad e c inR off len (byteUses route c) with
  | .hold => s
  | .fault f => s.faultStr e f
  | .ok m s =>
    let out := byteOut route c len m
    let tap := byteTap route c m out
    let core := cores.getD q ([], 0)
    let (a, ml) := (match c.hash with | some h => (h.2.1, h.2.2) | none => (0, 1))
    let (ms, r) := messages ml (core.1 ++ tap) ((core.1 ++ tap).length / ml)
    let s := s.byteStore e c outR off out
    let s := s.digests e a (base + q * (n / 4 / ml) + core.2) ms
    let ins := (match c.gf with | some g => g.2 | none => 0)
    let next : Job := { j with work := .bytes n (done + 1) inR outR (cores.set q (r, core.2 + ms.length)) base }
    if s.runs e then
      s.modEng e (fun y =>
        let x := y.str
        { y with tiles := y.tiles + 1
                 str := { x with byteTiles := x.byteTiles + 1, jobs := if last then rest else next :: rest, ecc := false
                                 gfBytes := x.gfBytes + (if route.getLsbD 7 then ins * len else 0)
                                 hashed := x.hashed + tap.length } })
    else s

/-- The next tile of the compute in hand. -/
def State.tileStep (s : State) (e : Nat) : State :=
  if ¬ s.runs e then s
  else match (s.str e).jobs with
    | [] => s
    | j :: rest => match j.work with
      | .tiles i k _ => s.matrixTile e j rest i k
      | .bytes n done inR outR cores base => s.bytesTile e j rest n done inR outR cores base

/-! ## A tile cut off (R265) -/

/-- Writes the front n bytes over ranges in order. -/
def State.putFront (s : State) (e : Nat) (bs : List Byte) : List (W64 × Nat) → State
  | [] => s
  | (a, n) :: r => (if bs = [] then s else s.put e a (bs.take n)).putFront e (bs.drop n) r

/-- What the tile in hand stores without a key: its output bytes and where they go. -/
def State.inHand (s : State) (e : Nat) : Option (List Byte × List (W64 × Nat)) :=
  match (s.str e).jobs with
  | [] => none
  | j :: _ => match j.work, j.conf.out with
    | .tiles i k _, some (a, fmt, 15) =>
      match s.loadJob e j.conf i k with
      | .ok ti _ => some (ti.run.bytes, [(a + BitVec.ofNat 64 (tileBytes fmt * (i * (s.str e).pre.nt + k)), tileBytes fmt)])
      | _ => none
    | .bytes n done inR outR _ _, o =>
      let route := (s.str e).pre.route
      let (_, off, len, _) := byteTile (route.getLsbD 6) n done
      match (if route.getLsbD 10 then s.byteLoad e j.conf inR off len (byteUses route j.conf) else .hold) with
      | .ok m _ => match outR, o with
        | some r, some (_, _, 15) => some (byteOut route j.conf len m, subRanges r off len)
        | some r, none => some (byteOut route j.conf len m, subRanges r off len)
        | none, some (a, _, 15) => some (byteOut route j.conf len m, [(a + BitVec.ofNat 64 off, len)])
        | _, _ => none
      | _ => none
    | _, _ => none

/-- A tile cut off while it was being stored leaves the 64-byte beats it completed; how many is not stated (R265, log 109). -/
def State.cutTile (s : State) (e : Nat) : State :=
  match s.inHand e with
  | none => s
  | some (bs, at_) =>
    let k := (Config.free 16 s.fresh).toNat % (bs.length / 64 + 1)
    ({ s with fresh := s.fresh + 1 }).putFront e (bs.take (64 * k)) at_

/-- TILE_COMPLETE (R229). -/
def execTileComplete (e : Fin 320) (s : State) : Result := .next (s.tileStep e)

end Sys2Proof.Machine
end

