-- ==== Sys2Proof/Machine/StiEnd.lean ====
section
/-! DEFINITION. How streams and station work end (R262–R271), the station instructions LAUNCH, JOIN and RETIRE (R156), SCRUB of
an engine or die, WAVE (R159), and the rows of engines and dies. -/

namespace Sys2Proof.Machine

/-! ## Records (R262, R263) -/

/-- The completion record of the stream on an engine. -/
def State.record (s : State) (e : Nat) (st fault : Byte) : List Byte :=
  let y := s.eng e
  let x := y.str
  let n32 (n : Nat) : List Byte := toBytes 4 (satNat 32 n)
  let tw := x.twaitUs + (match x.twait with | some (_, _, _, t0) => s.us - t0 | none => 0)
  toBytes 2 y.handle ++ toBytes 2 (BitVec.ofNat 16 e) ++ [st, fault] ++ toBytes 2 y.tenant ++ toBytes 4 y.seed ++
    n32 (if x.pre.isByte then x.byteTiles else x.t) ++ toBytes 2 y.flagsOr ++ toBytes 2 (BitVec.ofNat 16 x.pre.n) ++
    (List.range 10).flatMap (fun i => n32 (SMap.get zNat x.flagCnt i)) ++ n32 x.unrec ++ toBytes 2 (BitVec.ofNat 16 y.pc) ++ [0, 0] ++
    toBytes 4 x.frame0 ++ toBytes 4 s.fab.frame ++ n32 tw ++ toBytes 8 (satNat 64 x.gfBytes) ++ toBytes 8 (satNat 64 x.hashed) ++
    List.replicate 32 0

/-- The commit word of a stream that reached END (R263). -/
def State.commitWord (s : State) (e : Nat) : W64 :=
  let x := s.str e
  let n : W32 := satNat 32 (if x.pre.isByte then x.byteTiles else x.t)
  (1 <<< 63) ||| (n.setWidth 64 <<< 16) ||| (s.eng e).handle.setWidth 64

/-- The die of an engine becomes idle at this moment, if it does (R460). -/
def State.idleNow (s : State) (e : Nat) : State :=
  let busy : Bool := (List.range 8).any (fun i => (s.eng (8 * (e / 8) + i)).st = 1)
  s.modDie (e / 8) (fun d => { d with idleAt := s.us, mhz := if !busy && decide (1200 < d.mhz.toNat) then 1200 else d.mhz })

/-- Remembers an ended stream until a JOIN reads its record (R244). -/
def State.addEnded (s : State) (h : W16) (st : Byte) (rec_ : List Byte) : State :=
  { s with stat := { s.stat with ended := s.stat.ended ++ [{ handle := h, st := st, record := rec_ }] } }

/-- Ends a stream: its record is written, the engine gets its next state (R262, R264, R265). -/
def State.endStream (s : State) (e : Nat) (st fault : Byte) (next : BitVec 3) : State :=
  let bs := s.record e st fault
  let h := (s.eng e).handle
  let s := s.depWrite (s.str e).cpl bs
  ((s.modEng e (fun y => { y with st := next, fault := fault, dirty := y.dirty || decide (fault = 2)
                                  str := { y.str with jobs := [], ending := none, twait := none, keys := [] } })).addEnded h st bs).idleNow e

/-- Clears what an engine scrub clears: every field but HANDLE, ENG_STATE and ECC_CORR (R239, R269). -/
def Engine.scrubbed (y : Engine) : Engine := { st := y.st, handle := y.handle, eccCorr := y.eccCorr, after := y.after }

/-- KEY_ERASED: every depot range the stream wrote is zeroed, the engine scrubs itself, then the record is written (R265); a die
it stops releases its loan (R468). -/
def State.eraseStream (s : State) (e : Nat) : State :=
  let bs := s.record e 2 6
  let s := (s.str e).wrote.foldl (fun s r => s.depWrite r.1 (List.replicate r.2 0)) s
  (s.modEng e (fun y => { y with st := 2, fault := 6, after := .record y.handle y.str.cpl bs,
                                 str := { y.str with jobs := [], ending := none, twait := none } })).idleNow e

/-! ## Which engine a launch takes (R156, R241) -/

/-- IDLE of a die (R238): no engine runs a stream, scrubs or runs the known-answer stream. -/
def State.dieIdle (s : State) (d : Nat) : Bool :=
  (List.range 8).all (fun i => let t := (s.eng (8 * d + i)).st; !(t = 1 || t = 2 || t = 3))

/-- A die that takes new streams: ASLEEP, WAKING or AWAKE, with no WAVE sleep or known-answer stream asked of it. -/
def State.dieTakes (s : State) (d : Nat) : Bool :=
  let x := s.die d
  (x.st = 2 || x.st = 3 || x.st = 4) && !x.sleepReq && decide (x.katLeft = 0) && x.bcast.isNone

/-- An engine free for a stream. -/
def State.engFree (s : State) (e : Nat) : Bool := decide ((s.eng e).st = 0) && s.dieTakes (e / 8)

/-- The engine a LAUNCH takes: the one it names, or the lowest free one of the right version, on an awake die first. -/
def State.pickEngine (s : State) (want ver : Nat) : Option Nat :=
  if want < 320 then (if s.engFree want then some want else none)
  else
    let ok (e : Nat) : Bool := s.engFree e && decide ((s.die (e / 8)).psver.toNat = ver)
    match (List.range 320).find? (fun e => ok e && decide ((s.die (e / 8)).st = 4)) with
    | some e => some e
    | none => (List.range 320).find? ok

/-- The class of a context's work (R464). -/
def State.ctxClass (s : State) (c : Nat) : Nat := (bitsAt s.plat.pwr.pclass (2 * c) 2 : BitVec 2).toNat

/-- A wake request joins the queue of tokens (R461). -/
def State.requestWake (s : State) (d cls : Nat) : State :=
  if (s.die d).st ≠ 2 ∨ s.plat.pwr.wakeQ.any (fun q => q.1 = d) then s
  else s.setPwr (fun p =>
    { p with wakeQ := p.wakeQ ++ [(d, cls)], wakeWaits := if p.tokens ≤ p.wakeQ.length ∨ p.tokensHeld then satInc p.wakeWaits else p.wakeWaits })

/-- A stream starts on an engine (R215, R245). -/
def State.startStream (s : State) (e : Nat) (handle : W16) (b : List Byte) : State :=
  let sd := lb b 8 4
  let free := Config.seed s.fresh
  let seed : W32 := if sd = 0 then (if free = 0 then 1 else free) else BitVec.ofNat 32 sd
  let s := if sd = 0 then { s with fresh := s.fresh + 1 } else s
  let keys : SMap (Option CapKey) := (List.range 4).filterMap (fun k =>
    let n := lb b (32 + k) 1
    if n ≤ 63 then some (k, some { slot := n, val := (s.keySlot n).capture }) else none)
  let str : Stream :=
    { cpl := lb b 16 8, commit := lb b 24 8, tileLimit := if lb b 12 2 = 0 then 1000 else lb b 12 2
      s := (List.range 8).foldl (fun m i => SMap.set z64 m (i + 1) (BitVec.ofNat 64 (lb b (48 + 8 * i) 8))) []
      keys := keys, frame0 := s.fab.frame }
  let s := s.depWrite (lb b 24 8) (List.replicate 8 0)
  s.modEng e (fun y => { y with st := 1, handle := handle, tenant := ofBytes 16 (b.take 2), tiles := 0, flagsOr := 0, sampled := 0
                                diverged := 0, seed := seed, pc := lb b 2 2, fault := 0, str := str, dirty := false, after := .nothing })

/-- LAUNCH ends: the handle goes to rd. -/
def State.launched (s : State) (c : Nat) (r : Running) : State :=
  (s.modCtx c (fun x => x.setReg (uRd r.word) (BitVec.ofNat 64 r.arg))).succeed c 0x50 0 0

/-- The launch block a LAUNCH read at issue. -/
def Running.block (r : Running) : List Byte := r.data.flatMap (fun w => toBytes 8 w)

/-- The stream of a LAUNCH starts on the engine it took. Its checks hold there too: a slot or a program that changed while it
waited refuses it (R249, R416). -/
def State.beginLaunch (s : State) (c : Nat) (r : Running) (e : Nat) : State :=
  if s.launchOk (e / 8) r.block then (s.startStream e (BitVec.ofNat 16 r.arg) r.block).launched c r
  else s.abort c 0x50 0x1A

/-- LAUNCH in a waiting context: a free engine, its die of the version asked for and awake, a scrub when the tenant changes, then
the stream starts (R156, R241). -/
def State.tryLaunch (s : State) (c : Nat) (r : Running) : State :=
  let b := r.block
  match s.pickEngine r.rb.toNat (lb b 4 4) with
  | none => s
  | some e =>
    if (s.die (e / 8)).psver.toNat ≠ lb b 4 4 ∨ ¬ s.launchOk (e / 8) b then s.abort c 0x50 0x1A
    else if (s.die (e / 8)).st = 2 then s.requestWake (e / 8) (s.ctxClass c)
    else if (s.die (e / 8)).st = 3 then s
    else
      let cls := s.ctxClass c
      let s := s.setPwr (fun p => { p with engClass := SMap.set zNat p.engClass e cls })
      if (s.eng e).tenant.toNat ≠ lb b 0 2 ∨ (s.eng e).dirty then
        (s.modEng e (fun y => { y with st := 2, after := .start (BitVec.ofNat 16 r.arg) b })).putRun c { r with phase := 1 }
      else s.beginLaunch c r e

/-- The contexts that wait in an instruction. -/
def State.waiting (s : State) (op : Byte) : List (Nat × Running) :=
  (List.range 16).filterMap (fun c => match (s.ctx c).long with
    | some r => if uOp r.word = op then some (c, r) else none
    | none => none)

/-! ## What waiting instructions see (R156, R158, R159) -/

/-- The engine of a stream that has not ended: it runs, or its record is still to be written. -/
def State.liveOn (s : State) (h : Nat) : Option Nat :=
  (s.stat.eng.find? (fun p => match p.2.after with
    | .record k _ _ => decide (p.2.st = 2) && decide (k.toNat = h)
    | _ => decide (p.2.st = 1) && decide (p.2.handle.toNat = h))).map (fun p => p.1)

/-- JOIN: the record of an ended stream is written to the data store (R156, R263). -/
def State.tryJoin (s : State) (c : Nat) (r : Running) : State :=
  match s.stat.ended.find? (fun x => x.handle.toNat = r.ra.toNat) with
  | some x =>
    let s := { s with stat := { s.stat with ended := s.stat.ended.filter (fun y => decide (y ≠ x)) } }
    let s := s.dsWrite r.rb.toNat x.record
    if x.st = 1 then s.succeed c 0x51 0 0
    else s.abort c 0x51 (if x.record.getD 5 0 = 6 then 0x1D else 0x1C)
  | none => if (s.liveOn r.ra.toNat).isNone then s.abort c 0x51 0x1A else s

/-- RETIRE: mode 0 ends when the stream has, mode 1 when the die's streams have. -/
def State.tryRetire (s : State) (c : Nat) (r : Running) : State :=
  if uMod r.word = 0 then (if (s.liveOn r.ra.toNat).isNone then s.succeed c 0x52 0 0 else s)
  else if s.dieIdle r.ra.toNat then s.succeed c 0x52 0 0 else s

/-- SCRUB of an engine or a die ends when no engine it named scrubs any more; an engine that failed its verify pass is an
internal error. The engines stand in the instruction's data. -/
def State.tryScrub (s : State) (c : Nat) (r : Running) : State :=
  if 2 ≤ uMod r.word then s
  else if r.data.any (fun e => (s.eng e.toNat).st = 2) then s
  else if r.data.any (fun e => (s.eng e.toNat).st = 4) then s.abort c 0x73 0x21
  else s.succeed c 0x73 r.data.length 0

/-- The dies of a 40-bit mask. -/
def maskDies (m : W64) : List Nat := (List.range 40).filter (fun d => m.getLsbD d)

/-- WAVE ends when its dies are awake, asleep, or have their results. A spare die has none of these to wait for. -/
def State.tryWave (s : State) (c : Nat) (r : Running) : State :=
  let ds := (maskDies r.ra).filter (fun d => decide ((s.die d).st ≠ 1))
  match uMod r.word with
  | 0 => if ds.all (fun d => (s.die d).st = 4 || (s.die d).st = 5) then s.succeed c 0x81 ds.length 0 else s
  | 1 => if ds.all (fun d => !(s.die d).sleepReq) then s.succeed c 0x81 ds.length 0 else s
  | _ =>
    if ds.all (fun d => ((s.die d).st = 4 || (s.die d).st = 5) && (s.die d).katLeft = 0) then
      let es := ds.flatMap (fun d => (List.range 8).map (fun i => 8 * d + i))
      let bad := es.filter (fun e => decide ((s.eng e).st = 4))
      s.succeed c 0x81 (es.length - bad.length) bad.length
    else s

/-! ## What follows on a die (R240, R460, R237) -/

/-- Writes a die's program store (R456). -/
def Die.load (d : Die) (img : List (BitVec 128)) (ver : W32) : Die :=
  { d with store := ((img.take 4096).zipIdx).foldl (fun m p => SMap.set (fun _ => (0 : BitVec 128)) m p.2 p.1) [], psver := ver, bcast := none }

/-- An engine starts its known-answer stream, as tenant 0: a scrub comes first where its tenant changes (R200, R237). -/
def Engine.startKat (y : Engine) : Engine :=
  if y.tenant ≠ 0 ∨ y.dirty then { y with st := 2, after := .kat } else { y with st := 3 }

/-- A die at rest takes a waiting broadcast, goes to sleep if it was asked to, and starts the known-answer streams it owes. -/
def State.dieStep (s : State) (d : Nat) : State :=
  let x := s.die d
  let s := (match (if s.dieIdle d then x.bcast else none) with
    | some (img, v) => s.modDie d (fun x => x.load img v)
    | none => s)
  let s := if (s.die d).sleepReq ∧ s.dieIdle d ∧ ((s.die d).st = 4 ∨ (s.die d).st = 2) then
      s.modDie d (fun x => { x with st := 2, mhz := 0, sleepReq := false })
    else s
  if ((s.die d).st = 4 ∨ (s.die d).st = 5) ∧ (s.die d).katLeft ≠ 0 then
    (List.range 8).foldl (fun s i =>
      let e := 8 * d + i
      if (s.die d).katLeft.getLsbD i ∧ ((s.eng e).st = 0 ∨ (s.eng e).st = 4) then s.modEng e Engine.startKat else s) s
  else s

/-- Everything that waits on the stations looks again. -/
def State.stWake (s : State) : State :=
  let s := (List.range 40).foldl State.dieStep s
  let s := (s.waiting 0x51).foldl (fun s x => s.tryJoin x.1 x.2) s
  let s := (s.waiting 0x52).foldl (fun s x => s.tryRetire x.1 x.2) s
  let s := (s.waiting 0x73).foldl (fun s x => s.tryScrub x.1 x.2) s
  let s := s.keyWake
  let s := (s.waiting 0x50).foldl (fun s x => if x.2.phase = 0 then s.tryLaunch x.1 x.2 else s) s
  (s.waiting 0x81).foldl (fun s x => s.tryWave x.1 x.2) s

/-! ## LAUNCH, JOIN, RETIRE (R156) -/

/-- A handle in use: a live stream's, one given at issue to a LAUNCH, or one whose record no JOIN has read (R244). -/
def State.handleUsed (s : State) (h : Nat) : Bool :=
  (s.liveOn h).isSome || s.stat.ended.any (fun x => x.handle.toNat = h) || (s.waiting 0x50).any (fun x => x.2.arg = h)

/-- The next handle in rising order, wrapping from 65,535 to 1. -/
def State.nextHandle (s : State) (h : Nat) : Nat → Nat
  | 0 => h
  | n + 1 =>
    let k := h % 65535 + 1
    if s.handleUsed k then s.nextHandle k n else k

/-- A die on which a LAUNCH's program is checked: the one named, or the lowest of the right version. -/
def State.checkDie (s : State) (want ver : Nat) : Option Nat :=
  if want < 320 then some (want / 8)
  else (List.range 40).find? (fun d => decide ((s.die d).psver.toNat = ver) && decide ((s.die d).st ≠ 0) && decide ((s.die d).st ≠ 1))

/-- LAUNCH at issue: the checks of R241 and R249 come before it waits for an engine. -/
def State.issueLaunch (s : State) (c : Nat) (w : W64) : State :=
  let r := Running.ofWord (s.ctx c) w
  let a := r.ra.toNat
  let want := r.rb.toNat
  let bad := (s.waitJ c r).abort c 0x50 0x1A
  s.inStore c a 128 (fun s =>
  if a % 64 ≠ 0 ∨ ¬ (want < 320 ∨ want = 0xFFFF) then bad
  else
    let b := s.dsRead a 128
    let ver := lb b 4 4
    let wrong : Bool := decide (want < 320) &&
      (decide ((s.die (want / 8)).st = 0) || decide ((s.die (want / 8)).psver.toNat ≠ ver))
    let ok : Bool := match s.checkDie want ver with
      | some d => s.launchOk d b
      | none => s.blockOk b
    if wrong ∨ ¬ ok then bad
    else
      let h := s.nextHandle s.stat.lastHandle.toNat 65536
      let r := { r with arg := h, data := (List.range 16).map (fun i => BitVec.ofNat 64 (lb b (8 * i) 8)) }
      let s := { s with stat := { s.stat with lastHandle := BitVec.ofNat 16 h } }
      (s.waitJ c r).tryLaunch c r)

/-- LAUNCH (R156). -/
def execUciLaunch (c : Fin 16) (s : State) : Result := .next (s.uci c 0x50 (fun s w => s.issueLaunch c w))

/-- JOIN at issue. -/
def State.issueJoin (s : State) (c : Nat) (w : W64) : State :=
  let r := Running.ofWord (s.ctx c) w
  s.inStore c r.rb.toNat 128 (fun s => (s.waitJ c r).tryJoin c r)

/-- JOIN (R156). -/
def execUciJoin (c : Fin 16) (s : State) : Result := .next (s.uci c 0x51 (fun s w => s.issueJoin c w))

/-- Takes a die out of service: a spare takes its place in the assignment (R156). -/
def State.retireDie (s : State) (d spare : Nat) : State :=
  let slot := (s.die d).slot
  (s.modDie d (fun x => { x with st := 5, slot := 63 })).modDie spare (fun x => { x with st := 2, slot := slot, idleAt := s.us })

/-- RETIRE at issue. -/
def State.issueRetire (s : State) (c : Nat) (w : W64) : State :=
  let r := Running.ofWord (s.ctx c) w
  let s := s.waitJ c r
  let n := r.ra.toNat
  if uMod w = 0 then
    (match s.liveOn n with
     | some e => if (s.eng e).st = 1 then s.faultStr e 1 else s
     | none => s.succeed c 0x52 0 0)
  else if 40 ≤ n ∨ (s.die n).st = 0 then s.abort c 0x52 0x1A
  else if uMod w = 1 then
    (if (s.die n).st = 1 ∨ (s.die n).st = 5 then s.succeed c 0x52 0 0
     else match (List.range 40).find? (fun d => (s.die d).st = 1) with
       | none => s.abort c 0x52 0x20
       | some d => (s.retireDie n d).stWake)
  else
    let s := if (s.die n).st = 5 ∧ s.dieIdle n then s.modDie n (fun x => { x with st := 1, mhz := 0 }) else s
    if (s.die n).st = 5 then s.abort c 0x52 0x1F else s.succeed c 0x52 0 0

/-- RETIRE (R156). -/
def execUciRetire (c : Fin 16) (s : State) : Result := .next (s.uci c 0x52 (fun s w => s.issueRetire c w))

/-! ## SCRUB (R158) -/

/-- SCRUB of engines: BUSY while one runs a stream or its known-answer stream; a FAILED engine stays as it is. -/
def State.scrubEngines (s : State) (c : Nat) (r : Running) (es : List Nat) : State :=
  if es.any (fun e => (s.eng e).st = 1 || (s.eng e).st = 3) then s.abort c 0x73 0x1F
  else
    let live := es.filter (fun e => decide ((s.eng e).st ≠ 4))
    let s := live.foldl (fun s e => s.modEng e (fun y => { y with st := 2 })) s
    let r := { r with data := live.map (fun e => BitVec.ofNat 64 e) }
    (s.putRun c r).tryScrub c r

/-- SCRUB of a ledger partition (R376): BUSY while a queue is enabled, a tally has a waiter or a mailbox holds a claim. -/
def State.partBusy (s : State) (p : Nat) : Bool :=
  s.led.queues.any (fun q => q.2.en && decide (q.2.part.toNat = p)) ||
  s.led.mbx.any (fun m => decide (m.2.claim ≠ 0) && decide (m.2.part.toNat = p)) ||
  (List.range 16).any (fun c => match (s.ctx c).long with
    | some r => uOp r.word = 0x04 && decide (s.tallyPart (bitsAt r.ra 0 16 : W16).toNat = p)
    | none => false) ||
  s.stat.eng.any (fun e => match e.2.str.twait with
    | some (t, _) => decide (s.tallyPart t.toNat = p)
    | none => false) ||
  s.led.holds.any (fun h => decide (s.tallyPart h.tally.toNat = p))

/-- Clears a partition's tallies, ring SRAM, queues and mailboxes, and sets CLEAN (R376). -/
def State.scrubPart (s : State) (p : Nat) : State :=
  let l := s.led
  let tal := l.tallies.filterMap (fun t =>
    let mine := decide (t.2.part.toNat = p)
    let t2 : Tally := if mine then { t.2 with count := 0, settled := 0, drift := 0, en := tallyStrict t.1 } else t.2
    if t2 = tallyDflt t.1 then none else some (t.1, t2))
  let qs := l.queues.filterMap (fun q =>
    let q2 : Queue := if decide (q.2.part.toNat = p) then { (queueDescDflt q.1) with part := q.2.part } else q.2
    if q2 = queueDescDflt q.1 then none else some (q.1, q2))
  let ms := l.mbx.filterMap (fun m =>
    let m2 : LMbx := if decide (m.2.part.toNat = p) && decide (m.1 ≠ 0) then { part := m.2.part, cmd := m.2.cmd, server := m.2.server, lease := m.2.lease } else m.2
    if m2 = lmbxDflt m.1 then none else some (m.1, m2))
  let s := { s with led := { l with
    tallies := tal, queues := qs, mbx := ms
    sram := l.sram.filter (fun b => !(decide (p * 0x20000 ≤ b.1) && decide (b.1 < (p + 1) * 0x20000))) } }
  s.modLPart p (fun x => { x with clean := true })

/-- What keeps a depot range from being scrubbed (R422): a live stream of its tenant, an enabled depot queue, a landing ring. -/
def State.rangeBusy (s : State) (a n : Nat) : Bool :=
  let meets (b m : Nat) : Bool := decide (b < a + n) && decide (a < b + m)
  let tens := (s.depot.allocs.filter (fun p => decide (p.2.st = 1) && meets (p.2.base.toNat * allocUnit) (p.2.size.toNat * allocUnit))).map
    (fun p => p.2.tenant)
  s.stat.eng.any (fun e => decide (e.2.st = 1) && (tens.contains e.2.tenant || (decide (tens = []) && decide (e.2.tenant = 0)))) ||
  s.led.queues.any (fun q => q.2.en && !q.2.loc && meets q.2.base.toNat (q.2.size * q.2.entry)) ||
  s.fab.reb.windows.any (fun w => meets w.ring w.size)

/-- SCRUB at issue. -/
def State.issueScrub (s : State) (c : Nat) (w : W64) : State :=
  let r := Running.ofWord (s.ctx c) w
  let s := s.waitJ c r
  let n := r.ra.toNat
  match uMod w with
  | 0 => if 320 ≤ n ∨ (s.die (n / 8)).st = 0 then s.abort c 0x73 0x1A else s.scrubEngines c r [n]
  | 1 => if 40 ≤ n ∨ (s.die n).st = 0 then s.abort c 0x73 0x1A
         else s.scrubEngines c r ((List.range 8).map (fun i => 8 * n + i))
  | 2 => if 64 ≤ n then s.abort c 0x73 0x1A
         else if s.partBusy n then s.abort c 0x73 0x1F else (s.scrubPart n).succeed c 0x73 0 0
  | _ =>
    let m := r.rb.toNat
    if m = 0 ∨ 0x40000000 < m ∨ ¬ s.inDepot n m then s.abort c 0x73 0x1A
    else if s.rangeBusy n m then s.abort c 0x73 0x1F
    else { s with depot := { s.depot with scrubs := s.depot.scrubs ++ [{ addr := n, len := m, entry := none, ctx := some c }] } }

/-- SCRUB (R158). -/
def execUciScrub (c : Fin 16) (s : State) : Result := .next (s.uci c 0x73 (fun s w => s.issueScrub c w))

/-! ## LEND and WAVE (R159) -/

/-- Withdraws every loan: borrowing dies return to 1,200 MHz (R159, R468). -/
def State.withdrawLoans (s : State) : State :=
  (List.range 40).foldl (fun s d => if 1200 < (s.die d).mhz.toNat then s.modDie d (fun x => { x with mhz := 1200 }) else s) s

/-- LEND. -/
def State.uLend (s : State) (c : Nat) (w : W64) : State :=
  let v := ((s.ctx c).reg (uRa w)).toNat
  if uMod w = 1 then s.withdrawLoans.endShort c 0x80 0 0 0 0 0
  else if v < 20 ∨ 10000 < v then s.ignore.endShort c 0x80 2 0x1A 0 0 0
  else (s.setPwr (fun p => { p with lendUs := v })).endShort c 0x80 0 0 0 0 0

/-- LEND (R159). -/
def execUciLend (c : Fin 16) (s : State) : Result := .next (s.uci c 0x80 (fun s w => s.uLend c w))

/-- WAVE at issue. -/
def State.issueWave (s : State) (c : Nat) (w : W64) : State :=
  let r := Running.ofWord (s.ctx c) w
  let s := s.waitJ c r
  let ds := maskDies r.ra
  if 2 ^ 40 ≤ r.ra.toNat ∨ ds.any (fun d => (s.die d).st = 0) then s.abort c 0x81 0x1A
  else
    let cls := s.ctxClass c
    let s := ds.foldl (fun s d =>
      if (s.die d).st = 1 then s
      else match uMod w with
        | 0 => s.requestWake d cls
        | 1 => if (s.die d).st = 5 then s else s.modDie d (fun x => { x with sleepReq := true })
        | _ => (s.modDie d (fun x => { x with katLeft := 0xFF })).requestWake d cls) s
    s.stWake

/-- WAVE (R159). -/
def execUciWave (c : Fin 16) (s : State) : Result := .next (s.uci c 0x81 (fun s w => s.issueWave c w))

/-! ## END and faults (R261–R267) -/

/-- The ranges written cover the bytes from a to b − 1; k bounds the ranges looked at. -/
def spanned (l : List (Nat × Nat)) (a b : Nat) : Nat → Bool
  | 0 => decide (b ≤ a)
  | k + 1 => decide (b ≤ a) || (match l.find? (fun r => decide (r.1 ≤ a) && decide (a < r.1 + r.2)) with
    | some r => spanned l (r.1 + r.2) b k
    | none => false)

/-- R367: a stream's commit word is set: the rebuild segments it wrote whole may be delivered (log 123). -/
def State.segmentsReady (s : State) (l : List (Nat × Nat)) : State :=
  s.setReb (fun r => { r with deliveries := r.deliveries.map (fun d =>
    if spanned l d.src (d.src + d.len) l.length then { d with ready := true } else d) })

/-- END waits for every queued compute and write; the record is written, then the commit word. -/
def State.tEnd (s : State) (e : Nat) : State :=
  if (s.str e).jobs ≠ [] then s
  else
    let s := s.flushUnits e
    let a := (s.str e).commit
    let w := s.commitWord e
    let l := (s.str e).wrote
    (((s.endStream e 1 0 0).depWrite a (toBytes 8 w)).segmentsReady l).stWake

/-- STI_END (R261–R263). -/
def execStiEnd (e : Fin 320) (s : State) : Result := .next (s.sti e 0x3F (fun s _ => s.tEnd e))

/-- The record of a stream whose end is decided is written, and its engine gets the state of R264. -/
def State.carryFault (s : State) (e : Nat) : State :=
  match (if (s.eng e).st = 1 then (s.str e).ending else none) with
  | none => s
  | some f =>
    let s := s.cutTile e
    if f = 6 then s.eraseStream e
    else (s.endStream e (if f = 1 then 3 else 2) f (if f = 0x0B then 4 else 0)).stWake

/-- STREAM_FAULT (R265). -/
def execStreamFault (e : Fin 320) (s : State) : Result := .next (s.carryFault e)

/-- TILE_TIMEOUT (R266): no progress outside TWAIT. -/
def execTileTimeout (e : Fin 320) (s : State) : Result :=
  .next (if s.runs e ∧ (s.str e).twait.isNone then s.faultStr e 4 else s)

/-- SCRATCH_ECC_ERROR (R200, R264): corrected ones are counted, in a scrub's verify pass and a known-answer stream too, and
flagged in the tile in hand. -/
def execScratchEccError (e : Fin 320) (unc : Bool) (s : State) : Result :=
  .next (if unc then (if s.runs e then s.faultStr e 2 else s)
         else if (s.eng e).st = 0 ∨ 4 ≤ (s.eng e).st.toNat then s
         else s.modEng e (fun y => { y with eccCorr := satInc y.eccCorr, str := { y.str with ecc := y.str.ecc || (decide (y.st = 1) && decide (y.str.jobs ≠ [])) } }))

/-- DEPOT_READ_ERROR (R264). -/
def execDepotReadError (e : Fin 320) (s : State) : Result := .next (if s.runs e then s.faultStr e 3 else s)

/-- STATION_HW_FAIL (R264). -/
def execStationHwFail (e : Fin 320) (s : State) : Result := .next (if s.runs e then s.faultStr e 0x0B else s)

/-- WAIT_LIMIT_EXPIRE (R383): a TWAIT that has waited WAIT_LIMIT_MS. -/
def execWaitLimitExpire (e : Fin 320) (s : State) : Result :=
  .next (if s.runs e ∧ (s.str e).twait.isSome then s.faultStr e 7 else s)

/-! ## Scrubs and known-answer streams (R237, R269, R270) -/

/-- What a scrub that passed is followed by. -/
def State.afterScrub (s : State) (e : Nat) (a : AfterScrub) : State :=
  match a with
  | .nothing => s
  | .start h _ => (match (s.waiting 0x50).find? (fun x => x.2.arg = h.toNat && x.2.phase = 1) with
    | some x => s.beginLaunch x.1 x.2 e
    | none => s)
  | .kat => s.modEng e (fun y => { y with st := 3 })
  | .record h cpl bs => (s.depWrite cpl bs).addEnded h 2 bs

/-- A launch whose engine failed its scrub goes on waiting (R270); a known-answer stream that was to follow has failed. -/
def State.relaunch (s : State) (e : Nat) (a : AfterScrub) : State :=
  match a with
  | .kat => s.modDie (e / 8) (fun d => { d with katPass := putBit d.katPass (e % 8) false, katLeft := putBit d.katLeft (e % 8) false })
  | .start h _ => (match (s.waiting 0x50).find? (fun x => x.2.arg = h.toNat && x.2.phase = 1) with
    | some x => s.putRun x.1 { x.2 with phase := 0 }
    | none => s)
  | .record h cpl bs => (s.depWrite cpl bs).addEnded h 2 bs
  | .nothing => s

/-- A block reset of the die runs (R438). -/
def State.blkDie (s : State) (d : Nat) : Bool := s.plat.rst.blk.any (fun b => decide (b.1 = 1) && decide (b.2.1 = d))

/-- An engine scrub ends. -/
def State.scrubDone (s : State) (e : Nat) (ok : Bool) : State :=
  if (s.eng e).st ≠ 2 ∨ s.blkDie (e / 8) then s
  else
    let a := (s.eng e).after
    let s := s.modEng e (fun y => { y.scrubbed with st := if ok then 0 else 4, after := .nothing })
    let s := s.idleNow e
    ((if ok then s.afterScrub e a else s.relaunch e a)).stWake

/-- ENGINE_SCRUB_DONE (R269, R270). -/
def execEngineScrubDone (e : Fin 320) (ok : Bool) (s : State) : Result := .next (s.scrubDone e ok)

/-- An engine's known-answer stream ends; it leaves the engine scrubbed (R237). -/
def State.katDone (s : State) (e : Nat) (ok : Bool) : State :=
  if (s.eng e).st ≠ 3 ∨ s.blkDie (e / 8) then s
  else
    let s := s.modEng e (fun y => { y.scrubbed with st := if ok then 0 else 4, after := .nothing })
    let s := s.modDie (e / 8) (fun d => { d with katPass := putBit d.katPass (e % 8) ok, katLeft := putBit d.katLeft (e % 8) false })
    (s.idleNow e).stWake

/-- KAT_STREAM_DONE (R237). -/
def execKatStreamDone (e : Fin 320) (ok : Bool) (s : State) : Result := .next (s.katDone e ok)

/-! ## Dies (R240, R456, R460, R461) -/

/-- A die is given a new image: at once when it is idle, else when it becomes so (R240). -/
def State.broadcastTo (s : State) (d : Nat) (img : List (BitVec 128)) (ver : W32) : State :=
  if (s.die d).st = 0 then s else (s.modDie d (fun x => { x with bcast := some (img, ver) })).dieStep d

/-- The bytes of a program image (R240). -/
def imgBytes (img : List (BitVec 128)) : List Byte := img.flatMap (fun w => toBytes 16 w)

/-- PROGRAM_BROADCAST (R456): register 6 is extended once for each broadcast. -/
def execProgramBroadcast (dies : BitVec 40) (img : List (BitVec 128)) (ver : W32) (s : State) : Result :=
  .next (((List.range 40).foldl (fun s d => if dies.getLsbD d then s.broadcastTo d img ver else s) (s.extend 6 (imgBytes img))).stWake)

/-- DIE_SLEEP (R460): a die idle for IDLE_SLEEP_US enters ASLEEP. -/
def execDieSleep (d : Fin 40) (s : State) : Result :=
  .next (if (s.die d).st = 4 ∧ s.dieIdle d ∧ s.plat.pwr.idleSleep ≠ 0 ∧ (s.die d).idleAt + s.plat.pwr.idleSleep.toNat ≤ s.us ∧
            (s.die d).katLeft = 0 then
           s.modDie d (fun x => { x with st := 2, mhz := 0 })
         else s)

/-- WAKE_TOKEN_RETURN (R461). -/
def execWakeTokenReturn (s : State) : Result := .next (s.setPwr (fun p => { p with tokens := min 4 (p.tokens + 1) }))

/-- DIE_AWAKE (R460). -/
def execDieAwake (d : Fin 40) (s : State) : Result :=
  .next (if (s.die d).st = 3 ∧ ¬ s.blkDie d then (s.modDie d (fun x => { x with st := 4, mhz := 1200, idleAt := s.us })).stWake else s)

end Sys2Proof.Machine
end

