-- ==== Sys2Proof/Machine/UciData.lean ====
section
/-! DEFINITION. The control and data instructions (R149), the special registers (R136), and the halts of R138. -/

namespace Sys2Proof.Machine

/-! ## Faults of an instruction (R138) -/

/-- The target of BR or CALL, as an integer. -/
def Context.target (x : Context) (w : W64) : Int :=
  if uMod w = 1 then ((bitsAt (x.reg (uRa w)) 0 17).toNat : Int) else (x.pc : Int) + (uImm w).toInt

/-- The address of LD or ST, modulo 2^64. -/
def Context.ldst (x : Context) (w : W64) : Nat := (x.reg (uRa w) + uImmS w).toNat

/-- The data-store address of COPY. -/
def Context.copyDs (x : Context) (w : W64) : Nat := (x.reg (if uMod w = 0 then uRb w else uRa w)).toNat
/-- The depot address of COPY. -/
def Context.copyDep (x : Context) (w : W64) : Nat := (x.reg (if uMod w = 0 then uRa w else uRb w)).toNat

def badTarget (t : Int) : Bool := decide (t < 0) || decide ((istoreSize : Int) ≤ t)

/-- The halt cause of R138 that an instruction meets, 0 for none: 3 ALIGN, 4 BOUNDS, 5 STACK. -/
def Context.faultOf (x : Context) (w : W64) : Byte :=
  match (uOp w).toNat with
  | 0x01 => if badTarget (x.target w) then 4 else 0
  | 0x02 => if 16 ≤ x.stack.length then 5 else if badTarget (x.target w) then 4 else 0
  | 0x03 => if x.stack = [] then 5 else 0
  | 0x1B | 0x1C =>
    if ¬ inDs (x.ldst w) (2 ^ uMod w) then 4 else if x.ldst w % 2 ^ uMod w ≠ 0 then 3 else 0
  | 0x1D => if inDs (x.copyDs w) (64 * (uImm w).toNat) then 0 else 4
  | _ => 0

/-- Halts with a fault's cause, or runs the instruction. -/
def State.orFault (s : State) (c : Nat) (w : W64) (f : State → State) : State :=
  if (s.ctx c).faultOf w = 0 then f s else s.halt c (exitWord ((s.ctx c).faultOf w) 0)

/-- A short instruction that changes only its own context. -/
def State.uciCtx (s : State) (c : Nat) (op : Byte) (f : Context → W64 → Context) : State :=
  s.uci c op (fun s w => s.modCtx c (fun x => (f x w).next))

/-! ## Control -/

/-- BR (R149). -/
def execUciBr (c : Fin 16) (s : State) : Result :=
  .next (s.uci c 0x01 (fun s w => s.orFault c w (fun s => s.modCtx c (fun x => { x with pc := (x.target w).toNat }))))

/-- CALL (R149). -/
def execUciCall (c : Fin 16) (s : State) : Result :=
  .next (s.uci c 0x02 (fun s w => s.orFault c w (fun s => s.modCtx c (fun x =>
    { x with pc := (x.target w).toNat, stack := x.next.pc :: x.stack }))))

/-- RET (R149). -/
def execUciRet (c : Fin 16) (s : State) : Result :=
  .next (s.uci c 0x03 (fun s w => s.orFault c w (fun s => s.modCtx c (fun x =>
    { x with pc := x.stack.headD 0, stack := x.stack.drop 1 }))))

/-- WAITT at issue (R149, R383): ends at once when the comparison holds. -/
def State.waitt (s : State) (c : Nat) (w : W64) : State :=
  let r := Running.ofWord (s.ctx c) w
  if cmpHolds (uMod w) (s.tally (bitsAt r.ra 0 16).toNat).count.toNat r.rb.toNat then s.succeed c 0x04 0 0
  else s.waitJ c r

/-- WAITT (R149). -/
def execUciWaitt (c : Fin 16) (s : State) : Result := .next (s.uci c 0x04 (fun s w => s.waitt c w))

/-- SIGT (R149): an add to a tally, waking its waiters. -/
def State.sigt (s : State) (c : Nat) (w : W64) : State :=
  let t := (bitsAt ((s.ctx c).reg (uRa w)) 0 16).toNat
  match s.tallyAdd t (uImm w).toInt true with
  | some s1 => (s1.endShort c 0x05 0 0 0 0 0).wakeTally t
  | none => (s.tallyFault t (uImm w).toInt).endShort c 0x05 2 0x1B 0 0 0

/-- SIGT (R149). -/
def execUciSigt (c : Fin 16) (s : State) : Result := .next (s.uci c 0x05 (fun s w => s.sigt c w))

/-- YIELD (R149): mode 0 gives up the next issue slot (log 8), mode 1 sleeps until CTIMER is 0. -/
def execUciYield (c : Fin 16) (s : State) : Result :=
  .next (s.uci c 0x06 (fun s w =>
    if uMod w = 0 then { (s.stepPc c) with dealers := { (s.stepPc c).dealers with yielded := some c } }
    else if (s.ctx c).ctimer = 0 then s.stepPc c
    else (s.modCtx c (fun x => { x with run := .waiting, asleep := true })).journalCtx c))

/-- HALT (R149): PC stays on the HALT. -/
def execUciHalt (c : Fin 16) (s : State) : Result :=
  .next (s.uci c 0x07 (fun s w => s.halt c (exitWord 1 (uImm w))))

/-- NOP (R149). -/
def execUciNop (c : Fin 16) (s : State) : Result := .next (s.uci c 0x08 (fun s _ => s.stepPc c))

/-! ## Data -/

/-- MOVI's result (R137, R149). -/
def moviVal (old : W64) (w : W64) : W64 :=
  let base := if w.getLsbD 45 then old else 0
  if w.getLsbD 46 then putBits base 32 (uImm32 w) else putBits base 0 (uImm32 w)

/-- MOVI (R149). -/
def execUciMovi (c : Fin 16) (s : State) : Result :=
  .next (s.uciCtx c 0x10 (fun x w => x.setReg (uRd w) (moviVal (x.reg (uRd w)) w)))

/-- A two-operand instruction. -/
def State.uciAlu (s : State) (c : Nat) (op : Byte) (f : W64 → W64 → W64) : State :=
  s.uciCtx c op (fun x w => x.setReg (uRd w) (f (x.reg (uRa w)) (x.reg (uRb w))))

/-- ADD (R149). -/
def execUciAdd (c : Fin 16) (s : State) : Result := .next (s.uciAlu c 0x11 (· + ·))

/-- ADDI (R149). -/
def execUciAddi (c : Fin 16) (s : State) : Result :=
  .next (s.uciCtx c 0x12 (fun x w => x.setReg (uRd w) (x.reg (uRa w) + uImmS w)))

/-- SUB (R149). -/
def execUciSub (c : Fin 16) (s : State) : Result := .next (s.uciAlu c 0x13 (· - ·))

/-- AND (R149). -/
def execUciAnd (c : Fin 16) (s : State) : Result := .next (s.uciAlu c 0x14 (· &&& ·))

/-- OR (R149). -/
def execUciOr (c : Fin 16) (s : State) : Result := .next (s.uciAlu c 0x15 (· ||| ·))

/-- XOR (R149). -/
def execUciXor (c : Fin 16) (s : State) : Result := .next (s.uciAlu c 0x16 (· ^^^ ·))

/-- SHL (R149): by g[rb] mod 64. -/
def execUciShl (c : Fin 16) (s : State) : Result := .next (s.uciAlu c 0x17 (fun a b => a <<< (b.toNat % 64)))

/-- SHR (R149): logical, or arithmetic with mod[0]. -/
def execUciShr (c : Fin 16) (s : State) : Result :=
  .next (s.uciCtx c 0x18 (fun x w =>
    let a := x.reg (uRa w)
    let n := (x.reg (uRb w)).toNat % 64
    x.setReg (uRd w) (if uMod w = 1 then a.sshiftRight n else a >>> n)))

/-- The comparisons of CMP and CMPI (R149). -/
def cmpVal (m : Nat) (a b : W64) : Bool :=
  match m with
  | 0 => decide (a = b)
  | 1 => decide (a ≠ b)
  | 2 => decide (a.toNat < b.toNat)
  | 3 => decide (b.toNat ≤ a.toNat)
  | 4 => decide (a.toInt < b.toInt)
  | 5 => decide (b.toInt ≤ a.toInt)
  | 6 => newer (bitsAt a 0 16) (bitsAt b 0 16)
  | _ => newer (bitsAt a 0 32) (bitsAt b 0 32)

/-- CMP (R149). -/
def execUciCmp (c : Fin 16) (s : State) : Result :=
  .next (s.uciCtx c 0x19 (fun x w => x.setPred (uRd w) (cmpVal (uMod w) (x.reg (uRa w)) (x.reg (uRb w)))))

/-- CMPI (R149). -/
def execUciCmpi (c : Fin 16) (s : State) : Result :=
  .next (s.uciCtx c 0x1A (fun x w => x.setPred (uRd w) (cmpVal (uMod w) (x.reg (uRa w)) (uImmS w))))

/-- LD (R149): little-endian, zero-extended. -/
def execUciLd (c : Fin 16) (s : State) : Result :=
  .next (s.uci c 0x1B (fun s w => s.orFault c w (fun s =>
    let v := s.dsLE ((s.ctx c).ldst w) (2 ^ uMod w)
    s.modCtx c (fun x => (x.setReg (uRd w) (BitVec.ofNat 64 v)).next))))

/-- ST (R149): the low bytes of g[rb], little-endian; journalled with its effect (R148). -/
def execUciSt (c : Fin 16) (s : State) : Result :=
  .next (s.uci c 0x1C (fun s w => s.orFault c w (fun s =>
    let x := s.ctx c
    ((s.dsWrite (x.ldst w) (toBytes (2 ^ uMod w) (x.reg (uRb w)))).stepPc c).journalCtx c)))

/-- Copies n units of 64 bytes. -/
def State.copyUnits (s : State) (toDepot : Bool) (ds dep n : Nat) : State :=
  if toDepot then s.depWrite dep (s.dsRead ds (64 * n)) else s.dsWrite ds (s.depRead dep (64 * n))

/-- A tmo limit in ns (R140). -/
def tmoNs (w : W64) : Nat := (2 ^ uTmo w + 1) * 1000

/-- COPY at issue (R149): at 32 GB/s, 2 ns a unit, it ends by its limit or waits for it (log 10). -/
def State.copy (s : State) (c : Nat) (w : W64) : State :=
  let x := s.ctx c
  let n := (uImm w).toNat
  if ¬ s.inDepot (x.copyDep w) (64 * n) then s.abort c 0x1D 0x1A
  else if 2 * n ≤ tmoNs w then (s.copyUnits (uMod w = 1) (x.copyDs w) (x.copyDep w) n).succeed c 0x1D n 0
  else s.waitJ c (Running.ofWord x w)

/-- COPY (R149). -/
def execUciCopy (c : Fin 16) (s : State) : Result :=
  .next (s.uci c 0x1D (fun s w => s.orFault c w (fun s => s.copy c w)))

/-! ## Special registers (R136) -/

/-- S11 CHANGE. -/
def Change.word (h : Change) : W64 :=
  putBits (putBits (putBits (putBits (0 : W64) 0 (BitVec.ofBool h.isOpen)) 1 (BitVec.ofNat 4 (h.owner.getD 0)))
    5 (BitVec.ofBool (h.isOpen && h.owner.isNone))) 32 h.target

/-- S10 ROLE: the core that reads it is the active dealer's (R133). -/
def State.roleWord (s : State) : W64 := (if s.dealers.role then 1 else 0) ||| 2

/-- A special register other than S8. -/
def State.special (s : State) (c n : Nat) : W64 :=
  let x := s.ctx c
  let d := s.dealers
  match n with
  | 0 => BitVec.ofNat 64 c
  | 1 => x.epoch.setWidth 64
  | 2 => x.ctimer.setWidth 64
  | 3 => x.status
  | 4 => x.missptr.setWidth 64
  | 5 => d.fepoch.setWidth 64
  | 6 => d.depoch.setWidth 64
  | 7 => d.cepoch.setWidth 64
  | 9 => s.fab.frame.setWidth 64
  | 10 => s.roleWord
  | 11 => d.change.word
  | 12 => d.cmdResend.setWidth 64
  | 13 => d.drainLimit.setWidth 64
  | 14 => x.exit.setWidth 64
  | _ => 0

/-- RDS (R149); S8 CYCLE is the count at the latest frame start and a free number of cycles within it (R136, log 6). -/
def execUciRds (c : Fin 16) (s : State) : Result :=
  .next (s.uci c 0x1E (fun s w =>
    let n := (uImm w).toNat
    if n = 8 then
      let v := s.freeVal 11
      v.2.modCtx c (fun x => (x.setReg (uRd w) (s.dealers.cycle + BitVec.ofNat 64 (v.1.toNat % 2000))).next)
    else s.modCtx c (fun x => (x.setReg (uRd w) (s.special c n)).next)))

/-- R136: whether a WRS of a value is accepted: the register is writable, not locked, and the value in range. STATUS's
read-only bits keep their value, 0, whatever the write carries (R12, R141). -/
def State.wrsOk (s : State) (n : Nat) (v : W64) : Bool :=
  match n with
  | 1 => decide (v.toNat < 0x100000000)
  | 2 => decide (v.toNat < 0x100000000)
  | 3 => true
  | 4 => decide (v.toNat < 0x400000)
  | 5 => decide (v.toNat < 0x100000000) && !s.dealers.fepochLock
  | 12 => decide (2 ≤ v.toNat) && decide (v.toNat ≤ 1000)
  | 13 => decide (50 ≤ v.toNat) && decide (v.toNat ≤ 10000)
  | _ => false

/-- Writes a special register. -/
def State.putSpecial (s : State) (c n : Nat) (v : W64) : State :=
  match n with
  | 1 => s.modCtx c (fun x => { x with epoch := v.setWidth 32 })
  | 2 => s.modCtx c (fun x => { x with ctimer := v.setWidth 32 })
  | 3 => s.modCtx c (fun x => { x with status := putBits v 2 (0 : BitVec 6) })
  | 4 => s.modCtx c (fun x => { x with missptr := v.setWidth 22 })
  | 5 => { s with dealers := { s.dealers with fepoch := v.setWidth 32 } }
  | 12 => { s with dealers := { s.dealers with cmdResend := v.setWidth 10 } }
  | 13 => { s with dealers := { s.dealers with drainLimit := v.setWidth 14 } }
  | _ => s

/-- WRS (R136, R149). -/
def execUciWrs (c : Fin 16) (s : State) : Result :=
  .next (s.uci c 0x1F (fun s w =>
    let n := (uImm w).toNat
    let v := (s.ctx c).reg (uRa w)
    (if s.wrsOk n v then s.putSpecial c n v else s.ignore).stepPc c))

/-! ## Halts and the sleep of YIELD -/

/-- ILLEGAL_INSTRUCTION (R138): cause ILLEGAL, whatever the guard. -/
def execIllegalInstruction (c : Fin 16) (s : State) : Result :=
  .next (if s.mayIssue c ∧ ¬ uLegal (s.fetch c) then (s.halt c (exitWord 2 0)).ignore else s)

/-- R183: an uncorrectable error in the active core's stores stops its heartbeat. -/
def State.stopHeart (s : State) : State := { s with dealers := { s.dealers with hbStop := true } }

/-- CONTEXT_FAULT (R138): the fault of the instruction at PC, or an uncorrectable error of a store. -/
def execContextFault (c : Fin 16) (ecc : Bool) (s : State) : Result :=
  let w := s.fetch c
  let x := s.ctx c
  .next (if ¬ s.mayIssue c then s
    else if ecc then (s.halt c (exitWord 6 0)).stopHeart
    else if uLegal w ∧ x.guard w ∧ x.faultOf w ≠ 0 then s.halt c (exitWord (x.faultOf w) 0) else s)

/-- CTIMER_EXPIRE (R136, R149): the timer stands at 0, and a context asleep under YIELD goes on. -/
def execCtimerExpire (c : Fin 16) (s : State) : Result :=
  .next (s.modCtx c (fun x =>
    if x.asleep then { x.next with ctimer := 0, asleep := false, run := .running } else { x with ctimer := 0 }))

end Sys2Proof.Machine
end

