-- ==== Sys2Proof/Machine/UciEnd.lean ====
section
/-! DEFINITION. The command engine's commands: issue, resend, response, the tmo and drain limits (R87, R140, R146), restart
pacing (R338, R339) and the fold monitor (R323–R328). -/

namespace Sys2Proof.Machine

/-- CMD_ISSUE (R146). -/
def execCmdIssue (c : Fin 16) (i : Nat) (s : State) : Result := .next (s.cmdIssue c i)

/-- A context that waits to claim a ledger mailbox reads CLAIM again after each CMD_RESEND interval (R402). -/
def State.mbxRetry (s : State) (c : Nat) : State :=
  match (s.ctx c).long with
  | some r => if uOp r.word = 0x64 ∧ 2 ≤ uMod r.word then s.mbxWake (bitsAt r.ra 0 12).toNat mbxFuel else s
  | none => s

/-- CMD_RESEND (R143, R146, R154); in a takeover gap no instruction is live (R187). -/
def execCmdResend (c : Fin 16) (i : Nat) (s : State) : Result :=
  .next (if s.dealers.takeover ≠ .none then s else (s.mbxRetry c).cmdResend c i)

/-- CMD_RESPONSE (R144, R146). -/
def execCmdResponse (f : Flit) (s : State) : Result := .next (s.cmdResponse f)

/-! ## Limits -/

/-- WAVE at its limit: the engines of dies that reached what it asked for are done, the others missed (R159). -/
def State.waveCount (s : State) (r : Running) : Nat × Nat :=
  let ds := maskDies r.ra
  let awake (d : Nat) : Bool := (s.die d).st = 4 || (s.die d).st = 5
  if uMod r.word = 2 then
    let es := ds.flatMap (fun d => (List.range 8).map (fun i => 8 * d + i))
    let ok := es.filter (fun e => awake (e / 8) && !(s.die (e / 8)).katLeft.getLsbD (e % 8) && decide ((s.eng e).st ≠ 4))
    (ok.length, es.length - ok.length)
  else
    let ok := ds.filter (fun d => if uMod r.word = 0 then awake d else !(s.die d).sleepReq)
    (ok.length, ds.length - ok.length)

/-- A long instruction's limit arrives: ABORT ranks above TIMEOUT, and nothing sent or written is undone (R140, R142, R144). -/
def State.timeOut (s : State) (c : Nat) (r : Running) : State :=
  if r.first ≠ 0 then (if r.notVerified then s.closeUnverified r else s).endTargets c r 2 0x13
  else if r.notVerified then (s.closeUnverified r).endTargets c r 2 0x16
  else match (uOp r.word).toNat with
    | 0x1D =>
      let (v, s) := s.freeVal 32
      let x := s.ctx c
      let n := v.toNat % (uImm r.word).toNat
      (s.copyUnits (uMod r.word = 1) (x.copyDs r.word) (x.copyDep r.word) n).endLong c 0x1D 1 1 n 0 0
    | 0x81 => let n := s.waveCount r; s.endLong c 0x81 1 1 n.1 n.2 0
    | _ => s.endTargets c r 1 1

/-- INSN_TIMEOUT (R140). -/
def execInsnTimeout (c : Fin 16) (s : State) : Result :=
  .next (match (if s.dealers.takeover = .none then (s.ctx c).long else none) with
    | some r => s.timeOut c r
    | none => s)

/-- DRAIN_LIMIT_EXPIRE (R87, R153): a DRAIN ends with reason DRAIN_LIMIT. -/
def execDrainLimitExpire (c : Fin 16) (s : State) : Result :=
  .next (match (if s.dealers.takeover = .none then (s.ctx c).long else none) with
    | some r => if uOp r.word ≠ 0x24 then s
                else if r.first ≠ 0 then s.endTargets c r 2 0x13 else s.endTargets c r 1 3
    | none => s)

/-! ## Restart pacing (R338, R339) -/

/-- RESTART_TOKEN_REFILL (R339): one token, until the bucket is full. -/
def execRestartTokenRefill (dom : Fin 32) (s : State) : Result :=
  .next (s.setFold (fun f => { f with tokens := SMap.modify zNat f.tokens dom (· - 1) }))

/-- The held command of an entry, if its instruction still waits to send it. -/
def State.heldCmd (s : State) (x : Nat × Nat × Nat) : Option (Running × Target × CmdSpec) :=
  match (s.ctx x.2.1).long with
  | none => none
  | some r => match r.targets[x.2.2]? with
    | none => none
    | some t => match t.cmdOf with
      | some k => if t.state = 0 ∧ t.seq.isNone ∧ k.op = 0x11 then some (r, t, k) else none
      | none => none

/-- Sends a domain's oldest held PRESET, taking a token. -/
def State.sendHeld (s : State) (dom : Nat) : State :=
  match s.fab.fold.waiting.find? (fun x => x.1 = dom) with
  | none => s
  | some x =>
    if s.tokensOf dom = 0 ∨ s.dealers.takeover ≠ .none then s
    else
      let s := s.setFold (fun f => { f with waiting := dropFirst f.waiting x })
      match s.heldCmd x with
      | some (r, t, k) => (s.takeToken dom).issueNow x.2.1 x.2.2 r t k
      | none => s

/-- PRESET_HELD_SEND (R339). -/
def execPresetHeldSend (dom : Fin 32) (s : State) : Result := .next (s.sendHeld dom)

/-- A write of BUDGET: the bucket keeps its tokens, at most the new size (R323, R339). -/
def State.wBudget (s : State) (d : Nat) (v : W32) : Option State :=
  if ¬ inRange v 1 65535 then none
  else
    let left := min (s.tokensOf d) v.toNat
    some (s.setFold (fun f => { f with
      budget := SMap.set budgetDflt f.budget d (v.setWidth 16)
      tokens := SMap.set zNat f.tokens d (v.toNat - left) }))

/-- BUDGET_WRITE (R339). -/
def execBudgetWrite (n : Fin 8) (dom : Fin 32) (v : W32) (s : State) : Result := .next (s.ownerWrite n (fun s => s.wBudget dom v))

/-! ## The fold monitor (R324–R327) -/

/-- A partition fold by the monitor: STATE = 5 by AGENT_WRITE, the record, the log. -/
def State.foldPartition (s : State) (id : W16) (p : Fin 16) (cause : Byte) : State :=
  if (s.foldPart id p).folded then s
  else (s.recordPartFold id p cause).devCmd id (agWrite (0xA004 + 0x40 * p) [0x50])

/-- An accelerator fold by the monitor: BIND unbind and the record; its trump is due when asked for (R325). -/
def State.foldAccel (s : State) (id : W16) (cause : Byte) (trump : Bool) : State :=
  let s := if (s.foldAcc id).folded then s else (s.recordAccFold id cause).devCmd id (agCmd 0x0E 0x80000000)
  if trump then s.setFold (fun f => { f with trumpDue := addNew f.trumpDue id }) else s

/-- A partition fold, and the accelerator's when no partition is left. -/
def State.foldAndCheck (s : State) (id : W16) (p : Fin 16) (cause : Byte) : State :=
  let s := s.foldPartition id p cause
  if s.allFolded id then s.foldAccel id 5 true else s

/-- RST_DONE: the time is recorded; a count that reaches FOLD_RESETS marks the partition due. -/
def State.foldReset (s : State) (id : W16) (p : Fin 16) : State :=
  let s := (s.addReset id p).stream (.partReset id p)
  if s.fab.fold.en ∧ s.fab.fold.resets.toNat ≤ s.foldCount id p then s.modFoldPart id p (fun x => { x with due := true }) else s

/-- What the monitor does on a PART notice. -/
def State.foldAct (s : State) (id : W16) (p : Fin 16) (ev : Byte) : State :=
  let f := s.fab.fold
  let due := (s.foldPart id p).due
  if ev = 3 then s.foldReset id p
  else if ¬ f.en then s
  else match ev.toNat with
    | 2 => s.foldAccel id 4 true
    | 4 => if f.onRto then s.foldAndCheck id p 3 else if due then s.foldAndCheck id p 1 else s
    | 5 => if due then s.foldAndCheck id p 1 else s
    | 6 => if f.onKat then s.foldAndCheck id p 2 else if due then s.foldAndCheck id p 1 else s
    | _ => s

/-- Posts PART for an event no instruction waits on (R175). -/
def State.partEvent (s : State) (src : W16) (p ev : Byte) : State :=
  if (ev = 2 ∨ ev = 4 ∨ ev = 6 ∨ ev = 7) ∧ s.noticeHits src (fun r _ => partWaits r p ev) = [] then
    s.post 0x06 src ((ev ++ p).setWidth 128)
  else s

/-- PART_NOTICE (R325): the oldest PART notice: the monitor first, then the event or the instructions that wait on it. Through
a takeover gap it waits (R187). -/
def execPartNotice (s : State) : Result :=
  .next (match s.fab.fold.notices with
    | [] => s
    | f :: fs =>
      if s.dealers.takeover ≠ .none then s
      else
      let s := s.setFold (fun b => { b with notices := fs })
      let p : Byte := byteField f.pay 1 8
      let ev : Byte := byteField f.pay 2 8
      if h : p.toNat < 16 then
        let s1 := if s.isActive then s.foldAct f.src ⟨p.toNat, h⟩ ev else s
        let folded := (s1.foldPart f.src p.toNat).folded
        let s1 := s1.partEvent f.src p ev
        s1.partInsn f.src p ev folded
      else s)

/-- RETURNING_UNBIND (R336): before anything else, an agent with an unbind pending is sent BIND unbind. -/
def execReturningUnbind (id : W16) (s : State) : Result :=
  .next (if (s.foldAcc id).unbindPending then s.devCmd id (agCmd 0x0E 0x80000000) else s)

end Sys2Proof.Machine
end

