-- ==== Sys2Proof/Machine/SecCmds.lean ====
section
/-! DEFINITION. The Assayers' commands (R406–R414, R420, R424), depot allocations (R422), the coin-cell domain (R425–R431)
and set-key transfers (R430). -/

namespace Sys2Proof.Machine

def State.setVbat (s : State) (f : Vbat → Vbat) : State := { s with vbat := f s.vbat }
def State.setAsy (s : State) (f : Assayer → Assayer) : State := { s with asy := f s.asy }

/-- A coin-cell counter (R425). -/
def State.mono (s : State) (i : Nat) : W32 := SMap.get z32 s.vbat.mono i
def State.bumpMono (s : State) (i : Nat) : State := s.setVbat (fun v => { v with mono := SMap.modify z32 v.mono i satInc })

/-- A log entry whose detail and data the source does not state: free values (R425, log 6). -/
def State.vlogFree (s : State) (code : Byte) : State :=
  let r := s.freeVal 40
  r.2.vlog code (bitsAt r.1 0 8) (bitsAt r.1 8 32)

/-- A draw of the random bit generator. -/
def State.draw (s : State) (w : Nat) : BitVec w × State := (Config.random w s.fresh, { s with fresh := s.fresh + 1 })

/-- The 16 measurement registers. -/
def State.allMeas (s : State) : List Digest := (List.range 16).map s.meas

/-! ## ATTEST mode 0 (R411, R414) -/

/-- A fresh release key: numbered with the next release ID; at most eight are held, the oldest unused giving way. -/
def State.newRelease (s : State) : ReleaseKey × State :=
  let (p, s) := s.draw 384
  let k : ReleaseKey := { id := s.asy.lastRel + 1, priv := p, pub := Config.ecPublic p }
  let add (t : Store) : Store := { t with release := keepLast 8 (t.release.filter (·.usable) ++ [k]) }
  (k, s.setAsy (fun a => { a with store := add a.store, mirror := if a.mirrorOk then add a.mirror else a.mirror, lastRel := a.lastRel + 1 }))

/-- Bytes 0–927 of the evidence record. -/
def State.evidence (s : State) (k : ReleaseKey) (nonce : List Byte) : List Byte :=
  toBytes 4 (1 : W32) ++ toBytes 4 k.id ++ nonce ++ toBytes 96 k.pub ++ toBytes 4 (s.mono 0) ++ toBytes 4 (s.vbat.cause.setWidth 32) ++
    toBytes 4 (bitW (decide (s.plat.opt.drifted ≠ [])) 0) ++ List.replicate 12 0 ++ s.allMeas.flatMap (toBytes 48)

/-- ATTEST mode 0: the record with its signature goes to the evidence area. -/
def State.attestOwn (s : State) (c : Nat) (r : Running) : State :=
  let (k, s) := s.newRelease
  let e := s.evidence k (s.dsRead r.rb.toNat 32)
  (s.dsWrite r.rd.toNat (e ++ toBytes 96 (Config.aliasSign (sha384 e)))).succeed c 0x70 0 0

/-! ## ATTEST mode 1 and the secure channel (R126, R405, R424) -/

def State.spdm (s : State) (k : Nat) : Option SpdmSess := SMap.get noneOf s.asy.sess k
def State.setSpdm (s : State) (k : Nat) (x : Option SpdmSess) : State := s.setAsy (fun a => { a with sess := SMap.set noneOf a.sess k x })

/-- A session is in use while the ATTEST that made it waits on it. -/
def State.spdmLive (s : State) (k : Nat) : Bool :=
  match s.spdm k with
  | none => false
  | some x => match (s.ctx x.ctx).long with
    | some r => uOp r.word = 0x70 && decide (r.phase = 1) && decide (r.arg = k)
    | none => false

/-- The SEC_MSG commands of a message: fragments of 32 bytes, the last marked. -/
def secSteps (msg : List Byte) : List TStep :=
  let n := (msg.length + 31) / 32
  (List.range n).map (fun f =>
    let bs := (msg.drop (32 * f)).take 32
    .cmd { op := 0x17, gen := 0, arg := BitVec.ofNat 32 (f + (if f + 1 = n then 256 else 0)),
           words := (List.range ((bs.length + 3) / 4)).map (fun i => ofBytes 32 ((bs.drop (4 * i)).take 4)) })

/-- The requester's next SEC message: a header of 4 bytes and up to 252 more; the low bit of the first byte drawn tells a
secured message. -/
def State.secSend (s : State) (k : Nat) (x : SpdmSess) : State :=
  let m := Config.spdmRequest s.fresh x.step
  let kind : Byte := if (m.headD 0).getLsbD 0 then 2 else 1
  let body := (m.drop 1).take 252
  let s := ({ s with fresh := s.fresh + 1 }).setSpdm k (some { x with step := x.step + 1, inbuf := [] })
  s.devSteps x.agent (secSteps ([kind, BitVec.ofNat 8 k] ++ toBytes 2 (BitVec.ofNat 16 body.length) ++ body))

/-- An ATTEST mode 1 that waits for a free secure mailbox takes the lowest. -/
def State.tryAttest (s : State) (c : Nat) (r : Running) : State :=
  match (List.range 64).find? (fun k => !s.spdmLive k) with
  | none => s
  | some k =>
    let x : SpdmSess := { agent := bitsAt r.ra 0 16, ctx := c, step := 0 }
    ((s.putRun c { r with phase := 1, arg := k }).setSpdm k (some x)).secSend k x

/-- Contexts waiting for a secure mailbox go on. -/
def State.attestWake (s : State) : State :=
  (s.waiting 0x70).foldl (fun s x => if x.2.phase = 0 then s.tryAttest x.1 x.2 else s) s

/-- ATTEST at issue (R158). -/
def State.issueAttest (s : State) (c : Nat) (w : W64) : State :=
  let r := Running.ofWord (s.ctx c) w
  s.inStore c r.rb.toNat 32 (fun s =>
    if uMod w = 0 then s.inStore c r.rd.toNat 1024 (fun s => (s.waitJ c r).attestOwn c r)
    else s.inStore c r.rd.toNat 96 (fun s => (s.waitJ c r).tryAttest c r))

/-- ATTEST (R158). -/
def execUciAttest (c : Fin 16) (s : State) : Result := .next (s.uci c 0x70 (fun s w => s.issueAttest c w))

/-- An exchange ends: the chain's root, the signature and the measurement digest are checked, the blocks written. -/
def State.attestEnd (s : State) (k : Nat) (x : SpdmSess) (root : Digest) (sig : Bool) (blocks : List Byte) : State :=
  match (s.ctx x.ctx).long with
  | none => s.setSpdm k none
  | some r =>
    let a := r.rd.toNat
    let want := s.dsRead (a + 48) 48
    let ok := sig && decide (s.dsRead a 48 = toBytes 48 root) &&
      (decide (want = List.replicate 48 0) || decide (want = toBytes 48 (sha384 blocks)))
    let s := (s.setSpdm k none).dsWrite (a + 96) (blocks.take (dstoreSize - (a + 96)))
    (if ok then s.succeed x.ctx 0x70 0 0 else s.abort x.ctx 0x70 0x23).attestWake

/-- The session a SEC fragment belongs to: fragment 0 names it, later ones follow the message begun. -/
def State.secSession (s : State) (f : Flit) : Option (Nat × SpdmSess) :=
  (List.range 64).findSome? (fun k => match s.spdm k with
    | some x =>
      if s.spdmLive k ∧ x.agent = f.src ∧ (if byteField f.pay 1 8 = (0 : Byte) then (byteField f.pay 9 8 : Byte) = BitVec.ofNat 8 k else x.inbuf ≠ []) then
        some (k, x) else none
    | none => none)

/-- A SEC notice reaches the secure bank and, with its last fragment, the Assayer (R118, R405, R424). -/
def State.secNotice (s : State) (f : Flit) : State :=
  match s.secSession f with
  | none => s
  | some (k, x) =>
    let data : BitVec 256 := byteField f.pay 8 256
    let s := { s with led := { s.led with secure := SMap.set (fun _ => (0 : BitVec 320)) s.led.secure k (data.setWidth 320) } }
    let buf := x.inbuf ++ toBytes 32 data
    if (byteField f.pay 2 8 : Byte) = 0 then s.setSpdm k (some { x with inbuf := buf })
    else
      let x := { x with inbuf := [], seen := x.seen ++ (buf.drop 4).take (lb buf 2 2) }
      match Config.spdmResult x.seen with
      | none => s.secSend k x
      | some (root, sig, blocks) => s.attestEnd k x root sig blocks

/-- SPDM_SESSION_TIMEOUT (R424): the session is lost and its mailbox freed; its instruction runs to its limit. -/
def execSpdmSessionTimeout (k : Fin 64) (s : State) : Result :=
  .next (match s.spdm k with
    | none => s
    | some x =>
      let s := s.setSpdm k none
      match (s.ctx x.ctx).long with
      | some r => if uOp r.word = 0x70 ∧ r.phase = 1 ∧ r.arg = k.val then (s.putRun x.ctx { r with phase := 2 }).attestWake else s.attestWake
      | none => s.attestWake)

/-! ## Responder, operator root, provisioning (R408, R410, R412, R413) -/

/-- The Assayer answers an SPDM message; what the answer says is the standard's. -/
def State.spdmAnswer (s : State) (req : List Byte) : State :=
  ({ s with fresh := s.fresh + 1 }).emit (.spdm (Config.spdmRespond req s.allMeas s.fresh))

/-- SPDM_REQUEST (R410). -/
def execSpdmRequest (req : List Byte) (s : State) : Result := .next (s.spdmAnswer req)

/-- SET_CERTIFICATE (R412): sets the operator root when none is provisioned or PROV_UNLOCK is open. -/
def execSetCertificate (cert : List Byte) (s : State) : Result :=
  .next (
    let s1 := s.spdmAnswer cert
    if Config.chainOk cert ∧ (¬ s.vbat.rootSet ∨ s.asy.unlock) then
      let root := Config.rootOf cert
      let s2 := s1.setVbat (fun v => { v with rootSet := true, rootHash := sha384 root })
      ((s2.setAsy (fun a => { a with rootChain := cert, unlock := false })).bumpMono 1).extend 8 root
    else s1)

/-- PROV_UNLOCK accepts a write only from an owner session over Ethernet (R412). -/
def State.wProvUnlock (s : State) (n : Nat) : Option State :=
  if 2 ≤ (s.session n).path.toNat then some (s.setAsy (fun a => { a with unlock := true })) else none

/-- PROV_UNLOCK (R412). -/
def execProvUnlock (n : Fin 8) (s : State) : Result := .next (s.ownerWrite n (fun s => s.wProvUnlock n))

/-- PROV_UNLOCK_EXPIRE (R412). -/
def execProvUnlockExpire (s : State) : Result := .next (s.setAsy (fun a => { a with unlock := false }))

/-- ROLLFWD raises counter 0 to the running image's security version, never beyond it and never down (R408). -/
def State.wRollfwd (s : State) : Option State :=
  if (s.mono 0).toNat ≤ s.asy.secVer.toNat then some (s.setVbat (fun v => { v with mono := SMap.set z32 v.mono 0 s.asy.secVer })) else none

/-- ROLLFWD (R408). -/
def execRollfwd (n : Fin 8) (s : State) : Result := .next (s.ownerWrite n (fun s => s.wRollfwd))

/-- EXTEND_GO's effect (R413). -/
def State.wExtendGo (s : State) : Option State := some (s.extend s.asy.extIdx.toNat (toBytes 48 s.asy.extData))

/-- EXTEND_GO (R413). -/
def execExtendGo (n : Fin 8) (s : State) : Result := .next (s.ownerWrite n (fun s => s.wExtendGo))

/-- RELEASE_KEY_EXPIRE (R414). -/
def execReleaseKeyExpire (id : W32) (s : State) : Result :=
  .next (
    let off (t : Store) : Store := { t with release := t.release.map (fun r => if r.id = id then { r with usable := false } else r) }
    s.setAsy (fun a => { a with store := off a.store, mirror := off a.mirror }))

/-- MIRROR_REBUILD (R407). -/
def execMirrorRebuild (s : State) : Result := .next (s.setAsy (fun a => { a with mirror := a.store, mirrorOk := true }))

/-! ## The set key (R420, R430) -/

/-- The set members' hashes. -/
def State.setMembers (s : State) : List Digest := (List.range s.vbat.setCount.toNat).map (fun i => SMap.get zDig s.vbat.members i)

/-- SET_GEN's effect: ignored while held, with a set key, or when the package is no member. -/
def State.wSetGen (s : State) : Option State :=
  if s.vbat.held ∨ s.vbat.setValid ∨ ¬ s.setMembers.contains Config.identityHash then none
  else
    let (k, s) := s.draw 256
    some (((s.setVbat (fun v => { v with setKey := k, setValid := true })).bumpMono 2).vlogFree 5)

/-- SET_GEN (R420). -/
def execSetGen (n : Fin 8) (s : State) : Result := .next (s.ownerWrite n (fun s => s.wSetGen))

/-- XFER_ALLOW's effect: member v − 1 may take the key for 60 s; a held package takes part only as receiver. -/
def State.wXferAllow (s : State) (v : W32) : Option State :=
  if s.vbat.held ∨ ¬ inRange v 1 8 ∨ s.vbat.setCount.toNat < v.toNat then none
  else some (s.setAsy (fun a => { a with allow := a.allow.filter (fun x => decide (x.1 ≠ v.toNat - 1)) ++ [(v.toNat - 1, s.us)] }))

/-- XFER_ALLOW (R430). -/
def execXferAllow (n : Fin 8) (v : W32) (s : State) : Result := .next (s.ownerWrite n (fun s => s.wXferAllow v))

/-- A notice of this package's to another (R189, R430): table-routed through a neighbour that has tables; else, for the peer,
path-routed through a switch that both packages reach, the notice following the path list (DESIGN CHOICE, log 105); else it is
lost. -/
def State.peerNotice (s : State) (to_ : W16) (body : List Byte) : State :=
  if s.cutOff then s
  else match s.neighbours.find? (fun n => match s.known n.2 with | some k => k.table | none => false) with
    | some (p, _) =>
      s.sendOn p.toNat ({ cls := 6, dest := to_, src := s.myId, age := 32, pay := payOf body } : Flit).seal
    | none => match (if to_ = s.peerId then s.neighbours.findSome? (fun n => (s.peerPort n.2).map (fun q => (n.1, q))) else none) with
      | some (p, q) =>
        s.sendOn p.toNat ({ cls := 6, dest := 0xFFFF, src := s.myId, age := 32, path := true,
                            pay := payOf ([2] ++ fitBytes 16 [p, q] ++ body) } : Flit).seal
      | none => s

/-- The receiver's next message of its session with the giver's Assayer, in a notice of code 0x21 (R430); its words are SPDM's. -/
def State.xferSend (s : State) (to_ : W16) : State :=
  ({ s with fresh := s.fresh + 1 } : State).peerNotice to_ (0x21 :: fitBytes 47 (Config.spdmRequest s.fresh 0))

/-- XFER_REQ's effect: a transfer runs, and its session is opened. -/
def State.wXferReq (s : State) (v : W32) : Option State :=
  if 0xFFFF < v.toNat then none else some ((s.setAsy (fun a => { a with xfer := 1 })).xferSend (v.setWidth 16))

/-- XFER_ALLOW for a member was written within the last 60 s (R430). -/
def State.xferAllowed (s : State) (i : Nat) : Bool :=
  s.asy.allow.any (fun x => decide (x.1 = i) && decide (s.us < x.2 + 60000000))

/-- What a giver answers a receiver of this identity-key hash and these registers 1, 4 and 5 (R430). -/
def State.xferAnswer (s : State) (q : Digest × List Digest) : XferReply :=
  let ms := s.setMembers
  if ¬ s.vbat.setValid ∨ s.vbat.held then .refused
  else if ¬ ms.contains q.1 then .notMember
  else if q.2 = [s.meas 1, s.meas 4, s.meas 5] ∧ s.xferAllowed (ms.findIdx (· = q.1)) then
    .key s.vbat.setKey s.vbat.setId s.vbat.setCount ms
  else .refused

/-- A notice of code 0x21 (R430): a receiver goes on with its session, a giver answers. -/
def State.xferNotice (s : State) (src : W16) (msg : List Byte) : State :=
  if s.asy.xfer = 1 then s.xferSend src
  else match Config.xferAsk msg s.fresh with
    | some q => ({ s with fresh := s.fresh + 1 } : State).emit (.setKey src (s.xferAnswer q))
    | none => s.spdmAnswer msg

/-- XFER_REQ (R430). -/
def execXferReq (n : Fin 8) (v : W32) (s : State) : Result := .next (s.ownerWrite n (fun s => s.wXferReq v))

/-- The receiver stores the key and the set's fields. -/
def State.takeSetKey (s : State) (k : BitVec 256) (id : W32) (count : BitVec 4) (ms : List Digest) : State :=
  let m := ((ms.take 8).zipIdx).foldl (fun (m : SMap Digest) p => SMap.set zDig m p.2 p.1) []
  ((s.setVbat (fun v => { v with setKey := k, setId := id, setCount := count, members := m, setValid := true })).vlogFree 11).setAsy
    (fun a => { a with xfer := 2 })

/-- XFER_END (R430). -/
def execXferEnd (r : XferReply) (s : State) : Result :=
  .next (
    if s.asy.xfer ≠ 1 then s
    else match r with
      | .key k id count ms => s.takeSetKey k id count ms
      | .refused => s.setAsy (fun a => { a with xfer := 3 })
      | .timeout => s.setAsy (fun a => { a with xfer := 4 })
      | .notMember => s.setAsy (fun a => { a with xfer := 5 }))

/-! ## Depot allocations (R422) -/

def Alloc.addr (a : Alloc) : Nat := a.base.toNat * allocUnit
def Alloc.len (a : Alloc) : Nat := a.size.toNat * allocUnit

/-- Queues an entry's scrub. -/
def State.scrubAlloc (s : State) (i : Nat) (next : BitVec 2) : State :=
  let a := s.alloc i
  let s := s.modAlloc i (fun x => { x with st := 2 })
  { s with depot := { s.depot with scrubs := s.depot.scrubs ++ [{ addr := a.addr, len := a.len, entry := some (i, next), ctx := none }] } }

/-- A range overlaps another entry that is not FREE. -/
def State.allocMeets (s : State) (i a n : Nat) : Bool :=
  s.depot.allocs.any (fun p => decide (p.1 ≠ i) && decide (p.2.st ≠ 0) && decide (p.2.addr < a + n) && decide (a < p.2.addr + p.2.len))

/-- A range meets a stack that is being retired, where new GRANTs are refused (R458). -/
def State.retiringAt (s : State) (a n : Nat) : Bool :=
  (List.range 6).any (fun i =>
    s.plat.bring.retiring.getLsbD i && decide (i * stackSize < a + n) && decide (a < (i + 1) * stackSize))

/-- GRANT. -/
def State.wGrant (s : State) (i : Nat) : Option State :=
  let a := s.alloc i
  if a.st ≠ 0 ∨ a.size = 0 ∨ ¬ s.inDepot a.addr a.len ∨ s.retiringAt a.addr a.len ∨ s.allocMeets i a.addr a.len then none else some (s.scrubAlloc i 1)

/-- DEPOT_GRANT (R422). -/
def execDepotGrant (n : Fin 8) (i : Fin 256) (s : State) : Result := .next (s.ownerWrite n (fun s => s.wGrant i))

/-- RELEASE. -/
def State.wRelease (s : State) (i : Nat) : Option State :=
  let a := s.alloc i
  if a.st ≠ 1 ∨ s.rangeBusy a.addr a.len then none else some (s.scrubAlloc i 0)

/-- DEPOT_RELEASE (R422). -/
def execDepotRelease (n : Fin 8) (i : Fin 256) (s : State) : Result := .next (s.ownerWrite n (fun s => s.wRelease i))

/-- TENANT. -/
def State.wAllocTenant (s : State) (i : Nat) (v : W32) : Option State :=
  let a := s.alloc i
  let t : W16 := v.setWidth 16
  if 0xFFFF < v.toNat ∨ a.st = 2 then none
  else if a.st = 0 ∨ a.tenant = t then some (s.modAlloc i (fun x => { x with tenant := t }))
  else if s.rangeBusy a.addr a.len then none
  else some ((s.modAlloc i (fun x => { x with tenant := t })).scrubAlloc i 1)

/-- DEPOT_TENANT_WRITE (R422). -/
def execDepotTenantWrite (n : Fin 8) (i : Fin 256) (v : W32) (s : State) : Result := .next (s.ownerWrite n (fun s => s.wAllocTenant i v))

/-- A SCRUB instruction whose depot range is done ends. -/
def State.endDepotScrub (s : State) (x : Scrub) : State :=
  match x.ctx with
  | none => s
  | some c => match (s.ctx c).long with
    | some r => if uOp r.word = 0x73 ∧ uMod r.word = 3 ∧ r.ra.toNat = x.addr ∧ r.rb.toNat = x.len then s.succeed c 0x73 0 0 else s
    | none => s

/-- DEPOT_SCRUB_DONE (R422): the running scrub's range reads 0, and its entry or instruction goes on. -/
def execDepotScrubDone (s : State) : Result :=
  .next (match s.depot.scrubs with
    | [] => s
    | x :: xs =>
      let s := { s with depot := { s.depot with
        mem := s.depot.mem.filter (fun b => decide (b.1 < x.addr) || decide (x.addr + x.len ≤ b.1))
        bad := s.depot.bad.filter (fun l => decide (64 * l + 63 < x.addr) || decide (x.addr + x.len ≤ 64 * l))
        scrubs := xs } }
      let s := match x.entry with
        | some (i, st) => s.modAlloc i (fun a => { a with st := st })
        | none => s
      s.endDepotScrub x)

/-! ## The coin-cell domain (R425–R431) -/

/-- What every alarm does (R428): the set key goes, the alarm is logged, then code 6; its flag and cause are set. -/
def State.alarm (s : State) (code : Byte) (temp : Bool) : State :=
  let s := (s.vlogFree code).vlogFree 6
  s.setVbat (fun v => { v with setKey := 0, setValid := false, tamper := v.tamper || !temp, temp := v.temp || temp,
                               cause := putBit v.cause (if temp then 1 else 0) true })

/-- TEMP_ALARM (R427, R428): on the cell alone. -/
def execTempAlarm (high : Bool) (s : State) : Result := .next (s.alarm (if high then 3 else 2) true)

/-- BATT_LOST (R425, R426, R428): the domain is reset, and the package is held; its key slots go. -/
def execBattLost (s : State) : Result :=
  .next (
    let s := ((s.setVbat (fun _ => ({ ok := false, battLost := true, cause := 4, held := true } : Vbat))).vlogFree 4)
    ((List.range 64).foldl State.startErase s).keyWake)

/-- RTC_SET's effect. -/
def State.wRtcSet (s : State) (v : W32) : Option State := some ((s.setVbat (fun b => { b with rtcS := v, rtcSub := 0 })).vlogFree 8)

/-- RTC_SET (R425). -/
def execRtcSet (n : Fin 8) (v : W32) (s : State) : Result := .next (s.ownerWrite n (fun s => s.wRtcSet v))

/-- MONO_INC's effect: the owner counters 3–7. -/
def State.wMonoInc (s : State) (v : W32) : Option State :=
  if within v 0xF8 then some ([3, 4, 5, 6, 7].foldl (fun s i => if v.getLsbD i then s.bumpMono i else s) s) else none

/-- MONO_INC (R425). -/
def execMonoInc (n : Fin 8) (v : W32) (s : State) : Result := .next (s.ownerWrite n (fun s => s.wMonoInc v))

/-- HELD_CLEAR's effect (R431). -/
def State.wHeldClear (s : State) : Option State :=
  if s.vbat.setValid ∧ bitsAt s.vbat.cause 3 2 = (0 : BitVec 2) then
    some ((s.setVbat (fun v => { v with held := false, cause := 0, tamper := false, temp := false })).vlogFree 7)
  else none

/-- HELD_CLEAR (R431). -/
def execHeldClear (n : Fin 8) (s : State) : Result := .next (s.ownerWrite n (fun s => s.wHeldClear))

end Sys2Proof.Machine
end

