-- ==== Sys2Proof/Machine/Takeover.lean ====
section
/-! DEFINITION. The dealer pair (R148, R183–R188): heartbeats, the journal applier, the takeover, and re-execution. -/

namespace Sys2Proof.Machine

/-! ## Pair frames (R189) -/

/-- A pair frame of this package's. -/
def State.pairFrame (s : State) (typ : Byte) (number : W32) : PairFrame :=
  let head := [typ, 0] ++ toBytes 2 s.myId ++ toBytes 2 s.dealers.cepoch ++ [0, 0] ++ toBytes 4 number
  { typ := typ, rsv1 := 0, sender := s.myId, cepoch := s.dealers.cepoch, rsv2 := 0, number := number, crc := crc32c head }

/-- The 16 bytes of a frame. -/
def frameBytes (f : PairFrame) : List Byte :=
  [f.typ, f.rsv1] ++ toBytes 2 f.sender ++ toBytes 2 f.cepoch ++ toBytes 2 f.rsv2 ++ toBytes 4 f.number ++ toBytes 4 f.crc

/-- The frame that 16 bytes spell. -/
def frameOf (bs : List Byte) : PairFrame :=
  { typ := bs.getD 0 0, rsv1 := bs.getD 1 0, sender := ofBytes 16 ((bs.drop 2).take 2), cepoch := ofBytes 16 ((bs.drop 4).take 2)
    rsv2 := ofBytes 16 ((bs.drop 6).take 2), number := ofBytes 32 ((bs.drop 8).take 4), crc := ofBytes 32 ((bs.drop 12).take 4) }

/-- The body of a pair notice: code 0x20, and the frame in bytes 8–23. -/
def pairBody (f : PairFrame) : List Byte := 0x20 :: List.replicate 7 0 ++ frameBytes f

/-- A pair frame on the fabric (R189). -/
def State.fabricFrame (s : State) (f : PairFrame) : State := s.peerNotice s.peerId (pairBody f)

/-- Sends a frame on the wire, or on the fabric. -/
def State.pairOut (s : State) (wire : Bool) (f : PairFrame) : State := if wire then s.emit (.pair f) else s.fabricFrame f

/-- Sends a frame on both paths. -/
def State.sendPair (s : State) (typ : Byte) (number : W32) : State :=
  (s.pairOut true (s.pairFrame typ number)).pairOut false (s.pairFrame typ number)

/-- The CRC a received frame must carry. -/
def frameCrc (f : PairFrame) : W32 :=
  crc32c ([f.typ, f.rsv1] ++ toBytes 2 f.sender ++ toBytes 2 f.cepoch ++ toBytes 2 f.rsv2 ++ toBytes 4 f.number)

/-! ## Takeover (R185–R188) -/

/-- A takeover fails (R188): both dealers isolated, FAULT_N, YIELD (R190), no more renewing. The frame leaves the pair unit, which
the isolation does not cut. -/
def State.failTakeover (s : State) : State :=
  let t := (s.sendPair 3 s.pair.number).faultBit 0
  ({ t with dealers := { t.dealers with takeover := .failed, core := {}, bg := [] } }).setPair (fun p => { p with stopped := true })

/-- R186: a handover has reached its instruction boundary: no long instruction is open, and the applier has caught up. -/
def State.handoverReady (s : State) : Bool :=
  s.dealers.handover && decide (s.dealers.journal = []) && (List.range 16).all (fun c => (s.ctx c).long.isNone)

/-- Steps 1 and 2: the old dealer is isolated, with no instruction of it live; the dealer epoch increments. -/
def State.startTakeover (s : State) : State :=
  if s.dealers.takeover ≠ .none then s
  else if ¬ s.dealers.standby then s.failTakeover
  else
    let e := s.dealers.depoch + 1
    let s := s.setFold (fun f => { f with waiting := [] })
    { s with
      dealers := { s.dealers with takeover := .checking, depoch := e, core := {}, handover := s.handoverReady }
      vbat := { s.vbat with depoch := e } }

/-- R186: at its boundary a handover stops the heartbeat, and the takeover begins at its first step. -/
def State.handOver (s : State) : State := if s.handoverReady then s.startTakeover else s

/-- JOURNAL_APPLY (R184): the oldest record reaches the standby's stores, and its space is free. -/
def execJournalApply (s : State) : Result :=
  .next (match s.dealers.journal with
    | [] => s
    | r :: rs => ({ s with dealers := { s.dealers with journal := rs, shadow := r.apply s.dealers.shadow } } : State).handOver)

/-- HEARTBEAT (R183): none is written once a store error or a handover has stopped it. -/
def execHeartbeat (s : State) : Result :=
  .next (if s.dealers.takeover ≠ .none ∨ s.dealers.hbStop then s
    else if s.handoverReady then s.handOver
    else { s with dealers := { s.dealers with beats := s.dealers.beats + 1 } })

/-- HEARTBEAT_MISS (R185). -/
def execHeartbeatMiss (s : State) : Result := .next s.startTakeover

/-- A re-executed LAUNCH keeps the handle given at issue; one that names a stream it started is returned (R156). -/
def State.redoLaunch (s : State) (c : Nat) (r : Running) : State :=
  if (s.liveOn r.arg).isSome ∨ s.stat.ended.any (fun x => x.handle.toNat = r.arg) then s.launched c r
  else (s.waitJ c { r with phase := 0 }).tryLaunch c { r with phase := 0 }

/-- Issues an open fabric or checkpoint instruction again. -/
def State.redoFab (s : State) (c : Nat) (w : W64) : State :=
  match (uOp w).toNat with
  | 0x20 => s.issueProbe c w
  | 0x21 => s.issueTrain c w
  | 0x22 => s.issueFence c w
  | 0x23 => s.issueUnfence c w
  | 0x24 => s.issueDrain c w
  | 0x25 => s.issueInstall c w
  | 0x26 => s.issueSwap c w
  | 0x27 => s.issueArm c w
  | 0x29 => s.issueCut c w
  | 0x2B => s.issuePreset c w
  | 0x2C => s.issueFold c w
  | 0x2E => s.issueBind c w
  | 0x2F => s.issueAdmit c w
  | 0x30 => s.issueAcmd c w
  | 0x40 => s.issueSnap c w
  | 0x41 => s.issueSnap c w
  | 0x42 => s.issueDigest c w
  | 0x43 => s.issueSeal c w
  | 0x44 => s.issueDraincp c w
  | _ => s

/-- Issues an open instruction again, from its start (R148). -/
def State.redo (s : State) (c : Nat) (r : Running) : State :=
  let w := r.word
  match (uOp w).toNat with
  | 0x04 => s.waitt c w
  | 0x1D => s.copy c w
  | 0x50 => s.redoLaunch c r
  | 0x51 => s.issueJoin c w
  | 0x52 => s.issueRetire c w
  | 0x63 => s.issueSettle c w
  | 0x64 => s.issueMbx c w
  | 0x70 => s.issueAttest c w
  | 0x71 => s.issueKeyload c w
  | 0x72 => s.issueKeyerase c w
  | 0x73 => s.issueScrub c w
  | 0x81 => s.issueWave c w
  | _ => s.redoFab c w

/-- Re-executes every instruction issued and not completed, in context order. -/
def State.redoAll (s : State) : State :=
  (List.range 16).foldl (fun s c => match (s.ctx c).long with
    | some r => s.redo c r
    | none => s) s

/-- R406: at a takeover the mirror Assayer serves; without a current mirror the slots are lost (R407). -/
def State.swapAssayers (s : State) : State :=
  s.setAsy (fun a => { a with store := if a.mirrorOk then a.mirror else {}, mirror := {}, mirrorOk := false })

/-- R409, R457: a takeover that ends a HANDOVER is the step of a live update at which another dealer image runs, so it extends
register 5. No command carries the image: what is extended is a free value (log 95). -/
def State.measureUpdate (s : State) : State :=
  if s.dealers.handover then ({ s with fresh := s.fresh + 1 } : State).extend 5 (toBytes 48 (Config.free 384 s.fresh)) else s

/-- R182, R187: what came for the dealer during the gap: notices that waiting instructions take, and run limits that elapsed. -/
def State.gapDone (s : State) : State :=
  let d := s.dealers
  let s := d.gap.foldl (fun s f => if (byteField f.pay 0 8 : Byte) = 1 then s.drainedNotice f else s.mbxNotice f)
    { s with dealers := { d with gap := [], runOut := [] } }
  d.runOut.foldl (fun s c => if (s.ctx c).runLimit ≠ 0 then s.stopCtx c else s) s

/-- Steps 4 and 5: the journal is completed and the contexts restored, queued operations applied, open instructions
re-executed, what came in the gap taken, DEALER_TAKEOVER posted. -/
def State.finishTakeover (s : State) : State :=
  let d := s.dealers
  let k := d.journal.foldl JRec.apply d.shadow
  let s := { s.measureUpdate with dealers := { d with
    core := k, shadow := k, journal := [], active := !d.active, standby := false, reload := d.handover, handover := false
    takeover := .none, beats := 0, hbStop := false, cycle := 0 } }
  (s.swapAssayers.applyGap.runDeferred.redoAll.gapDone).post 0x0F (if s.dealers.active then 1 else 0) (s.dealers.depoch.setWidth 128)

/-- START_CHECK_DONE (R185, R188). -/
def execStartCheckDone (pass : Bool) (s : State) : Result :=
  .next (if s.dealers.takeover ≠ .checking then s else if pass then s.finishTakeover else s.failTakeover)

/-- TAKEOVER_DEADLINE (R188). -/
def execTakeoverDeadline (s : State) : Result := .next (if s.dealers.takeover = .checking then s.failTakeover else s)

/-- STANDBY_RELOAD_DONE (R186): the old dealer's stores equal the new one's, and it stands by. -/
def execStandbyReloadDone (s : State) : Result :=
  .next (if s.dealers.reload then
    { s with dealers := { s.dealers with reload := false, standby := true, shadow := s.dealers.core, journal := [] } } else s)

end Sys2Proof.Machine
end

