-- ==== Sys2Proof/Machine/PlanCheck.lean ====
section
/-! DEFINITION. The pod plan (R30–R32): its layout, and the checks that refuse it (R16, R20–R28, R31). -/

namespace Sys2Proof.Machine

/-- What checking a plan found: the plan, or the status of R173 with the first offending record's index. Records are
numbered with the agent records first (log 22). -/
inductive PlanResult where
  | ok (p : Plan)
  | bad (status : Byte) (index : Nat)
  deriving DecidableEq, Repr

def planInvalid : Byte := 5
def planProfile : Byte := 6
def planTaper : Byte := 7

/-- An agent record. -/
def planAgentOf (bs : List Byte) : PlanAgent :=
  { id := ofBytes 16 (bs.take 2), build := bs.getD 2 0, profile := bs.getD 3 0, rackHalf := ofBytes 16 ((bs.drop 4).take 2), level := bs.getD 6 0 }

/-- A link record. -/
def planLinkOf (bs : List Byte) : PlanLink :=
  { a := ofBytes 16 (bs.take 2), ap := bs.getD 2 0, cls := bs.getD 3 0, b := ofBytes 16 ((bs.drop 4).take 2), bp := bs.getD 6 0 }

/-- Records of 8 bytes. -/
def records (bs : List Byte) : Nat → List (List Byte)
  | 0 => []
  | n + 1 => bs.take 8 :: records (bs.drop 8) n

/-! ## Agents -/

/-- The level an ID has (R16): 0 accelerator, 1–3 switch, 4 controller; none for a reserved ID. -/
def idLevel (id : W16) : Option Nat :=
  let r := (bitsAt id 6 10 : BitVec 10).toNat
  if r < 128 then some 0
  else if r < 512 then none
  else if r < 768 then some 1
  else if r < 896 then some 2
  else if r < 1023 then some 3
  else if id = 0xFFC0 ∨ id = 0xFFC1 then some 4
  else none

/-- An agent record by itself: level and build of its ID's range; an accelerator's rack half is its region, and it alone
has a profile. -/
def PlanAgent.ok (x : PlanAgent) : Bool :=
  match idLevel x.id with
  | none => false
  | some l =>
    decide (x.level.toNat = l) && decide (x.rackHalf.toNat ≤ 127) &&
    decide (x.build.toNat = (if l = 0 then 1 else if l = 4 then 3 else 2)) &&
    (if l = 0 then decide (x.profile.toNat ≤ 3) && decide (x.rackHalf.toNat = x.id.toNat / 64) else decide (x.profile = 255))

/-- A P12/0 group is a pod on its own (R25). -/
def PlanAgent.besideP12 (x : PlanAgent) : Bool :=
  decide (1 ≤ x.level.toNat ∧ x.level.toNat ≤ 3) || (decide (x.level = 0) && (decide (x.id.toNat / 64 ≠ 0) || decide (x.profile ≠ 3)))

/-- The pod limit of the variant: accelerators and switches (R1). -/
def State.podLimit (s : State) : Nat × Nat :=
  if s.plat.opt.variant = 0 then (8192, 1024) else if s.plat.opt.variant = 1 then (4096, 512) else (2048, 256)

/-- The first fault of the agent records; `seen` are the records already passed. A reserved byte that is not 0 is a fault with
PLAN_INVALID: R30 makes it 0 and R31's list does not name it (DESIGN CHOICE, log 120). -/
def agentFault (lim : Nat × Nat) (p12 : Bool) (seen : List PlanAgent) (i : Nat) : List (List Byte) → Option (Byte × Nat)
  | [] => none
  | b :: bs =>
    let x := planAgentOf b
    let acc := (seen.filter (fun y => y.level = 0)).length
    let sw := (seen.filter (fun y => 1 ≤ y.level.toNat && y.level.toNat ≤ 3)).length
    if ¬ x.ok ∨ b.getD 7 0 ≠ 0 ∨ seen.any (fun y => y.id = x.id) then some (planInvalid, i)
    else if p12 ∧ x.besideP12 then some (planProfile, i)
    else if x.level = 0 ∧ (lim.1 ≤ acc ∨ seen.any (fun y => y.level = 0 && y.id.toNat / 64 = x.id.toNat / 64 && y.profile ≠ x.profile)) then
      some (planInvalid, i)
    else if 1 ≤ x.level.toNat ∧ x.level.toNat ≤ 3 ∧ lim.2 ≤ sw then some (planInvalid, i)
    else agentFault lim p12 (seen ++ [x]) (i + 1) bs

/-! ## Links -/

/-- The direction a port has under a profile (R22): dimension, and whether it is +; none for an uplink. -/
def portDir (profile : Nat) (p : Nat) : Option (Nat × Bool) :=
  let plus := decide (p % 2 = 0)
  match profile with
  | 0 => if p < 6 then some (p / 2, plus) else none
  | 1 => if p < 6 then some (p / 2, plus) else if p < 8 then some (0, plus) else none
  | 2 => if p < 4 then some (p / 2, plus) else none
  | _ => if p < 6 then some (p / 2, plus) else if p < 12 then some ((p - 6) / 2, plus) else none

/-- The member a port leads to. -/
def neighbour (profile m p : Nat) : Option Nat :=
  (portDir profile p).map (fun d => if d.2 then plusOf (decide (profile = 2)) m d.1 else minusOf (decide (profile = 2)) m d.1)

/-- A link between two accelerators follows the cube (R20, R22, R23). -/
def cubeLink (a b : PlanAgent) (ap bp : Nat) : Bool :=
  let ma := a.id.toNat % 64
  let mb := b.id.toNat % 64
  decide (a.id.toNat / 64 = b.id.toNat / 64) && decide (neighbour a.profile.toNat ma ap = some mb) &&
  (match portDir a.profile.toNat ap, portDir b.profile.toNat bp with
   | some (d, s), some (e, t) => decide (d = e) && (s != t)
   | _, _ => false)

/-- The taps of a P12/0 pod (R25). -/
def tapLink (acc ctl : PlanAgent) (ap : Nat) : Bool :=
  (decide (ctl.id = 0xFFC0) && decide (acc.id = 0) && decide (ap = 6)) || (decide (ctl.id = 0xFFC1) && decide (acc.id = 63) && decide (ap = 7))

/-- Ports that the taps leave bare, or that are taps (R25). -/
def p12Bare (x : PlanAgent) (p : Nat) : Bool :=
  (decide (x.id = 1) && decide (p = 7)) || (decide (x.id = 62) && decide (p = 6)) ||
  (decide (x.id = 0) && decide (p = 6)) || (decide (x.id = 63) && decide (p = 7))

/-- Ports an agent has. -/
def PlanAgent.ports (x : PlanAgent) : Nat := if x.level = 0 then 12 else if x.level = 4 then 80 else 128

/-- The fault of a link between two agents, the lower level first: 0 for none. -/
def linkFault (p12 : Bool) (spine : Nat) (a b : PlanAgent) (ap bp cls : Nat) : Byte :=
  if a.level = 0 ∧ b.level = 0 then
    (if cls ≠ 1 ∨ ¬ cubeLink a b ap bp then planInvalid
     else if p12 ∧ (p12Bare a ap ∨ p12Bare b bp) then planProfile else 0)
  else if a.level = 0 ∧ b.level = 4 then
    (if ¬ p12 then planInvalid else if ¬ tapLink a b ap then planProfile else if cls ≠ 1 then planInvalid else 0)
  else if a.level = 0 then
    (if b.level ≠ 1 ∨ cls ≠ 2 ∨ (portDir a.profile.toNat ap).isSome then planInvalid else 0)
  else if b.level = 4 then
    (if a.level.toNat ≠ spine ∨ cls ≠ 3 then planInvalid else 0)
  else if cls ≠ 3 then planInvalid else 0

/-- The first fault of the link records, a nonzero reserved byte among them (DESIGN CHOICE, log 120). -/
def linksFault (p12 : Bool) (spine : Nat) (ags : List PlanAgent) (seen : List PlanLink) (i : Nat) : List (List Byte) → Option (Byte × Nat)
  | [] => none
  | b :: bs =>
    let l := planLinkOf b
    let used (id : W16) (p : Byte) : Bool := seen.any (fun m => (m.a = id && m.ap = p) || (m.b = id && m.bp = p))
    match ags.find? (fun x => x.id = l.a), ags.find? (fun x => x.id = l.b) with
    | some x, some y =>
      let f := if x.level.toNat ≤ y.level.toNat then linkFault p12 spine x y l.ap.toNat l.bp.toNat l.cls.toNat
        else linkFault p12 spine y x l.bp.toNat l.ap.toNat l.cls.toNat
      if b.getD 7 0 ≠ 0 ∨ x.ports ≤ l.ap.toNat ∨ y.ports ≤ l.bp.toNat ∨ used l.a l.ap ∨ used l.b l.bp ∨ (l.a = l.b ∧ l.ap = l.bp) then
        some (planInvalid, i)
      else if f ≠ 0 then some (f, i)
      else linksFault p12 spine ags (seen ++ [l]) (i + 1) bs
    | _, _ => some (planInvalid, i)

/-! ## Taper (R27) -/

/-- Uplink ports of a profile. -/
def uplinks (profile : Nat) : Nat := if profile = 0 then 6 else if profile = 1 then 4 else if profile = 2 then 8 else 0

/-- Ports arriving at a level from below. -/
def arriving (lv : W16 → Nat) (ls : List PlanLink) (l : Nat) : Nat :=
  (ls.filter (fun k => (lv k.a = l && decide (lv k.b < l)) || (lv k.b = l && decide (lv k.a < l)))).length

def taperOk (ags : List PlanAgent) (ls : List PlanLink) : Bool :=
  let lv (id : W16) : Nat := (idLevel id).getD 4
  let u := ((ags.filter (fun x => x.level = 0)).map (fun x => uplinks x.profile.toNat)).sum
  let has (l : Nat) : Bool := ags.any (fun x => x.level.toNat = l)
  decide (u ≤ arriving lv ls 1) && (!has 2 || decide ((u + 1) / 2 ≤ arriving lv ls 2)) && (!has 3 || decide ((u + 3) / 4 ≤ arriving lv ls 3))

/-- The highest switch level present. -/
def spineOf (ags : List PlanAgent) : Nat := ags.foldl (fun m x => if x.level.toNat ≤ 3 then max m x.level.toNat else m) 0

/-- Checks a plan's bytes (R30, R31). -/
def State.checkPlan (s : State) (bs : List Byte) : PlanResult :=
  let na := leNat (bs.take 4)
  let nl := leNat ((bs.drop 4).take 4)
  if bs.length < 16 ∨ bs.length ≠ 16 + 8 * (na + nl) then .bad planInvalid 0
  else if ofBytes 32 ((bs.drop 12).take 4) ≠ crc32c (bs.take 12 ++ bs.drop 16) then .bad planInvalid 0
  else
    let ra := records (bs.drop 16) na
    let rl := records (bs.drop (16 + 8 * na)) nl
    let ags := ra.map planAgentOf
    let p12 := ags.any (fun x => x.profile = 3)
    match agentFault s.podLimit p12 [] 0 ra with
    | some (f, i) => .bad f i
    | none => match linksFault p12 (spineOf ags) ags [] na rl with
      | some (f, i) => .bad f i
      | none =>
        let ls := rl.map planLinkOf
        if taperOk ags ls then .ok { number := ofBytes 32 ((bs.drop 8).take 4), agents := ags, links := ls } else .bad planTaper 0

/-- Binds a plan that passed: at once when none is bound, else from the next rediscovery pass on (R32). -/
def State.bindPlan (s : State) (p : Plan) : State :=
  if s.fab.plan.isNone then { s with fab := { s.fab with plan := some p } } else { s with fab := { s.fab with nextPlan := some p } }

end Sys2Proof.Machine
end

