-- ==== Sys2Proof/Machine/PairUnit.lean ====
section
/-! DEFINITION. The package pair (R189–R196, R390): frames, leases, taking the pod, catch-up settlement, and the updates the
active package streams to its peer. -/

namespace Sys2Proof.Machine

/-! ## Sync parents (R73, R193) -/

/-- A port of an agent that leads to a package, by the link book. -/
def State.portTo (s : State) (id pk : W16) : Option Nat :=
  (s.fab.links.find? (fun l => l.joins id pk)).map (fun l => l.portAt id)

/-- A new sync parent for an agent whose parent was a port of the peer package: its port toward this package if it has one,
else its lowest port that does not lead to the peer (log 23). -/
def State.newSyncPort (s : State) (id : W16) : Option Nat :=
  match s.agentById id, s.portTo id s.peerId with
  | some a, some p =>
    if a.id.syncPort.toNat ≠ p then none
    else match s.portTo id s.myId with
      | some q => some q
      | none => (s.fab.links.filter (fun l => (l.a = id || l.b = id) && decide (l.other id ≠ s.peerId))).foldl
          (fun b l => match b with
            | none => some (l.portAt id)
            | some q => some (min q (l.portAt id))) none
  | _, _ => none

/-- SYNC_PORT with its enable, which an agent with a sync parent has set (R72, R95). -/
def syncPortWord (p : Nat) : W32 := BitVec.ofNat 32 p ||| 0x80000000

/-- Redirects an agent to this package (R193). -/
def State.redirect (s : State) (id : W16) : State :=
  let w : W32 := s.myId.setWidth 32
  let s := s.devCmd id (agWrite 0x20 [w, w])
  match s.newSyncPort id with
  | some p => s.devCmd id (agWrite 0x3C [syncPortWord p])
  | none => s

/-! ## Catch-up settlement (R390) -/

/-- Bound endpoints of the path book. -/
def State.boundAgents (s : State) : List W16 :=
  (s.fab.paths.map (·.id)).filter (fun id => match s.agentById id with
    | some a => a.id.bound && a.build.endpoint
    | none => false)

/-- Opens a stamp of the old package's, and calls the agents for it. -/
def State.catchStamp (s : State) (k : W32) (ids : List W16) : State :=
  let x : Stamp := { stamp := k, agents := ids.map (fun id => { agent := id, part := 0 }), called := true, catchUp := true }
  (s.setSettle (fun z => { z with open_ := z.open_ ++ [x] })).sendCalls k ids

/-- The stamps after the last mirrored settled stamp are called for, and this package's own begin at that stamp + 3. -/
def State.catchUp (s : State) : State :=
  let k := s.led.settle.settledNo
  let ids := s.boundAgents
  let s := s.setSettle (fun z => { z with open_ := [], cur := { stamp := k + 3 } })
  (s.catchStamp (k + 1) ids).catchStamp (k + 2) ids

/-! ## Taking the pod (R193) -/

/-- Takes the pod with a controller epoch; the cause is PEER_ABSENT's. -/
def State.takePod (s : State) (epoch : W16) (cause : Byte) : State :=
  let s := { s with
    dealers := { s.dealers with cepoch := epoch, role := true, change := { s.dealers.change with owner := none } }
    vbat := { s.vbat with cepoch := epoch } }
  let s := s.setPair (fun p => { p with fenced := false, renewed := false, acked := false, coldWait := false, solo := if p.solo = .cmd then .cmd else .frame })
  let s := (s.fab.paths.map (·.id)).foldl State.redirect s
  ((s.post 0x16 s.peerId (cause.setWidth 128)).post 0x10 s.myId (epoch.setWidth 128)).catchUp

/-- A standby that may take the pod: not active, fenced or held, and past its cold-start wait. -/
def State.isStandby (s : State) : Bool := !s.dealers.role && !s.pair.fenced && !s.vbat.held && !s.pair.coldWait && s.plat.bring.ready

/-- The epoch a standby takes: one more than the last RENEW's, or than the one kept (R193, R426, R451). -/
def State.takeEpoch (s : State) : W16 :=
  if s.pair.renewAt.isSome ∧ ¬ s.pair.fenced then s.pair.renewEpoch + 1 else s.vbat.cepoch + 1

/-! ## Frames received (R189, R191, R192) -/

/-- A frame with a bad CRC or another type is discarded. -/
def frameGood (f : PairFrame) (typ : Byte) : Bool := decide (f.typ = typ) && decide (f.crc = frameCrc f)

/-- Answers a RENEW on its own path. -/
def State.ackRenew (s : State) (wire : Bool) (f : PairFrame) : State := s.pairOut wire (s.pairFrame 2 f.number)

/-- A RENEW is taken: the pair's epoch is the sender's; CEPOCH_KEPT follows (R426). -/
def State.joinPair (s : State) (f : PairFrame) : State :=
  { (s.setPair (fun p => { p with renewed := true, fenced := false, coldWait := false })) with
    dealers := { s.dealers with cepoch := f.cepoch }
    vbat := { s.vbat with cepoch := f.cepoch } }

/-- RENEW: a standby restarts its lease and answers; a fenced package becomes standby on a newer epoch; an active package
only records it. A held package answers none (R428). -/
def State.onRenew (s : State) (wire : Bool) (f : PairFrame) : State :=
  if s.vbat.held then s
  else
    let s := s.setPair (fun p => { p with renewAt := some s.us, renewEpoch := f.cepoch })
    if s.pair.fenced then (if newer f.cepoch s.dealers.cepoch then (s.joinPair f).ackRenew wire f else s)
    else if s.dealers.role then { s with vbat := { s.vbat with cepoch := s.dealers.cepoch } }
    else (s.joinPair f).ackRenew wire f

/-- PAIR_RENEW (R191). -/
def execPairRenew (wire : Bool) (fr : PairFrame) (s : State) : Result := .next (if frameGood fr 1 then s.onRenew wire fr else s)

/-- ACK (R191, R195): it repeats the number of a RENEW sent no more than 40 µs earlier. -/
def State.onAck (s : State) (fr : PairFrame) : State :=
  if s.dealers.role ∧ fr.number = s.pair.number ∧ s.us ≤ s.pair.sentAt + 40 then
    s.setPair (fun p => { p with acked := true, solo := if p.solo = .frame then .off else p.solo })
  else s

/-- PAIR_ACK (R191, R195). -/
def execPairAck (_wire : Bool) (fr : PairFrame) (s : State) : Result := .next (if frameGood fr 2 then s.onAck fr else s)

/-- An active package enters solo mode on a frame. -/
def State.soloOn (s : State) (cause : Byte) : State :=
  (s.setPair (fun p => { p with solo := if p.solo = .cmd then .cmd else .frame })).post 0x16 s.peerId (cause.setWidth 128)

/-- A YIELD or ABSENT frame ends the wait: a standby takes the pod, an active package enters solo mode (R191). -/
def State.peerGone (s : State) (cause : Byte) : State :=
  if s.isStandby then s.takePod s.takeEpoch cause else if s.isActive then s.soloOn cause else s

/-- PAIR_YIELD (R191). -/
def execPairYield (_wire : Bool) (fr : PairFrame) (s : State) : Result :=
  .next (if frameGood fr 3 then s.peerGone 2 else s)

/-- PAIR_ABSENT (R191). -/
def execPairAbsent (_wire : Bool) (fr : PairFrame) (s : State) : Result :=
  .next (if frameGood fr 4 then s.peerGone 1 else s)

/-- A frame that came over the fabric as a notice (R189). -/
def State.pairNotice (s : State) (fr : PairFrame) : State :=
  if frameGood fr 1 then s.onRenew false fr
  else if frameGood fr 2 then s.onAck fr
  else if frameGood fr 3 then s.peerGone 2
  else if frameGood fr 4 then s.peerGone 1
  else s

/-! ## Timers -/

/-- RENEW_SEND (R190): each RENEW has the next lease number; CEPOCH_KEPT is written (R426). -/
def execRenewSend (s : State) : Result :=
  .next (
    if s.isActive ∧ ¬ s.pair.stopped then
      let s := s.setPair (fun p => { p with number := p.number + 1, sentAt := s.us })
      { (s.sendPair 1 s.pair.number) with vbat := { s.vbat with cepoch := s.dealers.cepoch } }
    else s)

/-- A package fences itself (R192). -/
def State.fenceSelf (s : State) : State :=
  let s := { (s.setPair (fun p => { p with fenced := true, acked := false })) with dealers := { s.dealers with role := false } }
  let s := s.setReb (fun r => { r with windows := [] })
  ((s.deposeAll).alertBit 0).post 0x11 s.myId 1

/-- ACTIVE_LEASE_EXPIRE (R192, R195): in solo mode the package does not fence itself. -/
def execActiveLeaseExpire (s : State) : Result :=
  .next (if s.isActive then (if s.pair.solo = .off then s.fenceSelf else s.setPair (fun p => { p with acked := false })) else s)

/-- STANDBY_LEASE_EXPIRE (R191, R193). -/
def execStandbyLeaseExpire (s : State) : Result :=
  .next (if s.isStandby ∧ s.pair.renewed then s.takePod s.takeEpoch 3 else s)

/-- HELD_ABSENT (R428, R450). -/
def execHeldAbsent (s : State) : Result :=
  .next (if s.vbat.held ∨ s.plat.bring.dealersFailed then s.sendPair 4 s.pair.number else s)

/-! ## Updates to the peer (R194) -/

/-- A pending dispatch from its 32 bytes. -/
def dispatchOf (raw : BitVec 256) : Dispatch :=
  { slot := (byteField raw 6 16 : W16).toNat
    ev := { code := byteField raw 0 8, subject := byteField raw 4 16, arg := byteField raw 16 128, frame := byteField raw 8 32,
            fepoch := byteField raw 12 32 }
    count := (byteField raw 2 16 : W16).toNat
    coalesced := (byteField raw 1 8 : Byte).getLsbD 1
    mirrored := true }

/-- A mirrored dispatch arrives: with the coalesced bit it takes the place of the one it grew from (R178, R194). -/
def State.mirrorPend (s : State) (d : Dispatch) : State :=
  let r := s.reflex
  let old (x : Dispatch) : Bool := x.mirrored && x.same d
  if d.coalesced ∧ r.pend.any old then { s with reflex := { r with pend := r.pend.map (fun x => if old x then d else x) } }
  else { s with reflex := { r with pend := r.pend ++ [d] } }

/-- A mirrored dispatch was started or dropped at the peer: the oldest such waiting one goes (R180). -/
def State.mirrorTake (s : State) (d : Dispatch) : State :=
  match s.reflex.pend.find? (fun x => x.mirrored && x.same d) with
  | some x => { s with reflex := { s.reflex with pend := dropFirst s.reflex.pend x } }
  | none => s

/-- A path entered in the mirrored path book. -/
def State.mirrorPath (s : State) (id : W16) (ports : List Byte) (table : Bool) (hello : Payload) : State :=
  let ks := match s.known id with
    | some _ => s.fab.paths.map (fun k => if k.id = id then { k with hello := hello, paths := addPath k.paths ports, table := table } else k)
    | none => s.fab.paths ++ [({ id := id, hello := hello, paths := [ports], table := table, quar := false } : Known)]
  { s with fab := { s.fab with paths := ks } }

/-- A settled value, or a strict tally's count. -/
def State.mirrorSettled (s : State) (t : W16) (v k : W32) : State :=
  if tallyStrict t.toNat then s.modTally t.toNat (fun x => { x with count := v })
  else (s.modTally t.toNat (fun x => { x with count := v, settled := v })).setSettle (fun z =>
    { z with settledNo := if newer k z.settledNo then k else z.settledNo })

/-- The change record as mirrored: unowned here (R150, R193). -/
def State.mirrorChange (s : State) (isOpen : Bool) (target : W32) (image : Nat) (swapped : BitVec 512) : State :=
  { s with dealers := { s.dealers with change := { isOpen := isOpen, owner := none, target := target, image := image, swapped := swapped } } }

/-- The fold book as mirrored. -/
def State.mirrorFold (s : State) (id : W16) (part : Option (Fin 16)) (folded pending : Bool) : State :=
  match part with
  | some p => s.modFoldPart id p (fun x => if folded then { x with folded := true, due := false } else {})
  | none => s.modFoldAcc id (fun _ => { folded := folded, unbindPending := pending })

/-- An update received. -/
def State.mirrorIn (s : State) (m : MirrorItem) : State :=
  match m with
  | .generation id g => s.setGen id g
  | .path id ports table hello => s.mirrorPath id ports table hello
  | .link a ap b bp => { s with fab := { s.fab with links := s.fab.links ++ [s.newLink a ap b bp false] } }
  | .linkCut id p cut => { s with fab := { s.fab with links := s.fab.links.map (fun l =>
      if l.a = id ∧ l.ap = p then { l with cut := cut } else l) } }
  | .fold id part folded pending => s.mirrorFold id part folded pending
  | .partReset id p => s.addReset id p
  | .kitty ids => { s with fab := { s.fab with kitty := ids } }
  | .plan bytes => (match s.checkPlan bytes with
    | .ok p => s.bindPlan p
    | .bad _ _ => s)
  | .binding slot raw => s.setBinding slot raw
  | .pendingAdd raw => s.mirrorPend (dispatchOf raw)
  | .pendingTake raw => s.mirrorTake (dispatchOf raw)
  | .change o t i w => (s.mirrorChange o t i w).emit (.mirror (.changeAck o t i w))
  | .changeAck _ _ _ _ => s
  | .syncParent id => s.setPair (fun p => { p with syncParent := some id })
  | .fepoch e => ({ s with dealers := { s.dealers with fepoch := e } }).armOwn
  | .settled t v k => s.mirrorSettled t v k

/-- The oldest update leaves for the peer (R194). -/
def State.mirrorOut (s : State) : State :=
  match s.pair.mirror with
  | [] => s
  | m :: ms => (s.setPair (fun p => { p with mirror := ms })).emit (.mirror m)

/-- The peer's acknowledgement of the change record as it stands (R194; its form is the model's, log 24). -/
def State.changeAcked (s : State) (m : MirrorItem) : State :=
  let h := s.dealers.change
  if m = .changeAck h.isOpen h.target h.image h.swapped then s.setPair (fun p => { p with changeAcked := true }) else s

/-- MIRROR_UPDATE (R194): sends the oldest update, takes one received, or takes the peer's acknowledgement of the change record. -/
def execMirrorUpdate (rx : Option MirrorItem) (s : State) : Result :=
  .next (match rx with
    | none => if s.isActive then s.mirrorOut else s
    | some m => if s.dealers.role then s.changeAcked m else s.mirrorIn m)

end Sys2Proof.Machine
end

