-- ==== Sys2Proof/Machine/Notices.lean ====
section
/-! DEFINITION. Agent notices at the package (R118, R175, R397, R506). -/

namespace Sys2Proof.Machine

/-- The agent-event queue entry of a notice (R397). -/
def State.noticeEntry (s : State) (f : Flit) : List Byte :=
  toBytes 2 f.src ++ toBytes 2 f.seq ++ toBytes 4 s.fab.frame ++ List.replicate 8 0 ++ toBytes 48 f.pay

/-- R397: with EVQ word i enabled, a notice of code i is appended to the queue the word names; a SEC notice never (R405). -/
def State.evqPush (s : State) (f : Flit) (code : Nat) : State :=
  let w : W16 := SMap.get z16 s.led.evq code
  if code = 12 ∨ ¬ w.getLsbD 15 then s else s.qDevPush (bitsAt w 0 15 : BitVec 15).toNat (s.noticeEntry f)

/-- The first 7 ports of a 128-bit map, 0xFF in unused places (R175). -/
def firstPorts (m : BitVec 128) : List Byte :=
  (((List.range 128).filter (fun p => m.getLsbD p)).map (fun p => BitVec.ofNat 8 p) ++ List.replicate 7 0xFF).take 7

/-- The number of ports set in a map. -/
def portCount (m : BitVec 128) : Nat := ((List.range 128).filter (fun p => m.getLsbD p)).length

/-- PLAYED: the event, and what the controller records of the play (R301, R306, R311). -/
def State.playedNotice (s : State) (f : Flit) : State :=
  let d : Desc := byteField f.pay 8 64
  let slot : Byte := byteField f.pay 1 8
  let s := s.post 0x02 f.src (ofBytes 128 (toBytes 8 d ++ toBytes 4 (byteField f.pay 4 32 : W32) ++ [slot]))
  let k := 4 * f.src.toNat + slot.toNat % 4
  let s := match SMap.get noneOf s.fab.deck.hands k with
    | none => s
    | some h => s.setDeck (fun x =>
        { x with hands := SMap.set noneOf x.hands k (some { h with state := 3 }), played := addNew x.played h.fault })
  if s.dealers.change.isOpen then s.setDeck (fun x =>
    { x with playedInChange := addNew x.playedInChange d, cutList := addNew x.cutList (s.keyOf d) }) else s

/-- UNHANDED: the event, and the fault enters the sequence of R306. -/
def State.unhandedNotice (s : State) (f : Flit) : State :=
  let d : Desc := byteField f.pay 8 64
  let m : BitVec 128 := byteField f.pay 16 128
  let s := s.post 0x03 f.src (ofBytes 128 (toBytes 8 d ++ [satNat 8 (portCount m)] ++ firstPorts m))
  if s.fab.deck.unhanded.any (fun u => u.desc = d) then s
  else s.setDeck (fun x => { x with unhanded := x.unhanded ++ [({ desc := d, phase := 0 } : Unhanded)] })

/-- What an agent runs, as its UCODE notice tells it (R118), in the record that R44 and R454 compare. -/
def State.learnUcode (s : State) (id : W16) (v : W32) : State :=
  (s.modKnown id (fun k => { k with hello := putField k.hello 16 v })).streamPath id

/-- R187: a notice for the dealer waits through a takeover gap. -/
def State.gapNotice (s : State) (f : Flit) : State := { s with dealers := { s.dealers with gap := s.dealers.gap ++ [f] } }

/-- What a notice of each code does (R118, R175); a code no rule names is discarded and counted (R506). -/
def State.noticeAct (s : State) (f : Flit) (code : Nat) : State :=
  match code with
  | 0x01 => if s.dealers.takeover = .none then s.drainedNotice f else s.gapNotice f
  | 0x02 => s.playedNotice f
  | 0x03 => s.unhandedNotice f
  | 0x04 => s.post 0x04 f.src (ofBytes 128 (toBytes 8 (byteField f.pay 8 64 : Desc) ++ toBytes 4 (byteField f.pay 4 32 : W32)))
  | 0x05 => s.post 0x08 f.src ((byteField f.pay 1 8 : Byte).setWidth 128)
  | 0x06 => s.post 0x07 f.src ((byteField f.pay 2 32 : W32).setWidth 128)
  | 0x07 => s.setFold (fun b => { b with notices := b.notices ++ [f] })
  | 0x08 => s.post 0x0C f.src (byteField f.pay 8 128)
  | 0x09 => if s.dealers.takeover = .none then s.mbxNotice f else s.gapNotice f
  | 0x0A => (s.learnUcode f.src (byteField f.pay 4 32)).post 0x12 f.src (putField ((byteField f.pay 1 8 : Byte).setWidth 128) 4 (byteField f.pay 4 32 : W32))
  | 0x0B => s.post 0x13 f.src ((byteField f.pay 4 32 : W32).setWidth 128)
  | 0x0C => s.secNotice f
  | 0x20 => s.pairNotice (frameOf (toBytes 16 (byteField f.pay 8 128 : BitVec 128)))
  | 0x21 => s.xferNotice f.src (toBytes 47 (byteField f.pay 1 376 : BitVec 376))
  | 0x22 => s
  | _ => s.ignore

/-- A class-9 flit that is a settlement CALL (R387). -/
def isCall (f : Flit) : Bool := decide (f.cls = 9) && (byteField f.pay 0 8 : Byte) = 1

/-- A notice that came along a path: the pair frame or the Assayers' message that follows the path list (R189, R430, log 105),
or a code no rule sends so. -/
def State.pathNotice (s : State) (f : Flit) : State :=
  if (byteField f.pay 17 8 : Byte) = 0x20 then s.pairNotice (frameOf (toBytes 16 (byteField f.pay 25 128 : BitVec 128)))
  else if (byteField f.pay 17 8 : Byte) = 0x21 then s.xferNotice f.src (toBytes 30 (byteField f.pay 18 240 : BitVec 240))
  else s.ignore

/-- NOTICE_RECEIVE (R506): an agent notice that reaches the package; a command or a CALL is discarded and counted, whichever
way it is routed; a congestion record is CONGESTION_RECORD's; a peer reset has its own command. -/
def execNoticeReceive (f : Flit) (s : State) : Result :=
  .next (
    if f.crc ≠ f.crcOf ∨ (f.dest ≠ s.myId ∧ ¬ f.path) then s
    else if f.cls = 4 ∨ isCall f then s.ignore
    else if f.path then (if f.cls = 6 then s.pathNotice f else s)
    else if f.cls ≠ 6 ∨ f.seq = 0xFFFF then s
    else
      let code := (byteField f.pay 0 8 : Byte).toNat
      (if code < 16 then s.evqPush f code else s).noticeAct f code)

end Sys2Proof.Machine
end

