-- ==== Sys2Proof/Machine/Power.lean ====
section
/-! DEFINITION. The power governor, wake tokens, lending, temperature, depot re-centring, rails and the status pins
(R461–R477, R494–R502). Power is counted in 1/8 mW, so that an eighth of an engine's share is a whole number. -/

namespace Sys2Proof.Machine

/-! ## The governor's figures (R462, R463) -/

/-- 0.475 W, the part of an engine's share that a hold of 8/8 would save or that a wait lends; a hold of h saves h of these eighths. -/
def engEighth : Nat := 475

/-- A die that wakes adds 4.2 W less the 0.05 W it drew asleep. -/
def wakeCost : Nat := 8 * 4150

/-- The increments of the three 100 MHz steps above 1,200 MHz, 1/8 mW. -/
def stepCost (mhz : Nat) : Nat := if mhz = 1300 then 8 * 600 else if mhz = 1400 then 8 * 700 else 8 * 800

/-- What a borrowing die costs above its nominal clock. -/
def loanOf (mhz : Nat) : Nat :=
  (if 1300 ≤ mhz then stepCost 1300 else 0) + (if 1400 ≤ mhz then stepCost 1400 else 0) + (if 1500 ≤ mhz then stepCost 1500 else 0)

/-- The ceiling: PWR_LIMIT − 10 W. -/
def Power.ceiling (p : Power) : Nat := 8000 * (p.limitNow.toNat - 10)

def Power.hold (p : Power) (c : Nat) : Nat := if c = 0 then p.hold0.toNat else if c = 1 then p.hold1.toNat else p.hold2.toNat
def Power.setHold (p : Power) (c h : Nat) : Power :=
  if c = 0 then { p with hold0 := BitVec.ofNat 3 h } else if c = 1 then { p with hold1 := BitVec.ofNat 3 h }
  else { p with hold2 := BitVec.ofNat 3 h }
def Power.classOf (p : Power) (e : Nat) : Nat := SMap.get zNat p.engClass e

/-- R466: a die at 105 °C holds its engines 4/8 at least, so the first four eighths of a class's hold change nothing there. -/
def State.heatHeld (s : State) (e h : Nat) : Bool := s.plat.pwr.hot.getLsbD (e / 8) && decide (h < 4)

/-- Engines that issue for a class and that the hold's step from h to h + 1 eighths slows: running and not lending, and those
of dies that wake for it, whose 4.2 W are projected; not those held so far by heat. -/
def State.issuing (s : State) (c h : Nat) : Nat :=
  (s.stat.eng.filter (fun x => decide (x.2.st = 1) && !x.2.lending && decide (s.plat.pwr.classOf x.1 = c) && !s.heatHeld x.1 h)).length +
    ((List.range 320).filter (fun e => decide ((s.die (e / 8)).st = 3) && decide (s.plat.pwr.classOf e = c) && !s.heatHeld e h)).length

/-- A die begins to wake for work of a class: its engines count for that class. -/
def State.wakeFor (s : State) (d c : Nat) : State :=
  let s := s.setPwr (fun p => { p with engClass := (List.range 8).foldl (fun m i => SMap.set zNat m (8 * d + i) c) p.engClass })
  if (s.die d).st = 2 then s.modDie d (fun x => { x with st := 3, mhz := 1200 }) else s

/-- A die's engines that run a stream. -/
def State.dieRuns (s : State) (d : Nat) : List Nat := ((List.range 8).map (fun i => 8 * d + i)).filter (fun e => (s.eng e).st = 1)

/-- A die's class: the lowest of those its running engines serve (log 27). -/
def State.dieClass (s : State) (d : Nat) : Nat := (s.dieRuns d).foldl (fun m e => max m (s.plat.pwr.classOf e)) 0

/-! ## Lending (R467, R468) -/

/-- The lent pool: each lender's share. -/
def State.pool (s : State) : Nat := 8 * engEighth * (s.stat.eng.filter (fun x => x.2.lending)).length

/-- What the loans in force cost. -/
def State.loans (s : State) : Nat := (s.stat.dies.map (fun x => loanOf x.2.mhz.toNat)).foldl (· + ·) 0

/-- LENT follows the pool, in units of 0.1 W. -/
def State.putLent (s : State) : State := let n := s.pool; s.setPwr (fun p => { p with lent := satNat 16 (n / 800) })

/-- Steps one borrowing die of the highest frequency down; among equals a free one (log 27). -/
def State.stepDown (s : State) : State :=
  let top := s.stat.dies.foldl (fun m x => max m x.2.mhz.toNat) 0
  if top ≤ 1200 then s
  else
    let ds := s.stat.dies.filter (fun x => x.2.mhz.toNat = top)
    let r := if ds.length ≤ 1 then ((0 : BitVec 8), s) else s.freeVal 8
    match ds[r.1.toNat % ds.length]? with
    | some d => r.2.modDie d.1 (fun x => { x with mhz := BitVec.ofNat 16 (top - 100) })
    | none => r.2

/-- Steps dies down until the pool covers the loans. -/
def State.cover (s : State) : Nat → State
  | 0 => s
  | n + 1 => if s.loans ≤ s.pool then s else s.stepDown.cover n

/-- The pool changed: loans are brought within it; 120 steps withdraw them all. -/
def State.repool (s : State) : State := (s.cover 120).putLent

/-- LEND_START (R467): a stream that has waited in TWAIT longer than the threshold lends its engine's budget. -/
def execLendStart (e : Fin 320) (s : State) : Result :=
  .next (match (s.str e).twait with
    | some (_, _, _, t0) =>
      if (s.eng e).st = 1 ∧ t0 + s.plat.pwr.lendUs < s.us then (s.modEng e (fun y => { y with lending := true })).putLent else s
    | none => s)

/-- LEND_RETURN (R468): a lender's wait has ended. -/
def execLendReturn (e : Fin 320) (s : State) : Result :=
  .next (if (s.eng e).lending ∧ ((s.str e).twait.isNone ∨ (s.eng e).st ≠ 1) then (s.modEng e (fun y => { y with lending := false })).repool else s)

/-- A die that may borrow: awake, its running engines all issuing, below TJ_HOT (R466, R467). -/
def State.mayBorrow (s : State) (d : Nat) : Bool :=
  decide ((s.die d).st = 4) && decide (s.dieRuns d ≠ []) && (s.dieRuns d).all (fun e => !(s.eng e).lending && (s.str e).twait.isNone) &&
  decide (SMap.get zNat s.plat.pwr.temps d < s.plat.pwr.tjHot.toNat + 128) && decide ((s.die d).mhz.toNat < 1500)

/-- One microsecond of lending: each die that may borrow steps once, in class order, then in die order, while the pool lasts. -/
def State.lendRound (s : State) : State :=
  ([0, 1, 2].flatMap (fun c => (List.range 40).filter (fun d => s.mayBorrow d && decide (s.dieClass d = c)))).foldl (fun s d =>
    let f := (s.die d).mhz.toNat + 100
    if s.loans + stepCost f ≤ s.pool then s.modDie d (fun x => { x with mhz := BitVec.ofNat 16 f }) else s) s

/-! ## Shedding (R464, R465) -/

/-- Withdraws the loans to dies of a class. -/
def State.withdrawClass (s : State) (c : Nat) : State :=
  ((List.range 40).filter (fun d => decide (1200 < (s.die d).mhz.toNat) && decide (s.dieClass d = c))).foldl (fun s d =>
    let n := loanOf (s.die d).mhz.toNat
    (s.modDie d (fun x => { x with mhz := 1200 })).setPwr (fun p => { p with proj := p.proj - n })) s

/-- Raises a class's hold step by step while the projection exceeds what is allowed. -/
def State.raiseHold (s : State) (c allowed : Nat) : Nat → State
  | 0 => s
  | n + 1 =>
    if s.plat.pwr.proj ≤ allowed ∨ 7 ≤ s.plat.pwr.hold c then s
    else
      let save := engEighth * s.issuing c (s.plat.pwr.hold c)
      (s.setPwr (fun p => { (p.setHold c (p.hold c + 1)) with proj := p.proj - save })).raiseHold c allowed n

/-- Sheds until the projection is allowed: loans of the lowest class that has any, then the next; the holds of classes 2, 1
and 0; no class above `floor` is touched (R464). -/
def State.shed (s : State) (floor allowed : Nat) : State :=
  let cs := [2, 1, 0].filter (fun c => floor ≤ c)
  let s := cs.foldl (fun s c => if s.plat.pwr.proj ≤ allowed then s else s.withdrawClass c) s
  cs.foldl (fun s c => s.raiseHold c allowed 7) s

/-- One release, in the reverse order: tokens, then the holds of classes 0, 1 and 2. -/
def State.release (s : State) : State :=
  let p := s.plat.pwr
  let fits (c : Nat) : Bool := decide (p.proj + engEighth * s.issuing c (p.hold c - 1) ≤ p.ceiling)
  if p.tokensHeld then s.setPwr (fun p => { p with tokensHeld := false })
  else if p.hold 0 ≠ 0 then (if fits 0 then s.setPwr (fun p => p.setHold 0 (p.hold 0 - 1)) else s)
  else if p.hold 1 ≠ 0 then (if fits 1 then s.setPwr (fun p => p.setHold 1 (p.hold 1 - 1)) else s)
  else if p.hold 2 ≠ 0 then (if fits 2 then s.setPwr (fun p => p.setHold 2 (p.hold 2 - 1)) else s)
  else s

/-- The mean of the latest 100 µs, ten samples. -/
def meanOf (l : List Nat) : Nat := if l = [] then 0 else l.foldl (· + ·) 0 / l.length

/-- A sample of package power, in 0.1 W (R463): PWR_LIMIT as written takes effect. -/
def State.sample (s : State) (power : Nat) : State :=
  s.setPwr (fun p =>
    let l := (power :: p.samples).take 10
    let now : W16 := satNat 16 (meanOf l)
    { p with samples := l, now := now, peak := if p.peak.toNat < now.toNat then now else p.peak, limitNow := p.limit, proj := 800 * power })

/-- GOVERNOR_INTERVAL (R463, R465, R467). -/
def execGovernorInterval (power : Nat) (s : State) : Result :=
  .next (
    let s := s.sample power
    if s.plat.pwr.ceiling < s.plat.pwr.proj then
      let s := s.shed 0 s.plat.pwr.ceiling
      (if s.plat.pwr.ceiling < s.plat.pwr.proj then s.setPwr (fun p => { p with tokensHeld := true }) else s).putLent
    else
      let s := s.release
      let p := s.plat.pwr
      if p.tokensHeld ∨ p.hold 0 ≠ 0 ∨ p.hold 1 ≠ 0 ∨ p.hold 2 ≠ 0 then s.repool
      else s.repool.lendRound.lendRound.lendRound)

/-- WAKE_TOKEN_GRANT (R461, R464): the oldest request takes a token once there is room for its die at 4.2 W; while there is
none it waits, and nothing is shed for it (log 27). -/
def execWakeTokenGrant (s : State) : Result :=
  .next (match s.plat.pwr.wakeQ with
    | [] => s
    | (d, cls) :: r =>
      if s.plat.pwr.tokens = 0 ∨ s.plat.pwr.tokensHeld then s
      else
        let t := (s.wakeFor d cls).shed cls (s.plat.pwr.ceiling - wakeCost)
        if t.plat.pwr.ceiling < t.plat.pwr.proj + wakeCost then s
        else t.setPwr (fun p => { p with wakeQ := r, tokens := p.tokens - 1, proj := p.proj + wakeCost }))

/-- PWR_LIMIT's write: 120–350 W, in force from the next interval (R463). -/
def State.wPwrLimit (s : State) (v : W32) : Option State :=
  if inRange v 120 350 then some (s.setPwr (fun p => { p with limit := v.setWidth 9 })) else none

/-- PWR_LIMIT_WRITE (R463). -/
def execPwrLimitWrite (n : Fin 8) (v : W32) (s : State) : Result := .next (s.ownerWrite n (fun s => s.wPwrLimit v))

/-- PWR_PEAK's write: any nonzero value clears it. -/
def State.wPwrPeak (s : State) (v : W32) : Option State :=
  if ¬ within v 0xFFFF then none else some (if v = 0 then s else s.setPwr (fun p => { p with peak := 0 }))

/-- PWR_PEAK_CLEAR (R469). -/
def execPwrPeakClear (n : Fin 8) (v : W32) (s : State) : Result := .next (s.ownerWrite n (fun s => s.wPwrPeak v))

/-! ## Temperature (R466, R434) -/

/-- The number of a sensor: stations, gates from 40, depot stacks from 48, dealers from 54, ledgers from 56. -/
def Sensor.unit (u : Sensor) : Nat :=
  match u with
  | .station d => d
  | .gate g => 40 + g
  | .depot i => 48 + i
  | .dealer b => if b then 55 else 54
  | .ledger b => if b then 57 else 56

/-- A reading as it is stored: °C + 128, within a byte. -/
def storedTemp (t : Int) : Nat := min 255 (t + 128).toNat

/-- What a station die's reading brings: TJ_HOT takes its loan, 105 °C its hold of 4/8 until TJ_HOT − 5 °C. -/
def State.dieTemp (s : State) (d t : Nat) : State :=
  let hot := s.plat.pwr.tjHot.toNat + 128
  let s := if hot ≤ t ∧ 1200 < (s.die d).mhz.toNat then s.modDie d (fun x => { x with mhz := 1200 }) else s
  if 233 ≤ t then s.setPwr (fun p => { p with hot := putBit p.hot d true })
  else if t + 5 ≤ hot then s.setPwr (fun p => { p with hot := putBit p.hot d false })
  else s

/-- R434: the package stays in a THERM reset until every sensor has read 95 °C or less for 1 s. -/
def State.coolDown (s : State) : State :=
  if ¬ s.plat.rst.thermHold then s
  else if s.plat.pwr.temps.any (fun x => decide (223 < x.2)) then s.setRst (fun r => { r with coolAt := none })
  else match s.plat.rst.coolAt with
    | none => s.setRst (fun r => { r with coolAt := some s.us })
    | some t0 => if t0 + 1000000 ≤ s.us then
        (s.setRst (fun r => { r with thermHold := false, coolAt := none })).setPins (fun p => { p with thermTrip := false })
      else s

/-- TEMP_SAMPLE (R466): a unit's sensor is read. -/
def execTempSample (u : Sensor) (t : Int) (s : State) : Result :=
  .next (
    let n := storedTemp t
    let s := s.setPwr (fun p =>
      let m := SMap.set zNat p.temps (Sensor.unit u) n
      { p with temps := m, tjMax := satNat 8 (m.foldl (fun a x => max a (x.2 - 128)) 0) })
    let s := match u with
      | .station d => s.dieTemp d n
      | _ => s
    (if 233 ≤ n then s.alertBit 2 else s).coolDown)

/-! ## Depot re-centring (R476, R477) -/

/-- A stack's channels. -/
def State.stackChans (s : State) (i : Nat) : List Channel := (List.range 16).map (fun c => s.chan (16 * i + c))

/-- How far two readings lie apart. -/
def apart (a b : Nat) : Nat := max (a - b) (b - a)

/-- RECENTER_WINDOW (R476, R477): a due channel of a stack in service enters its window, one channel of the stack at a time. -/
def execRecenterWindow (i : Fin 6) (ch : Fin 16) (s : State) : Result :=
  .next (
    let x := s.chan (16 * i + ch)
    let t := SMap.get zNat s.plat.pwr.temps (48 + i)
    let p := s.plat.pwr
    let due : Bool := decide (x.lastAt + 1000 * p.recenterMs.toNat ≤ s.us) || decide (p.recenterDt.toNat ≤ apart t x.lastT)
    let spaced : Bool := (s.stackChans i).all (fun y => !y.inWin && (decide (y.lastAt = 0) || decide (y.lastAt + 10 ≤ s.us)))
    if s.plat.bring.online.getLsbD i ∧ ¬ s.plat.bring.retiring.getLsbD i ∧ due ∧ spaced then
      s.modChan (16 * i + ch) (fun y => { y with inWin := true, lastAt := s.us, lastT := t })
    else s)

/-- RECENTER_DONE (R476): a window that measures worse keeps the old timing; three in a row assert ALERT_N. -/
def execRecenterDone (i : Fin 6) (better : Bool) (s : State) : Result :=
  .next (match (List.range 16).find? (fun c => (s.chan (16 * i + c)).inWin) with
    | none => s
    | some c =>
      let k := 16 * i.val + c
      if better then s.modChan k (fun y => { y with inWin := false, fails := 0 })
      else
        let s := (s.modChan k (fun y => { y with inWin := false, fails := y.fails + 1 })).setPwr (fun p =>
          { p with recenterFail := satInc p.recenterFail })
        if 3 ≤ (s.chan k).fails then s.alertBit 3 else s)

/-! ## Rails (R497, R500–R502) -/

/-- The nominal voltage of rail i in mV, and its tolerance in percent (R497). -/
def railNominal (i : Nat) : Nat × Nat :=
  [(650, 3), (750, 3), (800, 3), (900, 2), (1200, 2), (1100, 3), (1800, 3), (800, 3), (1800, 5)].getD i (0, 0)

def State.rail (s : State) (i : Nat) : Rail := SMap.get railDflt s.plat.rails i
def State.modRail (s : State) (i : Nat) (f : Rail → Rail) : State :=
  { s with plat := { s.plat with rails := SMap.modify railDflt s.plat.rails i f } }

/-- RAIL_SAMPLE (R500): a rail out of its tolerance is recorded and asserts ALERT_N; the package continues. -/
def execRailSample (i : Fin 9) (mv : W16) (amps : W16) (s : State) : Result :=
  .next (
    let nt := railNominal i
    let low : Bool := decide (100 * mv.toNat < nt.1 * (100 - nt.2))
    let high : Bool := decide (nt.1 * (100 + nt.2) < 100 * mv.toNat)
    let s := s.modRail i (fun r => { mv := mv, amps := amps, inRange := !low && !high, low := r.low || low, high := r.high || high })
    if low || high then s.alertBit 4 else s)

/-- RAIL_SEQUENCE_FAULT (R501). -/
def execRailSequenceFault (s : State) : Result := .next ((s.setRst (fun r => { r with seqFault := true, powerGood := false })).faultBit 4)

/-- POWER_GOOD (R502, R449): bring-up is timed from it, and P0 ends. -/
def execPowerGood (s : State) : Result :=
  .next (
    if s.plat.rst.seqFault ∨ s.plat.rst.powerGood then s
    else (s.setRst (fun r => { r with powerGood := true })).setBring (fun b => { b with ended := b.ended ||| 1, phase := 1 }))

/-! ## Status pins (R494, R495) -/

/-- Causes of FAULT_N that still hold. -/
def State.faultNow (s : State) : BitVec 5 :=
  let b := s.plat.bring
  BitVec.ofBool s.plat.rst.seqFault ++ BitVec.ofBool b.depotFail ++ BitVec.ofBool b.dealersFailed ++
    BitVec.ofBool (decide (b.overran &&& ~~~b.ended ≠ 0)) ++ BitVec.ofBool (decide (s.dealers.takeover = .failed))

/-- Causes of ALERT_N that still hold. -/
def State.alertNow (s : State) : BitVec 5 :=
  BitVec.ofBool (s.plat.rails.any (fun r => !r.2.inRange)) ++ BitVec.ofBool (s.plat.chans.any (fun c => decide (3 ≤ c.2.fails))) ++
    BitVec.ofBool (s.plat.pwr.temps.any (fun t => decide (233 ≤ t.2))) ++ BitVec.ofBool s.led.degraded ++ BitVec.ofBool s.pair.fenced

/-- Writing 1 clears a cause; one that still holds is set again (R495). -/
def State.wCause (s : State) (alert : Bool) (v : W32) : Option State :=
  if ¬ within v 0x1F then none
  else
    let m : BitVec 5 := v.setWidth 5
    let fn := s.faultNow
    let an := s.alertNow
    some (s.setPins (fun p =>
      if alert then { p with alertCause := (p.alertCause &&& ~~~m) ||| (an &&& m) }
      else { p with faultCause := (p.faultCause &&& ~~~m) ||| (fn &&& m) }))

/-- STATUS_CAUSE_CLEAR (R495). -/
def execStatusCauseClear (n : Fin 8) (alert : Bool) (v : W32) (s : State) : Result := .next (s.ownerWrite n (fun s => s.wCause alert v))

/-! ## Ports (R487) -/

/-- BIF's write: ignored while a lane of the port is neither DOWN nor DISABLED. -/
def State.wBif (s : State) (p : Nat) (v : W32) : Option State :=
  let busy : Bool := (List.range 4).any (fun i =>
    let st := (s.lane (laneOfSub (2 * p) + i)).st
    decide (st ≠ 0) && decide (st ≠ 4))
  if s.fabricPorts ≤ p ∨ ¬ within v 0xF13 ∨ bitsAt v 0 2 = (3 : BitVec 2) ∨ busy then none
  else some (s.modGPort p (fun g => { g with bifMode := bitsAt v 0 2 }))

/-- BIF_WRITE (R487). -/
def execBifWrite (n : Fin 8) (p : Fin 40) (v : W32) (s : State) : Result := .next (s.ownerWrite n (fun s => s.wBif p v))

end Sys2Proof.Machine
end

