-- ==== Sys2Proof/Machine/Resets.lean ====
section
/-! DEFINITION. Resets: sources, scopes, the package-wide reset, domain resets and block resets (R432–R439). -/

namespace Sys2Proof.Machine

/-! ## The package-wide reset (R434, R435) -/

/-- What a package-wide reset leaves: the coin-cell domain, the SK bits, the two epochs; what is outside the package; and the
model's own counters. Bring-up stands at P1 again. -/
def State.wiped (s : State) : State :=
  let r := s.plat.rst
  { pending := s.pending, us := s.us, fresh := s.fresh, agents := s.agents, out := s.out
    vbat := { s.vbat with held := decide (s.vbat.cause ≠ 0) }
    dealers := { cepoch := s.vbat.cepoch, depoch := s.vbat.depoch }
    plat := {
      rst := { cause := r.cause, last := r.last, count := r.count, pinLow := r.pinLow, thermHold := r.thermHold, coolAt := r.coolAt
               powerGood := r.powerGood, seqFault := r.seqFault }
      bring := if r.powerGood then { phase := 1, ended := 1 } else {}
      pwr := { temps := s.plat.pwr.temps }
      pins := { thermTrip := s.plat.pins.thermTrip, faultCause := if r.seqFault then 16 else 0 } } }

/-- R435, R190: the frame a package sends before it goes: YIELD on the wire if it is active, else ABSENT. -/
def State.goodbye (s : State) : State :=
  if s.dealers.role then s.emit (.pair (s.pairFrame 3 s.pair.number)) else s.sendPair 4 s.pair.number

/-- P1 is running. -/
def State.inP1 (s : State) : Bool := s.plat.bring.ended.getLsbD 0 && !s.plat.bring.ended.getLsbD 1

/-- Sets a source's bit in RST_CAUSE. -/
def State.causeBit (s : State) (i : Nat) : State := s.setRst (fun r => { r with cause := putBit r.cause i true })

/-- A package-wide reset by source i; one that arrives in P1 also sets OPTRESTART (R442). -/
def State.pkgReset (s : State) (i : Nat) (frame : Bool) : State :=
  let p1 := s.inP1
  let s := (if frame then s.goodbye else s).wiped.causeBit i
  let s := s.setRst (fun r => { r with last := BitVec.ofNat 4 i, count := satInc r.count })
  if p1 then s.causeBit 11 else s

/-- POR (R434): everything except the coin-cell domain; POR is the only SK bit left. -/
def State.por (s : State) : State :=
  { pending := s.pending, us := s.us, fresh := s.fresh, agents := s.agents, out := s.out
    vbat := { s.vbat with held := decide (s.vbat.cause ≠ 0) }
    dealers := { cepoch := s.vbat.cepoch, depoch := s.vbat.depoch }
    plat := { pwr := { temps := s.plat.pwr.temps } } }

/-- POR. -/
def execPor (s : State) : Result := .next s.por

/-- SYS_RESET (R432): the package stays in reset until the pin is released. -/
def execSysReset (s : State) : Result :=
  .next (if s.plat.rst.pinLow then s else (s.pkgReset 1 true).setRst (fun r => { r with pinLow := true }))

/-- SYS_RESET_RELEASE (R432, R436). -/
def execSysResetRelease (s : State) : Result := .next (s.setRst (fun r => { r with pinLow := false }))

/-- THERM (R434): THERMTRIP_N is asserted. -/
def execTherm (s : State) : Result :=
  .next (((s.pkgReset 6 true).setRst (fun r => { r with thermHold := true, coolAt := none })).setPins (fun p => { p with thermTrip := true }))

/-- ASSAYER_ERROR_RESET (R434). -/
def execAssayerErrorReset (s : State) : Result := .next (s.pkgReset 7 true)

/-- BROWNOUT (R434, R435): no frame is sent. -/
def execBrownout (s : State) : Result := .next (s.pkgReset 10 false)

/-- PEER_RESET (R434): accepted by a package whose ROLE bit 0 is clear, from an epoch not older than its own. -/
def execPeerReset (cepoch : W16) (s : State) : Result :=
  .next (if s.dealers.role ∨ older cepoch s.dealers.cepoch then s else s.pkgReset 9 true)

/-- TAMPER_ALARM (R427–R429): on the cell alone the alarm's actions; on main power every key slot is erased as well, and the
package is reset and comes up held. -/
def execTamperAlarm (cell : Bool) (s : State) : Result :=
  .next (
    if ¬ s.vbat.tamperEn then s
    else
      let s := s.alarm 1 false
      if cell then s else (((List.range 64).foldl State.startErase s).keyWake).pkgReset 12 true)

/-! ## Narrower resets (R434, R437) -/

/-- The standby dealer is reset and reloaded (R186, R437). -/
def State.resetStandby (s : State) : State :=
  { s with dealers := { s.dealers with standby := false, reload := true, shadow := {}, journal := [] } }

/-- DEALER_WATCHDOG (R434, R436): the active dealer's takeover follows; the standby is reset and reloaded. Before the dealers
have booted a package-wide reset absorbs it. -/
def execDealerWatchdog (b : Bool) (s : State) : Result :=
  .next (
    let s := s.causeBit (if b then 5 else 4)
    if ¬ s.plat.bring.ended.getLsbD 3 then s
    else if b = s.dealers.active then s.startTakeover else if s.dealers.takeover = .none then s.resetStandby else s)

/-- RST_REQ's write: the key, and scope 1 package-wide, 2 the standby dealer, 3 its Assayer; the mirror is then rebuilt (R407). -/
def State.wRstReq (s : State) (v : W32) : Option State :=
  if ¬ within v 0x7FFFF ∨ bitsAt v 0 16 ≠ (0xA5C3 : W16) then none
  else match (bitsAt v 16 3 : BitVec 3).toNat with
    | 1 => some (s.pkgReset 8 true)
    | 2 => if s.dealers.standby then some (s.causeBit 8).resetStandby else none
    | 3 => if s.dealers.standby then some ((s.causeBit 8).setAsy (fun a => { a with mirror := {}, mirrorOk := false })) else none
    | _ => none

/-- RST_REQ (R437). -/
def execRstReq (n : Fin 8) (v : W32) (s : State) : Result := .next (s.ownerWrite n (fun s => s.wRstReq v))

/-! ## Domain resets (R433) -/

/-- DOMAIN_RESET: the domain's PLL has locked and its reset is released. -/
def execDomainReset (dom : Domain) (s : State) : Result :=
  .next (s.setRst (fun r => { r with domains := r.domains.filter (· ≠ dom) }))

/-- PLL_LOCK_TIMEOUT: the domain stays in reset; its bring-up phase reports it. -/
def execPllLockTimeout (dom : Domain) (s : State) : Result := .next (s.setRst (fun r => { r with domains := addNew r.domains dom }))

/-! ## Block resets (R437, R438) -/

/-- A block reset that is not accepted: BLK_IGNORED counts it beside IGNORED_CNT. -/
def State.blkRefuse (s : State) (n : Nat) : State := (s.setRst (fun r => { r with blkIgnored := satInc r.blkIgnored })).ignoreBy n

/-- A landing window lands on a fabric port (R366). -/
def State.portLands (s : State) (p : Nat) : Bool :=
  s.fab.reb.sched.any (fun x => decide (x.1 / 128 = p) && (match x.2 with
    | some k => s.fab.reb.windows.any (fun w => w.convoy = k)
    | none => false))

/-- Whether a block is idle. -/
def State.blkIdle (s : State) (kind t : Nat) : Bool :=
  match kind with
  | 1 => decide ((s.die t).st ≠ 0) && s.dieIdle t
  | 2 => decide ((s.gport t).takenDown = 3) && !s.portLands t
  | _ => !s.partBusy t

/-- Whether kind and target name a block of the variant. -/
def State.blkExists (s : State) (kind t : Nat) : Bool :=
  match kind with
  | 1 => decide (t < 40)
  | 2 => decide (t < s.fabricPorts)
  | 3 => decide (t < 64)
  | _ => false

/-- A station die is reset: its engines are scrubbed and run the known-answer stream; the die reads WAKING (R438). -/
def State.blkDieStart (s : State) (d : Nat) : State :=
  let s := s.requestWake d 0
  let s := (List.range 8).foldl (fun s i => s.modEng (8 * d + i) (fun y => { y.scrubbed with st := 2, after := .nothing })) s
  s.modDie d (fun x => { x with st := 3, mhz := if x.mhz = 0 then 1200 else x.mhz })

/-- The lanes and the link layer of a fabric port are reset; the port stays down (R438). -/
def State.blkLanes (s : State) (p : Nat) : State :=
  let s := [2 * p, 2 * p + 1].foldl (fun s q => (s.lanesTo q 0).modSub q (fun x => { x with up := false, trained := false, retrain := false })) s
  (List.range 4).foldl (fun s i => s.modLane (laneOfSub (2 * p) + i) (fun _ => {})) s

/-- A block reset starts. -/
def State.blkStart (s : State) (kind t : Nat) : State :=
  let old := (s.die t).st.toNat
  let s := match kind with
    | 1 => s.blkDieStart t
    | 2 => s.blkLanes t
    | _ => (s.scrubPart t).modLPart t (fun _ => lpartDflt t)
  s.setRst (fun r => { r with blk := r.blk ++ [(kind, t, old)], blkState := 1 })

/-- BLK_KIND's write. -/
def State.wBlock (s : State) (n : Nat) (v : W32) : Option State :=
  let t := (bitsAt v 0 8 : Byte).toNat
  let k := (bitsAt v 8 3 : BitVec 3).toNat
  if ¬ within v 0x7FF ∨ ¬ s.blkExists k t then none
  else if s.blkIdle k t then some (s.blkStart k t) else some (s.blkRefuse n)

/-- BLOCK_RESET (R438). -/
def execBlockReset (n : Fin 8) (v : W32) (s : State) : Result := .next (s.ownerWrite n (fun s => s.wBlock n v))

/-- A die's block reset ends: engines that pass their known-answer stream leave FAILED (R438). -/
def State.blkDieEnd (s : State) (d old : Nat) (ok : Byte) : State :=
  let s := (List.range 8).foldl (fun s i => s.modEng (8 * d + i) (fun y => { y with st := if ok.getLsbD i then 0 else 4 })) s
  let st : BitVec 3 := if old = 1 then 1 else if old = 5 then 5 else 4
  s.modDie d (fun x => { x with st := st, mhz := if st = 1 then x.mhz else 1200, katPass := ok, katLeft := 0, idleAt := s.us })

/-- BLOCK_RESET_DONE (R438): the oldest block reset ends; a die whose every engine fails, or a block that fails its check,
reads failed. -/
def execBlockResetDone (ok : Byte) (s : State) : Result :=
  .next (match s.plat.rst.blk with
    | [] => s
    | (k, t, old) :: bs =>
      let s := s.setRst (fun r => { r with blk := bs, blkState := if bs ≠ [] then r.blkState else if ok = 0 then 3 else 2 })
      if k = 1 then (s.blkDieEnd t old ok).stWake else s)

end Sys2Proof.Machine
end

