-- ==== Sys2Proof/Machine/BringUp.lean ====
section
/-! DEFINITION. Start-up options, fuses and the bring-up phases (R440–R453, R458). -/

namespace Sys2Proof.Machine

/-! ## Phases (R449) -/

/-- PHASE: the lowest phase that has not ended, or P7 (log 28). -/
def phaseOf (ended : Byte) : BitVec 3 :=
  match (List.range 7).find? (fun i => !ended.getLsbD i) with
  | some i => BitVec.ofNat 3 i
  | none => 7

/-- Phase p ends. -/
def State.endPhase (s : State) (p : Nat) : State :=
  s.setBring (fun b => { b with ended := putBit b.ended p true, phase := phaseOf (putBit b.ended p true) })

/-- Phase p may run: power is good, no reset holds the package, the phases before it have ended; with board test chosen
bring-up stops after P1. -/
def State.mayRun (s : State) (p : Nat) (before : List Nat) : Bool :=
  let r := s.plat.rst
  r.powerGood && !r.pinLow && !r.thermHold && !r.seqFault && before.all (fun i => s.plat.bring.ended.getLsbD i) &&
    !s.plat.bring.ended.getLsbD p && !(decide (2 ≤ p) && s.plat.opt.reg.getLsbD 21)

/-! ## P1: options (R440–R443) -/

/-- The code ranges of bins 0–15. -/
def binCodes : List (Nat × Nat) :=
  [(0, 1), (3, 4), (5, 6), (7, 9), (10, 11), (12, 14), (15, 17), (19, 20), (23, 24), (28, 31), (34, 37), (38, 41), (42, 45), (46, 49),
   (52, 55), (58, 61)]

/-- The bin of a code; none in a gap or above 61. -/
def binOf (code : Nat) : Option Nat := (List.range 16).find? (fun i => match binCodes[i]? with
  | some (lo, hi) => decide (lo ≤ code) && decide (code ≤ hi)
  | none => false)

/-- A code put in its place among sorted codes. -/
def insertCode (x : Nat) : List Nat → List Nat
  | [] => [x]
  | y :: ys => if x ≤ y then x :: y :: ys else y :: insertCode x ys
def sortCodes (l : List Nat) : List Nat := l.foldl (fun m x => insertCode x m) []

/-- The median of 8 codes: of the two in the middle, where they differ, a free value between them (log 29). -/
def State.medianCode (s : State) (codes : List Nat) : Nat × State :=
  let l := sortCodes codes
  let lo := l.getD 3 0
  let hi := l.getD 4 lo
  if lo = hi then (lo, s) else let r := s.freeVal 6; (lo + r.1.toNat % (hi - lo + 1), r.2)

/-- The option register for a median code and straps (R443): boot source, clock mode, dealer, position as the bin or the
straps give them. -/
def optionWord (code : Nat) (straps : BitVec 3) : W32 :=
  let bin := (binOf code).getD 0
  let legacy : Bool := decide (bin = 0)
  let sb := (bitsAt straps 0 2 : BitVec 2).toNat
  let bad : Bool := (decide (code < 62) && (binOf code).isNone) || (legacy && decide (sb = 3))
  let boot := if legacy then (if sb = 3 then 0 else sb) else if bin < 7 then 0 else if bin < 11 then 1 else if bin < 15 then 2 else 0
  let c1 : Bool := if legacy then straps.getLsbD 2 else [5, 6, 9, 10, 13, 14].contains bin
  let position : Bool := !legacy && decide (bin ≠ 15) && decide (bin % 2 = 0)
  fldW (BitVec.ofNat 6 code) 0 ||| fldW (BitVec.ofNat 4 bin) 8 ||| bitW legacy 12 ||| bitW (decide (62 ≤ code)) 13 ||| bitW bad 14 |||
    fldW (BitVec.ofNat 2 boot) 16 ||| bitW c1 18 ||| bitW (bin = 3 || bin = 4) 19 ||| bitW position 20 ||| bitW (bin = 15) 21 ||| fldW straps 24

/-! ## Fuses (R444–R447) -/

/-- The majority of three copies, bit by bit. -/
def major (x : W32 × W32 × W32) : W32 := (x.1 &&& x.2.1) ||| (x.1 &&& x.2.2) ||| (x.2.1 &&& x.2.2)

/-- A word as the bank reads it: accepted with a value, or marginal. -/
def OptionReads.word (r : OptionReads) (i : Nat) : Option W32 :=
  let s := major (r.strict.getD i (0, 0, 0))
  let l := major (r.loose.getD i (0, 0, 0))
  if s = l then some s else none

/-- The value that stands for a word that is not trusted (R445): every pin of a pin word takes state 1, a reserved word reads 0. -/
def failSafe (i : Nat) : W32 := if 256 ≤ i then 0 else if 32 ≤ i ∧ i < 64 then 0x09249249 else Config.failSafe i

/-- The state a pin group takes: its field, or 1 where the field is reserved (R447, R496). -/
def State.pinState (s : State) (g : Nat) : Nat :=
  let v := (bitsAt (SMap.get z32 s.plat.opt.fuses (32 + g / 10)) (3 * (g % 10)) 3 : BitVec 3).toNat
  if 5 ≤ v then 1 else v

/-- Pin groups read state 1 unless fuses say otherwise. -/
def groupDflt (_ : Nat) : Nat := 1

/-- Applies the fuse states to the 14 groups. -/
def State.applyPins (s : State) : State :=
  let vs := (List.range 14).map s.pinState
  s.setPins (fun p => { p with groups := (vs.zipIdx).foldl (fun m x => SMap.set groupDflt m x.2 x.1) [] })

/-- A word that is not trusted: marginal or drifted. -/
def Options.bad (o : Options) (i : Nat) : Bool := o.marginal.contains i || o.drifted.contains i

/-- A unit's enable stands on a word that is not trusted (R445). -/
def Options.unitBad (o : Options) (u : Nat) : Bool :=
  (List.range 16).any (fun i => o.bad (16 + i) && Config.fuseCovers (16 + i) u)

/-- Words 16–31. -/
def Options.units (o : Options) : List W32 := (List.range 16).map (fun i => SMap.get z32 o.fuses (16 + i))

/-- Station dies of a variant: active, spare; depot stacks (R1). -/
def variantDies (v : Nat) : Nat := if v = 0 then 36 else if v = 1 then 24 else 12
def variantStacks (v : Nat) : BitVec 6 := if v = 0 then 0x3F else if v = 1 then 0x0F else 0x03

/-- The variant, an untrusted one being the UFM-9030 (R445). -/
def Options.variantOf (o : Options) : Nat := if o.unitBad 0 then 2 else (Config.fuseVariant o.units).val

/-- The depot stacks enabled. -/
def Options.stacks (o : Options) : BitVec 6 :=
  (BitVec.ofNat 6 ((List.range 6).foldl (fun a i =>
    if (Config.fuseDepot o.units).getLsbD i ∧ ¬ o.unitBad (41 + i) then a + 2 ^ i else a) 0)) &&& variantStacks o.variantOf

/-- Variant and stacks as the words stand: known from P1, where P4 and P5 need them, and found again in P2 (log 31). -/
def Options.enables (o : Options) : Options := { o with variant := BitVec.ofNat 2 o.variantOf, depotEn := o.stacks }

/-- The words a bank of readings gives. -/
def OptionReads.words (r : OptionReads) : List (Option W32) := (List.range 1024).map (fun i => OptionReads.word r i)

/-- What P1 reads: the option register for a median code, the fuse words with their fail-safe values, the marginal ones. -/
def OptionReads.options (r : OptionReads) (code : Nat) : Options :=
  let ws := (OptionReads.words r).zipIdx
  ({ reg := optionWord code r.straps, fuses := ws.foldl (fun f x => SMap.set z32 f x.2 (x.1.getD (failSafe x.2))) []
     marginal := (ws.filter (fun x => x.1.isNone)).map (fun x => x.2) } : Options).enables

/-- OPTION_LOADING (R442): P1 ends with the options, the fuse words and the pin states. -/
def execOptionLoading (r : OptionReads) (s : State) : Result :=
  .next (
    if s.mayRun 1 [0] then
      let m := s.medianCode r.codes
      ({ m.2 with plat := { m.2.plat with opt := OptionReads.options r m.1 } } : State).applyPins.endPhase 1
    else s)

/-! ## P2: the Assayers and the reference (R408, R409, R446, R448) -/

/-- The state the fuses give each die, an untrusted enable being fused off. -/
def Options.dieCodes (o : Options) : List Nat :=
  (List.range 40).map (fun d => if o.unitBad (1 + d) then 0 else (Config.fuseDie o.units d).val)

/-- Sets an element of a list. -/
def setAt {α : Type} (l : List α) (i : Nat) (v : α) : List α := (l.zipIdx).map (fun x => if x.2 = i then v else x.1)

/-- The dies with a code, ascending. -/
def withCode (l : List Nat) (c : Nat) : List Nat := ((l.zipIdx).filter (fun x => x.1 = c)).map (fun x => x.2)

/-- Spare dies take the places that are missing; which spare is free (R445, log 30). -/
def State.fillSpares (s : State) (l : List Nat) (need : Nat) : Nat → List Nat × State
  | 0 => (l, s)
  | n + 1 =>
    if need ≤ (withCode l 2).length ∨ withCode l 1 = [] then (l, s)
    else
      let r := s.freeVal 8
      let sp := withCode l 1
      r.2.fillSpares (setAt l (sp.getD (r.1.toNat % sp.length) 0) 2) need n

/-- The variant's counts of active dies and of the four spares are exact: dies beyond them are not enabled (R1, log 30). -/
def trimDies (l : List Nat) (need : Nat) : List Nat :=
  ((withCode l 2).drop need ++ (withCode l 1).drop 4).foldl (fun l d => setAt l d 0) l

/-- The fuse summary from the words as used. -/
def State.summarize (s : State) (refOk : Bool) : List Nat × State :=
  let o := s.plat.opt
  let v := o.variantOf
  let r := s.fillSpares (trimDies o.dieCodes (variantDies v)) (variantDies v) 40
  let fuse := (r.1.zipIdx).foldl (fun (x : BitVec 80) c => putBits x (2 * c.2) (BitVec.ofNat 2 c.1)) 0
  (r.1, { r.2 with plat := { r.2.plat with opt :=
    { o.enables with dieFuse := fuse, gateEn := 0xFF, refOk := refOk } } })

/-- Dies take their fuse states: active dies are asleep, in slots of ascending number. -/
def State.placeDies (s : State) (codes : List Nat) : State :=
  (codes.zipIdx).foldl (fun s c =>
    let slot := (withCode (codes.take c.2) 2).length
    s.modDie c.2 (fun x =>
      if c.1 = 2 then { x with st := 2, slot := BitVec.ofNat 6 slot } else { x with st := BitVec.ofNat 3 c.1, slot := 63 })) s

/-- Words that differ from the reference: an accepted word with another value there, or with none. -/
def Options.drift (o : Options) (ref : List (Option W32)) : List Nat :=
  (List.range 1024).filter (fun i => !o.marginal.contains i && decide (ref.getD i none ≠ some (SMap.get z32 o.fuses i)))

/-- A drifted word is logged and its fail-safe value used (R446). -/
def State.driftWord (s : State) (i : Nat) : State :=
  let r := s.freeVal 32
  let s := r.2.vlog 9 (BitVec.ofNat 8 i) r.1
  { s with plat := { s.plat with opt :=
    { s.plat.opt with fuses := SMap.set z32 s.plat.opt.fuses i (failSafe i), drifted := s.plat.opt.drifted ++ [i] } } }

/-- The image the ROM accepts: signed, of a security version not below counter 0; A first (R408). -/
def State.imageOf (s : State) (r : BootReads) : Option (BootImage × Bool) :=
  let ok (i : BootImage) : Bool := i.signed && decide ((s.mono 0).toNat ≤ i.secVer.toNat)
  if ok r.imageA then some (r.imageA, false) else if ok r.imageB then some (r.imageB, true) else none

/-- The held causes FUSE and BOOT as this boot finds them; HELD clears when no cause remains (R448). -/
def State.bootCauses (s : State) (fuse boot : Bool) : State :=
  s.setVbat (fun v =>
    let c := putBit (putBit v.cause 3 fuse) 4 boot
    { v with cause := c, held := decide (c ≠ 0) })

/-- Measurement registers 0 to 3 (R409). -/
def State.bootMeasure (s : State) (r : BootReads) (im : Option (BootImage × Bool)) : State :=
  let s := s.extend 0 (toBytes 48 (sha384 r.rom))
  let s := match im with
    | some i => s.extend 1 i.1.bytes
    | none => s
  let o := s.plat.opt
  (s.extend 2 ((List.range 1024).flatMap (fun i => toBytes 4 (SMap.get z32 o.fuses i)))).extend 3 (toBytes 4 o.reg)

/-- The Assayers start (R407, R408). -/
def State.startAssayers (s : State) (im : Option (BootImage × Bool)) : State :=
  match im with
  | some (i, b) =>
    let s := s.setAsy (fun a => { a with ver := i.version, secVer := i.secVer, imageB := b })
    if b then s.vlogFree 10 else s
  | none => s

/-- The accepted words are compared with a verified reference (R446). -/
def State.checkReference (s : State) (reference : Option (List (Option W32))) : State :=
  match reference with
  | some ref => (s.plat.opt.drift ref).foldl State.driftWord s
  | none => s

/-- An identity or security word is not trusted (R445). -/
def Options.keyBad (o : Options) : Bool :=
  (List.range 1024).any (fun i => (decide (i < 16) || (decide (128 ≤ i) && decide (i < 256))) && o.bad i)

/-- The package holds for FUSE: no reference, an untrusted identity or security word, or too few dies (R445, R446). -/
def State.fuseFault (s : State) (reference : Option (List (Option W32))) (codes : List Nat) : Bool :=
  reference.isNone || s.plat.opt.keyBad || decide ((withCode codes 2).length < variantDies s.plat.opt.variant.toNat)

/-- ASSAYER_BOOT (R449 P2). -/
def execAssayerBoot (r : BootReads) (s : State) : Result :=
  .next (
    if s.mayRun 2 [0, 1] then
      let im := s.imageOf r
      let s := ((s.setAsy (fun _ => {})).startAssayers im).checkReference r.reference
      let p := s.applyPins.summarize r.reference.isSome
      let s := (p.2.placeDies p.1).bootCauses (p.2.fuseFault r.reference p.1) im.isNone
      let s := s.setBring (fun b => { b with online := b.online &&& s.plat.opt.depotEn })
      (s.bootMeasure r im).endPhase 2
    else s)

/-! ## P3: the dealers (R449, R450, R452) -/

/-- DEALER_BOOT: the preferred dealer, else the other; the standby is then reloaded (R186). -/
def execDealerBoot (r : DealerBootReads) (s : State) : Result :=
  .next (
    if s.mayRun 3 [0, 1, 2] ∧ ¬ s.plat.bring.dealersFailed then
      let pref := s.plat.opt.reg.getLsbD 19
      let ok (b : Bool) : Bool := (if b then r.okB else r.okA) && !s.plat.rst.domains.contains (.dealer b)
      if ok pref || ok (!pref) then
        let b := if ok pref then pref else !pref
        let s := { s with dealers := { s.dealers with active := b, standby := false, reload := true } }
        let s := s.setBring (fun x => { x with fallback := !ok pref, ucPodVer := r.ucVersion })
        (((s.extend 4 r.boot).extend 5 r.firmware).setPins (fun p => { p with configured := true })).endPhase 3
      else (s.setBring (fun x => { x with dealersFailed := true })).faultBit 2
    else s)

/-! ## P4 and P5: depot and lanes (R449, R450) -/

/-- The stacks that train: enabled, good, and their domain out of reset. -/
def State.stacksUp (s : State) (ok : BitVec 6) : BitVec 6 :=
  BitVec.ofNat 6 ((List.range 6).foldl (fun a i =>
    if s.plat.opt.depotEn.getLsbD i ∧ ok.getLsbD i ∧
        ¬ s.plat.rst.domains.any (fun d => match d with | .depot j => decide (j.val = i) | _ => false) then a + 2 ^ i else a) 0)

/-- DEPOT_TRAINING: every line of the stacks in service is zero. A stack that fails is retired where R458 allows it; else
bring-up stops. -/
def execDepotTraining (ok : BitVec 6) (s : State) : Result :=
  .next (
    if s.mayRun 4 [0, 1] ∧ ¬ s.plat.bring.depotFail then
      let on := s.stacksUp ok
      let s1 := ({ s with depot := { s.depot with mem := [], bad := [] } } : State).setBring (fun b => { b with online := on })
      if on = s.plat.opt.depotEn ∨ (on ≠ 0 ∧ Config.regionsFit on) then s1.endPhase 4
      else (s1.setBring (fun b => { b with depotFail := true })).faultBit 3
    else s)

/-- A fabric port trains: its lanes do, and its gate's domain is out of reset. -/
def State.portTrains (s : State) (ok : BitVec 40) (p : Nat) : Bool :=
  ok.getLsbD p && !s.plat.rst.domains.any (fun d => match d with | .gate g => decide (g.val = p / 5) | _ => false)

/-- The states training leaves the lanes in. -/
def State.trainLanes (s : State) (ok : BitVec 40) : State :=
  let good := s.portTrains ok
  (List.range 160).foldl (fun s l =>
    let p := l / 4
    let t := s.gateTemp (20 * (p / 5) + 4 * (p % 5) + l % 4)
    s.modLane (20 * (p / 5) + 4 * (p % 5) + l % 4) (fun x =>
      if s.fabricPorts ≤ p then { x with st := 4 } else if good p then { x with st := 2, tempTrain := t } else { x with st := 0 })) s

/-- LANE_TRAINING: the lanes of enabled ports become ACTIVE, a port that fails stays down; lanes of other ports are DISABLED. -/
def execLaneTraining (ok : BitVec 40) (s : State) : Result :=
  .next (
    if s.mayRun 5 [0, 1] then
      ((s.trainLanes ok).setBring (fun b => { b with
        portsDown := satNat 8 ((List.range s.fabricPorts).filter (fun p => !s.portTrains ok p)).length })).endPhase 5
    else s)

/-! ## P6 and P7 (R449, R451, R453) -/

/-- An engine fails in P6: its known-answer stream, or its die's domain, which stays in reset. -/
def State.engFails (s : State) (failed : BitVec 320) (e : Nat) : Bool :=
  failed.getLsbD e || s.plat.rst.domains.any (fun d => match d with | .station k => decide (k.val = e / 8) | _ => false)

/-- The active dies, asleep until P6. -/
def State.waveDies (s : State) : List Nat := (List.range 40).filter (fun d => decide ((s.die d).st = 2))

/-- The active dies awake, each engine IDLE or FAILED and scrubbed by its known-answer stream (R237). -/
def State.wakeDies (s : State) (failed : BitVec 320) : State :=
  let bad := s.engFails failed
  s.waveDies.foldl (fun s d =>
    let s := s.modDie d (fun x => { x with st := 4, mhz := 1200, idleAt := s.us
                                           katPass := BitVec.ofNat 8 ((List.range 8).foldl (fun a i => if bad (8 * d + i) then a else a + 2 ^ i) 0) })
    (List.range 8).foldl (fun s i => s.modEng (8 * d + i) (fun y => { y.scrubbed with st := if bad (8 * d + i) then 4 else 0 })) s) s

/-- STATION_WAVES: active dies are awake, and every engine has its known-answer result. -/
def execStationWaves (failed : BitVec 320) (s : State) : Result :=
  .next (
    if s.mayRun 6 [0, 3, 4] then
      let es := s.waveDies.flatMap (fun d => (List.range 8).map (fun i => 8 * d + i))
      ((s.wakeDies failed).setBring (fun b => { b with engFailed := satNat 8 (es.filter (s.engFails failed)).length })).endPhase 6
    else s)

/-- READY (R449, R451): a phase overrun no longer holds FAULT_N; a package that is not held waits for a RENEW. -/
def execReady (ms : W16) (s : State) : Result :=
  .next (
    if s.mayRun 7 [0, 1, 2, 3, 4, 5, 6] then
      let s := (s.endPhase 7).setBring (fun b => { b with ready := true, readyMs := ms })
      let s := s.setPins (fun p => { p with faultCause := putBit p.faultCause 1 false })
      s.setPair (fun p => { p with coldWait := !s.vbat.held })
    else s)

/-- PHASE_OVERRUN (R450): PHASE keeps the phase, FAULT_N is asserted, the phase continues. -/
def execPhaseOverrun (s : State) : Result :=
  .next (
    if s.plat.bring.ready ∨ ¬ s.plat.rst.powerGood then s
    else (s.setBring (fun b => { b with overran := putBit b.overran b.phase.toNat true })).faultBit 1)

/-! ## Retiring a depot stack (R458) -/

/-- Starts the retire of stack i, or ignores it. -/
def State.retireStack (s : State) (n i : Nat) : State :=
  let b := s.plat.bring
  let rest : BitVec 6 := putBit (b.online &&& ~~~b.retiring) i false
  if ¬ b.online.getLsbD i then s.ignoreBy n
  else if b.retiring.getLsbD i then s
  else if rest = 0 ∨ ¬ Config.regionsFit rest then s.ignoreBy n
  else s.setBring (fun b => { b with retiring := putBit b.retiring i true })

/-- DEPOT_RETIRE's write. -/
def State.wRetire (s : State) (n : Nat) (v : W32) : Option State :=
  if within v 0x3F then some ((List.range 6).foldl (fun s i => if v.getLsbD i then s.retireStack n i else s) s) else none

/-- DEPOT_RETIRE (R458). -/
def execDepotRetire (n : Fin 8) (v : W32) (s : State) : Result := .next (s.ownerWrite n (fun s => s.wRetire n v))

/-- Something of the owner's still lies in a stack: an allocation, a queue ring, an open landing window. -/
def State.stackUsed (s : State) (i : Nat) : Bool :=
  let meets (a n : Nat) : Bool := decide (i * stackSize < a + n) && decide (a < (i + 1) * stackSize)
  s.depot.allocs.any (fun x => decide (x.2.st = 1) && meets x.2.addr x.2.len) ||
  s.led.queues.any (fun q => q.2.en && !q.2.loc && meets q.2.base.toNat (q.2.size * q.2.entry)) ||
  s.fab.reb.windows.any (fun w => meets w.ring w.size)

/-- DEPOT_STACK_OFFLINE (R458). -/
def execDepotStackOffline (i : Fin 6) (s : State) : Result :=
  .next (
    if s.plat.bring.retiring.getLsbD i ∧ ¬ s.stackUsed i then
      s.setBring (fun b => { b with online := putBit b.online i false, retiring := putBit b.retiring i false })
    else s)

end Sys2Proof.Machine
end

