-- ==== Sys2Proof/Machine/Rebuild.lean ====
section
/-! DEFINITION. The rebuild mailbox, landing windows and segment delivery (R365–R367, R400, R404). -/

namespace Sys2Proof.Machine

/-- Bytes of the depot as a number. -/
def State.depAt (s : State) (a off n : Nat) : Nat := s.depLE (a + off) n

/-- Whether n bytes from an offset are 0. -/
def State.depZero (s : State) (a off n : Nat) : Bool := (s.depRead (a + off) n).all (· = 0)

/-! ## The plan (R365) -/

/-- The header of a rebuild plan. -/
structure RebHeader where
  n : Nat
  segments : Nat
  tenant : W16
  close : Bool
  landing : Nat
  delivery : Nat

/-- Reads a header: none when it fails its own layout (R365): a reserved field set, a group size outside 3–9, a position
outside the group, no stripe unit. -/
def State.rebHeader (s : State) (a : Nat) : Option RebHeader :=
  let n := s.depAt a 10 1
  if s.inDepot a 64 ∧ 3 ≤ n ∧ n ≤ 9 ∧ s.depAt a 11 1 < n ∧ s.depAt a 12 4 ≠ 0 ∧ s.depAt a 22 1 < 2 ∧ s.depZero a 23 1 ∧ s.depZero a 48 16 then
    some { n := n, segments := s.depAt a 16 4, tenant := BitVec.ofNat 16 (s.depAt a 20 2), close := decide (s.depAt a 22 1 = 1)
           landing := s.depAt a 24 8, delivery := s.depAt a 40 8 }
  else none

/-- A landing entry at b (R365, R366). -/
def State.landingEntry (s : State) (h : RebHeader) (plan b : Nat) (openAt : W32) : Option Landing :=
  let span := s.depAt b 24 4
  let lg := s.depAt b 28 1
  let ring := s.depAt b 16 8
  if s.inDepot b 32 ∧ s.depAt b 4 1 < h.n - 1 ∧ s.depAt b 5 1 < h.n ∧ s.depZero b 6 2 ∧ s.depZero b 29 3 ∧ 1 ≤ span ∧ span ≤ 64 ∧ 18 ≤ lg ∧ lg ≤ 26 ∧
      s.reaches h.tenant ring (2 ^ lg) then
    some { convoy := BitVec.ofNat 32 (s.depAt b 0 4), input := s.depAt b 4 1, row := s.depAt b 5 1, vbase := s.depAt b 8 8
           ring := ring, span := 0x100000 * span, size := 2 ^ lg, tenant := h.tenant, openAt := openAt, plan := plan }
  else none

/-- A delivery entry at b. -/
def State.deliveryEntry (s : State) (h : RebHeader) (plan b : Nat) : Option Delivery :=
  let src := s.depAt b 8 8
  let len := 0x100000 * s.depAt b 16 4
  if s.inDepot b 32 ∧ s.depZero b 6 2 ∧ s.depZero b 20 12 ∧ len ≠ 0 ∧ s.reaches h.tenant src len then
    some { convoy := BitVec.ofNat 32 (s.depAt b 0 4), dest := BitVec.ofNat 16 (s.depAt b 4 2), src := src, len := len, plan := plan }
  else none

/-- k entries of 32 bytes; none when one is malformed. -/
def allOf {α : Type} (f : Nat → Option α) (a : Nat) : Nat → Option (List α)
  | 0 => some []
  | k + 1 => match f a, allOf f (a + 32) k with
    | some x, some xs => some (x :: xs)
    | _, _ => none

/-- The plan is open: one of its windows or deliveries is. -/
def State.planOpen (s : State) (a : Nat) : Bool :=
  s.fab.reb.windows.any (fun w => w.plan = a) || s.fab.reb.deliveries.any (fun d => d.plan = a)

/-- Opens a plan (R404): its landing entries, one for each input of each segment, and one delivery a segment (log 32). -/
def State.openPlan (s : State) (a : Nat) (openAt : W32) (h : RebHeader) : State :=
  let total := h.segments * (h.n - 1)
  if 4096 < s.fab.reb.windows.length + total then s.ignore
  else
    match allOf (fun b => s.landingEntry h a b openAt) h.landing total, allOf (fun b => s.deliveryEntry h a b) h.delivery h.segments with
    | some ws, some ds => s.setReb (fun r => { r with windows := r.windows ++ ws, deliveries := r.deliveries ++ ds })
    | _, _ => s.ignore

/-- Closes a plan's windows. -/
def State.closePlan (s : State) (a : Nat) : State :=
  s.setReb (fun r => { r with windows := r.windows.filter (fun w => decide (w.plan ≠ a)), deliveries := r.deliveries.filter (fun d => decide (d.plan ≠ a)) })

/-- A post to the rebuild mailbox. A plan is opened by the active package only, once, unless its close bit is set. -/
def State.rebuildPost (s : State) (data : BitVec 320) : State :=
  let a := (byteField data 0 64 : W64).toNat
  let at_ : W32 := byteField data 8 32
  if (byteField data 12 160 : BitVec 160) ≠ 0 ∨ ¬ s.isActive then s.ignore
  else match s.rebHeader a with
    | none => s.ignore
    | some h =>
      if h.close then (if s.planOpen a then s.closePlan a else s.ignore)
      else if s.planOpen a then s.ignore
      else s.openPlan a at_ h

/-- DEVICE_SERVER_TAKE (R400): the device function takes a posted notice; mailbox 0 is the rebuild mailbox. -/
def execDeviceServerTake (m : BitVec 12) (s : State) : Result :=
  .next (
    let x := s.mbx m.toNat
    if x.server = 33 ∧ ¬ x.cmd ∧ x.en ∧ x.full then
      let s := s.mbxTake m.toNat
      let s := if m = 0 then s.rebuildPost x.data else s
      s.mbxWake m.toNat mbxFuel
    else s)

/-! ## Landing (R366) -/

/-- Flits of a span. -/
def Landing.flits (w : Landing) : Nat := (w.span + 47) / 48

/-- The lines that bytes a to b − 1 touch. -/
def linesFrom (a b : Nat) : List Nat := if b ≤ a then [] else linesOf a (b - a)

/-- A landing meets a line of an earlier turn of the ring that has not been read. -/
def Landing.full (w : Landing) (a b : Nat) : Bool :=
  (linesFrom a b).any (fun l => decide (w.size / 64 ≤ l) && !w.read.contains (l - w.size / 64))

/-- The window after flits were skipped: their lines are poisoned. -/
def Landing.skip (w : Landing) (d : Nat) : Landing :=
  let m := min w.flits (w.n + d)
  { w with n := m, bad := (linesFrom (48 * w.n) (min w.span (48 * m))).foldl addNew w.bad }

/-- A flit lands in a window. -/
def State.land (s : State) (w : Landing) (f : Flit) : State :=
  let d := (f.seq - BitVec.ofNat 16 w.n).toNat
  let w1 := if d = 0 then w else w.skip d
  let a := 48 * w1.n
  let bs := (toBytes 48 f.pay).take (w.span - a)
  let put (s : State) (v : Landing) : State :=
    s.setReb (fun r => { r with windows := r.windows.map (fun y => if y = w then v else y) })
  if w1.stopAt.isSome ∨ w.span ≤ a then put s w1
  else if w1.full a (a + bs.length) then put s { w1 with stopAt := some a }
  else
    let mem := (bs.zipIdx).foldl (fun m x => Mem.write m (w.ring + (a + x.2) % w.size) x.1) s.depot.mem
    put { s with depot := { s.depot with mem := mem } } { w1 with n := w1.n + 1, last := decide (w.span ≤ a + 48) }

/-- LANDING_FLIT (R366): a convoy flit at a sub-port and slot; with no open entry it is dropped and counted. -/
def execLandingFlit (port : Nat) (slot : Fin 64) (f : Flit) (s : State) : Result :=
  .next (
    if f.cls ≠ 2 ∨ s.subDown port ∨ f.crc ≠ f.crcOf then s
    else
      let miss := s.setReb (fun r => { r with convoyMiss := satInc r.convoyMiss })
      match SMap.get noneOf s.fab.reb.sched (64 * port + slot) with
      | none => miss
      | some k => match s.fab.reb.windows.find? (fun w => decide (w.convoy = k) && s.isOpen w && !w.last) with
        | none => miss
        | some w => s.land w f)

/-- LANDING_WINDOW_CLOSE (R366): a window whose every line has landed and been read closes. -/
def execLandingWindowClose (i : Nat) (s : State) : Result :=
  .next (match s.fab.reb.windows[i]? with
    | none => s
    | some w => if w.spent then s.setReb (fun r => { r with windows := r.windows.eraseIdx i }) else s)

/-! ## Delivery (R367) -/

/-- The flits of a delivery: seq counts from 0, the last carries the remainder and LAST. -/
def State.deliveryFlit (s : State) (d : Delivery) (sl : W16) (total i : Nat) : Flit :=
  { cls := 2, dest := d.dest, src := s.myId, slice := sl.setWidth 9, seq := BitVec.ofNat 16 i
    sep := (s.slice sl.toNat).sepoch.setWidth 8, last := decide (i + 1 = total)
    pay := payOf (s.depRead (d.src + 48 * i) (min 48 (d.len - 48 * i))) }

/-- The chunk digests of a delivered range (R353). -/
def State.chunkDigests (s : State) (d : Delivery) : List Digest :=
  (List.range ((d.len + 0xFFFFF) / 0x100000)).map (fun k => sha384 (s.depRead (d.src + 0x100000 * k) (min 0x100000 (d.len - 0x100000 * k))))

/-- SEGMENT_DELIVERY (R367): a segment whose stream has committed leaves on its convoy, toward a destination bound to a slice,
with its chunk digests. -/
def execSegmentDelivery (i : Nat) (s : State) : Result :=
  .next (match s.fab.reb.deliveries[i]? with
    | none => s
    | some d =>
      match (s.known d.dest).bind (fun k => k.bound) with
      | some sl =>
        if d.sent ∨ ¬ d.ready ∨ ¬ s.isActive then s
        else
          let total := (d.len + 47) / 48
          let s := (List.range total).foldl (fun s j => s.sendTo d.dest (s.deliveryFlit d sl total j)) s
          (s.emit (.chunkDigests d.dest (s.chunkDigests d))).setReb (fun r => { r with deliveries := r.deliveries.map (fun y => if y = d then { y with sent := true } else y) })
      | none => s)

end Sys2Proof.Machine
end

