-- ==== Sys2Proof/Machine/Telemetry.lean ====
section
/-! DEFINITION. The pod congestion map (R81–R83, R472) and the agent-timeout event. -/

namespace Sys2Proof.Machine

/-- Fields of a congestion record (R81). -/
def recDefl (r : W64) : Nat := (bitsAt r 48 16 : W16).toNat
def recDrops (r : W64) : Nat := (bitsAt r 40 8 : Byte).toNat
def recFec (r : W64) : Nat := (bitsAt r 28 12 : BitVec 12).toNat
def recMargin (r : W64) : BitVec 6 := bitsAt r 22 6
def recOcc (r : W64) : Nat := (bitsAt r 14 8 : Byte).toNat

/-- The map's key of an agent's port in a window. -/
def congKey (id : W16) (p w : Nat) : Nat := (id.toNat * 128 + p) * 10000 + w % 10000

/-- The window the pod is in. -/
def State.curWindow (s : State) : Nat := s.fab.frame.toNat / 100

/-- The planned ports: agent, port, link class. -/
def State.plannedPorts (s : State) : List (W16 × Nat × Nat) :=
  match s.fab.plan with
  | some p => p.links.flatMap (fun l => [(l.a, l.ap.toNat, l.cls.toNat), (l.b, l.bp.toNat, l.cls.toNat)])
  | none => []

/-- Whether the map keeps a port's records: every planned port's (R83). -/
def State.mapped (s : State) (id : W16) (p : Nat) : Bool := s.plannedPorts.any (fun x => decide (x.1 = id) && decide (x.2.1 = p))

/-- Stores a record of a planned port; one more than 2 windows late is marked, and does not replace a newer one. -/
def State.storeRecord (s : State) (id : W16) (p : Nat) (w : W32) (r : W64) : State :=
  let late : Bool := decide (w.toNat + 3 < s.curWindow)
  let k := congKey id p w.toNat
  let newerThere : Bool := match SMap.get noneOf s.fab.cong.ring k with
    | some x => newer x.window w
    | none => false
  let s := if newerThere ∨ ¬ s.mapped id p then s
    else s.setCong (fun c => { c with ring := SMap.set noneOf c.ring k (some { window := w, record := r, late := late }) })
  if late then s else s.marginWatch id p (recMargin r)

/-- CONGESTION_RECORD (R83): a congestion notice's records enter the map. -/
def execCongestionRecord (f : Flit) (s : State) : Result :=
  .next (
    let w : W32 := byteField f.pay 0 32
    let p := (byteField f.pay 4 8 : Byte).toNat
    let n := (byteField f.pay 5 8 : Byte).toNat
    if f.cls ≠ 6 ∨ f.seq ≠ 0xFFFF ∨ f.crc ≠ f.crcOf ∨ f.dest ≠ s.myId ∨ n = 0 ∨ 5 < n ∨ 128 < p + n then s
    else
      let s := s.setCong (fun c => { c with window := if newer w c.window then w else c.window })
      (List.range n).foldl (fun s i => s.storeRecord f.src (p + i) w (byteField f.pay (8 + 8 * i) 64)) s)

/-- The last window for which a record of an agent has come. -/
def State.lastWindow (s : State) (id : W16) : Option W32 :=
  s.fab.cong.ring.foldl (fun b x => match x.2 with
    | some r => if x.1 / 1280000 = id.toNat then (match b with
        | some w => if newer r.window w then some r.window else some w
        | none => some r.window) else b
    | none => b) none

/-- AGENT_TIMEOUT (R83, R175): every record of an agent absent for 10 consecutive windows; the agent's kind 2 trump is due (R308). -/
def execAgentTimeout (id : W16) (s : State) : Result :=
  .next (
    let last := s.lastWindow id
    let due : Bool := match last with
      | some w => decide (w.toNat + 10 < s.curWindow)
      | none => decide (10 ≤ s.curWindow)
    if s.isActive ∧ due then
      (s.post 0x05 id ((last.getD 0xFFFFFFFF).setWidth 128)).setFold (fun b => { b with trumpDue := addNew b.trumpDue id })
    else s)

/-! ## Summaries -/

/-- A port's records of the ten windows from w on. -/
def State.tenWindows (s : State) (id : W16) (p w : Nat) : List W64 :=
  (List.range 10).filterMap (fun i => match SMap.get noneOf s.fab.cong.ring (congKey id p (w + i)) with
    | some r => if r.window.toNat = w + i then some r.record else none
    | none => none)

/-- The total of a field over a port's windows. -/
def totalOf (f : W64 → Nat) (rs : List W64) : Nat := (rs.map f).foldl (· + ·) 0

/-- Puts a port in its place among the eight highest; equal ports keep the plan's order (log 33). -/
def insertTop (x : Nat × W16 × Nat) : List (Nat × W16 × Nat) → List (Nat × W16 × Nat)
  | [] => [x]
  | y :: ys => if y.1 < x.1 then x :: y :: ys else y :: insertTop x ys

/-- The eight ports with the highest value. -/
def topEight (l : List (Nat × W16 × Nat)) : List (W16 × Nat) := ((l.foldl (fun m x => insertTop x m) []).take 8).map (fun x => x.2)

/-- The summary of the millisecond that starts with window w. -/
def State.summary (s : State) (w : Nat) : Summary :=
  let ps := s.plannedPorts.map (fun x => (x, s.tenWindows x.1 x.2.1 w))
  let byClass (f : W64 → Nat) : List Nat :=
    [1, 2, 3].map (fun c => ((ps.filter (fun x => x.1.2.2 = c)).map (fun x => totalOf f x.2)).foldl (· + ·) 0)
  let has (f : W64 → Bool) : Nat := (ps.filter (fun x => x.2.any f)).length
  { defl := byClass recDefl, drops := byClass recDrops, fec := byClass recFec
    topOcc := topEight (ps.map (fun x => (totalOf recOcc x.2, x.1.1, x.1.2.1)))
    topDefl := topEight (ps.map (fun x => (totalOf recDefl x.2, x.1.1, x.1.2.1)))
    down := has (fun r => r.getLsbD 7), retrain := has (fun r => r.getLsbD 6)
    low := has (fun r => decide ((recMargin r).toNat < s.plat.pwr.lowMargin.toNat)) }

/-- SUMMARY_ENTRY (R83): the last complete millisecond's summary joins the ring. -/
def execSummaryEntry (s : State) : Result :=
  .next (
    let x := s.summary (10 * (s.curWindow / 10 - 1))
    s.setCong (fun c => { c with sums := SMap.set noneOf c.sums (c.nSums % 86400000) (some x), nSums := c.nSums + 1 }))

end Sys2Proof.Machine
end

