-- ==== Sys2Proof/Machine/Discovery.lean ====
section
/-! DEFINITION. Discovery: the wavefront of probes, what HELLOs teach, and the comparison with the pod plan (R17–R19, R24, R26,
R29, R36–R42). -/

namespace Sys2Proof.Machine

/-! ## Probes (R37, R39) -/

/-- The agent a path leads to: the package itself for the empty path. -/
def State.nodeAt (s : State) (path : List Byte) : Option W16 :=
  if path = [] then some s.myId else (s.fab.paths.find? (fun k => k.paths.contains path)).map (fun k => k.id)

/-- A port recorded as dark: nothing answers behind it. -/
def State.darken (s : State) (path : List Byte) : State := s.setDisc (fun d => { d with dark := addNew d.dark path })

/-- The untrained port a path ends in. -/
def State.untrainedAt (s : State) (path : List Byte) : Option (W16 × Nat × Nat) :=
  match path.getLast?, s.nodeAt path.dropLast with
  | some p, some id => s.fab.disc.untrained.find? (fun u => decide (u.1 = id) && decide (u.2.1 = p.toNat))
  | _, _ => none

/-- A pass starts (R32, R41): a plan bound since the last one takes effect; every trained port of the package is probed, and the
others are dark. -/
def State.discover (s : State) : State :=
  if ¬ s.isActive ∨ s.fab.disc.active then s
  else
    let s := match s.fab.nextPlan with
      | some p => { s with fab := { s.fab with plan := some p, nextPlan := none } }
      | none => s
    let own := (List.range 80).filter (fun p => s.subEnabled p)
    let live (p : Nat) : Bool := (s.sub p).trained && (s.sub p).up
    let s := s.setDisc (fun d => { active := true, cold := s.fab.gens.all (fun g => g.2.isNone), darkMs := d.darkMs, darkAt := d.darkAt,
                                   dark := (own.filter (fun p => !live p)).map (fun p => [BitVec.ofNat 8 p]) })
    (own.filter live).foldl (fun s p => s.probe [BitVec.ofNat 8 p] 0) s

/-- DISCOVERY_START (R41). -/
def execDiscoveryStart (s : State) : Result := .next s.discover

/-- PROBE_RETRY (R39): the probe got no HELLO in 100 µs; two retries, then its port is dark. A probe of an untrained port is
not retried; after the tenth the port is dark. -/
def execProbeRetry (i : Nat) (s : State) : Result :=
  .next (match s.fab.disc.probes[i]? with
    | none => s
    | some x =>
      let drop (s : State) : State := s.setDisc (fun d => { d with probes := d.probes.eraseIdx i })
      if x.tries = 3 then
        (match s.untrainedAt x.path with
          | some u => if 10 ≤ u.2.2 then
              ((drop s).setDisc (fun d => { d with untrained := d.untrained.filter (fun y => decide (y ≠ u)) })).darken x.path
            else drop s
          | none => drop s)
      else if x.tries < 2 then
        (s.setDisc (fun d => { d with probes := d.probes.map (fun y => if y = x then { y with tries := y.tries + 1 } else y) })).sendPath
          x.path (agCmd 0x01 0) x.seq
      else (drop s).darken x.path)

/-- UNTRAINED_REPROBE (R39): a port the HELLO reported untrained is probed again, every 20 ms, up to 10 times. -/
def execUntrainedReprobe (id : W16) (p : Nat) (s : State) : Result :=
  .next (match s.fab.disc.untrained.find? (fun u => decide (u.1 = id) && decide (u.2.1 = p)), s.pathFor id with
    | some u, some path =>
      if 10 ≤ u.2.2 then s
      else
        (s.setDisc (fun d => { d with untrained := d.untrained.map (fun y => if y = u then (u.1, u.2.1, u.2.2 + 1) else y) })).probe
          (path ++ [BitVec.ofNat 8 p]) 3
    | _, _ => s)

/-- A dark-port pass (R41): every dark port is probed again; what answers joins a wave of its own, which ends in a comparison
as discovery does. -/
def State.darkPass (s : State) : State :=
  let s := s.setDisc (fun d => { d with active := true, fresh := [], spread := [], far := [], darkAt := s.us })
  s.fab.disc.dark.foldl (fun s p => s.probe p 0) s

/-- DARK_PORT_PASS (R41): when the period has passed since the last one, or since discovery. -/
def execDarkPortPass (s : State) : Result :=
  .next (if ¬ s.isActive ∨ s.fab.disc.active ∨ s.us < s.fab.disc.darkAt + 1000 * s.fab.disc.darkMs then s else s.darkPass)

/-! ## The plan -/

/-- The planned link at a port, seen from it: the other end and the class. -/
def State.planLink (s : State) (id : W16) (p : Nat) : Option (W16 × Nat × Nat) :=
  s.fab.plan.bind (fun pl => pl.links.findSome? (fun l =>
    if l.a = id ∧ l.ap.toNat = p then some (l.b, l.bp.toNat, l.cls.toNat)
    else if l.b = id ∧ l.bp.toNat = p then some (l.a, l.ap.toNat, l.cls.toNat) else none))

/-- A link record is one the plan names. -/
def State.planned (s : State) (l : LinkRec) : Bool :=
  match s.planLink l.a l.ap with
  | some (b, bp, _) => decide (b = l.b) && decide (bp = l.bp)
  | none => false

/-- The flight-time limit of a class, in 0.1 ns (R28). -/
def flightLimit (cls : Nat) : Nat := if cls = 1 then 70 else if cls = 2 then 120 else 400

/-- The flight a port measured: an agent's register, or the package's own. -/
def State.flightAt (s : State) (id : W16) (p : Nat) : Nat :=
  if id = s.myId then (s.sub p).flight.toNat else match s.agentById id with
    | some a => (a.port p).flight.toNat
    | none => 0

/-- A link that the plan names is over the reach of its class (R29). -/
def State.overReach (s : State) (l : LinkRec) : Bool :=
  match s.planLink l.a l.ap with
  | some (_, _, c) =>
    s.planned l && (decide (flightLimit c < s.flightAt l.a l.ap) || decide (flightLimit c < s.flightAt l.b l.bp))
  | none => false

/-- Reports a finding to the owner: an agent, or a port of it. What the report looks like and where the owner finds it is the
model's choice (R2, R29, R40 name none; log 106). -/
def State.report1 (s : State) (id : W16) (p : Byte) : State := s.setDisc (fun d => { d with reports := addNew d.reports (id, p) })

/-! ## HELLO -/

/-- Writes LCLASS at an end of a link: by command, or in the package's own port (R29, R507). -/
def State.writeClass (s : State) (id : W16) (p c : Nat) : State :=
  if id = s.myId then s.modSub p (fun q => { q with lclass := BitVec.ofNat 2 c })
  else s.devCmd id (agWrite (0x10C + 16 * p) [BitVec.ofNat 32 c])

/-- A link found: entered in the link book when it is new; the controller writes the class that the plan gives it at both of its
ends (R29). -/
def State.addLink (s : State) (a : W16) (ap : Nat) (b : W16) (bp : Nat) : State :=
  let l := s.newLink a ap b bp false
  let s := if s.fab.links.any (fun x => decide (x.a = l.a) && decide (x.ap = l.ap) && decide (x.b = l.b) && decide (x.bp = l.bp)) then s
    else s.enterLink l
  match s.planLink l.a l.ap with
  | some (x, xp, c) => if x = l.b ∧ xp = l.bp then (s.writeClass l.a l.ap c).writeClass l.b l.bp c else s
  | none => s

/-- The far end a port was found to lead to. -/
def State.linkEnd (s : State) (id : W16) (p : Nat) : Option (W16 × Nat) :=
  s.fab.links.findSome? (fun l => if l.a = id ∧ l.ap = p then some (l.b, l.bp) else if l.b = id ∧ l.bp = p then some (l.a, l.ap) else none)

/-- R19: another agent reports an ID already found. The one whose position agrees with the plan keeps the ID; if the plan does not
decide, both are quarantined. A newcomer that keeps it takes the other's place in the books. -/
def State.duplicate (s : State) (h : Payload) (prev : W16) (pp : Nat) (path : List Byte) : State :=
  let id := helloId h
  let p := helloArrival h
  let here : Bool := match s.planLink id p with | some (x, xp, _) => decide (x = prev) && decide (xp = pp) | none => false
  let there : Bool := (s.linksOf id).any s.planned
  let s := s.report1 id 0xFF
  let (q, s) := s.nextSeq
  if there ∧ ¬ here then s.sendPath path (agCmd 0x0D 0) q
  else if here ∧ ¬ there then
    let s := match s.pathFor id with
      | some o => s.sendPath o (agCmd 0x0D 0) q
      | none => s
    let s := { s with fab := { s.fab with links := s.fab.links.filter (fun l => decide (l.a ≠ id) && decide (l.b ≠ id))
                                          paths := s.fab.paths.filter (fun k => decide (k.id ≠ id)) } }
    (s.relearn h path).addLink prev pp id p
  else (s.setDisc (fun d => { d with quarantine := addNew d.quarantine id })).sendPath path (agCmd 0x0D 0) q

/-- Two HELLOs that one chip cannot both have sent: its build, ports, maker or device differ (R19, R38, log 107). -/
def otherChip (h h' : Payload) : Bool :=
  decide (helloBuild h ≠ helloBuild h') || decide (helloPorts h ≠ helloPorts h') ||
  decide ((byteField h 20 32 : W32) ≠ byteField h' 20 32)

/-- Whether a HELLO is another agent's than the one recorded under its ID: its arrival port is known to lead elsewhere, or it
names another chip than one found in this pass (R19). -/
def State.isDuplicate (s : State) (h : Payload) (prev : W16) (pp : Nat) : Bool :=
  (match s.linkEnd (helloId h) (helloArrival h) with
   | some old => decide (old ≠ (prev, pp))
   | none => false) ||
  (s.fab.disc.fresh.contains (helloId h) && (match s.known (helloId h) with | some k => otherChip k.hello h | none => false))

/-- Probes the ports of an agent, when it is found in a pass or found again by a shorter path: the trained ones but the one the
probe came by; an untrained one is probed again later. The trained ports of an agent 16 hops out are kept, to be
reported if nothing else is found behind them (R37). -/
def State.spread (s : State) (h : Payload) (path : List Byte) : State :=
  let id := helloId h
  let ps := (List.range (min 128 (helloPorts h))).filter (fun p => decide (p ≠ helloArrival h))
  let live := ps.filter (fun p => helloUp h p)
  let s := s.setDisc (fun d => { d with
    spread := d.spread.filter (fun x => decide (x.1 ≠ id)) ++ [(id, path.length)]
    far := d.far.filter (fun x => decide (x.1 ≠ id)) ++ (if 16 ≤ path.length then live.map (fun p => (id, p)) else []) })
  if 16 ≤ path.length then s
  else
    let s := live.foldl (fun s p => s.probe (path ++ [BitVec.ofNat 8 p]) 0) s
    s.setDisc (fun d => { d with untrained := d.untrained.filter (fun u => decide (u.1 ≠ id)) ++
      (ps.filter (fun p => !helloUp h p)).map (fun p => (id, p, 0)) })

/-- R37: an agent's ports are to be probed: it is new to the pass, or its path is shorter than the one they were probed from. -/
def State.toSpread (s : State) (id : W16) (n : Nat) : Bool :=
  match s.fab.disc.spread.find? (fun x => x.1 = id) with
  | some x => decide (n < x.2)
  | none => true

/-! ## Quarantine (R42) -/

/-- The IDs an agent may not report (R5, R17): reserved regions, 0xFFFF, and a build its region does not hold. -/
def idBad (h : Payload) : Bool :=
  let id := (helloId h).toNat
  (decide (0x2000 ≤ id) && decide (id < 0x8000)) || decide (0xFFC0 ≤ id) ||
  (decide (id < 0x2000) && decide (helloBuild h ≠ 1)) || (decide (0x8000 ≤ id) && decide (helloBuild h ≠ 2))

/-- The plan and a HELLO disagree: the agent is not in it, or its build or profile is another, or no link of it that was found
is one the plan names (R24, R40). -/
def State.planBad (s : State) (h : Payload) : Bool :=
  let id := helloId h
  match s.planOf id with
  | none => true
  | some x =>
    decide (x.build ≠ helloBuild h) || (decide (helloBuild h = 1) && decide (x.profile ≠ helloProfile h)) ||
    !(s.fab.links.any (fun l => (decide (l.a = id) || decide (l.b = id)) && s.planned l))

/-- The conditions of a warm rediscovery (R42). -/
def State.warmBad (s : State) (h : Payload) : Bool :=
  decide (s.genOf (helloId h) ≠ some (helloTgen h)) || decide (helloFepoch h ≠ s.dealers.fepoch) ||
  decide (helloUcode h ≠ s.plat.bring.ucPodVer) || (helloState h).getLsbD 3

/-- Examines an agent found: quarantined, or as its HELLO says; its generation is booked (log 34). -/
def State.examine (s : State) (id : W16) (force : Bool) : State :=
  match s.known id with
  | none => s
  | some k =>
    let h := k.hello
    let pb := s.planBad h || idBad h
    let bad : Bool := force || pb || s.warmBad h || s.fab.disc.quarantine.contains id
    let s := if pb then s.report1 id 0xFF else s
    let s := if bad then s.quarantine id else s.modKnown id (fun k => { k with quar := (helloState h).getLsbD 2 })
    (s.setGen id (helloTgen h)).stream (.generation id (helloTgen h))

/-- What a HELLO to a discovery probe teaches (R38–R41). -/
def State.onHello (s : State) (h : Payload) (path : List Byte) : State :=
  let id := helloId h
  let p := helloArrival h
  match path.getLast?, s.nodeAt path.dropLast with
  | some e, some prev =>
    if id = 0xFFFF then
      let (q, s) := s.nextSeq
      (s.report1 id 0xFF).sendPath path (agCmd 0x0D 0) q
    else
      if s.isDuplicate h prev e.toNat then s.duplicate h prev e.toNat path
      else (s.relearn h path).addLink prev e.toNat id p
  | _, _ => s

/-- HELLO (R38): the answer to a probe of the controller's. In a pass its agent joins the wave; outside one it is examined. The
ports of an agent that reports ID 0xFFFF are not probed: its links could be told from no other such agent's (R18; DESIGN CHOICE,
log 121). -/
def execHello (f : Flit) (s : State) : Result :=
  .next (
    if f.cls ≠ 5 ∨ f.crc ≠ f.crcOf ∨ f.dest ≠ s.myId ∨ ¬ s.isActive then s
    else match s.fab.disc.probes.find? (fun x => x.seq = f.seq) with
      | none => s
      | some x =>
        let h := f.pay
        let id := helloId h
        let u := s.untrainedAt x.path
        let s := s.setDisc (fun d => { d with
          probes := d.probes.filter (fun y => decide (y ≠ x)), dark := d.dark.filter (fun y => decide (y ≠ x.path))
          untrained := d.untrained.filter (fun y => decide (some y ≠ u)) })
        let s := s.onHello h x.path
        if id = 0xFFFF then s
        else if s.fab.disc.active then
          let s := s.setDisc (fun d => { d with found := addNew d.found id, fresh := addNew d.fresh id })
          (if s.toSpread id x.path.length then s.spread h x.path else s)
        else s.examine id false)

/-! ## The comparison (R40, R42) -/

/-- Cuts the links a test picks: in the link book, at the package's ports, and at the agents' (R46). -/
def State.cutWhere (s : State) (hit : LinkRec → Bool) : State :=
  let ls := (s.fab.links.filter (fun l => !l.cut)).filter hit
  let s := if ls = [] then s else s.cutOut (fun l => !l.cut && hit l)
  (ls.flatMap (fun l => [(l.a, l.ap), (l.b, l.bp)])).foldl (fun s e =>
    if e.1 = s.myId then s.modSub e.2 (fun q => { q with cut := true })
    else s.devSteps e.1 [.read (0x100 + 16 * e.2) 1, .portWrite (0x100 + 16 * e.2) 2 true]) s

/-- The fabric epoch of a cold start: one more than the newest that any HELLO reports (R42). -/
def newestEpoch (hs : List Payload) : W32 :=
  hs.foldl (fun (m : Option W32) h => match m with
    | none => some (helloFepoch h)
    | some e => if newer (helloFepoch h) e then some (helloFepoch h) else some e) none |>.getD 0

/-- Agents found beyond the variant's pod limit, in the order they were found (R2). -/
def State.beyondLimit (s : State) : List W16 :=
  let ofBuild (b : Byte) : List W16 := s.fab.disc.found.filter (fun id => match s.known id with
    | some k => decide (helloBuild k.hello = b)
    | none => false)
  (ofBuild 1).drop s.podLimit.1 ++ (ofBuild 2).drop s.podLimit.2

/-- An end of a planned link is dark: nothing answered behind the port, or its agent was not found. -/
def State.darkEnd (s : State) (id : W16) (p : Nat) : Bool :=
  if s.fab.disc.found.contains id then
    s.fab.disc.dark.any (fun d => decide (d.getLast? = some (BitVec.ofNat 8 p)) && decide (s.nodeAt d.dropLast = some id))
  else decide (id ≠ s.myId) || !(s.sub p).up

/-- A link dark at both ends. -/
def State.darkLink (s : State) (l : LinkRec) : Bool := s.darkEnd l.a l.ap && s.darkEnd l.b l.bp

/-- Links of the plan dark at both ends are cut (R40); one not yet in the link book enters it as cut. -/
def State.darkLinks (s : State) : State :=
  match s.fab.plan with
  | none => s
  | some pl =>
    let new := (pl.links.filter (fun l => (s.linkEnd l.a l.ap.toNat).isNone)).map (fun l =>
      s.newLink l.a l.ap.toNat l.b l.bp.toNat true)
    ((new.filter s.darkLink).foldl State.enterLink s).cutWhere (fun l => s.planned l && s.darkLink l)

/-- Planned agents the pass did not find: their blocks are cut. -/
def State.missing (s : State) : List W16 :=
  match s.fab.plan with
  | none => []
  | some pl => (pl.agents.map (fun x => x.id)).filter (fun id => decide (id.toNat < 0xFFC0) && !s.fab.disc.found.contains id)

/-- HELLOs of the agents a pass found. -/
def State.hellos (s : State) : List Payload := s.fab.disc.found.filterMap (fun id => (s.known id).map (fun k => k.hello))

/-- Cuts the blocks asked for meanwhile, and takes the fabric epoch of a cold start (R42). -/
def State.passStart (s : State) : State :=
  let t := s.fab.disc.cuts.foldl (fun s c => s.cutWhere (s.linkHit c)) s
  if s.fab.disc.cold then { t with dealers := { t.dealers with fepoch := newestEpoch s.hellos + 1 } } else t

/-- Cuts the blocks of planned agents not found (R40). -/
def State.cutMissing (s : State) : State :=
  let gone := s.missing
  s.cutWhere (fun l => gone.contains l.a || gone.contains l.b)

/-- Links the plan does not name, and links over their reach, are reported and cut (R29, R40). -/
def State.cutWrong (s : State) : State :=
  let wrong := s.fab.links.filter (fun l => !s.planned l)
  let far := s.fab.links.filter s.overReach
  let s := (wrong ++ far).foldl (fun s l => (s.report1 l.a (BitVec.ofNat 8 l.ap)).report1 l.b (BitVec.ofNat 8 l.bp)) s
  let s := s.cutWhere (fun l => wrong.contains l || far.contains l)
  { s with fab := { s.fab with links := s.fab.links.map (fun (l : LinkRec) => if far.any (fun x => decide (x.a = l.a) && decide (x.ap = l.ap)) then { l with reach := true } else l) } }

/-- R37: the ports more than 16 hops out that no other path reached are reported. -/
def State.reportFar (s : State) : State :=
  (s.fab.disc.far.filter (fun x => (s.linkEnd x.1 x.2).isNone)).foldl (fun s x => s.report1 x.1 (BitVec.ofNat 8 x.2)) s

/-- Every agent found is examined; those beyond the pod limit are quarantined (R2, R42). -/
def State.examineAll (s : State) (found : List W16) (cold : Bool) : State :=
  let excess := s.beyondLimit
  let s := excess.foldl (fun s id => s.report1 id 0xFF) s
  found.foldl (fun s id => s.examine id (cold || excess.contains id)) s

/-- R73: the sync parent the active package assigns to the standby: the first switch of the plan that both packages reach. -/
def State.giveParent (s : State) : State :=
  match s.neighbours.find? (fun n => (s.peerPort n.2).isSome) with
  | some (_, k) => s.stream (.syncParent k)
  | none => s

/-- DISCOVERY_COMPARE (R40, R42): once no probe is open; of a dark-port pass too (R41). -/
def execDiscoveryCompare (s : State) : Result :=
  .next (
    let d := s.fab.disc
    if ¬ d.active ∨ d.probes ≠ [] ∨ d.untrained ≠ [] ∨ ¬ s.isActive then s
    else
      ((s.passStart.darkLinks.cutMissing.cutWrong.reportFar.examineAll d.fresh d.cold).setDisc (fun x =>
        { x with active := false, cold := false, cuts := [], quarantine := [], fresh := [], spread := [], far := [], darkAt := s.us })).giveParent)

/-! ## Cold start (R451) -/

/-- COLD_START_WAIT_EXPIRE (R451, R73): the package takes the pod with the epoch after the one kept, FRAME starts at 0, and
discovery starts. -/
def execColdStartWaitExpire (s : State) : Result :=
  .next (
    if s.pair.coldWait ∧ ¬ s.vbat.held ∧ ¬ s.dealers.role then
      let s := s.takePod (s.vbat.cepoch + 1) 3
      ({ s with fab := { s.fab with frame := 0 } }).discover
    else s)

end Sys2Proof.Machine
end

