-- ==== Sys2Proof/Machine/Solve.lean ====
section
/-! DEFINITION. The route solver's results (R272–R275): link costs, distances, and the entries that follow from them. The
solve's tile schedule is a means to these numbers and is not modelled; its exact result is. -/

namespace Sys2Proof.Machine

/-- ∞ of a 32-bit distance. -/
def dInf : Nat := 0xFFFFFFFF

/-- A sum of distances. -/
def dAdd (a b : Nat) : Nat := min dInf (a + b)

/-- Inserts an ID in ascending order, once. -/
def insertId (x : W16) : List W16 → List W16
  | [] => [x]
  | y :: ys => if x.toNat < y.toNat then x :: y :: ys else if x = y then y :: ys else y :: insertId x ys

/-- Agents in service, in ascending ID order (R273). -/
def State.solveNodes (s : State) : List W16 :=
  (s.fab.paths.map (·.id)).foldl (fun l id => if id.toNat < 0xFFC0 ∧ s.inService id then insertId id l else l) []

/-- The network, with a cost for every port. A package is a destination, and nothing is routed through it. -/
def State.net (s : State) (cost : W16 → Nat → Nat) : Net :=
  let nodes := s.solveNodes
  let packs := (s.fab.links.flatMap (fun l => [l.a, l.b])).foldl (fun m id => if 0xFFC0 ≤ id.toNat then insertId id m else m) [s.myId]
  let dests := nodes ++ packs
  let half (l : LinkRec) (u : W16) (p : Nat) (w : W16) : List Arc :=
    if nodes.contains u ∧ dests.contains w then [{ u := u, p := p, w := w, cost := cost u p, date := l.dateLine }] else []
  { nodes := nodes, dests := dests, arcs := s.fab.links.flatMap (fun l => half l l.a l.ap l.b ++ half l l.b l.bp l.a) }

/-! ## Costs (R272) -/

/-- The sum of a port's occ values over the last 100 windows, and how many records it holds of them. -/
def State.occSum (s : State) (id : W16) (p : Nat) : Nat × Nat :=
  let w := s.curWindow
  (List.range 100).foldl (fun x i =>
    if w < i + 1 then x
    else match SMap.get noneOf s.fab.cong.ring (congKey id p (w - (i + 1))) with
      | some r => if r.window.toNat + (i + 1) = w then (x.1 + recOcc r.record, x.2 + 1) else x
      | none => x) (0, 0)

/-- A port's mean occ has reached a threshold. -/
def State.occReaches (s : State) (id : W16) (p th : Nat) : Bool :=
  let x := s.occSum id p
  decide (th * x.2 ≤ x.1) && decide (x.2 ≠ 0)

/-- The congestion penalty of a link, by the three thresholds. -/
def State.penalty (s : State) (l : LinkRec) (th : List Nat) : Nat :=
  let hit (t : Nat) : Bool := s.occReaches l.a l.ap t || s.occReaches l.b l.bp t
  if hit (th.getD 2 230) then 3 else if hit (th.getD 1 192) then 2 else if hit (th.getD 0 128) then 1 else 0

def State.quarantined (s : State) (id : W16) : Bool := match s.known id with | some k => k.quar | none => false

/-- The cost of a link; one that a fault of the cut list takes out has none (R311). -/
def State.linkCost (s : State) (th : List Nat) (l : LinkRec) : Nat :=
  if l.cut ∨ s.fab.deck.cutList.any (fun d => s.linkHit d l) ∨ l.reach ∨ ¬ s.endUp l.a l.ap ∨ ¬ s.endUp l.b l.bp ∨ s.quarantined l.a ∨ s.quarantined l.b then dInf
  else 1 + s.penalty l th

/-- The cost at a port: its link's, ∞ where none is known. -/
def State.portCost (s : State) (th : List Nat) (u : W16) (p : Nat) : Nat :=
  match s.fab.links.find? (fun l => (decide (l.a = u) && decide (l.ap = p)) || (decide (l.b = u) && decide (l.bp = p))) with
  | some l => s.linkCost th l
  | none => dInf

/-! ## Distances (R273) -/

/-- One round over every agent's links. -/
def Net.relax (n : Net) (v : W16) (d : SMap Nat) : SMap Nat :=
  n.nodes.foldl (fun m u =>
    if u = v then m
    else
      let best := (n.arcs.filter (fun a => a.u = u)).foldl (fun b a => min b (dAdd a.cost (SMap.get (fun _ => dInf) d a.w.toNat))) dInf
      SMap.set (fun _ => dInf) m u.toNat best) d

def Net.rounds (n : Net) (v : W16) : Nat → SMap Nat → SMap Nat
  | 0, d => d
  | k + 1, d => n.rounds v k (n.relax v d)

/-- Distances to one destination over paths of up to 32 links. -/
def Net.distTo (n : Net) (v : W16) : SMap Nat := n.rounds v 32 (SMap.set (fun _ => dInf) [] v.toNat 0)

/-- All distances, by destination. -/
def Net.solve (n : Net) : SMap (SMap Nat) := n.dests.foldl (fun m v => SMap.set (fun _ => ([] : SMap Nat)) m v.toNat (n.distTo v)) []

/-- A distance of a solve: from an agent to a destination. -/
def distOf (m : SMap (SMap Nat)) (v u : W16) : Nat := SMap.get (fun _ => dInf) (SMap.get (fun _ => ([] : SMap Nat)) m v.toNat) u.toNat

/-! ## Entries (R274) -/

/-- What a table entry routes by: its candidate ports and its date-line flag. -/
structure Route where
  cand : BitVec 128 := 0
  dl : Bool := false
  deriving DecidableEq, Repr

def regionOf (id : W16) : Nat := (bitsAt id 6 10 : BitVec 10).toNat
def memberOf (id : W16) : Nat := (bitsAt id 0 6 : BitVec 6).toNat

/-- Entries of a table: region entries 0 to 1,023, then member entries. -/
def tableSize : Nat := 1088

/-- The entry an agent looks a destination up in (R57). -/
def entryIdx (u v : W16) : Nat := if regionOf u = regionOf v then 1024 + memberOf v else regionOf v

/-- The destinations an entry stands for. -/
def Net.goal (n : Net) (u : W16) (i : Nat) : List W16 :=
  if i < 1024 then (if i = regionOf u then [] else n.dests.filter (fun v => regionOf v = i))
  else n.dests.filter (fun v => decide (regionOf v = regionOf u) && decide (memberOf v + 1024 = i) && decide (v ≠ u))

/-- The least distance to any of an entry's destinations. -/
def toGoal (dv : W16 → W16 → Nat) (g : List W16) (u : W16) : Nat := g.foldl (fun b v => min b (dv v u)) dInf

/-- The entry that distances give: all equal-cost next hops, and the flag of a date-line link among them. -/
def Net.route (n : Net) (dv : W16 → W16 → Nat) (u : W16) (i : Nat) : Route :=
  let g := n.goal u i
  let d := toGoal dv g u
  if d = dInf then {}
  else
    let hops := n.arcs.filter (fun a => decide (a.u = u) && decide (dAdd a.cost (toGoal dv g a.w) = d))
    { cand := hops.foldl (fun c a => putBit c a.p true) 0, dl := hops.any (·.date) }

/-- An agent's entry in force: the active bank's. -/
def Agent.tableEntry (a : Agent) (i : Nat) : Entry :=
  if i < 1024 then SMap.get entryDflt a.tbl.region (bankOff 1024 a.tbl.act + i)
  else SMap.get entryDflt a.tbl.member (bankOff 64 a.tbl.act + (i - 1024))

def State.inForce (s : State) (u : W16) (i : Nat) : Entry :=
  match s.agentById u with
  | some a => a.tableEntry i
  | none => {}

/-- A mask of an agent's active bank. -/
def State.maskInForce (s : State) (u : W16) (m : Nat) : BitVec 512 :=
  match s.agentById u with
  | some a => SMap.get (fun _ => (0 : BitVec 512)) a.tbl.masks (bankOff 256 a.tbl.act + m)
  | none => 0

def Entry.route (e : Entry) : Route := { cand := e.cand, dl := e.dl }

/-- Tables as the verifier walks them. -/
abbrev View := W16 → Nat → Route

/-- The tables in force. -/
def State.view (s : State) : View := fun u i => (s.inForce u i).route

/-- An entry that a card or an image replaces. -/
structure EntryEdit where
  u : W16
  i : Nat
  r : Route
  deriving DecidableEq, Repr

/-- Tables with entries replaced. -/
def View.with (v : View) (cs : List EntryEdit) : View := fun u i =>
  match cs.find? (fun c => decide (c.u = u) && decide (c.i = i)) with
  | some c => c.r
  | none => v u i

/-- The entries by which a solve differs from tables, for one agent. -/
def Net.diff (n : Net) (dv : W16 → W16 → Nat) (base : View) (u : W16) : List EntryEdit :=
  (List.range tableSize).filterMap (fun i =>
    let r := n.route dv u i
    if r = base u i then none else some { u := u, i := i, r := r })

/-! ## Masks (R33–R35, R274; log 110) -/

/-- The slices the slice table assigns. -/
def State.assigned (s : State) : BitVec 512 :=
  (List.range 512).foldl (fun m i => if (s.slice i).valid then putBit m i true else m) 0

/-- The slice an agent is bound to, or is to be in under a placement change (R330). -/
def State.placedIn (s : State) (v : W16) : Option Nat :=
  match s.fab.deck.placement.find? (fun x => x.1 = v) with
  | some (_, k) => k.map (·.val)
  | none => ((s.known v).bind (·.bound)).map (·.toNat)

/-- The slices that send to a destination: an accelerator's own, and every one to a package. -/
def State.slicesTo (s : State) (v : W16) : BitVec 512 :=
  if 0xFFC0 ≤ v.toNat then s.assigned
  else match s.placedIn v with
    | some k => (1 <<< k : BitVec 512) &&& s.assigned
    | none => 0

/-- The slices an entry serves: those that send to one of its destinations. -/
def State.entryNeed (s : State) (n : Net) (u : W16) (i : Nat) : BitVec 512 := (n.goal u i).foldl (fun m v => m ||| s.slicesTo v) 0

/-- The masks of an agent by index, as the entries that hold ports need them. -/
def State.maskNeeds (s : State) (n : Net) (e : W16 → Nat → Entry) (u : W16) : SMap (Option (BitVec 512)) :=
  (List.range tableSize).foldl (fun m i =>
    if (e u i).cand = 0 then m
    else
      let k := (e u i).mask.toNat
      SMap.set noneOf m k (some ((SMap.get noneOf m k).getD 0 ||| s.entryNeed n u i))) []

/-- The masks of an agent's pool that differ from what the entries using them need; an unused one may hold no slice that is
not assigned. -/
def State.maskBad (s : State) (n : Net) (e : W16 → Nat → Entry) (mask : W16 → Nat → BitVec 512) (u : W16) : Option Nat :=
  let needs := s.maskNeeds n e u
  let ok := s.assigned
  (List.range 256).find? (fun m => match SMap.get noneOf needs m with
    | some v => decide (mask u m ≠ v)
    | none => decide (mask u m &&& ~~~ok ≠ 0))

/-- A table entry as a solve fills it: where it is, what it routes by, its mask. -/
structure Fill where
  u : W16
  i : Nat
  r : Route
  mask : Byte
  deriving DecidableEq, Repr

/-- An agent's mask plan: the masks by index, the entries filled, and whether 256 masks did not suffice. -/
structure MaskPlan where
  masks : SMap (Option (BitVec 512)) := []
  fills : List Fill := []
  full : Bool := false
  deriving DecidableEq, Repr

/-- Adds slices to a mask. -/
def MaskPlan.widen (m : MaskPlan) (k : Nat) (v : BitVec 512) : MaskPlan :=
  { m with masks := SMap.set noneOf m.masks k (some ((SMap.get noneOf m.masks k).getD 0 ||| v)) }

/-- The index of a new entry's mask: one that admits exactly its slices, else a free one, else the last, shared. -/
def MaskPlan.place (m : MaskPlan) (v : BitVec 512) : Nat × Bool :=
  match (List.range 256).find? (fun k => SMap.get noneOf m.masks k = some v) with
  | some k => (k, false)
  | none => match (List.range 256).find? (fun k => (SMap.get noneOf m.masks k).isNone) with
    | some k => (k, false)
    | none => (255, true)

/-- An agent's masks and entries under a solve: an entry in use keeps its index; entries that come into use share a mask where
they serve the same slices. -/
def State.maskPlan (s : State) (n : Net) (dv : W16 → W16 → Nat) (u : W16) : MaskPlan :=
  let rs := (List.range tableSize).map (fun i => (i, n.route dv u i))
  let kept := rs.filter (fun x => decide ((s.inForce u x.1).cand ≠ 0) || decide (x.2.cand = 0))
  let m := kept.foldl (fun (m : MaskPlan) x =>
    let k := (s.inForce u x.1).mask
    let m := if x.2.cand = 0 then m else m.widen k.toNat (s.entryNeed n u x.1)
    { m with fills := m.fills ++ [{ u := u, i := x.1, r := x.2, mask := k }] }) {}
  (rs.filter (fun x => decide ((s.inForce u x.1).cand = 0) && decide (x.2.cand ≠ 0))).foldl (fun (m : MaskPlan) x =>
    let v := s.entryNeed n u x.1
    let k := m.place v
    let m := m.widen k.1 v
    { m with full := m.full || k.2, fills := m.fills ++ [{ u := u, i := x.1, r := x.2, mask := BitVec.ofNat 8 k.1 }] }) m

end Sys2Proof.Machine
end

