-- ==== Sys2Proof/Machine/Verify.lean ====
section
/-! DEFINITION. The exact verifier (R276–R278) and the mixed-state property (R290–R292). -/

namespace Sys2Proof.Machine

/-- A result of the verifier: status, first failing agent, first failing destination or slot. -/
structure Verdict where
  status : Nat := 0
  agent : W16 := 0
  dest : Nat := 0
  deriving DecidableEq, Repr

/-- The first failure in the order of R278. -/
def firstBad : List (Option Verdict) → Verdict
  | [] => {}
  | some v :: _ => v
  | none :: l => firstBad l

/-- The destination number a result names for an entry: the member, or the region's base ID. -/
def destOf (u : W16) (i : Nat) : Nat := if i < 1024 then 64 * i else 64 * regionOf u + (i - 1024)

/-! ## Files a job names (R277) -/

/-- Agents in path-book order, the package last when it is not in its own book. -/
def State.book (s : State) : List W16 :=
  let ids := s.fab.paths.map (·.id)
  if ids.contains s.myId then ids else ids ++ [s.myId]

def State.portsOf (s : State) (id : W16) : Nat := match s.known id with | some k => helloPorts k.hello | none => 0

/-- Words of the cost table before an agent's. -/
def State.costBase (s : State) (u : W16) : Nat :=
  ((s.book.takeWhile (fun id => decide (id ≠ u))).map s.portsOf).foldl (· + ·) 0

/-- A cost of the table at a depot address. -/
def State.fileCost (s : State) (a : Nat) (u : W16) (p : Nat) : Nat := s.depLE (a + 4 * (s.costBase u + p)) 4

/-- A distance of the vectors at a depot address: one vector per destination. -/
def State.fileDist (s : State) (a : Nat) (v u : W16) : Nat :=
  s.depLE (a + 4 * (s.book.length * s.book.idxOf v + s.book.idxOf u)) 4

/-! ## Objects -/

/-- The object and byte offset of an entry (R99, R100). -/
def entryLoc (i : Nat) : Nat × Nat :=
  if i < 512 then (0, 32 * i) else if i < 1024 then (1, 32 * (i - 512)) else (2, 32 * (i - 1024))

/-- An entry after one record of its agent. -/
def ImgRec.onEntry (r : ImgRec) (i : Nat) (e : Entry) : Entry :=
  let loc := entryLoc i
  if r.obj ≠ loc.1 then e
  else r.words.zipIdx.foldl (fun e x =>
    let o := r.off + 4 * x.2
    if loc.2 ≤ o ∧ o < loc.2 + 32 then e.setWord ((o - loc.2) / 4) x.1 else e) e

/-- A mask after one record of its agent. -/
def ImgRec.onMask (r : ImgRec) (m : Nat) (v : BitVec 512) : BitVec 512 :=
  if r.obj ≠ 3 then v
  else r.words.zipIdx.foldl (fun v x =>
    let o := r.off + 4 * x.2
    if 64 * m ≤ o ∧ o < 64 * m + 64 then putBits v (8 * (o - 64 * m)) x.1 else v) v

/-- Tables after an image's records. -/
def Image.entry (im : Image) (base : W16 → Nat → Entry) (u : W16) (i : Nat) : Entry :=
  (im.recs.filter (fun r => r.agent = u)).foldl (fun e r => r.onEntry i e) (base u i)
def Image.mask (im : Image) (base : W16 → Nat → BitVec 512) (u : W16) (m : Nat) : BitVec 512 :=
  (im.recs.filter (fun r => r.agent = u)).foldl (fun v r => r.onMask m v) (base u m)

/-- The base image a job's object applies to (R277): the tables of the job's epoch, as an image from that epoch holds them, or
the image whose exchange made it (log 73). -/
def State.baseImage (s : State) (epoch : W32) (b : Nat) : Option Image :=
  match s.image b with
  | some im => if im.fromEpoch = epoch ∨ im.fromEpoch + 1 = epoch then some im else none
  | none => none

/-- The tables a base image gives: its records over the tables in force. -/
def State.baseEntry (s : State) (im : Image) : W16 → Nat → Entry := im.entry s.inForce
def State.baseMask (s : State) (im : Image) : W16 → Nat → BitVec 512 := im.mask s.maskInForce

/-- Whether a record breaks the layout of R100: reserved words, or ports its agent lacks. -/
def State.recOk (s : State) (r : ImgRec) : Bool :=
  if r.obj = 3 then true
  else r.words.zipIdx.all (fun x =>
    let o := r.off + 4 * x.2
    let k := o % 32 / 4
    let n := s.portsOf r.agent
    (decide (r.obj ≠ 2) || decide (o < 2048)) &&
    (if k < 4 then (List.range 32).all (fun b => !x.1.getLsbD b || decide (32 * k + b < n))
     else if k = 4 then decide (x.1.toNat < 512) else decide (x.1 = 0)))

/-! ## Walks over tables -/

/-- The links an agent may send by for a destination, under any of some tables and clear of a fault. -/
def Net.graph (n : Net) (vs : List View) (bad : Arc → Bool) (v : W16) : List (W16 × W16) :=
  (n.arcs.filter (fun a => decide (a.u ≠ v) && !bad a && vs.any (fun t => (t a.u (entryIdx a.u v)).cand.getLsbD a.p))).map
    (fun a => (a.u, a.w))

/-- The agents from which a walk of k links ends in a set. -/
def walkBack (g : List (W16 × W16)) : Nat → List W16 → List W16
  | 0, l => l
  | k + 1, l => walkBack g k ((g.filter (fun e => l.contains e.2)).map (·.1)).eraseDups

/-- The agents that reach a set in at most k links. -/
def reachBack (g : List (W16 × W16)) : Nat → List W16 → List W16
  | 0, l => l
  | k + 1, l => reachBack g k (l ++ (g.filter (fun e => l.contains e.2)).map (·.1)).eraseDups

/-- An agent on a walk as long as there are agents: one that a cycle can be reached from. -/
def cycleAt (g : List (W16 × W16)) (ids : List W16) : Option W16 := (walkBack g (ids.length + 1) ids).head?

/-- An agent from which some walk of more than 24 links ends in a set (R275). -/
def tooLong (g : List (W16 × W16)) (l : List W16) : Option W16 := (walkBack g 25 l).head?

/-! ## Destinations of R274: regions, and the members of an agent's own region -/

/-- Destinations by number: a region below 1,024, else 1,024 plus a member's ID. -/
def Net.goals (n : Net) : List Nat := (n.dests.map regionOf).eraseDups ++ n.dests.map (fun v => 1024 + v.toNat)

/-- An agent's entry for a destination: its region entry, or the member entry of its own region. -/
def goalEntry (u : W16) (x : Nat) : Option Nat :=
  if x < 1024 then (if regionOf u = x then none else some x)
  else if regionOf u = (x - 1024) / 64 ∧ u.toNat ≠ x - 1024 then some (1024 + (x - 1024) % 64) else none

/-- The agents at which a flit has reached a destination. -/
def Net.ends (n : Net) (x : Nat) : List W16 :=
  n.dests.filter (fun v => if x < 1024 then decide (regionOf v = x) else decide (v.toNat = x - 1024))

/-- What a result names as a destination: a region's base ID, or a member's. -/
def goalId (x : Nat) : Nat := if x < 1024 then 64 * x else x - 1024

/-- The links by which agents may send toward a destination, under any of some tables and clear of a fault (R290). -/
def Net.toward (n : Net) (vs : List View) (bad : Arc → Bool) (x : Nat) : List (W16 × W16) :=
  (n.arcs.filter (fun a => match goalEntry a.u x with
    | some i => !bad a && vs.any (fun t => (t a.u i).cand.getLsbD a.p)
    | none => false)).map (fun a => (a.u, a.w))

/-! ## Table images (kind 1) -/

/-- d = 0 at every destination itself, packages among them, and d = min over ports of cost + d at the neighbour elsewhere. -/
def Net.bellman (n : Net) (dv : W16 → W16 → Nat) : Option Verdict :=
  n.dests.findSome? (fun v =>
    if dv v v ≠ 0 then some { status := 2, agent := v, dest := v.toNat }
    else n.nodes.findSome? (fun u =>
      let want := if u = v then 0
        else (n.arcs.filter (fun a => a.u = u)).foldl (fun b a => min b (dAdd a.cost (dv v a.w))) dInf
      if dv v u = want then none else some { status := 2, agent := u, dest := v.toNat }))

/-- The first entry of any agent that fails a test. -/
def Net.findEntry (n : Net) (status : Nat) (bad : W16 → Nat → Bool) : Option Verdict :=
  n.nodes.findSome? (fun u => ((List.range tableSize).find? (bad u)).map (fun i => { status := status, agent := u, dest := destOf u i }))

/-- The date-line flag that an entry's ports call for (R48, R274). -/
def Net.dateOf (n : Net) (u : W16) (c : BitVec 128) : Bool := n.arcs.any (fun a => decide (a.u = u) && c.getLsbD a.p && a.date)

/-- The links of shortest paths to a destination. -/
def Net.tight (n : Net) (dv : W16 → W16 → Nat) (v : W16) : List (W16 × W16) :=
  (n.arcs.filter (fun a => decide (a.u ≠ v) && decide (dv v a.u ≠ dInf) && decide (dAdd a.cost (dv v a.w) = dv v a.u))).map
    (fun a => (a.u, a.w))

/-- R275: no finite distance is built from more than 24 links. -/
def Net.hops (n : Net) (dv : W16 → W16 → Nat) : Option Verdict :=
  n.dests.findSome? (fun v => (tooLong (n.tight dv v) [v]).map (fun u => { status := 4, agent := u, dest := v.toNat }))

/-- Masks: an entry in use keeps its index between base and object, and every mask of a pool matches the slice assignment. -/
def State.maskCheck (s : State) (n : Net) (e0 e : W16 → Nat → Entry) (mask : W16 → Nat → BitVec 512) : Option Verdict :=
  match n.findEntry 6 (fun u i => decide ((e0 u i).cand ≠ 0) && decide ((e u i).mask ≠ (e0 u i).mask)) with
  | some v => some v
  | none => n.nodes.findSome? (fun u => (s.maskBad n e mask u).map (fun m => { status := 6, agent := u, dest := m }))

/-- R278, kind 1: the image for an epoch, over the base image, against costs and distances. -/
def State.checkImage (s : State) (epoch : W32) (b base : Nat) (cost : W16 → Nat → Nat) (dv : W16 → W16 → Nat) : Verdict :=
  match s.image b, s.baseImage epoch base with
  | some im, some bi =>
    let bad := im.recs.find? (fun r => !s.recOk r)
    if bad.isSome ∨ im.fromEpoch ≠ epoch then { status := 1, agent := match bad with | some r => r.agent | none => 0 }
    else
      let n := s.net cost
      let e0 := s.baseEntry bi
      let e := im.entry e0
      firstBad [
        n.bellman dv,
        n.findEntry 3 (fun u i => decide ((e u i).cand ≠ (n.route dv u i).cand)),
        n.hops dv,
        n.findEntry 5 (fun u i => decide ((e u i).dl ≠ n.dateOf u (e u i).cand)),
        s.maskCheck n e0 e (im.mask (s.baseMask bi))]
  | _, _ => { status := 1 }

/-! ## Decks (R286, R287) -/

/-- A repair record. -/
structure Repair where
  kind : Nat
  flags : Byte
  count : Nat
  first : Nat
  key1 : Desc
  key2 : Desc
  second : Nat
  slices : Nat
  deriving DecidableEq, Repr

def State.deckEpoch (s : State) (b : Nat) : W32 := BitVec.ofNat 32 (s.depLE b 4)
def State.deckRepairs (s : State) (b : Nat) : Nat := s.depLE (b + 8) 4
/-- Depot address of a repair record. -/
def State.repairAddr (s : State) (b n : Nat) : Nat := b + s.depLE (b + 16) 8 + 32 * n
def State.repair (s : State) (b n : Nat) : Repair :=
  let a := s.repairAddr b n
  { kind := s.depLE a 1, flags := BitVec.ofNat 8 (s.depLE (a + 1) 1), count := s.depLE (a + 2) 2, first := s.depLE (a + 4) 4
    key1 := BitVec.ofNat 64 (s.depLE (a + 8) 8), key2 := BitVec.ofNat 64 (s.depLE (a + 16) 8), second := s.depLE (a + 24) 4
    slices := s.depLE (a + 28) 2 }

def Repair.verified (r : Repair) : Bool := r.flags.getLsbD 0
def Repair.compatible (r : Repair) : Bool := r.flags.getLsbD 1
def Repair.mixFail (r : Repair) : Bool := r.flags.getLsbD 2
/-- The fault a repair's cards answer: the second one's of a pair. -/
def Repair.fault (r : Repair) : Desc := if r.kind = 4 then r.key2 else r.key1
/-- The faults a repair stands for. -/
def Repair.faults (r : Repair) : List Desc := if r.kind = 4 then [r.key1, r.key2] else [r.key1]

/-- Depot addresses of a repair's cards. -/
def State.repairCards (s : State) (b : Nat) (r : Repair) : List Nat :=
  let area := b + s.depLE (b + 32) 8
  (List.range r.count).map (fun i => b + s.depLE (area + 8 * (r.first + i)) 8)

def State.cardAgent (s : State) (c : Nat) : W16 := BitVec.ofNat 16 (s.depLE c 2)
def State.cardId (s : State) (c : Nat) : W32 := BitVec.ofNat 32 (s.depLE (c + 4) 4)

/-- The entries a card replaces. -/
def State.cardEntries (s : State) (c : Nat) : List EntryEdit :=
  let u := s.cardAgent c
  (List.range (s.depLE (c + 2) 2)).map (fun k =>
    let w : W32 := BitVec.ofNat 32 (s.depLE (c + 96 + 32 * k) 4)
    let i := (bitsAt w 0 10 : BitVec 10).toNat
    { u := u, i := if w.getLsbD 31 then 1024 + i else i
      r := { cand := BitVec.ofNat 128 (s.depLE (c + 96 + 32 * k + 4) 16), dl := w.getLsbD 16 } })

def State.repairEntries (s : State) (b : Nat) (r : Repair) : List EntryEdit := (s.repairCards b r).flatMap s.cardEntries

/-- An entry replacement's layout (R104). -/
def State.entryBytesOk (s : State) (a n : Nat) : Bool :=
  let w : W32 := BitVec.ofNat 32 (s.depLE a 4)
  decide (w &&& ~~~(0x800103FF : W32) = 0) && (!w.getLsbD 31 || decide ((bitsAt w 0 10 : BitVec 10).toNat < 64)) &&
  decide (s.depLE (a + 4) 16 < 2 ^ n) && decide (s.depLE (a + 20) 12 = 0)

/-- A card record's layout (R287). -/
def State.cardBytesOk (s : State) (epoch : W32) (n c : Nat) : Bool :=
  let k := s.depLE (c + 2) 2
  s.inDepot c 96 && decide (1 ≤ k) && decide (k ≤ 256) && s.inDepot c (96 + 32 * k) &&
  decide (BitVec.ofNat 32 (s.depLE (c + 8) 4) = epoch) && decide (s.depLE (c + 16) 4 = n) &&
  decide (leNat (s.depRead (c + 20) 12) = 0) &&
  decide (s.depLE (c + 12) 4 = (crc32c (s.depRead (c + 4) 8 ++ s.depRead (c + 32) 64 ++ s.depRead (c + 96) (32 * k))).toNat) &&
  (List.range k).all (fun i => s.entryBytesOk (c + 96 + 32 * i) (s.portsOf (s.cardAgent c)))

/-- Whether a fault takes a link out, seen from one of its ends. -/
def State.faultHits (s : State) (ks : List Desc) (a : Arc) : Bool :=
  ks.any (fun d =>
    if descKind d = 1 then
      (decide (descReporter d = a.u) && decide (descRport d = a.p)) || (decide (descPeer d = a.u) && decide (descPport d = a.p))
    else s.inBlock d a.u || s.inBlock d a.w)

/-- An agent a fault takes out. -/
def State.faultAgent (s : State) (ks : List Desc) (u : W16) : Bool := ks.any (fun d => decide (descKind d ≠ 1) && s.inBlock d u)

/-- A single fault that lies wholly inside another's block (R291). -/
def State.nestedIn (s : State) (blk key : Desc) : Bool :=
  decide (blk ≠ key) && decide (descKind blk ≠ 1) &&
  (if descKind key = 1 then s.inBlock blk (descReporter key) || s.inBlock blk (descPeer key)
   else decide (descKind key = 2) && decide (descKind blk = 3) && s.inBlock blk (descPeer key))

/-! ## Mixed states (R290) -/

/-- The network without what some faults take out. -/
def State.without (s : State) (n : Net) (ks : List Desc) : Net :=
  { nodes := n.nodes.filter (fun u => !s.faultAgent ks u), dests := n.dests.filter (fun u => !s.faultAgent ks u)
    arcs := n.arcs.filter (fun a => !s.faultHits ks a) }

/-- Properties 1 and 2 for one destination: no cycle, and no walk of more than 24 links to it. -/
def State.mixGoal (s : State) (n : Net) (vs : List View) (ks : List Desc) (x : Nat) : Option Verdict :=
  let l := (n.ends x).filter (fun u => !s.faultAgent ks u)
  let g := n.toward vs (s.faultHits ks) x
  if l = [] then none
  else ((cycleAt g n.dests) <|> (tooLong g l)).map (fun u => { status := 7, agent := u, dest := goalId x })

/-- Property 4 for one destination: every agent that reaches it in the first tables reaches it in the second. -/
def State.mixReach (s : State) (n : Net) (t0 t1 : View) (ks : List Desc) (v : W16) : Option Verdict :=
  if s.faultAgent ks v then none
  else
    let ids := n.nodes.filter (fun u => !s.faultAgent ks u)
    let r0 := reachBack (n.graph [t0] (fun _ => false) v) ids.length [v]
    let r1 := reachBack (n.graph [t1] (s.faultHits ks) v) ids.length [v]
    (ids.find? (fun u => r0.contains u && !r1.contains u)).map (fun u => { status := 7, agent := u, dest := v.toNat })

/-- The mixed-state property of a set of replaced entries over tables t0, under faults, with further tables that agents may
already route by. -/
def State.mixBad (s : State) (n : Net) (t0 : View) (nested : List View) (cs : List EntryEdit) (ks : List Desc) : Option Verdict :=
  let t1 := t0.with cs
  let live := n.arcs.filter (fun a => !s.faultHits ks a)
  let empty := cs.find? (fun c => !(live.any (fun a => decide (a.u = c.u) && c.r.cand.getLsbD a.p)))
  (n.goals.findSome? (s.mixGoal n (t0 :: t1 :: nested) ks)) <|> (n.dests.findSome? (s.mixReach n t0 t1 ks)) <|>
    empty.map (fun c => { status := 7, agent := c.u, dest := destOf c.u c.i })

/-- The tables a repair meets: the epoch's, with the first fault's repair under a pair (R290, R292). -/
def State.baseOf (s : State) (v : View) (b : Nat) (r : Repair) : View :=
  if r.kind ≠ 4 then v
  else match (List.range (s.deckRepairs b)).find? (fun i => decide ((s.repair b i).kind ≠ 4) && decide ((s.repair b i).key1 = r.key1)) with
    | some i => v.with (s.repairEntries b (s.repair b i))
    | none => v

/-- The tables of the cards of every repair whose faults lie wholly inside a block among some faults (R291). -/
def State.nestedViews (s : State) (b : Nat) (t0 : View) (ks : List Desc) : List View :=
  (List.range (s.deckRepairs b)).filterMap (fun i =>
    let x := s.repair b i
    if x.faults.all (fun k => ks.any (fun blk => s.nestedIn blk k)) then some (t0.with (s.repairEntries b x)) else none)

/-- R278, kind 2, apart from MIX: layout, HOPS, DATELINE, MASK. -/
def State.checkRepairBase (s : State) (n : Net) (epoch : W32) (b base k : Nat) : Option Verdict :=
  let r := s.repair b k
  let bad := (s.repairCards b r).find? (fun c => !s.cardBytesOk epoch k c)
  match (if ¬ s.inDepot b 64 ∨ s.deckRepairs b ≤ k ∨ r.kind = 0 ∨ 4 < r.kind ∨ bad.isSome then none else s.baseImage epoch base) with
  | none => some { status := 1, agent := match bad with | some c => s.cardAgent c | none => 0 }
  | some bi =>
    let m := s.without n r.faults
    match m.hops (distOf m.solve) with
    | some v => some v
    | none => match (s.repairEntries b r).find? (fun c => decide (c.r.dl ≠ n.dateOf c.u c.r.cand)) with
      | some c => some { status := 5, agent := c.u, dest := destOf c.u c.i }
      | none => s.maskCheck n (s.baseEntry bi) (s.baseEntry bi) (s.baseMask bi)

/-- The entries whose mix a repair must stand: a pair without cards is tested with its second fault's single repair. -/
def State.mixEntries (s : State) (b : Nat) (r : Repair) : List EntryEdit :=
  if r.kind = 4 ∧ r.count = 0 then s.repairEntries b (s.repair b r.second) else s.repairEntries b r

/-- The view of a job's base image, the tables in force where there is none. -/
def State.baseView (s : State) (epoch : W32) (base : Nat) : View :=
  match s.baseImage epoch base with
  | some bi => fun u i => (s.baseEntry bi u i).route
  | none => s.view

/-- R278, kind 2. A repair marked MIX_FAIL is not held to MIX (R294). -/
def State.checkRepair (s : State) (epoch : W32) (b base k : Nat) (cost : W16 → Nat → Nat) : Verdict :=
  let n := s.net cost
  let r := s.repair b k
  firstBad [
    if s.deckEpoch b ≠ epoch then some { status := 1 } else s.checkRepairBase n epoch b base k,
    if r.mixFail then none
    else
      let t0 := s.baseOf (s.baseView epoch base) b r
      s.mixBad n t0 (s.nestedViews b t0 r.faults) (s.mixEntries b r) r.faults]

/-! ## Convoy schedules (R280–R282)

The spec gives a schedule no byte layout: the one here is the model's (DESIGN CHOICE, log 60). A 64-byte header holds the fabric
epoch (4 bytes), the verifier's PASS (1, in byte 4), the train count (4, at 8), the landing count (4, at 12) and the total length
(8, at 16). Trains follow, each of 8 bytes (start slot, flits, hop count in 2) and 16 bytes a hop (agent 2, output 1, source 1,
hop it follows 2, 0xFFFF for none, 2 of 0, slots 8), then landing entries of 8 bytes (sub-port, slot, 2 of 0, convoy 4). -/

/-- A hop's bytes. -/
def hopBytes (h : Hop) : List Byte :=
  toBytes 2 h.agent ++ [BitVec.ofNat 8 h.port, BitVec.ofNat 8 h.source] ++
    toBytes 2 (match h.parent with | some k => BitVec.ofNat 16 k | none => (0xFFFF : W16)) ++ [0, 0] ++
    toBytes 8 (h.slots.foldl (fun m j => putBit m j true) (0 : W64))

def trainBytes (x : Train) : List Byte :=
  [BitVec.ofNat 8 x.start, BitVec.ofNat 8 x.flits] ++ toBytes 2 (BitVec.ofNat 16 x.hops.length) ++ [0, 0, 0, 0] ++ x.hops.flatMap hopBytes

def landBytes (x : LandSlot) : List Byte :=
  [BitVec.ofNat 8 x.port, BitVec.ofNat 8 x.slot, 0, 0] ++ toBytes 4 x.convoy

/-- A schedule's bytes; `pass` is the verifier's mark. -/
def schedBytes (c : Schedule) (epoch : W32) (pass : Bool) : List Byte :=
  let body := c.trains.flatMap trainBytes ++ c.landing.flatMap landBytes
  toBytes 4 epoch ++ [if pass then 1 else 0, 0, 0, 0] ++ toBytes 4 (BitVec.ofNat 32 c.trains.length) ++
    toBytes 4 (BitVec.ofNat 32 c.landing.length) ++ toBytes 8 (BitVec.ofNat 64 (64 + body.length)) ++ List.replicate 40 0 ++ body

def State.readHop (s : State) (a : Nat) : Hop :=
  let p := s.depLE (a + 4) 2
  let m : W64 := BitVec.ofNat 64 (s.depLE (a + 8) 8)
  { agent := BitVec.ofNat 16 (s.depLE a 2), port := s.depLE (a + 2) 1, source := s.depLE (a + 3) 1
    slots := (List.range 64).filter (fun j => m.getLsbD j), parent := if p = 0xFFFF then none else some p }

/-- Trains from an address on, and where they end. -/
def State.readTrains (s : State) (a : Nat) : Nat → List Train × Nat
  | 0 => ([], a)
  | n + 1 =>
    let k := s.depLE (a + 2) 2
    let x : Train := { start := s.depLE a 1, flits := s.depLE (a + 1) 1, hops := (List.range k).map (fun i => s.readHop (a + 8 + 16 * i)) }
    let r := s.readTrains (a + 8 + 16 * k) n
    (x :: r.1, r.2)

def State.schedLen (s : State) (b : Nat) : Nat := s.depLE (b + 16) 8

/-- The schedule at a depot address, none when its layout is broken. -/
def State.schedule (s : State) (b : Nat) : Option Schedule :=
  if ¬ s.inDepot b 64 ∨ s.schedLen b < 64 ∨ ¬ s.inDepot b (s.schedLen b) then none
  else
    let r := s.readTrains (b + 64) (min (s.depLE (b + 8) 4) (s.schedLen b / 8))
    let l := (List.range (min (s.depLE (b + 12) 4) (s.schedLen b / 8))).map (fun i =>
      let a := r.2 + 8 * i
      ({ port := s.depLE a 1, slot := s.depLE (a + 1) 1, convoy := BitVec.ofNat 32 (s.depLE (a + 4) 4) } : LandSlot))
    let c : Schedule := { trains := r.1, landing := l }
    if s.depRead b (s.schedLen b) = schedBytes c (BitVec.ofNat 32 (s.depLE b 4)) (s.depLE (b + 4) 1 = 1) then some c else none

/-- The slots of a frame that a window in picoseconds overlaps (R75, R281). -/
def slotsOf (lo hi : Nat) : List Nat :=
  ((List.range 64).filter (fun j => (List.range 4).any (fun k =>
    decide (1000000 * k + 15625 * j < hi) && decide (lo < 1000000 * k + 15625 * (j + 1)))))

/-- The slots a train's flits can overlap at an output, its first flit there at t ps: at the source it leaves at the start of a
slot; at each later hop the arrival window is widened by 3 ns on both sides. -/
def trainSlots (source : Bool) (t n : Nat) : List Nat :=
  let w := if source then 0 else 3000
  slotsOf (1000000 + t % 1000000 - w) (1000000 + t % 1000000 + 1355 * n + w)

/-- Time from a hop to one that follows it: the next agent's CONVOY_T and the link's FLIGHT, ps (R281, log 76). -/
def State.hopDelay (s : State) (g : Hop) (next : W16) : Nat :=
  let fl := match s.agentById g.agent with | some a => (a.port g.port).flight.toNat | none => 0
  let ct := match s.agentById next with | some a => a.build.convoyT.toNat | none => 0
  100 * fl + 1000 * ct

/-- Departure times at a train's hops, in ps from its frame. -/
def State.hopTimes (s : State) (x : Train) : List Nat :=
  x.hops.foldl (fun ts h =>
    let t := match h.parent with
      | none => 15625 * x.start
      | some k => match x.hops[k]? with
        | some g => ts.getD k 0 + s.hopDelay g h.agent
        | none => 0
    ts ++ [t]) []

/-- What a schedule's hops put into slots: agent, output, slot, source. -/
def schedMarks (c : Schedule) : List (W16 × Nat × Nat × Nat) :=
  c.trains.flatMap (fun x => x.hops.flatMap (fun h => h.slots.map (fun j => (h.agent, h.port, j, h.source))))

/-- The slots reserved at an output. -/
def outSlots (c : Schedule) (u : W16) (p : Nat) : List Nat :=
  (((schedMarks c).filter (fun k => decide (k.1 = u) && decide (k.2.1 = p))).map (fun k => k.2.2.1)).eraseDups

/-- The rules of R282. -/
def State.checkSchedule (s : State) (c : Schedule) : Verdict :=
  let ms := schedMarks c
  let clash := ms.find? (fun m => ms.any (fun k => decide (k.1 = m.1) && decide (k.2.1 = m.2.1) && decide (k.2.2.1 = m.2.2.1) && decide (k.2.2.2 ≠ m.2.2.2)))
  let crowded := ms.find? (fun m => decide (m.2.1 < 128) && decide (62 < (outSlots c m.1 m.2.1).length))
  let queue := ms.find? (fun m => decide (m.2.1 = 128) && decide (0x80 ≤ m.2.2.2))
  let late := c.trains.findSome? (fun x => (x.hops.zip (s.hopTimes x)).findSome? (fun h =>
    let want := trainSlots h.1.parent.isNone h.2 x.flits
    if want.all (fun j => h.1.slots.contains j) ∧ h.1.slots.all (fun j => want.contains j) ∧ x.flits ≤ 9
    then none else some (h.1.agent, h.1.port, h.1.slots.headD 0, h.1.source)))
  match clash <|> crowded <|> queue <|> late with
  | some m => { status := 8, agent := m.1, dest := m.2.2.1 }
  | none => {}

/-- Kind 3: a schedule for the epoch of its base. -/
def State.checkScheduleAt (s : State) (epoch : W32) (b base : Nat) : Verdict :=
  match s.schedule b, s.baseImage epoch base with
  | some c, some _ => if BitVec.ofNat 32 (s.depLE b 4) = epoch then s.checkSchedule c else { status := 1 }
  | _, _ => { status := 1 }

/-! ## Jobs -/

/-- Records the hash of an image that passed (R151). -/
def State.recordImage (s : State) (b : Nat) : State :=
  s.setDeck (fun d => { d with verified := (d.verified.filter (fun v => decide (v.1 ≠ b))) ++ [(b, sha384 (s.depRead b (s.imgLen b)))] })

/-- Sets bits of a repair record's flags. -/
def State.markRepair (s : State) (b k : Nat) (bits : Byte) : State :=
  let a := s.repairAddr b k + 1
  s.depWrite a [(BitVec.ofNat 8 (s.depLE a 1) ||| bits : Byte)]

/-- Writes PASS into a schedule's header; the pass holds for these bytes alone (R276). -/
def State.passSchedule (s : State) (b : Nat) : State :=
  let s := s.depWrite (b + 4) [1]
  s.setDeck (fun d => { d with
    schedules := (d.schedules.filter (fun v => decide (v.1 ≠ b))) ++ [(b, sha384 (s.depRead b (s.schedLen b)))] })

/-- A schedule that passed and has not changed since. -/
def State.schedPassed (s : State) (b : Nat) : Bool :=
  s.fab.deck.schedules.contains (b, sha384 (s.depRead b (s.schedLen b)))

/-- A job entry (R277). -/
def jobEntry (kind : Nat) (epoch : W32) (obj costs dists base : Nat) (tag : W64) (repair : Nat) : List Byte :=
  [BitVec.ofNat 8 kind, 0, 0, 0] ++ toBytes 4 epoch ++ toBytes 8 (BitVec.ofNat 64 obj) ++ toBytes 8 (BitVec.ofNat 64 costs) ++
    toBytes 8 (BitVec.ofNat 64 dists) ++ toBytes 8 (BitVec.ofNat 64 base) ++ toBytes 8 tag ++ List.replicate 8 0 ++
    toBytes 4 (BitVec.ofNat 32 repair) ++ List.replicate 4 0

/-- The verdict on a job's object, and what a pass writes. -/
def State.runJob (s : State) (e : List Byte) : Verdict × State :=
  let f (o n : Nat) : Nat := leNat ((e.drop o).take n)
  let b := f 8 8
  let epoch : W32 := BitVec.ofNat 32 (f 4 4)
  let rsv := decide (f 1 3 = 0) && decide (f 48 8 = 0) && decide (f 60 4 = 0) && (decide (f 0 1 = 2) || decide (f 56 4 = 0))
  let v : Verdict := if ¬ rsv then { status := 1 }
    else match f 0 1 with
      | 1 => s.checkImage epoch b (f 32 8) (s.fileCost (f 16 8)) (s.fileDist (f 24 8))
      | 2 => s.checkRepair epoch b (f 32 8) (f 56 4) (s.fileCost (f 16 8))
      | _ => s.checkScheduleAt epoch b (f 32 8)
  if v.status ≠ 0 then (v, s)
  else match f 0 1 with
    | 1 => (v, s.recordImage b)
    | 2 => (v, s.markRepair b (f 56 4) 1)
    | _ => (v, s.passSchedule b)

/-- What a result means to the deal whose job it was (R278, R294, R309): a table image that fails ends the deal, its result
standing for the owner; a single repair that fails MIX is kept as MIX_FAIL and checked again. -/
def State.dealJudged (s : State) (e : List Byte) (status : Nat) : State :=
  let f (o n : Nat) : Nat := leNat ((e.drop o).take n)
  match s.fab.deck.dealing with
  | none => s
  | some d =>
    let k := f 56 4
    if f 0 1 = 1 ∧ d.phase = 0 ∧ f 8 8 = d.files.image then
      (if status = 0 then s else s.setDeck (fun x => { x with dealing := none }))
    else if f 0 1 = 2 ∧ f 8 8 = d.deck ∧ d.wait.contains k then
      let again := decide (status = 7) && decide ((s.repair d.deck k).kind ≠ 4)
      let s := if again then s.markRepair d.deck k 4 else s
      s.setDeck (fun x => { x with dealing := some { d with
        wait := d.wait.filter (fun i => decide (i ≠ k)), todo := if again then d.todo ++ [k] else d.todo } })
    else s

/-- VERIFIER_JOB (R276–R278): the active dealer's unit takes the entry at the head of queue 0x7FF0 and answers on 0x7FF1. An
entry of a reserved kind is dropped and counted (R15). -/
def execVerifierJob (s : State) : Result :=
  .next (
    let q := s.queue 0x7FF0
    if ¬ q.en ∨ q.count = 0 ∨ s.qStalled 0x7FF0 ∨ s.dealers.takeover ≠ .none then s
    else
      let e := s.qHead 0x7FF0
      let s := (s.qPop 0x7FF0).qRun 0x7FF0 qFuel
      let kind := (e.headD 0).toNat
      if kind = 0 ∨ 3 < kind then s.ignore
      else
        let (v, s) := s.runJob e
        (s.qDevPush 0x7FF1 (((e.drop 40).take 8) ++ [BitVec.ofNat 8 v.status, 0] ++ toBytes 2 v.agent ++
          toBytes 4 (BitVec.ofNat 32 v.dest))).dealJudged e v.status)

end Sys2Proof.Machine
end

