-- ==== Sys2Proof/Machine/Convoy.lean ====
section
/-! DEFINITION. Convoy schedules (R280–R282): the schedule stream, which routes convoys along the table paths and assigns their
slots, and the writing of a verified schedule to the agents. -/

namespace Sys2Proof.Machine

/-! ## Requests and routes (R280) -/

/-- A convoy request. -/
structure ConvoyReq where
  src : W16
  q : Nat
  flits : Nat
  dests : List W16
  convoy : W32
  deriving DecidableEq, Repr

/-- An agent that may send a convoy: an RKA-E of the path book. -/
def State.isEndpoint (s : State) (id : W16) : Bool := match s.known id with | some k => decide (helloBuild k.hello = 1) | none => false

/-- The request record at a depot address, none when it breaks its layout. -/
def State.convoyReq (s : State) (a : Nat) : Option ConvoyReq :=
  let f (o n : Nat) : Nat := s.depLE (a + o) n
  let r : ConvoyReq := { src := BitVec.ofNat 16 (f 0 2), q := f 2 1, flits := f 4 4, convoy := BitVec.ofNat 32 (f 16 4)
                         dests := (List.range (f 3 1)).map (fun i => BitVec.ofNat 16 (s.depLE (f 8 8 + 2 * i) 2)) }
  if s.inDepot a 32 ∧ s.isEndpoint r.src ∧ r.q ≤ 15 ∧ 1 ≤ f 3 1 ∧ f 3 1 ≤ 64 ∧ 1 ≤ r.flits ∧ r.flits ≤ 558 ∧
      s.inDepot (f 8 8) (2 * f 3 1) ∧ leNat (s.depRead (a + 20) 12) = 0 ∧
      r.dests.all (fun d => decide (d ≠ r.src) && (s.isEndpoint d || decide (0xFFC0 ≤ d.toNat))) then some r
  else none

/-- The far end of a port's link. -/
def State.farEnd (s : State) (u : W16) (p : Nat) : Option (W16 × Nat) :=
  s.fab.links.findSome? (fun l => if l.a = u ∧ l.ap = p then some (l.b, l.bp) else if l.b = u ∧ l.bp = p then some (l.a, l.ap) else none)

/-- The current table path from an agent to a destination: out ports, each the lowest candidate of its entry (log 112). -/
def State.tablePath (s : State) (d u : W16) : Nat → Option (List (W16 × Nat))
  | 0 => none
  | n + 1 =>
    if u = d then some []
    else match (List.range 128).findSome? (fun p =>
        if (s.inForce u (entryIdx u d)).cand.getLsbD p then (s.farEnd u p).map (fun w => (p, w.1)) else none) with
      | some (p, w) => (s.tablePath d w n).map (fun l => (u, p) :: l)
      | none => none

/-- The hop that leads into an agent. -/
def State.hopInto (s : State) (hs : List Hop) (w : W16) : Option Nat :=
  (List.range hs.length).find? (fun i => match hs[i]? with
    | some h => decide ((s.farEnd h.agent h.port).map (·.1) = some w)
    | none => false)

/-- A hop out of an agent: from the injection queue at the source, elsewhere from the port that the hop into it ends at. -/
def State.hopOut (s : State) (r : ConvoyReq) (hs : List Hop) (u : W16) (p : Nat) : Hop :=
  if u = r.src then { agent := u, port := p, source := 0x80 + r.q, slots := [], parent := none }
  else
    let k := s.hopInto hs u
    let inp := (k.bind (fun i => hs[i]?)).bind (fun h => (s.farEnd h.agent h.port).map (·.2))
    { agent := u, port := p, source := inp.getD 0, slots := [], parent := k }

/-- Grafts a path on a tree: the part after the last agent that the tree already reaches. -/
def State.graft (s : State) (r : ConvoyReq) (hs : List Hop) (path : List (W16 × Nat)) : List Hop :=
  let reached (u : W16) : Bool := (s.hopInto hs u).isSome || decide (u = r.src)
  let tail := path.drop ((path.zipIdx.foldl (fun m x => if reached x.1.1 then x.2 else m) 0))
  tail.foldl (fun hs e => if hs.any (fun h => decide (h.agent = e.1) && decide (h.port = e.2)) then hs
    else hs ++ [s.hopOut r hs e.1 e.2]) hs

/-- A convoy's tree of hops, branching where the paths branch, with an ejection at every agent among its destinations. -/
def State.convoyTree (s : State) (r : ConvoyReq) : Option (List Hop) :=
  r.dests.foldl (fun (t : Option (List Hop)) d => t.bind (fun hs => (s.tablePath d r.src 63).map (fun path =>
    let hs := s.graft r hs path
    if 0xFFC0 ≤ d.toNat ∨ hs.any (fun h => decide (h.agent = d) && decide (h.port = 128)) then hs else hs ++ [s.hopOut r hs d 128]))) (some [])

/-! ## Slots (R281) -/

/-- A train on a tree, with the slots its flits can overlap at each output. -/
def State.placeTrain (s : State) (hs : List Hop) (n j : Nat) : Train :=
  let x : Train := { start := j, flits := n, hops := hs }
  { x with hops := (hs.zip (s.hopTimes x)).map (fun h => { h.1 with slots := trainSlots h.1.parent.isNone h.2 n }) }

/-- Where a train lands at a package: the slots of the sub-ports that its last hops lead to. -/
def State.landings (s : State) (x : Train) (convoy : W32) : List LandSlot :=
  (x.hops.zip (s.hopTimes x)).flatMap (fun h => match s.farEnd h.1.agent h.1.port with
    | some (w, p) =>
      if 0xFFC0 ≤ w.toNat then (trainSlots false (h.2 + s.hopDelay h.1 w) x.flits).map (fun j => { port := p, slot := j, convoy := convoy })
      else []
    | none => [])

/-- A train fits a schedule: no output would name two sources in a slot, the source's slots are its own, the default rest slots
stay at rest, and no landing slot holds another convoy. -/
def fits (c : Schedule) (x : Train) (ls : List LandSlot) : Bool :=
  let ms := schedMarks c
  x.hops.all (fun h => h.slots.all (fun j =>
    (decide (h.port = 128) || (decide (j ≠ 31) && decide (j ≠ 63))) &&
    !ms.any (fun m => decide (m.1 = h.agent) && decide (m.2.1 = h.port) && decide (m.2.2.1 = j) &&
      (decide (m.2.2.2 ≠ h.source) || h.parent.isNone)))) &&
  ls.all (fun l => !c.landing.any (fun k => decide (k.port = l.port) && decide (k.slot = l.slot) && decide (k.convoy ≠ l.convoy)))

/-- Adds one train at the first start slot where it fits. -/
def State.addTrain (s : State) (hs : List Hop) (convoy : W32) (c : Schedule) (n : Nat) : Option Schedule :=
  (List.range 64).findSome? (fun j =>
    let x := s.placeTrain hs n j
    let ls := s.landings x convoy
    if fits c x ls then some { trains := c.trains ++ [x], landing := c.landing ++ ls.filter (fun l => !c.landing.contains l) } else none)

/-- The trains of a convoy: nine flits in a slot, and the rest (R75). -/
def trainSizes (n : Nat) : List Nat := List.replicate (n / 9) 9 ++ (if n % 9 = 0 then [] else [n % 9])

/-- Adds a convoy to a schedule. -/
def State.addConvoy (s : State) (c : Schedule) (r : ConvoyReq) : Option Schedule :=
  match s.convoyTree r with
  | none => none
  | some hs => (trainSizes r.flits).foldl (fun (t : Option Schedule) n => t.bind (fun c => s.addTrain hs r.convoy c n)) (some c)

/-- The schedule of n request records; none when a record breaks its layout, a destination is not reached or a train fits no
slot (log 112). -/
def State.buildSchedule (s : State) (reqs n : Nat) : Option Schedule :=
  (List.range n).foldl (fun (t : Option Schedule) i => t.bind (fun c => (s.convoyReq (reqs + 32 * i)).bind (s.addConvoy c)))
    (some { trains := [], landing := [] })

/-- The schedule stream writes its schedule, and queues it for the verifier against the tables of the last deal. -/
def State.runSchedule (s : State) (addr reqs n : Nat) : State :=
  match s.buildSchedule reqs n with
  | none => s
  | some c =>
    let bs := schedBytes c s.dealers.fepoch false
    if ¬ s.inDepot addr bs.length then s
    else
      let s := s.depWrite addr bs
      match s.fab.deck.files with
      | some f => s.qDevPush 0x7FF0 (jobEntry 3 s.dealers.fepoch addr f.costs f.dists f.base (BitVec.ofNat 64 addr) 0)
      | none => s

/-! ## Writing a schedule (R282) -/

/-- The agents whose slot tables a schedule names. -/
def schedAgents (c : Schedule) : List W16 := ((schedMarks c).map (·.1)).eraseDups

/-- The rest slots of an output: 31 and 63 where they are free, else the lowest free ones, two in all. -/
def restSlots (c : Schedule) (u : W16) (p : Nat) : List Nat :=
  let used := outSlots c u p
  ((([31, 63] ++ List.range 64).filter (fun j => !used.contains j)).eraseDups).take 2

/-- A slot's code in a schedule's table of an output (R74): convoy where a train is reserved, rest in two slots. -/
def slotCode (c : Schedule) (u : W16) (p j : Nat) : W16 :=
  match (schedMarks c).find? (fun m => decide (m.1 = u) && decide (m.2.1 = p) && decide (m.2.2.1 = j)) with
  | some m => 0x4000 ||| ((BitVec.ofNat 8 m.2.2.2).setWidth 16 <<< 4)
  | none => if (restSlots c u p).contains j then 0x8000 else 0

/-- The writes of an agent's shadow slot tables: every fabric port's, then the ejection table's. -/
def State.slotSteps (s : State) (c : Schedule) (u : W16) : List TStep :=
  let bank : W32 := match s.agentById u with | some a => if a.sw.slotBank then 0 else 0x100 | none => 0x100
  let words (p : Nat) : List W32 := (List.range 32).map (fun k => slotCode c u p (2 * k + 1) ++ slotCode c u p (2 * k))
  .cmd (agWrite 0x5000 [4 ||| bank]) :: (List.range (s.portsOf u)).flatMap (fun p => writeSteps (0x1000 + 128 * p) (words p) 4) ++
    .cmd (agWrite 0x5000 [5 ||| bank]) :: writeSteps 0x1000 (words 128) 4

/-- The writes of some agents' shadow tables begin. -/
def State.sendSlots (s : State) (c : Schedule) (ids : List W16) : State :=
  ids.foldl (fun s u => s.devTarget { s.target 0 u (s.slotSteps c u) with slots := true }) s

/-- SLOT_F goes to every agent of a schedule: 200 frames after the last acknowledgement; the landing schedule follows (R366). -/
def State.sendSwitch (s : State) (c : Schedule) (l : ConvoyLoad) : State :=
  let s := (schedAgents c).foldl (fun s u => s.devSteps u [.cmd (agWrite 0x950 [l.last + 200])]) s
  let land := c.landing.foldl (fun m x => SMap.set noneOf m (64 * x.port + x.slot) (some x.convoy)) s.fab.reb.sched
  (s.setReb (fun r => { r with sched := land })).setDeck (fun d => { d with convoy := none })

/-- A schedule that passed goes to the agents: the shadow tables, again where a write was refused or never went out, and SLOT_F
once every write has been acknowledged. -/
def State.loadSchedule (s : State) (addr : Nat) : State :=
  match (if s.schedPassed addr then s.schedule addr else none) with
  | none => s
  | some c =>
    let ids := schedAgents c
    match s.fab.deck.convoy with
    | some l =>
      if l.addr ≠ addr then (s.setDeck (fun d => { d with convoy := some { addr := addr } })).sendSlots c ids
      else if s.dealers.bg.any (fun t => t.slots && ids.contains t.agent) then s
      else
        let missing := ids.filter (fun u => !l.acked.contains u)
        if missing ≠ [] then s.sendSlots c missing else s.sendSwitch c l
    | none => (s.setDeck (fun d => { d with convoy := some { addr := addr } })).sendSlots c ids

/-- CONVOY_SCHEDULE (R280, R282): with request records, the schedule stream builds a schedule at an address; without, the one
there that passed the verifier is written to the shadow slot tables, then switched. -/
def execConvoySchedule (job : ConvoyJob) (s : State) : Result :=
  .next (
    if ¬ s.isActive ∨ s.dealers.takeover ≠ .none then s
    else match job with
      | .build addr reqs n => s.runSchedule addr reqs n
      | .write addr => s.loadSchedule addr)

end Sys2Proof.Machine
end

