-- ==== Sys2Proof/Machine/Deck.lean ====
section
/-! DEFINITION. The deck (R283–R292): fault keys and triggers, the staging policy, scores and pairs, generated repairs, and a
deck's bytes. -/

namespace Sys2Proof.Machine

/-! ## Triggers (R288) -/

/-- The four triggers of a card, with their masks. -/
def triggers (key : Desc) : List (Desc × Desc) :=
  if descKind key = 1 then
    [(key, BitVec.allOnes 64),
     (linkDesc (descPeer key) (descPport key) (descReporter key) (BitVec.ofNat 8 (descRport key)), BitVec.allOnes 64),
     (linkDesc 0xFFC0 0 (descPeer key) (BitVec.ofNat 8 (descPport key)), 0xFFFFFFEFFFFFFFFF), (0, 0)]
  else [(key, 0xF000000FFFFFFFFF), (0, 0), (0, 0), (0, 0)]

/-! ## The staging policy (R299) -/

structure Policy where
  hyst : Nat
  loads : Nat
  threshold : Nat
  floor : Nat
  /-- kind weights: link, agent, rack half, follow-on -/
  weights : List Nat
  sliceW : Nat
  sameAgent : Nat
  sameHalf : Nat
  otherwise : Nat
  cong : List Nat
  pins : List (W16 × Nat)
  /-- a field was out of range -/
  flag : Bool
  deriving DecidableEq, Repr

/-- Every default of R299. -/
def Policy.dflt : Policy :=
  { hyst := 320, loads := 2048, threshold := 52428, floor := 655, weights := [256, 256, 256, 256], sliceW := 16
    sameAgent := 4096, sameHalf := 1024, otherwise := 256, cong := [128, 192, 230], pins := [], flag := false }

/-- The policy record at a depot address; a field out of range takes its default and sets the flag. -/
def State.policy (s : State) (a : Nat) : Policy :=
  let f (o n : Nat) : Nat := s.depLE (a + o) n
  let hOk := decide (256 ≤ f 6 2) && decide (f 6 2 ≤ 1024)
  let lOk := decide (f 8 4 ≤ 65536)
  let zOk := decide (1 ≤ f 4 2) && decide (f 4 2 ≤ 60000)
  { hyst := if hOk then f 6 2 else 320, loads := if lOk then f 8 4 else 2048, threshold := f 12 2, floor := f 14 2
    weights := [f 16 2, f 18 2, f 20 2, f 22 2], sliceW := f 24 2, sameAgent := f 26 2, sameHalf := f 28 2, otherwise := f 30 2
    cong := [f 32 1, f 33 1, f 34 1]
    pins := ((List.range 8).map (fun i => (BitVec.ofNat 16 (f (36 + 8 * i) 2), f (40 + 8 * i) 4))).filter (fun p => decide (p.1 ≠ 0xFFFF))
    flag := !(hOk && lOk && zOk && decide (f 0 4 = 1)) }

/-- The staging policy in force, the defaults where no deal has named one. -/
def State.policyNow (s : State) : Policy :=
  match s.fab.deck.policyAt with
  | some a => s.policy a
  | none => Policy.dflt

/-! ## Scores (R297, R299) -/

/-- The key of an element's fault. -/
def State.elemKey (s : State) (e : Element) : Desc :=
  match e.scope.toNat with
  | 1 => match s.fab.links.find? (fun l => decide (l.a = e.id) && decide (l.ap = e.port.toNat)) with
    | some l => linkKey l
    | none => 0
  | 2 => agentKey e.id
  | _ => halfKey (e.id.setWidth 8)

def State.scoreOf (s : State) (key : Desc) : Nat :=
  match s.fab.deck.scores.find? (fun x => decide (s.elemKey x.elem = key)) with
  | some x => x.score.toNat
  | none => 0

/-- The agents a fault touches. -/
def keyAgents (key : Desc) : List W16 :=
  match descKind key with
  | 1 => [descReporter key, descPeer key]
  | 2 => [descPeer key]
  | _ => []

def State.halfOf (s : State) (id : W16) : Option W16 := (s.planOf id).map (·.rackHalf)

/-- The rack halves a fault touches. -/
def State.keyHalves (s : State) (key : Desc) : List W16 :=
  if descKind key = 3 then [(descHalf key).setWidth 16] else (keyAgents key).filterMap s.halfOf

def State.pairFactor (s : State) (p : Policy) (a b : Desc) : Nat :=
  if (keyAgents a).any (fun x => (keyAgents b).contains x) then p.sameAgent
  else if (s.keyHalves a).any (fun x => (s.keyHalves b).contains x) then p.sameHalf else p.otherwise

/-- Puts a scored pair in its place, the highest first; equal pairs keep their order. -/
def insertScored {α : Type} (x : Nat × α) : List (Nat × α) → List (Nat × α)
  | [] => [x]
  | y :: ys => if y.1 < x.1 then x :: y :: ys else y :: insertScored x ys

/-- The double set: ordered pairs of distinct elements at or above the pair floor. -/
def State.doubleSet (s : State) (p : Policy) (keys : List Desc) : List (Desc × Desc) :=
  let es := (keys.map (fun k => (s.scoreOf k, k))).filter (fun e => decide (p.floor ≤ e.1))
  let ps := es.flatMap (fun a => (es.filter (fun b => decide (a.2 ≠ b.2))).map (fun b => (a.1 * b.1 * s.pairFactor p a.2 b.2, a.2, b.2)))
  ((ps.foldl (fun l x => insertScored x l) []).take 100000).map (·.2)

/-! ## Generating repairs (R284, R292) -/

/-- A repair as generated: its record's fields and its cards' entries by agent. -/
structure Gen where
  kind : Nat
  flags : Byte
  key1 : Desc
  key2 : Desc := 0
  second : Nat := 0xFFFFFFFF
  cards : List (W16 × List EntryEdit)
  deriving DecidableEq, Repr

def Gen.fault (g : Gen) : Desc := if g.kind = 4 then g.key2 else g.key1

/-- The cards that correct tables for some faults: per agent, the entries that the solve without them changes, and any others
it must list. An entry left without a route is not written (R290). -/
def State.correct (s : State) (n : Net) (t0 : View) (ks : List Desc) (must : List EntryEdit) : List (W16 × List EntryEdit) :=
  let m := s.without n ks
  let dv := distOf m.solve
  (m.nodes.map (fun u =>
    let own := (m.diff dv t0 u).filter (fun c => decide (c.r.cand ≠ 0))
    let more := (must.filter (fun c => decide (c.u = u) && !own.any (fun o => decide (o.i = c.i)))).map
      (fun c => ({ u := u, i := c.i, r := m.route dv u c.i } : EntryEdit))
    (u, own ++ more))).filter (fun x => !x.2.isEmpty)

/-- Whether a card would need more than 256 entries (R287). -/
def overfull (cs : List (W16 × List EntryEdit)) : Bool := cs.any (fun c => decide (256 < c.2.length))

/-- A repair for a single fault; one whose card would need more than 256 entries has no card set (R294). -/
def State.genSingle (s : State) (n : Net) (key : Desc) : Gen :=
  let cs := s.correct n s.view [key] []
  if overfull cs then { kind := descKind key, flags := 4, key1 := key, cards := [] }
  else { kind := descKind key, flags := 0, key1 := key, cards := cs }

/-- Every single fault's key (R284). -/
def State.singleKeys (s : State) (n : Net) : List Desc :=
  ((s.fab.links.filter (fun l => decide (s.linkCost [] l ≠ dInf))).map linkKey) ++
  n.nodes.map agentKey ++ ((n.nodes.filterMap s.halfOf).eraseDups.map (fun h => halfKey (h.setWidth 8)))

/-- Stored with the computed bit (R307). -/
def Repair.computed (r : Repair) : Bool := r.flags.getLsbD 3

/-- The number of a fault's single repair as dealt. -/
def State.singleOf (s : State) (b : Nat) (k : Desc) : Option Nat :=
  (List.range (s.deckRepairs b)).find? (fun i =>
    decide ((s.repair b i).kind ≠ 4) && decide ((s.repair b i).key1 = k) && !(s.repair b i).computed)

/-- The kind 4 repair of a pair (R292): compatible when the second fault's single repair stands over the first's, with follow-on
cards otherwise; none when a follow-on card would need more than 256 entries. -/
def State.genPair (s : State) (n : Net) (b : Nat) (pr : Desc × Desc) : Option Gen :=
  match s.singleOf b pr.1, s.singleOf b pr.2 with
  | some i, some j =>
    let ks := [pr.1, pr.2]
    let r2 := s.repair b j
    let t0 := s.view.with (s.repairEntries b (s.repair b i))
    let single := s.repairEntries b r2
    let g : Gen := { kind := 4, flags := 2, key1 := pr.1, key2 := pr.2, second := j, cards := [] }
    if r2.verified ∧ ¬ r2.mixFail ∧ (s.mixBad n t0 (s.nestedViews b t0 ks) single ks).isNone then some g
    else
      let cs := s.correct n t0 ks single
      if cs = [] ∨ overfull cs = true then none else some { g with flags := 0, cards := cs }
  | _, _ => none

/-! ## Laying a deck out (R286, R287) -/

def padTo (k : Nat) (bs : List Byte) : List Byte := bs ++ List.replicate ((k - bs.length % k) % k) 0
def le (n v : Nat) : List Byte := toBytes n (BitVec.ofNat (8 * n) v)

def editBytes (c : EntryEdit) : List Byte :=
  let w : W32 := BitVec.ofNat 32 (c.i % 1024) ||| bitW c.r.dl 16 ||| bitW (decide (1024 ≤ c.i)) 31
  toBytes 4 w ++ toBytes 16 c.r.cand ++ List.replicate 12 0

/-- A card record. -/
def cardBytes (epoch : W32) (deal : Byte) (serial repair : Nat) (fault : Desc) (c : W16 × List EntryEdit) : List Byte :=
  let id : W32 := BitVec.ofNat 32 (deal.toNat * 2 ^ 24 + serial)
  let head := toBytes 4 id ++ toBytes 4 epoch
  let trig := (triggers fault).flatMap (fun t => toBytes 8 t.1 ++ toBytes 8 t.2)
  let ents := c.2.flatMap editBytes
  padTo 64 (toBytes 2 c.1 ++ le 2 c.2.length ++ head ++ toBytes 4 (crc32c (head ++ trig ++ ents)) ++ le 4 repair ++
    List.replicate 12 0 ++ trig ++ ents)

/-- How many slices are served by the entries a repair changes (R286). -/
def State.slicesOf (s : State) (g : Gen) : Nat :=
  let m := g.cards.foldl (fun m c => c.2.foldl (fun m e => m ||| s.maskInForce e.u (s.inForce e.u e.i).mask.toNat) m) (0 : BitVec 512)
  ((List.range 512).filter (fun i => m.getLsbD i)).length

def State.repairBytes (s : State) (first : Nat) (g : Gen) : List Byte :=
  [BitVec.ofNat 8 g.kind, g.flags] ++ le 2 g.cards.length ++ le 4 first ++ toBytes 8 g.key1 ++ toBytes 8 g.key2 ++ le 4 g.second ++
    le 2 (s.slicesOf g) ++ [0, 0]

/-- Running sums: the value before each element, and the total. -/
def prefixSums (l : List Nat) : List Nat := l.foldl (fun a x => a ++ [a.getLastD 0 + x]) [0]

/-- Repair records that a deck leaves room for after its own, for repairs computed later (R307; log 113). -/
def spareRepairs : Nat := 1024

/-- The card offset list, by repair number, fault and card. -/
def deckCards (gs : List Gen) : List (Nat × Desc × W16 × List EntryEdit) :=
  gs.zipIdx.flatMap (fun g => g.1.cards.map (fun c => (g.2, g.1.fault, c)))

/-- The bytes of a deck. -/
def State.deckBytes (s : State) (deal : Byte) (gs : List Gen) : List Byte :=
  let e := s.dealers.fepoch
  let firsts := prefixSums (gs.map (fun g => g.cards.length))
  let flat := deckCards gs
  let recs := flat.zipIdx.map (fun x => cardBytes e deal x.2 x.1.1 x.1.2.1 x.1.2.2)
  let ids := (flat.map (fun x => x.2.2.1)).foldl (fun l x => insertId x l) []
  let n := flat.length
  let oIdx := 64 + 32 * (gs.length + spareRepairs)
  let oLists := oIdx + 16 * ids.length
  let oArea := oLists + 8 * n
  let oRecs := oArea + 8 * n + (64 - (oArea + 8 * n) % 64) % 64
  let offs := prefixSums (recs.map List.length)
  let at_ (i : Nat) : Nat := oRecs + offs.getD i 0
  let ofAgent (id : W16) : List Nat := (flat.zipIdx.filter (fun x => decide (x.1.2.2.1 = id))).map (·.2)
  let counts := prefixSums (ids.map (fun id => (ofAgent id).length))
  let table := (gs.zip firsts).flatMap (fun x => s.repairBytes x.2 x.1) ++ List.replicate (32 * spareRepairs) 0
  let index := (ids.zip counts).flatMap (fun x => toBytes 2 x.1 ++ [0, 0] ++ le 4 (ofAgent x.1).length ++ le 8 (oLists + 8 * x.2))
  let lists := ids.flatMap (fun id => (ofAgent id).flatMap (fun i => le 8 (at_ i)))
  let area := (List.range n).flatMap (fun i => le 8 (at_ i))
  toBytes 4 e ++ [deal, 0, 0, 0] ++ le 4 gs.length ++ le 4 n ++ le 8 64 ++ le 8 oIdx ++ le 8 oArea ++ le 8 (oRecs + offs.getLastD 0) ++
    List.replicate 16 0 ++ table ++ index ++ lists ++ area ++ List.replicate (oRecs - (oArea + 8 * n)) 0 ++ recs.flatten

/-- Half of the variant's deck area (R283). -/
def State.deckHalf (s : State) : Nat :=
  if s.plat.opt.variant = 0 then 32 * 2 ^ 30 else if s.plat.opt.variant = 1 then 16 * 2 ^ 30 else 6 * 2 ^ 30

/-- A card record's length (R287). -/
def cardLen (n : Nat) : Nat := (96 + 32 * n + 63) / 64 * 64

/-- A bound on the bytes that a repair takes: its record, and for each card its record, two offsets and an index entry. -/
def Gen.size (g : Gen) : Nat := 32 + (g.cards.map (fun c => 32 + cardLen c.2.length)).sum

/-- The repairs a deck holds, within the limits of R283; one that does not fit is left out (log 113). -/
def State.fitDeck (s : State) (gs : List Gen) : List Gen :=
  (gs.foldl (fun (x : List Gen × Nat × Nat) g =>
    if 262144 ≤ x.1.length ∨ 16777216 < x.2.1 + g.cards.length ∨ s.deckHalf < x.2.2 + g.size then x
    else (x.1 ++ [g], x.2.1 + g.cards.length, x.2.2 + g.size)) ([], 0, 128 + 32 * spareRepairs)).1

/-- A repair of a deck as it was generated. -/
def State.readGen (s : State) (b k : Nat) : Gen :=
  let r := s.repair b k
  { kind := r.kind, flags := r.flags, key1 := r.key1, key2 := r.key2, second := r.second
    cards := (s.repairCards b r).map (fun c => (s.cardAgent c, s.cardEntries c)) }

/-- Writes a deck of every single repair, none of them verified yet. -/
def State.writeSingles (s : State) (n : Net) (b : Nat) : State :=
  s.depWrite b (s.deckBytes (s.fab.deck.deal + 1) (s.fitDeck ((s.singleKeys n).map (s.genSingle n))))

/-- Adds the forecast pairs to a deck of single repairs. -/
def State.writePairs (s : State) (n : Net) (b : Nat) (p : Policy) : State :=
  let kept := (List.range (s.deckRepairs b)).map (s.readGen b)
  let pairs := (s.doubleSet p (kept.map (·.key1))).filterMap (s.genPair n b)
  if pairs = [] then s else s.depWrite b (s.deckBytes (s.fab.deck.deal + 1) (s.fitDeck (kept ++ pairs)))

/-- The index of a deck (R289). -/
def State.deckIndex (s : State) (b : Nat) : List (Desc × Desc × Nat) :=
  (List.range (s.deckRepairs b)).map (fun k => ((s.repair b k).key1, (s.repair b k).key2, k))

end Sys2Proof.Machine
end

