-- ==== Sys2Proof/Machine/Hands.lean ====
section
/-! DEFINITION. The hand plan and follow-on cards (R300–R303). -/

namespace Sys2Proof.Machine

/-! ## Hand plans (R300, R301) -/

/-- A card that may be staged at an agent. -/
structure Cand where
  agent : W16
  card : Nat
  id : W32
  repair : Nat
  fault : Desc
  follow : Bool
  pinned : Bool
  value : Nat
  deriving DecidableEq, Repr

/-- A card's value, times 65,536 (R300). -/
def State.valueOf (s : State) (p : Policy) (r : Repair) : Nat :=
  s.scoreOf r.fault * p.weights.getD (r.kind - 1) 256 * (256 + r.slices * p.sliceW)

/-- Every candidate of a deck: verified, dealt, not MIX_FAIL, and a follow-on card only once its first fault has played. -/
def State.candidates (s : State) (b : Nat) (p : Policy) : List Cand :=
  let all := (List.range (s.deckRepairs b)).flatMap (fun k =>
    let r := s.repair b k
    if r.verified ∧ ¬ r.mixFail ∧ ¬ r.computed ∧ (r.kind ≠ 4 ∨ s.fab.deck.played.contains r.key1) then
      (s.repairCards b r).map (fun c =>
        { agent := s.cardAgent c, card := c, id := s.cardId c, repair := k, fault := r.fault, follow := decide (r.kind = 4)
          pinned := p.pins.any (fun x => decide (x.1 = s.cardAgent c) && decide (x.2 = k)), value := s.valueOf p r })
    else [])
  all.filter (fun c => c.follow || !all.any (fun o => o.follow && decide (o.agent = c.agent) && decide (o.fault = c.fault)))

/-- The order of R300. -/
def Cand.before (a b : Cand) : Bool :=
  if a.pinned ≠ b.pinned then a.pinned
  else if a.value ≠ b.value then decide (b.value < a.value) else decide (a.id.toNat < b.id.toNat)

def insertCand (x : Cand) : List Cand → List Cand
  | [] => [x]
  | y :: ys => if x.before y then x :: y :: ys else y :: insertCand x ys

/-- The candidates of an agent by rank, one per fault. -/
def rankFor (cs : List Cand) (u : W16) : List Cand :=
  (((cs.filter (fun c => c.agent = u)).foldl (fun l c => insertCand c l) []).foldl (fun l c =>
    if l.any (fun o => o.fault = c.fault) then l else l ++ [c]) []).take 4

def State.hand (s : State) (u : W16) (i : Nat) : Option HandRec := SMap.get noneOf s.fab.deck.hands (4 * u.toNat + i)

/-- A card load: what goes where, and the value gained. -/
structure Load where
  c : Cand
  slot : Nat
  gain : Nat
  deriving DecidableEq, Repr

/-- The repair number recorded for a card of an earlier deck: no repair of the deck in force (R301). -/
def staleRepair : Nat := 0xFFFFFFFF

/-- The present value of a card that an agent holds: its repair's in the deck in force, 0 for one of an earlier deck. -/
def State.heldValue (s : State) (b : Nat) (p : Policy) (h : HandRec) : Nat :=
  if h.repair < s.deckRepairs b then s.valueOf p (s.repair b h.repair) else 0

/-- Slots in the order new cards take them: EMPTY, PLAYED, those of cards leaving. -/
def State.slotOrder (s : State) (u : W16) (target : List Cand) : List Nat :=
  let st (i : Nat) : Nat := match s.hand u i with
    | none => 0
    | some h => if h.state = 3 then 1 else if h.state = 2 ∧ ¬ target.any (fun c => c.id = h.card) then 2 else 3
  (List.range 4).filter (fun i => st i = 0) ++ (List.range 4).filter (fun i => st i = 1) ++ (List.range 4).filter (fun i => st i = 2)

/-- The slot that holds a card for a fault, LOADING or ARMED: a new card for it takes that slot, so that no two armed cards
match one descriptor (R301, R303). -/
def State.slotFor (s : State) (u : W16) (fault : Desc) : Option Nat :=
  (List.range 4).find? (fun i => match s.hand u i with
    | some h => decide (h.state ≠ 3) && decide (h.fault = fault)
    | none => false)

/-- Whether a candidate may take a slot: an armed card of the deck in force gives way only to one whose value exceeds its own
by the factor H, or to the follow-on card that supersedes it. -/
def State.mayTake (s : State) (b : Nat) (p : Policy) (c : Cand) (i : Nat) : Bool :=
  match s.hand c.agent i with
  | some h => decide (h.state ≠ 2) || decide (h.repair = staleRepair) || c.follow || decide (s.heldValue b p h * p.hyst < c.value * 256)
  | none => true

/-- What a candidate gains over the card in a slot. -/
def State.gainAt (s : State) (b : Nat) (p : Policy) (c : Cand) (i : Nat) : Nat :=
  match s.hand c.agent i with
  | some h => if h.state = 2 then c.value - s.heldValue b p h else c.value
  | none => c.value

/-- An agent's part of the hand plan. -/
def State.planFor (s : State) (b : Nat) (p : Policy) (cs : List Cand) (u : W16) : List Load :=
  let target := rankFor cs u
  let held (c : Cand) : Bool := (List.range 4).any (fun i => match s.hand u i with
    | some h => decide (h.card = c.id) && decide (h.state ≠ 3)
    | none => false)
  let news := target.filter (fun c => !held c)
  let own := news.filterMap (fun c => s.slotFor u c.fault)
  let step (acc : List Nat × List Load) (c : Cand) : List Nat × List Load :=
    match (s.slotFor u c.fault) <|> acc.1.head? with
    | none => acc
    | some i =>
      let rest := acc.1.filter (fun j => decide (j ≠ i))
      if s.mayTake b p c i then (rest, acc.2 ++ [{ c := c, slot := i, gain := s.gainAt b p c i }]) else (rest, acc.2)
  (news.foldl step ((s.slotOrder u target).filter (fun i => !own.contains i), [])).2

/-- A load as the controller records it while it runs. -/
def Load.record (l : Load) : HandRec := { card := l.c.id, repair := l.c.repair, fault := l.c.fault, state := 1 }

/-- Loads and arms cards at one agent, then sets HAND_OK (R153 ARM, R301). -/
def State.loadCards (s : State) (u : W16) (ls : List Load) : State :=
  let t := { s.target 0 u (ls.flatMap (fun l => s.cardSteps l.slot l.c.card) ++ [.cmd (agWrite 0x10 [2])]) with
    hand := ls.map (fun l => (l.slot, l.c.id)) }
  if ls = [] ∨ t.state ≠ 0 then s
  else
    (ls.foldl (fun s l => s.setDeck (fun d => { d with
      hands := SMap.set noneOf d.hands (4 * u.toNat + l.slot) (some l.record) })) s).devTarget t

/-- The hand plan, with at most so many loads, those of the greatest gain. -/
def State.stage (s : State) (b : Nat) (p : Policy) (limit : Option Nat) : State :=
  let cs := s.candidates b p
  let us := (cs.map (·.agent)).eraseDups
  let all := us.flatMap (s.planFor b p cs)
  let best := (all.foldl (fun l x => insertScored (x.gain, x) l) []).map (·.2)
  let plan := match limit with | none => best | some k => best.take k
  us.foldl (fun s u => s.loadCards u (plan.filter (fun l => l.c.agent = u))) s

/-! ## Follow-on cards (R303) -/

/-- The cards of a repair as candidates, with no value of their own to compare. -/
def State.cardsOf (s : State) (b k : Nat) : List Cand :=
  let r := s.repair b k
  (s.repairCards b r).map (fun c =>
    { agent := s.cardAgent c, card := c, id := s.cardId c, repair := k, fault := r.fault, follow := decide (r.kind = 4)
      pinned := false, value := 0 })

/-- The slot a follow-on card takes: its single card's, or an EMPTY or PLAYED one. -/
def State.followSlot (s : State) (c : Cand) : Option Nat :=
  (s.slotFor c.agent c.fault) <|>
    (List.range 4).find? (fun i => match s.hand c.agent i with | none => true | some h => decide (h.state = 3))

/-- Whether some slot holds a card of a repair. -/
def State.staged (s : State) (k : Nat) : Bool :=
  s.fab.deck.hands.any (fun h => match h.2 with | some r => decide (r.repair = k) | none => false)

/-- Loads a pair's follow-on cards, each into the slot it takes. -/
def State.stagePair (s : State) (b k : Nat) : State :=
  (s.cardsOf b k).foldl (fun s c => match s.followSlot c with
    | some i => s.loadCards c.agent [{ c := c, slot := i, gain := 0 }]
    | none => s) s

/-- The pairs whose follow-on cards a fault calls for: verified, not compatible, not staged yet. -/
def State.followOns (s : State) (b : Nat) (key : Desc) : List Nat :=
  (List.range (s.deckRepairs b)).filter (fun k =>
    decide ((s.repair b k).kind = 4) && decide ((s.repair b k).key1 = key) && (s.repair b k).verified && !(s.repair b k).compatible && !s.staged k)

/-- FOLLOW_ON_STAGING (R303): a repair that has played stages the follow-on cards of every pair that starts with its fault. -/
def execFollowOnStaging (repair : Nat) (s : State) : Result :=
  .next (match s.fab.deck.addr with
    | none => s
    | some b =>
      let key := (s.repair b repair).fault
      if ¬ s.isActive ∨ s.deckRepairs b ≤ repair ∨ ¬ s.fab.deck.played.contains key then s
      else (s.followOns b key).foldl (fun s k => s.stagePair b k) s)

end Sys2Proof.Machine
end

