-- ==== Sys2Proof/Machine/Deal.lean ====
section
/-! DEFINITION. The deal (R309–R311): the solve's table image, its verification, the deck of the new epoch and its hands, and the
table change of a MIX_FAIL repair alone (R294). -/

namespace Sys2Proof.Machine

/-! ## Images (R151) -/

/-- An agent list (R145). -/
def listBytes (ids : List W16) : List Byte := padTo 8 (le 2 ids.length ++ List.replicate 6 0 ++ ids.flatMap (fun i => toBytes 2 i))

/-- A mask to be written: agent, index, value. -/
structure MaskFill where
  u : W16
  m : Nat
  v : BitVec 512
  deriving DecidableEq, Repr

/-- The record of an entry: its five words. -/
def Fill.bytes (f : Fill) : List Byte :=
  let loc := entryLoc f.i
  toBytes 2 f.u ++ [BitVec.ofNat 8 loc.1, 5] ++ le 4 loc.2 ++ toBytes 16 f.r.cand ++
    toBytes 4 (f.mask.setWidth 32 ||| bitW f.r.dl 8 : W32) ++ List.replicate 4 0

/-- The two records of a mask. -/
def MaskFill.bytes (x : MaskFill) : List Byte :=
  (List.range 2).flatMap (fun h =>
    toBytes 2 x.u ++ [3, 8] ++ le 4 (64 * x.m + 32 * h) ++ toBytes 32 (bitsAt x.v (256 * h) 256 : BitVec 256))

/-- A slice's lists in an image: its endpoints, and the agents at which a record bears on it. -/
structure SliceFill where
  slice : Nat
  ends : List W16
  swap : List W16
  deriving DecidableEq, Repr

def SliceFill.lists (x : SliceFill) : List Byte := listBytes x.ends ++ listBytes x.swap

/-- An image's bytes. -/
def imageBytes (epoch : W32) (ids : List W16) (sl : List SliceFill) (fs : List Fill) (ms : List MaskFill) : List Byte :=
  let agents := listBytes ids
  let oTab := 48 + agents.length
  let oLists := oTab + 16 * sl.length
  let sizes := prefixSums (sl.map (fun x => x.lists.length))
  let tab := (sl.zip sizes).flatMap (fun x =>
    le 2 x.1.slice ++ [if x.1.swap = [] then 0 else 1, 0, 0, 0, 0, 0] ++ le 4 (oLists + x.2) ++ le 4 (oLists + x.2 + (listBytes x.1.ends).length))
  let lists := sl.flatMap SliceFill.lists
  let recs := fs.flatMap Fill.bytes ++ ms.flatMap MaskFill.bytes
  let oRecs := oLists + lists.length
  toBytes 4 epoch ++ le 4 (fs.length + 2 * ms.length) ++ le 2 sl.length ++ List.replicate 6 0 ++ le 8 48 ++ le 8 oTab ++ le 8 oRecs ++
    le 8 (oRecs + recs.length) ++ agents ++ tab ++ lists ++ recs

/-- What a solve changes in the tables in force: entries, masks, and agents that 256 masks do not serve (R35). -/
structure Delta where
  fills : List Fill
  masks : List MaskFill
  crowded : List W16
  deriving DecidableEq, Repr

/-- Whether an entry differs from the one in force. -/
def State.fillNew (s : State) (f : Fill) : Bool :=
  let e := s.inForce f.u f.i
  decide (e.cand ≠ f.r.cand) || decide (e.dl ≠ f.r.dl) || decide (e.mask ≠ f.mask)

/-- An agent's masks that differ from those in force; an unused one keeps its assigned slices only. -/
def State.masksNew (s : State) (u : W16) (m : MaskPlan) : List MaskFill :=
  (List.range 256).filterMap (fun k =>
    let old := s.maskInForce u k
    let v := (SMap.get noneOf m.masks k).getD (old &&& s.assigned)
    if v = old then none else some { u := u, m := k, v := v })

def State.delta (s : State) (n : Net) : Delta :=
  let dv := distOf n.solve
  let ps := n.nodes.map (fun u => (u, s.maskPlan n dv u))
  { fills := ps.flatMap (fun p => p.2.fills.filter s.fillNew), masks := ps.flatMap (fun p => s.masksNew p.1 p.2)
    crowded := (ps.filter (fun p => p.2.full)).map (·.1) }

/-- The agents at which a record bears on a slice: an entry whose mask, before or after, admits it, or a mask that does (R151). -/
def State.swapOf (s : State) (n : Net) (d : Delta) (i : Nat) : List W16 :=
  let after (u : W16) (k : Nat) : BitVec 512 := match d.masks.find? (fun x => decide (x.u = u) && decide (x.m = k)) with
    | some x => x.v
    | none => s.maskInForce u k
  n.nodes.filter (fun u =>
    d.fills.any (fun f => decide (f.u = u) &&
      ((s.maskInForce u (s.inForce u f.i).mask.toNat).getLsbD i || (after u f.mask.toNat).getLsbD i)) ||
    d.masks.any (fun x => decide (x.u = u) && (x.v.getLsbD i || (s.maskInForce u x.m).getLsbD i)))

/-- The slices of an image: every one with an endpoint; a member that a placement change moves is one of both its slices, which
DRAIN gates (R330). -/
def State.sliceFills (s : State) (n : Net) (d : Delta) : List SliceFill :=
  (List.range 512).filterMap (fun i =>
    let ends := (s.fab.paths.filter (fun k =>
      decide (k.bound = some (BitVec.ofNat 16 i)) || decide (s.placedIn k.id = some i))).map (·.id)
    if ends = [] then none else some { slice := i, ends := ends, swap := s.swapOf n d i })

/-- The entries in force that hold anything, and the masks. -/
def State.fillsInForce (s : State) (u : W16) : List Fill :=
  (List.range tableSize).filterMap (fun i =>
    let e := s.inForce u i
    if e = {} then none else some { u := u, i := i, r := e.route, mask := e.mask })
def State.masksInForce (s : State) (u : W16) : List MaskFill :=
  (List.range 256).filterMap (fun k => if s.maskInForce u k = 0 then none else some { u := u, m := k, v := s.maskInForce u k })

/-- The base image: the tables in force, as records of every entry and mask that is not empty (R277, log 73). -/
def State.baseBytes (s : State) (n : Net) : List Byte :=
  imageBytes s.dealers.fepoch n.nodes [] (n.nodes.flatMap s.fillsInForce) (n.nodes.flatMap s.masksInForce)

/-! ## Steps 1 and 2 (R309) -/

/-- What a network is made of, its costs apart: a new topology is one that differs in it. -/
def Net.shape (n : Net) : Net := { n with arcs := n.arcs.map (fun a => { a with cost := if a.cost = dInf then dInf else 0 }) }

/-- The deck area, taken with the first deal: an empty deck holds the half that the deal does not write, so that repairs can
be computed meanwhile (R283, R307). -/
def State.openArea (s : State) (area : Nat) : State :=
  if s.fab.deck.area = some area then s
  else
    let b := area + s.deckHalf
    (s.depWrite b (s.deckBytes s.fab.deck.deal [])).setDeck (fun d => { d with area := some area, addr := some b, index := [], computed := [] })

/-- The half that is not in force. -/
def State.idleHalf (s : State) (area : Nat) : Nat := if s.fab.deck.addr = some area then area + s.deckHalf else area

/-- Writes a solve's files: costs, distances, the base image, the image. -/
def State.writeFiles (s : State) (f : DealFiles) (n : Net) (cost : W16 → Nat → Nat) (x : Delta) : State :=
  let dv := distOf n.solve
  let cb := s.book.flatMap (fun u => (List.range (s.portsOf u)).flatMap (fun p => le 4 (cost u p)))
  let db := s.book.flatMap (fun v => s.book.flatMap (fun u => le 4 (dv v u)))
  let ib := imageBytes s.dealers.fepoch n.nodes (s.sliceFills n x) x.fills x.masks
  ((((s.depWrite f.costs cb).depWrite f.dists db).depWrite f.base (s.baseBytes n))).depWrite f.image ib

/-- The verifier's job for a deal's image, or for a repair of its deck. -/
def State.dealJob (s : State) (d : Deal) (k : Nat) : List Byte :=
  if d.phase = 0 then jobEntry 1 s.dealers.fepoch d.files.image d.files.costs d.files.dists d.files.base (BitVec.ofNat 64 d.files.image) 0
  else jobEntry 2 s.dealers.fepoch d.deck d.files.costs d.files.dists d.files.base (BitVec.ofNat 64 k) k

/-- A job leaves the list of those to be queued. -/
def Deal.queued (d : Deal) (k : Nat) : Deal := { d with todo := d.todo.filter (fun i => decide (i ≠ k)), wait := d.wait ++ [k] }

/-- Queues a deal's jobs as the verifier's queue has room for them. -/
def State.queueJobs (s : State) (d : Deal) : State :=
  d.todo.foldl (fun s k =>
    if s.qTakes 0x7FF0 then
      (s.setDeck (fun x => { x with dealing := x.dealing.map (fun y => y.queued k) })).qDevPush 0x7FF0 (s.dealJob d k)
    else s) s

/-- Begins a deal, or again from step 1: the solve with the faults of the cut list out, its image, and the image's job. It waits
out a table change in progress (R89). -/
def State.startDeal (s : State) (f : DealFiles) (area policy : Nat) (only : Option Desc) : State :=
  if s.dealers.change.isOpen then s
  else
    let s := s.openArea area
    let cost := s.portCost (s.policy policy).cong
    let n := s.net cost
    let x := s.delta n
    let d : Deal := { files := f, policy := policy, deck := s.idleHalf area, net := n, epoch := s.dealers.fepoch, todo := [0]
                      cuts := s.fab.deck.cutList, only := only }
    ((s.writeFiles f n cost x).setDeck (fun y => { y with crowded := x.crowded, dealing := some d })).queueJobs d

/-! ## Steps 3 to 5 -/

/-- The faults that the tables in force now avoid need no repair any more (R311). -/
def State.cutsDone (s : State) (cuts : List Desc) : State :=
  s.setDeck (fun x => { x with
    unhanded := x.unhanded.filter (fun u => !cuts.contains (s.keyOf u.desc))
    playedInChange := x.playedInChange.filter (fun d => !cuts.contains (s.keyOf d)) })

/-- The change of step 3 has been made: the deck of the new epoch is generated and its repairs go to the verifier. -/
def State.dealSingles (s : State) (d : Deal) : State :=
  let s := ((s.cutsDone d.cuts).depWrite d.files.base (s.baseBytes d.net)).writeSingles d.net d.deck
  let e := { d with epoch := s.dealers.fepoch, phase := 1, todo := List.range (s.deckRepairs d.deck), wait := [] }
  (s.setDeck (fun x => { x with dealing := some e })).queueJobs e

/-- The forecast pairs join the deck, and go to the verifier. -/
def State.dealPairs (s : State) (d : Deal) : State :=
  let k := s.deckRepairs d.deck
  let s := s.writePairs d.net d.deck (s.policy d.policy)
  let e := { d with phase := 2, todo := (List.range (s.deckRepairs d.deck)).filter (fun i => decide (k ≤ i)), wait := [] }
  (s.setDeck (fun x => { x with dealing := some e })).queueJobs e

/-- Step 5: the index changes over, in one step, and the hands are armed (R310). The completion carries the policy's flag. -/
def State.dealDone (s : State) (d : Deal) : State :=
  let p := s.policy d.policy
  let ix := s.deckIndex d.deck
  let s := s.setDeck (fun x => { x with
    addr := some d.deck, deal := x.deal + 1, index := ix, computed := [], dealing := none
    cutList := x.cutList.filter (fun k => !d.cuts.contains k)
    policyAt := some d.policy, files := some d.files, completion := some (s.dealers.fepoch, if p.flag then 1 else 0)
    hands := x.hands.map (fun h => (h.1, h.2.map (fun r => { r with repair := staleRepair }))) })
  s.stage d.deck p none

/-- Whether the topology has changed since a deal's solve, or the fabric epoch under its deck. -/
def State.dealStale (s : State) (d : Deal) : Bool :=
  decide ((s.net (s.portCost (s.policy d.policy).cong)).shape ≠ d.net.shape) || (decide (d.phase ≠ 0) && decide (s.dealers.fepoch ≠ d.epoch))

/-- The tables in force are those of a deal's solve. -/
def State.tablesSolved (s : State) (n : Net) : Bool := let x := s.delta n; decide (x.fills = []) && decide (x.masks = [])

/-- A deal's next part, once the one in hand is done. A change that left other tables than the solve's starts it again. -/
def State.dealStep (s : State) (d : Deal) : State :=
  if s.dealStale d then s.startDeal d.files (s.fab.deck.area.getD d.deck) d.policy d.only
  else if d.phase = 0 ∧ s.dealers.fepoch ≠ d.epoch then
    (if ¬ s.tablesSolved d.net then s.startDeal d.files (s.fab.deck.area.getD d.deck) d.policy d.only
     else if d.only.isSome then (s.cutsDone d.cuts).setDeck (fun x => { x with dealing := none })
     else s.dealSingles d)
  else if d.todo ≠ [] then s.queueJobs d
  else if d.phase = 0 ∨ d.wait ≠ [] then s
  else if d.phase = 1 then s.dealPairs d
  else s.dealDone d

/-- A deal made for a placement change keeps where its agents are to be until the change's exchange (R330, log 115). -/
def State.placing (s : State) (place : List (W16 × Option (Fin 512))) : State :=
  if s.dealers.change.isOpen then s else s.setDeck (fun d => { d with placement := place })

/-- DEAL (R309): begins a deal, or takes the one in progress on: the image is verified, the change of step 3 is a program's, then
the deck is generated and verified and the hands are armed. -/
def execDeal (image : Nat) (files : SolveFiles) (deck policy : Nat) (place : List (W16 × Option (Fin 512))) (s : State) : Result :=
  .next (
    if ¬ s.isActive ∨ s.dealers.takeover ≠ .none then s
    else match s.fab.deck.dealing.filter (fun d => d.only.isNone) with
      | some d => s.dealStep d
      | none => (s.placing place).startDeal ⟨image, files.costs, files.dists, files.base⟩ deck policy none)

end Sys2Proof.Machine
end

