-- ==== Sys2Proof/Machine/Repairs.lean ====
section
/-! DEFINITION. When no card waits (R293, R294, R306, R307, R311), and the loss of agents and rack halves (R308). -/

namespace Sys2Proof.Machine

/-! ## Looking a repair up (R306) -/

/-- What the Dealer installs for a fault. -/
inductive Install where
  | cards (cs : List Cand)
  | change
  | compute
  deriving DecidableEq, Repr

/-- The repair of a pair, by its double key. -/
def State.pairRepair (s : State) (b : Nat) (k1 k2 : Desc) : Option Nat :=
  (s.fab.deck.index.find? (fun x => decide (x.1 = k1) && decide (x.2.1 = k2) && decide ((s.repair b x.2.2).kind = 4))).map (·.2.2)

/-- The faults that have played in the epoch and bear on another: not itself, and for a block none inside it (R291). -/
def State.playedOver (s : State) (key : Desc) : List Desc :=
  s.fab.deck.played.filter (fun k => decide (k ≠ key) && !s.nestedIn key k)

/-- A pair's record covers it: verified, and compatible or with cards (R292, R293). -/
def Repair.covers (r : Repair) : Bool := r.verified && !r.mixFail && (r.compatible || decide (0 < r.count))

/-- The lookup of R306 step 1. A deck of another epoch holds nothing usable (R310, R311). -/
def State.lookup (s : State) (b : Nat) (key : Desc) : Install :=
  let single := (s.fab.deck.index.find? (fun x => decide (x.1 = key) && decide (x.2.1 = 0))).map (·.2.2)
  let pairs := (s.playedOver key).map (fun k => s.pairRepair b k key)
  let covered (p : Option Nat) : Bool := match p with | some k => (s.repair b k).covers | none => false
  let comp (p : Option Nat) : Bool := match p with | some k => (s.repair b k).compatible | none => false
  if s.deckEpoch b ≠ s.dealers.fepoch ∨ ¬ pairs.all covered then .compute
  else match pairs.filter (fun p => !comp p), single with
    | [some k], _ => .cards (s.cardsOf b k)
    | [], some k => if (s.repair b k).mixFail then .change else if (s.repair b k).verified then .cards (s.cardsOf b k) else .compute
    | _, _ => .compute

/-! ## Computed repairs (R307) -/

/-- Room behind a deck for one more computed repair. -/
def State.roomFor (s : State) (b len : Nat) : Bool :=
  decide ((s.fab.deck.computed).length < spareRepairs) && decide (s.depLE (b + 40) 8 + len ≤ s.deckHalf)

/-- Stores a computed repair: its record after the deck's last, its card offsets and cards behind the deck (log 113). -/
def State.storeComputed (s : State) (b : Nat) (g : Gen) (before : List Desc) : State :=
  let k := s.deckRepairs b
  let serial := s.depLE (b + 12) 4
  let len := s.depLE (b + 40) 8
  let area := s.depLE (b + 32) 8
  let recs := g.cards.zipIdx.map (fun c => cardBytes s.dealers.fepoch s.fab.deck.deal (serial + c.2) k g.key1 c.1)
  let list := padTo 64 (((prefixSums (recs.map List.length)).take recs.length).flatMap (fun o =>
    le 8 (len + (8 * recs.length + 63) / 64 * 64 + o)))
  let bs := list ++ recs.flatten
  if ¬ s.roomFor b bs.length then s
  else
    let s := (s.depWrite (b + len) bs).depWrite (s.repairAddr b k) (s.repairBytes ((len - area) / 8) g)
    let s := (s.depWrite (b + 8) (le 4 (k + 1) ++ le 4 (serial + recs.length))).depWrite (b + 40) (le 8 (len + bs.length))
    s.setDeck (fun d => { d with computed := d.computed ++
      [({ key := g.key1, after := before, epoch := s.dealers.fepoch, repair := k } : Computed)] })

/-- Computes a repair over the tables in force for a fault and those that bear on it. One without the mixed-state property is
kept as MIX_FAIL (R294). -/
def State.compute (s : State) (b : Nat) (key : Desc) : State :=
  let n := s.net (s.portCost s.policyNow.cong)
  let before := s.playedOver key
  let ks := key :: before
  let cs := s.correct n s.view ks []
  let bad := overfull cs || (s.mixBad n s.view (s.nestedViews b s.view ks) (cs.flatMap (·.2)) ks).isSome
  s.storeComputed b { kind := descKind key, flags := if bad then 0x0D else 9, key1 := key, cards := if bad then [] else cs } before

/-- The repair computed for a fault in its present setting. -/
def State.computedFor (s : State) (key : Desc) : Option Nat :=
  (s.fab.deck.computed.find? (fun x =>
    decide (x.key = key) && decide (x.after = s.playedOver key) && decide (x.epoch = s.dealers.fepoch))).map (·.repair)

/-- What is installed for a fault, computed when the deck holds nothing usable. -/
def State.toInstall (s : State) (b : Nat) (key : Desc) : Install × State :=
  match s.lookup b key with
  | .compute =>
    let s := if (s.computedFor key).isNone then s.compute b key else s
    match s.computedFor key with
    | some k => (if (s.repair b k).mixFail then .change else .cards (s.cardsOf b k), s)
    | none => (.change, s)
  | x => (x, s)

/-! ## Steps 2 and 3 -/

/-- A card's state in its agent's hand, as the controller recorded it: 0 when absent. -/
def State.cardState (s : State) (c : Cand) : Nat :=
  ((List.range 4).findSome? (fun i => match s.hand c.agent i with
    | some h => if h.card = c.id then some h.state else none
    | none => none)).getD 0

/-- The armed slot of lowest value whose repair has not played. -/
def State.lowSlot (s : State) (b : Nat) (u : W16) : Option Nat :=
  let p := s.policyNow
  let val (i : Nat) : Nat := match s.hand u i with | some h => s.heldValue b p h | none => 0
  ((List.range 4).filter (fun i => match s.hand u i with
    | some h => decide (h.state = 2) && !s.fab.deck.played.contains h.fault
    | none => false)).foldl (fun (m : Option Nat) i => match m with
      | none => some i
      | some j => if val i < val j then some i else some j) none

/-- The slot of R306 step 2: EMPTY, then PLAYED, then the armed card of lowest value whose repair has not played; but a card
that supersedes another for the same fault takes that one's slot (R301, R303). -/
def State.installSlot (s : State) (b : Nat) (c : Cand) : Option Nat :=
  let st (i : Nat) : Nat := match s.hand c.agent i with | none => 0 | some h => h.state
  (s.slotFor c.agent c.fault) <|> ((List.range 4).find? (fun i => st i = 0)) <|> ((List.range 4).find? (fun i => st i = 3)) <|>
    s.lowSlot b c.agent

/-- Step 2: loads the cards that are missing. -/
def State.installCards (s : State) (b : Nat) (cs : List Cand) : State :=
  (cs.filter (fun c => decide (s.cardState c = 0))).foldl (fun s c => match s.installSlot b c with
    | some i => s.loadCards c.agent [{ c := c, slot := i, gain := 0 }]
    | none => s) s

/-- Steps 2 and 3: the missing cards are loaded; once every card is armed or played, the trump goes out. The flag says so. -/
def State.installThen (s : State) (b : Nat) (cs : List Cand) (d : Desc) : State × Bool :=
  if cs.all (fun c => decide (2 ≤ s.cardState c)) then (s.originate d, true)
  else if cs.any (fun c => decide (s.cardState c = 1)) then (s, false)
  else (s.installCards b cs, false)

/-! ## Unhanded faults -/

/-- A fault played over another that no repair of the deck covers (R293), its computed repair not in place yet. -/
def State.uncovered (s : State) (b : Nat) (key : Desc) : Bool :=
  s.fab.deck.played.contains key && !(s.playedOver key).isEmpty && decide (s.lookup b key = .compute) &&
    !((s.computedFor key).any (fun k => (s.cardsOf b k).all (fun c => decide (s.cardState c = 3))))

/-- A fault to be installed: one an agent found no card for, one played during a change now closed (R311), or one played
over another that no repair covers. -/
def State.installDue (s : State) (b : Nat) (d : Desc) : Bool :=
  s.fab.deck.unhanded.any (fun u => decide (u.desc = d) && decide (u.phase = 0)) ||
  (!s.dealers.change.isOpen && s.fab.deck.playedInChange.contains d) || s.uncovered b (s.keyOf d)

/-- The sequence for a fault has ended. -/
def State.closeFault (s : State) (d : Desc) : State :=
  s.setDeck (fun x => { x with
    unhanded := x.unhanded.map (fun u => if u.desc = d then { u with phase := 1 } else u)
    playedInChange := x.playedInChange.filter (fun y => decide (y ≠ d)) })

/-- R294, R306 step 4: the fault of a MIX_FAIL repair is repaired by a table change. Its solve, image and verification are a
deal's, which ends with the change; a deal already under way takes the fault in. -/
def State.changeFor (s : State) (key : Desc) : State :=
  let s1 := s.setDeck (fun x => { x with cutList := addNew x.cutList key })
  match s.fab.deck.dealing with
  | some x => if x.cuts.contains key then (if x.only.isSome then s.dealStep x else s) else s1
  | none => match s.fab.deck.area, s.fab.deck.files, s.fab.deck.policyAt with
    | some a, some f, some p => s1.startDeal f a p (some key)
    | _, _, _ => s1

/-- UNHANDED_REPAIR (R306): run again until every card is armed, when it originates the fault's controller-form trump. -/
def execUnhandedRepair (d : Desc) (s : State) : Result :=
  .next (match s.fab.deck.addr with
    | none => s
    | some b =>
      if ¬ s.isActive ∨ s.dealers.takeover ≠ .none ∨ ¬ descOk d ∨ ¬ s.installDue b d then s
      else
        let key := s.keyOf d
        match s.toInstall b key with
        | (.cards cs, s) =>
          let (s, ended) := s.installThen b cs key
          if ended then s.closeFault d else s
        | (_, s) => s.changeFor key)

/-! ## Agent losses (R308) -/

/-- Whether two kind 1 trumps naming an agent came within 20 µs. -/
def State.twoTrumps (s : State) (id : W16) : Bool :=
  let ts := (s.fab.deck.trumps.filter (fun t => t.1 = id)).map (·.2)
  ts.zipIdx.any (fun a => ts.zipIdx.any (fun b => decide (a.2 < b.2) && decide (b.1 ≤ a.1 + 20)))

/-- Agents that count as lost, with the time. -/
def State.lostAgents (s : State) : List (W16 × Nat) :=
  s.fab.deck.lost ++ s.fab.fold.trumpDue.map (fun id => (id, s.us)) ++
    (s.fab.deck.trumps.filter (fun t => s.twoTrumps t.1))

/-- Whether a rack half counts as lost: 16 agents of it, or every level-1 switch of it, within 1 ms. -/
def State.halfLost (s : State) (h : W16) : Bool :=
  let mine := s.lostAgents.filter (fun x => decide (s.halfOf x.1 = some h))
  let lvl1 : List W16 := match s.fab.plan with
    | some p => (p.agents.filter (fun (a : PlanAgent) => decide (a.rackHalf = h) && decide (a.level = 1))).map (fun (a : PlanAgent) => a.id)
    | none => []
  mine.any (fun x =>
    let near := ((mine.filter (fun y => decide (x.2 ≤ y.2) && decide (y.2 < x.2 + 1000))).map (·.1)).eraseDups
    decide (16 ≤ near.length) || (!lvl1.isEmpty && lvl1.all near.contains))

def State.lossDue (s : State) (d : Desc) : Bool :=
  match descKind d with
  | 2 => s.twoTrumps (descPeer d) || s.fab.fold.trumpDue.contains (descPeer d)
  | 3 => s.halfLost ((descHalf d).setWidth 16)
  | _ => false

/-- What follows the trump, so that it goes out once: a kind 2 loss is recorded, and a lost accelerator folds (R325); the agents
of a kind 3 loss leave the record. -/
def State.lossDone (s : State) (d : Desc) : State :=
  if descKind d = 2 then
    let id := descPeer d
    let s := s.setDeck (fun x => { x with
      lost := x.lost.filter (fun y => decide (y.1 ≠ id)) ++ [(id, s.us)]
      trumps := x.trumps.filter (fun t => decide (t.1 ≠ id)) })
    let s := s.setFold (fun f => { f with trumpDue := f.trumpDue.filter (fun x => decide (x ≠ id)) })
    match s.known id with
    | some k => if helloBuild k.hello = 1 ∧ s.fab.fold.en then s.foldAccel id 6 false else s
    | none => s
  else s.setDeck (fun x => { x with lost := x.lost.filter (fun y => decide (s.halfOf y.1 ≠ some ((descHalf d).setWidth 16))) })

/-- AGENT_LOSS_TRUMP (R308): step 2 of R306 for every holder that lacks the block's card, then the trump, once. -/
def execAgentLossTrump (d : Desc) (s : State) : Result :=
  .next (
    let key := s.keyOf d
    let sent := putBits (putBits key 36 s.myId) 52 (0 : Byte)
    if ¬ s.isActive ∨ s.dealers.takeover ≠ .none ∨ ¬ descOk d ∨ ¬ s.lossDue d ∨ s.fab.filter.contains sent then s
    else match s.fab.deck.addr with
      | none => (s.originate key).lossDone d
      | some b => match s.toInstall b key with
        | (.cards cs, s) =>
          let (s, ended) := s.installThen b cs key
          if ended then s.lossDone d else s
        | (_, s) => (s.originate key).lossDone d)

end Sys2Proof.Machine
end

