-- ==== Sys2Proof/Machine/Forecast.lean ====
section
/-! DEFINITION. Forecasts (R295–R298): the features of an element from the congestion map, the models of the library, scores and
FORECAST events, and the batch. -/

namespace Sys2Proof.Machine

/-! ## Features (R296) -/

def recUncorr (r : W64) : Nat := (bitsAt r 8 6 : BitVec 6).toNat

/-- A field of feature set 1 in one window's record. -/
def featField (k : Nat) (r : W64) : Nat :=
  match k with
  | 0 => recDefl r
  | 1 => recDrops r
  | 2 => recFec r
  | 3 => (recMargin r).toNat
  | 4 => recOcc r
  | 5 => recUncorr r
  | 6 => (r.getLsbD 7 || r.getLsbD 6).toNat
  | _ => (r.getLsbD 5).toNat

/-- A port's field in a window of the map; what an absent slot reads as is open (log 111). -/
def State.fieldAt (s : State) (k w : Nat) (q : W16 × Nat) : Nat :=
  match SMap.get noneOf s.fab.cong.ring (congKey q.1 q.2 w) with
  | some r => if r.window.toNat = w then featField k r.record else Config.absentField k
  | none => Config.absentField k

/-- The planned ports of an agent. -/
def State.portsOn (s : State) (id : W16) : List (W16 × Nat) :=
  (s.plannedPorts.filter (fun x => decide (x.1 = id))).map (fun x => (x.1, x.2.1))

/-- The ports of a source of an element, in groups: a link's end; an agent's ports; a rack half's agents' ports. -/
def State.sourcePorts (s : State) (e : Element) : List (List (W16 × Nat)) :=
  match e.scope.toNat with
  | 1 => match s.fab.links.find? (fun l => decide (l.a = e.id) && decide (l.ap = e.port.toNat)) with
    | some l => [[(l.a, l.ap)], [(l.b, l.bp)]]
    | none => []
  | 2 => [s.portsOn e.id]
  | _ => (s.solveNodes.filter (fun u => decide (s.halfOf u = some e.id))).map s.portsOn

/-- The total over some windows of a source's field: a link's port; or the maximum, or the sum, over ports (log 111). -/
def State.sourceVal (s : State) (e : Element) (src k : Nat) (ws : List Nat) : Nat :=
  let port (q : W16 × Nat) : Nat := (ws.map (fun w => s.fieldAt k w q)).sum
  let gs := s.sourcePorts e
  if e.scope = 1 then ((gs.getD src []).map port).sum
  else
    let vs := (gs.flatten).map port
    if src = 0 then vs.foldl max 0 else vs.sum

/-- A quotient rounded to FP32, to nearest, ties to even. -/
def quotNum (n d : Nat) : Num :=
  if n = 0 ∨ d = 0 then .zero
  else
    let e0 : Int := (Nat.log2 n : Int) - (Nat.log2 d : Int) - 23
    let frac (e : Int) : Nat × Nat := if 0 ≤ e then (n, d * 2 ^ e.toNat) else (n * 2 ^ (-e).toNat, d)
    let e := if (frac e0).1 / (frac e0).2 < 2 ^ 23 then e0 - 1 else e0
    .fin false (roundMag false 0 (frac e).1 (frac e).2).1 e

/-- A feature: source, field, time point, in the batch of windows w to w + 9. The first ten time points are the windows, the
others the means of the batches before, the latest first (log 111). -/
def State.feature (s : State) (e : Element) (w i : Nat) : Num :=
  let src := i / 1024
  let k := i / 128 % 8
  let t := i % 128
  if t < 10 then .ofInt (s.sourceVal e src k [w + t]) 0
  else
    let back := 10 * (t - 9)
    if w < back then quotNum (10 * Config.absentField k) 10
    else quotNum (s.sourceVal e src k ((List.range 10).map (fun j => w - back + j))) 10

/-- An element's features in MXFP4: 64 blocks of 32, each a line of one tile (R206, R222). -/
def State.features (s : State) (e : Element) (w : Nat) : List (List Byte × Byte) :=
  (List.range 64).map (fun j =>
    let b := packBlock 0 false 0 ((List.range 32).map (fun i => s.feature e w (32 * j + i)))
    (b.1, b.2.1))

/-- A packed block as a line that GRID reads. -/
def blockLine (b : List Byte × Byte) : Line :=
  { els := (nibbles b.1).map e2m1, exp := if b.2 = 0xFF then none else some ((b.2.toNat : Int) - 128), bad := false }

/-! ## Models (R295) -/

/-- A library entry's fields. -/
def State.libField (s : State) (lib i o n : Nat) : Nat := s.depLE (lib + 64 * i + o) n
def State.libModel (s : State) (lib i : Nat) : W16 := BitVec.ofNat 16 (s.libField lib i 0 2)

/-- The most that a library takes (R295). -/
def State.libSize (s : State) : Nat :=
  if s.plat.opt.variant = 0 then 16 * 2 ^ 30 else if s.plat.opt.variant = 1 then 8 * 2 ^ 30 else 4 * 2 ^ 30

/-- Bytes of a model's 64 tiles. -/
def modelBytes (fmt : Nat) : Nat := 64 * tileBytes fmt

/-- A library entry that keeps R295: a model ID and format of its table, feature set 1, weights inside the library. -/
def State.libOk (s : State) (lib i : Nat) : Bool :=
  let f := s.libField lib i
  decide (i < 4096) && decide (f 0 2 < 4096) && (decide (f 2 1 = 0) || decide (f 2 1 = 3)) && decide (f 10 1 = 1) &&
  decide (modelBytes (f 2 1) ≤ f 12 4) && decide (f 12 4 ≤ 0x400000) && decide (lib ≤ f 16 8) &&
  decide (f 16 8 + f 12 4 ≤ lib + s.libSize)

/-- Whether a library entry covers an element (R295). -/
def State.libCovers (s : State) (lib i : Nat) (e : Element) : Bool :=
  let f := s.libField lib i
  let inR (id : W16) : Bool := decide (f 6 2 ≤ regionOf id) && decide (regionOf id ≤ f 8 2)
  let cls : Nat := match s.fab.plan with
    | some p => (match p.links.find? (fun l => decide (l.a = e.id) && decide (l.ap = e.port)) with | some l => l.cls.toNat | none => 0)
    | none => 0
  s.libOk lib i && decide (f 3 1 = e.scope.toNat) &&
  (match e.scope.toNat with
   | 1 => inR e.id && (BitVec.ofNat 16 (f 4 2)).getLsbD cls
   | 2 => inR e.id
   | _ => match s.fab.plan with
     | some p => p.agents.any (fun a => decide (a.rackHalf = e.id) && inR a.id)
     | none => false)

/-- The key of a model's pack, loaded for tenant 0 with the right to decrypt, over the model's weights (R416, R419). -/
def State.packKey (s : State) (lib i : Nat) : Option KeyVal :=
  ((List.range 64).map s.keySlot).findSome? (fun x =>
    if x.st = 1 ∧ x.packId.toNat = s.libField lib i 32 4 ∧ x.tenant = 0 ∧ x.use.getLsbD 0 ∧
        x.capture.covers (BitVec.ofNat 64 (s.libField lib i 16 8)) (modelBytes (s.libField lib i 2 1)) then some x.capture
    else none)

/-- Bytes of a protected range, none when a line is bad or a tag fails (R233, R415). -/
def State.openRange (s : State) (k : KeyVal) (a n : Nat) : Option (List Byte) :=
  let u := (a - k.data) / 4096
  let m := (a - k.data + n + 4095) / 4096 - u
  ((List.range m).foldl (fun (bs : Option (List Byte)) j => bs.bind (fun l =>
    if s.badLine (k.data + 4096 * (u + j)) 4096 ∨ s.badLine (k.tag + 16 * (u + j)) 16 then none
    else (s.openUnit k (u + j)).map (fun x => l ++ x))) (some [])).map (fun bs => (bs.drop (a - k.data - 4096 * u)).take n)

/-- A model's weights, none when its pack is not loaded or they cannot be read. -/
def State.weights (s : State) (lib i : Nat) : Option (List Byte) :=
  (s.packKey lib i).bind (fun k => s.openRange k (s.libField lib i 16 8) (modelBytes (s.libField lib i 2 1)))

/-- Output column 0 of an MXFP4 model: 64 tile steps of ACCUM in FP32, packed to BF16 (R217, R223), as FP32 bits. -/
def layerOut (fs : List (List Byte × Byte)) (ws : List Byte) : W32 :=
  let c := fs.zipIdx.foldl (fun (c : Num) x =>
    (accumF false 0 c (blockLine x.1) (unpackLine 0 0 ((ws.drop (544 * x.2)).take 544) 0)).1) Num.zero
  BitVec.ofNat 32 ((packFlt bf16 false 0 c).1 * 65536)

/-- A model's output for an element; no mode runs MXFP4 features with TERN weights, so a TERN model's is open (log 111). -/
def State.modelOut (s : State) (lib i : Nat) (fs : List (List Byte × Byte)) (ws : List Byte) : W32 :=
  if s.libField lib i 2 1 = 0 then layerOut fs ws
  else Config.ternOutput (fs.flatMap (fun b => b.1) ++ fs.map (fun b => b.2)) ws (BitVec.ofNat 8 (s.libField lib i 11 1))

/-- The elements of a batch: links, agents and rack halves in service. -/
def State.elements (s : State) : List Element :=
  s.fab.links.map (fun l => { scope := 1, id := l.a, port := BitVec.ofNat 8 l.ap }) ++
  s.solveNodes.map (fun u => { scope := 2, id := u, port := 0 }) ++
  ((s.solveNodes.filterMap s.halfOf).eraseDups.map (fun h => { scope := 3, id := h, port := 0 }))

/-- The outputs of a batch: each element under the first 8 of the library's n models that cover it. -/
def State.batchOuts (s : State) (lib n : Nat) : List ModelOut :=
  let w := 10 * (s.curWindow / 10 - 1)
  s.elements.flatMap (fun e =>
    let fs := s.features e w
    (((List.range n).filter (fun i => s.libCovers lib i e)).filterMap (fun i => (s.weights lib i).map (fun ws => (i, ws)))).take 8
      |>.map (fun x => { model := x.1, elem := e, y := s.modelOut lib x.1 fs x.2 }))

/-! ## Scores (R297) -/

/-- 2 to the 96, the scale of the logistic's arithmetic. -/
def fxOne : Int := 2 ^ 96

/-- e to the −x by its series, x ≥ 0 and below 12, in units of 2^−96. -/
def expNeg (x : Int) : Int :=
  ((List.range 100).foldl (fun a k => (a.1 + a.2, -(a.2 * x) / (fxOne * (k + 1)))) ((0 : Int), fxOne)).1

/-- round(p × 65,535) for p = 1 / (1 + e^−x); below e^−12 the exact score is 65,535 or 0. -/
def logisticScore (x : Int) : Nat :=
  let m := if x < 0 then -x else x
  let e := if 12 * fxOne ≤ m then 0 else expNeg m
  let num := if x < 0 then e else fxOne
  ((2 * 65535 * num + (fxOne + e)) / (2 * (fxOne + e))).toNat

/-- A finite FP32 value in units of 2^−96; one that falls between them is brought to the one below in magnitude. -/
def fxOf (c : W32) : Option Int :=
  match fp32.decode c.toNat with
  | .fin n m e => let v : Int := if 0 ≤ e + 96 then (m : Int) * 2 ^ (e + 96).toNat else (m : Int) / 2 ^ (-(e + 96)).toNat
                  some (if n then -v else v)
  | _ => none

/-- The score a model's output gives; one that is not finite, or meets a calibration that is not, is left open. -/
def State.outScore (s : State) (lib : Nat) (o : ModelOut) : Nat × State :=
  match fxOf (BitVec.ofNat 32 (s.libField lib o.model 24 4)), fxOf (BitVec.ofNat 32 (s.libField lib o.model 28 4)), fxOf o.y with
  | some a, some b, some y => (logisticScore (a * y / fxOne + b), s)
  | _, _, _ => let (v, s) := s.freeVal 16; (v.toNat, s)

/-- An element's score and the model that gives it: the largest over its outputs. -/
def State.elemScore (s : State) (lib : Nat) (outs : List ModelOut) (e : Element) : Nat × W16 × State :=
  (outs.filter (fun o => decide (o.elem = e))).foldl (fun (x : Nat × W16 × State) o =>
    let (v, t) := x.2.2.outScore lib o
    if x.1 < v then (v, s.libModel lib o.model, t) else (x.1, x.2.1, t)) (0, 0, s)

/-- Scores one element, and posts FORECAST when its score has risen to the threshold (R297). -/
def State.scoreElem (s : State) (lib th : Nat) (outs : List ModelOut) (old : List Score) (e : Element) : State :=
  let x := s.elemScore lib outs e
  let v : Nat := x.1
  let m : W16 := x.2.1
  let s : State := x.2.2
  let was : Bool := match old.find? (fun x => x.elem = e) with | some x => x.posted | none => false
  let posted := (was && decide (7 * th ≤ 8 * v)) || decide (th ≤ v)
  let sub : W16 × State := if e.scope = 3 then s.freeVal 16 else (e.id, s)
  let s : State := if (decide (th ≤ v) && !was) = true then
      sub.2.post 0x0A sub.1 (ofBytes 128 (toBytes 2 m ++ [e.scope, 0] ++ toBytes 2 e.id ++
        [if e.scope = 1 then e.port else 0, 0] ++ le 2 v))
    else s
  s.setDeck (fun d => { d with scores := d.scores ++ [{ elem := e, score := BitVec.ofNat 16 v, posted := posted }] })

/-! ## Batches (R298) -/

/-- FORECAST_BATCH (R298): a batch starts over a library of so many models; one that has not finished is abandoned, and hands keep their cards. -/
def execForecastBatch (lib policy models : Nat) (s : State) : Result :=
  .next (
    if ¬ s.isActive ∨ s.dealers.takeover ≠ .none then s
    else s.setDeck (fun d => { d with batch := some { at_ := s.us, lib := lib, policy := policy, outs := s.batchOuts lib models } }))

/-- The end of a batch: scores, FORECAST events, and restaging, which waits out a table change (R302). -/
def State.endBatch (s : State) (x : Batch) : State :=
  let p := s.policy x.policy
  let old := s.fab.deck.scores
  let s := s.elements.foldl (fun s e => s.scoreElem x.lib p.threshold x.outs old e)
    (s.setDeck (fun d => { d with scores := [], batch := none }))
  match s.fab.deck.addr with
  | some b => if s.dealers.change.isOpen ∨ s.deckEpoch b ≠ s.dealers.fepoch then s else s.stage b p (some p.loads)
  | none => s

/-- A batch ends at the first frame after its streams have (log 111); on a package that is not active it is dropped. -/
def State.batchTick (s : State) : State :=
  match s.fab.deck.batch with
  | none => s
  | some x =>
    if ¬ s.isActive then s.setDeck (fun d => { d with batch := none })
    else if s.dealers.takeover ≠ .none ∨ s.us < x.at_ + Config.batchTime x.at_ then s
    else s.endBatch x

end Sys2Proof.Machine
end

