-- ==== Sys2Proof/Machine/Frame.lean ====
section
/-! DEFINITION. FRAME_START (R72), and what the package does as its frames pass. -/

namespace Sys2Proof.Machine

/-- FRAME_START (R72): the package's frames also tell the model's time (log 2), by which the commands of the device's own
are sent again (R146, R508) and a forecast batch ends (R298). -/
def execFrameStart (who : Option Nat) (s : State) : Result :=
  match who with
  | none => .next ({ s with fab := { s.fab with frame := s.fab.frame + 1 } }).microsecond.ownMargins.bgResend.batchTick
  | some a => s.onAgent a (·.frameStart)

end Sys2Proof.Machine
end

