-- ==== Sys2Proof/Machine/HostMap.lean ====
section
/-! DEFINITION. The host address map (R9–R13, R165, R168, R238, R271, R323, R375–R377, R391, R394, R398, R413, R422, R425, R437,
R443, R448, R452, R469, R471, R487, R495, R500): what a word reads as, and what a write does. -/

namespace Sys2Proof.Machine

/-! ## Ownership (R165, R166) -/

/-- Ownership changes: the count, the twin cleared, the lease fresh, and the event. Owners are session numbers plus 1. -/
def State.setOwner (s : State) (new : Nat) : State :=
  let old := s.own.owner
  let num (o : Nat) : W16 := if o = 0 then 0xFFFF else BitVec.ofNat 16 (o - 1)
  ({ s with own := { s.own with
      owner := new, twin := 0, leaseLeft := if new = 0 then 0 else s.own.leaseMs.setWidth 32, changes := satInc s.own.changes } }).post
    0x0E (num new) ((num old).setWidth 128)

/-- The owner lets go or is lost: an open twin takes over, else the device is unowned. -/
def State.lapse (s : State) : State :=
  if s.own.owner = 0 then s
  else if s.own.twin ≠ 0 ∧ (s.session (s.own.twin - 1)).isOpen then s.setOwner s.own.twin else s.setOwner 0

/-- GRANT's write by the owner's session n. -/
def State.wOwnGrant (s : State) (n : Nat) (v : BitVec 4) : Option State :=
  if v = 0xF then some s.lapse
  else if v.toNat = 0 ∨ 8 < v.toNat ∨ v.toNat = n + 1 ∨ ¬ (s.session (v.toNat - 1)).isOpen then none
  else some (s.setOwner v.toNat)

/-- TWIN_SET's write. -/
def State.wTwin (s : State) (n : Nat) (v : BitVec 4) : Option State :=
  if v = 0 then some { s with own := { s.own with twin := 0 } }
  else if 8 < v.toNat ∨ v.toNat = n + 1 ∨ ¬ (s.session (v.toNat - 1)).isOpen then none
  else some { s with own := { s.own with twin := v.toNat } }

/-- A session opens on a path. -/
def State.openSession (s : State) (n : Nat) (path : BitVec 3) (peer : Nat) : State :=
  s.modSession n (fun x => { x with isOpen := true, path := path, opens := x.opens + 1, peer := peer, seen := [] })

/-- A session closes: what its page and rings hold stays (R163). -/
def State.closeSession (s : State) (n : Nat) : State :=
  if ¬ (s.session n).isOpen then s
  else
    let s := s.modSession n (fun x => { x with isOpen := false })
    if s.isOwner n then s.lapse
    else if s.own.twin = n + 1 then { s with own := { s.own with twin := 0 } } else s

/-! ## Session pages (R168, R170) -/

/-- A word of a session page. -/
def State.sessWord (s : State) (n off : Nat) : W32 :=
  let x := s.session n
  match off with
  | 0 => bitW x.isOpen 0 ||| fldW x.path 1 ||| bitW (s.isOwner n) 4 ||| bitW (decide (s.own.twin = n + 1)) 5
  | 4 => x.opens
  | 8 => x.ignored
  | 0x10 => bitsAt x.cqBase 0 32
  | 0x14 => bitsAt x.cqBase 32 32
  | 0x18 => x.cqOrder.setWidth 32
  | 0x20 => x.cqCommit.setWidth 32
  | 0x24 => x.cqDone.setWidth 32
  | 0x28 => x.cqBad
  | 0x30 => bitsAt x.cplBase 0 32
  | 0x34 => bitsAt x.cplBase 32 32
  | 0x38 => x.cplOrder.setWidth 32
  | 0x3C => x.cplTail.setWidth 32
  | 0x40 => x.cplHead.setWidth 32
  | 0x50 => bitsAt x.nqBase 0 32
  | 0x54 => bitsAt x.nqBase 32 32
  | 0x58 => x.nqOrder.setWidth 32
  | 0x5C => x.nqTail.setWidth 32
  | 0x60 => x.nqHead.setWidth 32
  | 0x64 => x.nqLost
  | _ => 0

/-- A write of CQ_BASE, CQ_ORDER, CPL_BASE or CPL_ORDER: the rings' indices return to 0; ignored while a command is open. -/
def State.wRing (s : State) (n off : Nat) (v : W32) : Option State :=
  let x := s.session n
  let zero (y : Session) : Session := { y with cqCommit := 0, cqDone := 0, cplTail := 0, cplHead := 0 }
  if x.cqDone ≠ x.cqCommit then none
  else match off with
    | 0x10 => if v.toNat % 64 = 0 then some (s.modSession n (fun y => zero { y with cqBase := putBits y.cqBase 0 v })) else none
    | 0x14 => some (s.modSession n (fun y => zero { y with cqBase := putBits y.cqBase 32 v }))
    | 0x18 => if inRange v 0 11 then some (s.modSession n (fun y => zero { y with cqOrder := v.setWidth 4 })) else none
    | 0x30 => if v.toNat % 16 = 0 then some (s.modSession n (fun y => zero { y with cplBase := putBits y.cplBase 0 v })) else none
    | 0x34 => some (s.modSession n (fun y => zero { y with cplBase := putBits y.cplBase 32 v }))
    | 0x38 => if inRange v 0 11 then some (s.modSession n (fun y => zero { y with cplOrder := v.setWidth 4 })) else none
    | _ => none

/-- A write of NQ_BASE or NQ_ORDER: the notice ring's indices return to 0. -/
def State.wNotice (s : State) (n off : Nat) (v : W32) : Option State :=
  let zero (y : Session) : Session := { y with nqTail := 0, nqHead := 0 }
  match off with
  | 0x50 => if v.toNat % 32 = 0 then some (s.modSession n (fun y => zero { y with nqBase := putBits y.nqBase 0 v })) else none
  | 0x54 => some (s.modSession n (fun y => zero { y with nqBase := putBits y.nqBase 32 v }))
  | 0x58 => if inRange v 0 11 then some (s.modSession n (fun y => zero { y with nqOrder := v.setWidth 4 })) else none
  | _ => none

/-- The descriptor in a ring slot. -/
def State.descAt (s : State) (x : Session) (i : Nat) : List Byte := s.depRead (x.cqBase.toNat + 64 * i) 64

/-- R169: a descriptor's CRC. -/
def descGood (bs : List Byte) : Bool := decide (ofBytes 32 (bs.drop 60) = crc32c (bs.take 60))

/-- The items a doorbell takes from the slots given, and the descriptors it discards. -/
def State.takeDescs (s : State) (x : Session) (next : Nat) : List Nat → List RingItem × Nat
  | [] => ([], 0)
  | i :: is =>
    let bs := s.descAt x i
    if descGood bs then let r := s.takeDescs x next is; (.cmd i (ofBytes 512 bs) :: r.1, r.2)
    else ([.bad i next], is.length + 1)

/-- CQ_DOORBELL's write of t (R170). -/
def State.wDoorbell (s : State) (n : Nat) (t : W16) : Option State :=
  let x := s.session n
  let size := ringSize x.cqOrder
  let new := (t.toNat + size - x.cqCommit.toNat) % size
  let old := (x.cqCommit.toNat + size - x.cqDone.toNat) % size
  if size ≤ t.toNat ∨ size ≤ old + new ∨ x.cqBase = 0 then none
  else
    let r := s.takeDescs x t.toNat ((List.range new).map (fun i => (x.cqCommit.toNat + i) % size))
    some (s.modSession n (fun y => { y with taken := y.taken ++ r.1, cqBad := satAdd y.cqBad r.2, cqCommit := t }))

/-- Whether a completion ring has no room (R173). -/
def Session.cplFull (x : Session) : Bool := decide ((x.cplTail.toNat + 1) % ringSize x.cplOrder = x.cplHead.toNat)

/-- Writes a completion; CQ_DONE moves to the slot given, and the ring's command is done. -/
def State.putCompletion (s : State) (n : Nat) (done : Nat) (rec_ : List Byte) : State :=
  let x := s.session n
  (s.depWrite (x.cplBase.toNat + 16 * x.cplTail.toNat) rec_).modSession n (fun (y : Session) =>
    { y with cplTail := BitVec.ofNat 16 ((y.cplTail.toNat + 1) % ringSize y.cplOrder)
             cqDone := BitVec.ofNat 16 done
             cur := none
             owed := none })

/-- CPL_HEAD: the completion that waited is written once the ring has room (R173). -/
def State.wCplHead (s : State) (n : Nat) (v : W16) : State :=
  let s := s.modSession n (fun y => { y with cplHead := v })
  match (s.session n).owed with
  | some (done, rec_) => if (s.session n).cplFull then s else s.putCompletion n done rec_
  | none => s

/-- A write of a session page's word. -/
def State.wSess (s : State) (n off : Nat) (v : W32) : Option State :=
  let x := s.session n
  if off < 0x1C ∨ (0x30 ≤ off ∧ off < 0x3C) then s.wRing n off v
  else match off with
    | 0x1C => if inRange v 0 0xFFFF then s.wDoorbell n (v.setWidth 16) else none
    | 0x40 => if v.toNat < ringSize x.cplOrder then some (s.wCplHead n (v.setWidth 16)) else none
    | 0x60 => if v.toNat < ringSize x.nqOrder then some (s.modSession n (fun y => { y with nqHead := v.setWidth 16 })) else none
    | _ => s.wNotice n off v

/-! ## Reads -/

/-- A list of numbers as a count of its elements and its first, 0x3FF when there is none. -/
def firstOr (l : List Nat) : BitVec 10 := BitVec.ofNat 10 (l.headD 0x3FF)

/-- 0x0000–0x02FF: identity, resets, options, fuses, bring-up, ownership. -/
def State.identWord (s : State) (off : Nat) : W32 :=
  let o := s.plat.opt
  let b := s.plat.bring
  match off with
  | 0x0 => (if o.variant = 0 then 0x9100 else if o.variant = 1 then 0x9060 else 0x9030) ||| 0x20000
  | 0x4 => s.myId.setWidth 32
  | 0x10 => s.own.ignored
  | 0x20 => s.own.aperture.setWidth 32
  | 0x100 => s.plat.rst.cause.setWidth 32
  | 0x104 => s.plat.rst.last.setWidth 32
  | 0x108 => s.plat.rst.count
  | 0x114 => s.plat.rst.blkIgnored
  | 0x118 => s.plat.rst.blkState.setWidth 32
  | 0x120 => o.reg
  | 0x140 => bitsAt o.dieFuse 0 32
  | 0x144 => bitsAt o.dieFuse 32 32
  | 0x148 => (bitsAt o.dieFuse 64 16 : W16).setWidth 32
  | 0x14C => o.gateEn.setWidth 32 ||| fldW o.depotEn 8 ||| fldW o.variant 16
  | 0x150 => fldW (BitVec.ofNat 11 o.marginal.length) 0 ||| fldW (BitVec.ofNat 11 o.drifted.length) 16
  | 0x154 => fldW (firstOr o.marginal) 0 ||| fldW (firstOr o.drifted) 16 ||| bitW o.refOk 31
  | 0x180 => b.phase.setWidth 32 ||| bitW b.ready 3 ||| bitW b.fallback 4 ||| fldW b.engFailed 8 ||| fldW b.portsDown 16
  | 0x184 => b.readyMs.setWidth 32
  | 0x188 => b.retiring.setWidth 32
  | 0x18C => b.online.setWidth 32
  | 0x190 => b.ucPodVer
  | 0x200 => BitVec.ofNat 32 s.own.owner
  | 0x204 => BitVec.ofNat 32 (s.own.owner + 16 * s.own.twin)
  | 0x208 => s.own.leaseLeft
  | 0x20C => s.own.leaseMs.setWidth 32
  | 0x218 => s.own.changes
  | 0x21C => s.own.sessLease.setWidth 32
  | 0x220 => s.own.tickUs
  | 0x224 => s.own.mctpDrop
  | 0x228 => s.reflex.reflexLost
  | _ => 0

/-- 0x0300–0x0FFF: the recovery block. -/
def State.foldWord (s : State) (off : Nat) : W32 :=
  let f := s.fab.fold
  if 0x400 ≤ off ∧ off < 0x480 then
    (List.range 4).foldl (fun v i => v ||| fldW (SMap.get z8 f.domain (off - 0x400 + i)) (8 * i)) 0
  else if 0x480 ≤ off ∧ off < 0x500 then BitVec.ofNat 32 (s.budget ((off - 0x480) / 4))
  else if 0x800 ≤ off then bitsAt (SMap.get (fun _ => (0 : BitVec 256)) f.log ((off - 0x800) / 32)) (8 * (off % 32)) 32
  else match off with
    | 0x300 => bitW f.en 0 ||| bitW f.onKat 1 ||| bitW f.onRto 2
    | 0x304 => f.resets.setWidth 32
    | 0x308 => f.windowS.setWidth 32
    | 0x30C => f.folds
    | 0x310 => f.accFolds
    | 0x314 => f.held
    | 0x318 => f.logNext.setWidth 32
    | 0x31C => f.logSeq
    | _ => 0

/-- 0x8000–0x8FFF: the Assayer block; `sec` lets secure fields show. -/
def State.asyWord (s : State) (sec : Bool) (off : Nat) : W32 :=
  let a := s.asy
  if 0x8020 ≤ off ∧ off < 0x8050 then bitsAt s.vbat.rootHash (8 * (off - 0x8020)) 32
  else if 0x8100 ≤ off ∧ off < 0x8500 then
    let n := (off - 0x8100) / 16
    let k := s.keySlot n
    match off % 16 with
    | 0 => k.st.setWidth 32 ||| fldW k.use 2 ||| fldW k.wrap 4 ||| (if sec then fldW k.tenant 16 else 0)
    | 4 => k.kgen.setWidth 32 ||| fldW (BitVec.ofNat 8 (s.holdCur n)) 16 ||| fldW (BitVec.ofNat 8 (s.holdOld n)) 24
    | 8 => k.packId
    | _ => k.units.setWidth 32
  else if 0x8500 ≤ off ∧ off < 0x8800 then bitsAt (s.meas ((off - 0x8500) / 48)) (8 * ((off - 0x8500) % 48)) 32
  else if 0x8810 ≤ off ∧ off < 0x8840 then bitsAt a.extData (8 * (off - 0x8810)) 32
  else if 0x8910 ≤ off ∧ off < 0x8A90 then
    bitsAt (SMap.get zDig s.vbat.members ((off - 0x8910) / 48)) (8 * ((off - 0x8910) % 48)) 32
  else match off with
    | 0x8000 => a.ver
    | 0x8004 => bitW s.dealers.active 0 ||| bitW a.mirrorOk 1
    | 0x8010 => bitW s.vbat.rootSet 0 ||| bitW a.unlock 1
    | 0x8800 => a.extIdx.setWidth 32
    | 0x8900 => s.vbat.setId
    | 0x8904 => s.vbat.setCount.setWidth 32
    | 0x8A9C => a.xfer.setWidth 32
    | _ => 0

/-- 0x9000–0x9FFF: the depot allocation table. -/
def State.allocWord (s : State) (sec : Bool) (off : Nat) : W32 :=
  let x := s.alloc ((off - 0x9000) / 16)
  match off % 16 with
  | 0 => x.base.setWidth 32
  | 4 => x.size.setWidth 32
  | 8 => if sec then x.tenant.setWidth 32 else 0
  | _ => x.st.setWidth 32

/-- An entry of the coin-cell log as 16 bytes. -/
def VLog.bytes (e : VLog) : BitVec 128 := ofBytes 128 (toBytes 4 e.s ++ toBytes 2 e.sub ++ [e.code, e.detail] ++ toBytes 4 e.number ++ toBytes 4 e.data)

/-- 0xA000–0xAFFF: the VBAT block. -/
def State.vbatWord (s : State) (off : Nat) : W32 :=
  let v := s.vbat
  if 0xA020 ≤ off ∧ off < 0xA040 then s.mono ((off - 0xA020) / 4)
  else if 0xA100 ≤ off ∧ off < 0xA500 then
    (match SMap.get noneOf v.log ((off - 0xA100) / 16) with
     | some e => bitsAt e.bytes (8 * (off % 16)) 32
     | none => 0)
  else match off with
    | 0xA000 => v.rtcS
    | 0xA004 => v.rtcSub.setWidth 32
    | 0xA010 => bitW v.ok 0 ||| bitW v.setValid 1 ||| bitW v.held 2 ||| bitW v.tamper 8 ||| bitW v.temp 9 ||| bitW v.battLost 10
    | 0xA014 => bitW v.tamperEn 0 ||| bitW v.tamperLock 1
    | 0xA018 => v.cause.setWidth 32
    | 0xA044 => v.logNext.setWidth 32
    | 0xA048 => v.cepoch.setWidth 32
    | 0xA04C => v.depoch.setWidth 32
    | _ => 0

/-- 0xB000–0xDFFF: power, pins, rails. -/
def State.platWord (s : State) (off : Nat) : W32 :=
  let p := s.plat.pwr
  let g := s.plat.pins
  if 0xD000 ≤ off ∧ off < 0xD048 then
    let r := SMap.get railDflt s.plat.rails ((off - 0xD000) / 8)
    if off % 8 = 0 then r.mv.setWidth 32 ||| fldW r.amps 16 else bitW r.inRange 0 ||| bitW r.low 1 ||| bitW r.high 2
  else match off with
    | 0xB000 => p.limit.setWidth 32
    | 0xB004 => p.now.setWidth 32
    | 0xB008 => p.peak.setWidth 32
    | 0xB00C => p.pclass
    | 0xB010 => p.hold0.setWidth 32 ||| fldW p.hold1 4 ||| fldW p.hold2 8 ||| bitW p.tokensHeld 16
    | 0xB014 => p.lent.setWidth 32
    | 0xB018 => p.wakeWaits
    | 0xB01C => p.idleSleep.setWidth 32
    | 0xB020 => p.tjMax.setWidth 32 ||| fldW p.tjHot 8
    | 0xB024 => p.lowMargin.setWidth 32 ||| fldW p.marginWin 8
    | 0xB028 => p.retrainDt.setWidth 32
    | 0xB02C => p.recenterMs.setWidth 32 ||| fldW p.recenterDt 16
    | 0xB030 => p.calDone
    | 0xB034 => p.calAbort
    | 0xB038 => p.recenterFail
    | 0xC000 => g.gpioOut.setWidth 32
    | 0xC004 => g.gpioOe.setWidth 32
    | 0xC008 => g.gpioIn.setWidth 32
    | 0xC00C => g.gpioOd.setWidth 32
    | 0xC010 => g.faultCause.setWidth 32
    | 0xC014 => g.alertCause.setWidth 32
    | _ => 0

/-- A tally's words. -/
def State.tallyWord (s : State) (t off : Nat) : W32 :=
  let x := s.tally t
  match off with
  | 0 => x.count
  | 4 => (if tallyStrict t then 0 else x.part.setWidth 32) ||| bitW x.en 7 ||| bitW (tallyStrict t) 8 ||| bitW x.skipped 9 |||
      fldW (BitVec.ofNat 4 (s.waiters t)) 12
  | 8 => x.settled
  | _ => x.drift

/-- Ledger partitions, slices and the control block, from 0x0110_0000. -/
def State.ledWord (s : State) (sec : Bool) (off : Nat) : W32 :=
  if off < 0x1000 then
    let p := off / 0x40
    let x := s.lpart p
    match off % 0x40 with
    | 0 => (if sec then x.tenant.setWidth 32 else 0) ||| bitW x.clean 31
    | 4 => x.tallyQuota.setWidth 32
    | 8 => BitVec.ofNat 32 (s.tallyUsed p)
    | 0xC => x.queueQuota.setWidth 32
    | 0x10 => BitVec.ofNat 32 (s.queueUsed p)
    | 0x14 => x.mbxQuota.setWidth 32
    | 0x18 => BitVec.ofNat 32 (s.mbxUsed p)
    | 0x1C => x.denied
    | _ => 0
  else if off < 0x1800 then
    let x := s.slice ((off - 0x1000) / 4)
    x.part.setWidth 32 ||| bitW x.valid 7 ||| fldW x.sepoch 16
  else
    let z := s.led.settle
    if 0x2040 ≤ off ∧ off < 0x2080 then (SMap.get z16 s.led.evq ((off - 0x2040) / 4)).setWidth 32
    else match off with
      | 0x2000 => z.period.setWidth 32
      | 0x2004 => z.grace.setWidth 32
      | 0x2008 => z.cur.stamp
      | 0x200C => z.settledNo
      | 0x2010 => z.waitLimit.setWidth 32
      | 0x2014 => z.driftThresh
      | 0x2018 => z.skip
      | 0x201C => s.led.stale
      | 0x2020 => s.led.denied
      | 0x2024 => s.led.filtered
      | 0x2028 => s.led.gapDrop
      | 0x202C => s.led.standbyDrop
      | 0x2030 => bitW s.led.degraded 0 ||| bitW s.led.failedHalf 1
      | 0x2034 => s.led.filterFull
      | _ => 0

/-- The descriptor a session ring shows: its base, order and indices from the session page (R168, R393). -/
def State.ringQueue (s : State) (q : Nat) : Queue :=
  let x := s.session (q % 8)
  let idx (v : W16) : BitVec 15 := v.setWidth 15
  if q < 8 then { base := x.cqBase, order := x.cqOrder, esize := 2, head := idx x.cqDone, tail := idx x.cqCommit, en := decide (x.cqBase ≠ 0) }
  else if q < 16 then { base := x.cplBase, order := x.cplOrder, esize := 0, head := idx x.cplHead, tail := idx x.cplTail, en := decide (x.cqBase ≠ 0) }
  else { base := x.nqBase, order := x.nqOrder, esize := 1, head := idx x.nqHead, tail := idx x.nqTail, en := decide (x.nqBase ≠ 0), lost := x.nqLost }

/-- A queue descriptor's words (R394). -/
def State.queueWord (s : State) (q off : Nat) : W32 :=
  let x := if q < 24 then s.ringQueue q else s.queue q
  match off with
  | 0 => bitsAt x.base 0 32
  | 4 => bitsAt x.base 32 32
  | 8 => x.order.setWidth 32 ||| fldW x.esize 4 ||| bitW x.loc 7 ||| fldW x.kind 8 ||| bitW x.prodHost 11 ||| bitW x.consHost 12 |||
      bitW x.gated 13 ||| bitW x.en 14 ||| fldW x.part 16
  | 0xC => x.deliver.setWidth 32
  | 0x10 => x.head.setWidth 32
  | 0x14 => x.tail.setWidth 32
  | 0x18 => x.lost
  | 0x1C => if q < 24 then 0 else bitW (s.qStalled q) 0 ||| fldW (BitVec.ofNat 5 ((s.qWaiters 0x60 q).length + (s.qWaiters 0x61 q).length)) 8
  | 0x20 => x.pushes
  | _ => 0

/-- A ledger mailbox's words (R398); CLAIM as an observer reads it. -/
def State.mbxWord (s : State) (m off : Nat) : W32 :=
  let x := s.mbx m
  if 0x20 ≤ off ∧ off < 0x48 then bitsAt x.data (8 * (off - 0x20)) 32
  else match off with
    | 0 => bitW x.cmd 0 ||| bitW x.en 1 ||| fldW x.part 8 ||| fldW x.server 16
    | 4 => x.lease.setWidth 32
    | 8 => x.claim.setWidth 32
    | 0xC => bitW x.full 0 ||| bitW x.coll 1 ||| bitW x.ring 2 ||| bitW x.done 3 ||| bitW x.expired 4 ||| bitW x.aborted 5
    | 0x50 => x.posts
    | 0x54 => x.colls
    | _ => 0

/-- The fabric port whose words stand at an offset of a gate window: four lanes to a port. -/
def gatePort (g off : Nat) : Nat := 5 * g + (if off < 0x2000 then (off - 0x1000) / 16 else (off - 0x2000) / 128)

/-- A gate window's words (R471, R487); a port the variant does not enable answers 0 (R1). -/
def State.gateWord (s : State) (g off : Nat) : W32 :=
  if s.fabricPorts ≤ gatePort g off then 0
  else if 0x1000 ≤ off ∧ off < 0x1050 then
    let p := gatePort g off
    let x := s.gport p
    if off % 16 = 0 then x.bifMode.setWidth 32 ||| bitW (s.subEnabled (2 * p)) 4 ||| fldW x.polInv 8 else 0
  else if 0x2000 ≤ off ∧ off < 0x2280 then
    let x := s.lane (20 * g + (off - 0x2000) / 32)
    match off % 32 with
    | 0 => x.st.setWidth 32 ||| fldW x.margin 8 ||| fldW x.tempTrain 16
    | 4 => x.windows.setWidth 32
    | 8 => x.calFrame
    | 0xC => x.ok.setWidth 32 ||| fldW x.abort 16
    | _ => 0
  else 0

/-- An engine's words (R238, R271). -/
def State.engWord (s : State) (sec : Bool) (e off : Nat) : W32 :=
  let x := s.eng e
  match off with
  | 0 => x.st.setWidth 32 ||| fldW x.handle 16
  | 4 => if sec then x.tenant.setWidth 32 else 0
  | 8 => x.tiles
  | 0xC => x.flagsOr.setWidth 32
  | 0x10 => x.sampled
  | 0x14 => x.diverged
  | 0x18 => x.eccCorr.setWidth 32
  | 0x1C => x.seed
  | 0x20 => BitVec.ofNat 12 x.pc |>.setWidth 32 |> (· ||| fldW x.fault 16)
  | _ => 0

/-- A station die's words; a fused-off die answers 0 (R1, R238). -/
def State.dieWord (s : State) (sec : Bool) (d off : Nat) : W32 :=
  let x := s.die d
  if x.st = 0 then 0
  else if 0x1000 ≤ off ∧ off < 0x1800 then s.engWord sec (8 * d + (off - 0x1000) / 256) (off % 256)
  else match off with
    | 0 => x.st.setWidth 32 ||| bitW (s.dieIdle d) 4 ||| bitW (decide (1200 < x.mhz.toNat)) 5
    | 4 => x.mhz.setWidth 32
    | 8 => x.slot.setWidth 32
    | 0xC => x.katPass.setWidth 32
    | 0x10 => x.psver
    | _ => 0

/-- The depot byte an aperture offset reaches (R11). -/
def State.apertureAt (s : State) (x : Nat) : Nat := s.own.aperture.toNat * 2 ^ 30 + x

/-- The bytes an aperture read of a length finds; a range being scrubbed, or not enabled, reads 0. -/
def State.apertureRead (s : State) (x k : Nat) : List Byte :=
  let a := s.apertureAt x
  if s.inDepot a k ∧ ¬ s.scrubbing a k then s.depRead a k else List.replicate k 0

/-- An aperture word. -/
def State.apertureWord (s : State) (x : Nat) : W32 := ofBytes 32 (s.apertureRead x 4)

/-- What a word of the map reads as, without side effects. -/
def State.hostWord (s : State) (sec : Bool) (off : Nat) : W32 :=
  if off % 4 ≠ 0 then 0
  else if off < 0x300 then s.identWord off
  else if off < 0x1000 then s.foldWord off
  else if off < 0x4000 then 0
  else if off < 0x5000 then bitsAt (s.binding ((off - 0x4000) / 16)) (8 * (off % 16)) 32
  else if off < 0x8000 then 0
  else if off < 0x9000 then s.asyWord sec off
  else if off < 0xA000 then s.allocWord sec off
  else if off < 0xB000 then s.vbatWord off
  else if off < 0x100000 then s.platWord off
  else if off < 0x180000 then s.sessWord ((off - 0x100000) / 0x10000) (off % 0x10000)
  else if off < 0x1000000 then 0
  else if off < 0x1100000 then s.tallyWord ((off - 0x1000000) / 16) (off % 16)
  else if off < 0x2000000 then s.ledWord sec (off - 0x1100000)
  else if off < 0x2200000 then s.queueWord ((off - 0x2000000) / 64) (off % 64)
  else if 0x3000000 ≤ off ∧ off < 0x3800000 then Mem.readLE s.led.sram (off - 0x3000000) 4 32
  else if 0x4000000 ≤ off ∧ off < 0x4100000 then s.mbxWord ((off - 0x4000000) / 256) (off % 256)
  else if 0x8000000 ≤ off ∧ off < 0x8800000 then s.gateWord ((off - 0x8000000) / 0x100000) (off % 0x100000)
  else if 0x10000000 ≤ off ∧ off < 0x12800000 then s.dieWord sec ((off - 0x10000000) / 0x100000) (off % 0x100000)
  else if 0x40000000 ≤ off ∧ off < 0x80000000 then s.apertureWord (off - 0x40000000)
  else 0

/-- OWNER_CLAIM read by a session (R165, R166). -/
def State.readClaim (s : State) (n : Nat) : W32 × State :=
  if s.own.owner = 0 ∧ (s.session n).isOpen then (0, s.setOwner (n + 1)) else (BitVec.ofNat 32 s.own.owner, s)

/-- LEASE_LEFT read by a session. -/
def State.readLease (s : State) (n : Nat) : W32 × State :=
  if s.isOwner n then (s.own.leaseMs.setWidth 32, { s with own := { s.own with leaseLeft := s.own.leaseMs.setWidth 32 } })
  else (s.own.leaseLeft, s)

/-- A word read by a session, with what the read does. -/
def State.hostRead (s : State) (n off : Nat) : W32 × State :=
  if off = 0x200 then s.readClaim n
  else if off = 0x208 then s.readLease n
  else if 0x4000000 ≤ off ∧ off < 0x4100000 ∧ off % 256 = 8 then
    let m := (off - 0x4000000) / 256
    if (s.mbx m).en ∧ (s.mbx m).cmd then let r := s.mbxClaim (hostParty n) m; (r.1.setWidth 32, r.2) else (s.hostWord (s.isOwner n) off, s)
  else (s.hostWord (s.isOwner n) off, s)

/-! ## Writes: each answers none when ignored as a whole -/

def State.setOwn (s : State) (f : Ownership → Ownership) : State := { s with own := f s.own }

/-- The depot capacity the variant enables, GiB. -/
def State.depotGiB (s : State) : Nat := 24 * ((List.range 6).filter (fun i => s.plat.opt.depotEn.getLsbD i)).length

/-- 0x0000–0x02FF. -/
def State.wIdent (s : State) (n off : Nat) (v : W32) : Option State :=
  match off with
  | 0x14 => if within v 1 then some (if v = 1 then s.setOwn (fun o => { o with ignored := 0 }) else s) else none
  | 0x20 => if v.toNat < s.depotGiB then some (s.setOwn (fun o => { o with aperture := v.setWidth 8 })) else none
  | 0x100 => if within v 0x1FFF then some (s.setRst (fun r => { r with cause := r.cause &&& ~~~(v.setWidth 13) })) else none
  | 0x10C => s.wRstReq v
  | 0x110 => s.wBlock n v
  | 0x188 => s.wRetire n v
  | 0x190 => some (s.setBring (fun b => { b with ucPodVer := v }))
  | 0x20C => if inRange v 100 60000 then some (s.setOwn (fun o => { o with leaseMs := v.setWidth 16 })) else none
  | 0x210 => if inRange v 0 15 then s.wOwnGrant n (v.setWidth 4) else none
  | 0x214 => if inRange v 0 15 then s.wTwin n (v.setWidth 4) else none
  | 0x21C => if inRange v 1 60 then some (s.setOwn (fun o => { o with sessLease := v.setWidth 6 })) else none
  | 0x220 => if v = 0 ∨ inRange v 100 1000000 then some (s.setOwn (fun o => { o with tickUs := v })) else none
  | _ => none

/-- 0x0300–0x0FFF (R323). -/
def State.wFold (s : State) (off : Nat) (v : W32) : Option State :=
  if 0x400 ≤ off ∧ off < 0x480 then
    (if within v 0x1F1F1F1F then
      some (s.setFold (fun f => { f with domain := (List.range 4).foldl (fun m i => SMap.set z8 m (off - 0x400 + i) (bitsAt v (8 * i) 8)) f.domain }))
     else none)
  else if 0x480 ≤ off ∧ off < 0x500 then s.wBudget ((off - 0x480) / 4) v
  else match off with
    | 0x300 => if within v 7 then some (s.setFold (fun f => { f with en := v.getLsbD 0, onKat := v.getLsbD 1, onRto := v.getLsbD 2 })) else none
    | 0x304 => if inRange v 1 15 then some (s.setFold (fun f => { f with resets := v.setWidth 4 })) else none
    | 0x308 => if inRange v 10 86400 then some (s.setFold (fun f => { f with windowS := v.setWidth 17 })) else none
    | _ => none

/-- 0x8000–0x8FFF (R413). -/
def State.wAsy (s : State) (n off : Nat) (v : W32) : Option State :=
  if 0x8810 ≤ off ∧ off < 0x8840 then some (s.setAsy (fun a => { a with extData := putBits a.extData (8 * (off - 0x8810)) v }))
  else if 0x8910 ≤ off ∧ off < 0x8A90 then
    (if s.vbat.setValid then none
     else some (s.setVbat (fun b => { b with members := SMap.modify zDig b.members ((off - 0x8910) / 48) (fun d => putBits d (8 * ((off - 0x8910) % 48)) v) })))
  else match off with
    | 0x8010 => if ¬ within v 3 then none else if v.getLsbD 1 then s.wProvUnlock n else some s
    | 0x8014 => if ¬ within v 1 then none else if v = 1 then s.wRollfwd else some s
    | 0x8800 => if inRange v 10 15 then some (s.setAsy (fun a => { a with extIdx := v.setWidth 4 })) else none
    | 0x8840 => if ¬ within v 1 then none else if v = 1 then s.wExtendGo else some s
    | 0x8900 => if s.vbat.setValid then none else some (s.setVbat (fun b => { b with setId := v }))
    | 0x8904 => if s.vbat.setValid ∨ ¬ inRange v 2 8 then none else some (s.setVbat (fun b => { b with setCount := v.setWidth 4 }))
    | 0x8A90 => if ¬ within v 1 then none else if v = 1 then s.wSetGen else some s
    | 0x8A94 => s.wXferAllow v
    | 0x8A98 => s.wXferReq v
    | _ => none

/-- 0x9000–0x9FFF (R422). -/
def State.wAlloc (s : State) (off : Nat) (v : W32) : Option State :=
  let i := (off - 0x9000) / 16
  match off % 16 with
  | 0 => if (s.alloc i).st ≠ 0 ∨ ¬ within v 0x1FFFF then none else some (s.modAlloc i (fun a => { a with base := v.setWidth 17 }))
  | 4 => if (s.alloc i).st ≠ 0 ∨ ¬ inRange v 1 512 then none else some (s.modAlloc i (fun a => { a with size := v.setWidth 10 }))
  | 8 => s.wAllocTenant i v
  | _ =>
    if ¬ within v 0xF ∨ (v.getLsbD 2 ∧ v.getLsbD 3) then none
    else if v.getLsbD 2 then s.wGrant i else if v.getLsbD 3 then s.wRelease i else some s

/-- TAMPER_FLAG, TEMP_FLAG and BATT_LOST (R425): write 1 to clear. While HELD is set a 1 to one of the first two is ignored and
counted; each field follows its own code (R12). -/
def State.wFlags (s : State) (n : Nat) (v : W32) : Option State :=
  if ¬ within v 0x707 then none
  else
    let kept := s.vbat.held
    let s := s.setVbat (fun b => { b with
      tamper := b.tamper && (kept || !v.getLsbD 8), temp := b.temp && (kept || !v.getLsbD 9), battLost := b.battLost && !v.getLsbD 10 })
    some (if kept && (v.getLsbD 8 || v.getLsbD 9) then s.ignoreBy n else s)

/-- TAMPER_EN, TAMPER_LOCK and HELD_CLEAR (R425, R431): a locked TAMPER_EN and a refused HELD_CLEAR are ignored and counted,
and each field follows its own code (R12). -/
def State.wTamper (s : State) (n : Nat) (v : W32) : Option State :=
  if ¬ within v 0x103 then none
  else
    let locked := s.vbat.tamperLock
    let s := s.setVbat (fun b => { b with tamperEn := if locked then b.tamperEn else v.getLsbD 0, tamperLock := b.tamperLock || v.getLsbD 1 })
    let s := if locked then s.ignoreBy n else s
    some (if v.getLsbD 8 then s.wHeldClear.getD (s.ignoreBy n) else s)

/-- 0xA000–0xAFFF. -/
def State.wVbat (s : State) (n off : Nat) (v : W32) : Option State :=
  match off with
  | 0xA008 => s.wRtcSet v
  | 0xA010 => s.wFlags n v
  | 0xA014 => s.wTamper n v
  | 0xA040 => s.wMonoInc v
  | _ => none

/-- Rail flags: write 1 to clear. -/
def State.wRail (s : State) (i : Nat) (v : W32) : Option State :=
  if within v 7 then
    some { s with plat := { s.plat with rails := SMap.modify railDflt s.plat.rails i (fun r =>
      { r with low := r.low && !v.getLsbD 1, high := r.high && !v.getLsbD 2 }) } }
  else none

/-- 0xB000–0xDFFF (R469, R495, R500). -/
def State.wPlat (s : State) (off : Nat) (v : W32) : Option State :=
  let f (b : Bool) (g : Power → Power) : Option State := if b then some (s.setPwr g) else none
  let k (g : Pins → Pins) : Option State := if within v 0xFFFF then some (s.setPins g) else none
  let lo (m : Nat) : Nat := v.toNat % m
  if 0xD000 ≤ off ∧ off < 0xD048 ∧ off % 8 = 4 then s.wRail ((off - 0xD000) / 8) v
  else match off with
    | 0xB000 => s.wPwrLimit v
    | 0xB008 => s.wPwrPeak v
    | 0xB00C => f ((List.range 16).all (fun c => decide (bitsAt v (2 * c) 2 ≠ (3 : BitVec 2)))) (fun p => { p with pclass := v })
    | 0xB01C => f (decide (v = 0) || inRange v 10 60000) (fun p => { p with idleSleep := v.setWidth 16 })
    | 0xB020 => f (within v 0xFFFF && inRange (v >>> 8) 85 105) (fun p => { p with tjHot := bitsAt v 8 8 })
    | 0xB024 => f (within v 0xF3F && decide (1 ≤ lo 64) && inRange (v >>> 8) 1 15) (fun p => { p with lowMargin := v.setWidth 6, marginWin := bitsAt v 8 4 })
    | 0xB028 => f (inRange v 2 30) (fun p => { p with retrainDt := v.setWidth 5 })
    | 0xB02C => f (within v 0xF03FF && decide (5 ≤ lo 1024) && decide (lo 1024 ≤ 1000) && inRange (v >>> 16) 1 15)
        (fun p => { p with recenterMs := v.setWidth 10, recenterDt := bitsAt v 16 4 })
    | 0xC000 => k (fun p => { p with gpioOut := v.setWidth 16 })
    | 0xC004 => k (fun p => { p with gpioOe := v.setWidth 16 })
    | 0xC00C => k (fun p => { p with gpioOd := v.setWidth 16 })
    | 0xC010 => s.wCause false v
    | 0xC014 => s.wCause true v
    | _ => none

/-- A ring SRAM word: an operation on its partition's resources (R375, R394). -/
def State.wSram (s : State) (a : Nat) (v : W32) : Option State :=
  some (({ s with led := { s.led with sram := Mem.writeLE s.led.sram a 4 v } }).dirty (a / 0x20000))

/-- Depot bytes through the aperture; a range being scrubbed, or not enabled, ignores them. -/
def State.wAperture (s : State) (x : Nat) (bs : List Byte) : Option State :=
  let a := s.apertureAt x
  if s.inDepot a bs.length ∧ ¬ s.scrubbing a bs.length then some (s.depWrite a bs) else none

/-- A write by the owner's session n of a word of the map. -/
def State.hostWrite (s : State) (n off : Nat) (v : W32) : Option State :=
  if off % 4 ≠ 0 then none
  else if off < 0x300 then s.wIdent n off v
  else if off < 0x1000 then s.wFold off v
  else if off < 0x8000 then none
  else if off < 0x9000 then s.wAsy n off v
  else if off < 0xA000 then s.wAlloc off v
  else if off < 0xB000 then s.wVbat n off v
  else if off < 0x100000 then s.wPlat off v
  else if off < 0x180000 then s.wSess ((off - 0x100000) / 0x10000) (off % 0x10000) v
  else if off < 0x1000000 then none
  else if off < 0x1100000 then
    let t := (off - 0x1000000) / 16
    if off % 16 = 0 then s.wTallyCount t v else if off % 16 = 4 then s.wTallyCfg t v else none
  else if off < 0x1101000 then s.wPart ((off - 0x1100000) / 64) (off % 64) v
  else if off < 0x1101800 then s.wSlice ((off - 0x1101000) / 4) v
  else if off < 0x1102000 then none
  else if off < 0x1102080 then s.wSettleReg (off - 0x1102000) v
  else if 0x2000000 ≤ off ∧ off < 0x2200000 then s.wQueue ((off - 0x2000000) / 64) (off % 64) v
  else if 0x3000000 ≤ off ∧ off < 0x3800000 then s.wSram (off - 0x3000000) v
  else if 0x4000000 ≤ off ∧ off < 0x4100000 then s.wMbx n ((off - 0x4000000) / 256) (off % 256) v
  else if 0x8000000 ≤ off ∧ off < 0x8800000 ∧ 0x1000 ≤ off % 0x100000 ∧ off % 0x100000 < 0x1050 ∧ off % 16 = 0 then
    s.wBif (5 * ((off - 0x8000000) / 0x100000) + (off % 0x100000 - 0x1000) / 16) v
  else if 0x40000000 ≤ off ∧ off < 0x80000000 then s.wAperture (off - 0x40000000) (toBytes 4 v)
  else none

/-! ## Accesses across ranges (R10) -/

/-- Where the range of the map (R9) that an offset lies in ends. -/
def rangeEnd (off : Nat) : Nat :=
  ([0x100000, 0x1000000, 0x2000000, 0x4000000, 0x8000000, 0x8800000, 0x10000000, 0x12800000, 0x40000000, 0x80000000, 0x90000000].find?
    (fun e => decide (off < e))).getD (2 ^ 64)

/-- The part of a write that falls in one range: bytes of the depot aperture, or a whole register word; no rule defines a write
of part of a word (R15, log 77). -/
def State.writePart (s : State) (n off : Nat) (bs : List Byte) : Option State :=
  if 0x40000000 ≤ off ∧ off < 0x80000000 then s.wAperture (off - 0x40000000) bs
  else if bs.length = 4 then s.hostWrite n off (ofBytes 32 bs) else none

/-- The owner's write of bytes: what falls in the first range, then the rest under the next range's own rules (R10). -/
def State.writeSplit (s : State) (n off : Nat) (bs : List Byte) : State :=
  let k := rangeEnd off - off
  let s := (s.writePart n off (bs.take k)).getD (s.ignoreBy n)
  if bs.length ≤ k then s else (s.writePart n (off + k) (bs.drop k)).getD (s.ignoreBy n)

/-- The bytes a read of the aperture's window and of what follows it returns (R10, R11). -/
def State.readSplit (s : State) (x k : Nat) : List Byte :=
  let inside := min k (2 ^ 30 - x)
  s.apertureRead x inside ++ List.replicate (k - inside) 0

/-! ## Commands -/

/-- REG_WRITE (R9–R13): a 4-byte write by a session anywhere in the map. -/
def execRegWrite (n : Fin 8) (off : Nat) (v : W32) (s : State) : Result :=
  .next (s.ownerWrite n (fun s => if off % 4 = 0 then s.hostWrite n off v else some (s.writeSplit n off (toBytes 4 v))))

/-- IGNORED_CLR (R11). -/
def execIgnoredClr (n : Fin 8) (v : W32) (s : State) : Result := .next (s.ownerWrite n (fun s => s.wIdent n 0x14 v))

/-- DEPOT_APERTURE_ACCESS (R10, R11): bytes read, or written, from an aperture offset on; what lies beyond the window is reserved. -/
def execDepotApertureAccess (n : Fin 8) (off : Nat) (acc : Access) (s : State) : Result :=
  .next (match acc with
    | .read k => s.emit (.bytes n (0x40000000 + off) (s.readSplit off k))
    | .write bs => s.ownerWrite n (fun s => some (s.writeSplit n (0x40000000 + off) bs)))

/-- PCIE_LINK_UP (R160): the session of dealer A's endpoint (false) or B's (true) opens. -/
def execPcieLinkUp (b : Bool) (s : State) : Result :=
  .next (
    let n := if b then 1 else 0
    let was := (s.session n).isOpen
    let s := s.modSession n (fun x => { x with linkUp := true })
    if was then s else s.openSession n (if b then 1 else 0) 0)

/-- PCIE_LINK_DOWN_EXPIRE (R160): the link has stayed down for 100 ms. -/
def execPcieLinkDownExpire (b : Bool) (s : State) : Result :=
  .next (let n := if b then 1 else 0; (s.modSession n (fun x => { x with linkUp := false })).closeSession n)

/-- PERST (R160, R434): an endpoint's fundamental reset. -/
def execPerst (b : Bool) (s : State) : Result :=
  .next (
    let n := if b then 1 else 0
    let s := s.setRst (fun r => { r with cause := putBit r.cause (if b then 3 else 2) true })
    (s.modSession n (fun x => { x with linkUp := false })).closeSession n)

/-- A host's certificate chains to the operator root the Assayer holds (R162, R412). -/
def State.chains (s : State) (cert : List Byte) : Bool :=
  s.vbat.rootSet && Config.certOk cert && decide (sha384 (Config.rootOf cert) = s.vbat.rootHash)

/-- The session a full handshake of the same peer address closes (R160). -/
def State.ofPeer (s : State) (peer : Nat) : Option Nat :=
  [2, 3, 4, 5, 6, 7].find? (fun n => (s.session n).isOpen && decide ((s.session n).peer = peer))

/-- DTLS_HANDSHAKE (R160, R162): the peer's earlier session closes, and the lowest free session opens; with none free the
handshake is refused with an alert. DTLS ends in the active dealer, so none completes through a takeover gap. -/
def execDtlsHandshake (port : Bool) (peer : Nat) (cert : List Byte) (s : State) : Result :=
  .next (
    if ¬ s.chains cert ∨ s.dealers.takeover ≠ .none then s
    else
      let s := match s.ofPeer peer with | some n => s.closeSession n | none => s
      match [2, 3, 4, 5, 6, 7].find? (fun n => !(s.session n).isOpen) with
      | some n => s.openSession n (if port then 3 else 2) peer
      | none => s.emit (.handshakeFailure port peer))

/-- DTLS_RESUME (R162, R163): the session keeps its number and state. -/
def execDtlsResume (n : Fin 8) (port : Bool) (s : State) : Result :=
  .next (if 2 ≤ n.val ∧ (s.session n).isOpen ∧ s.dealers.takeover = .none then s.modSession n (fun x => { x with path := if port then 3 else 2 }) else s)

/-- DTLS_CLOSE_NOTIFY (R160). -/
def execDtlsCloseNotify (n : Fin 8) (s : State) : Result := .next (if 2 ≤ n.val then s.closeSession n else s)

/-- SESSION_LEASE_EXPIRE (R163). -/
def execSessionLeaseExpire (n : Fin 8) (s : State) : Result := .next (if 2 ≤ n.val then s.closeSession n else s)

/-- OWNER_CLAIM (R165). -/
def execOwnerClaim (n : Fin 8) (s : State) : Result :=
  .next (let r := s.readClaim n; r.2.emit (.value n 0x200 r.1))

/-- LEASE_LEFT_READ (R165). -/
def execLeaseLeftRead (n : Fin 8) (s : State) : Result :=
  .next (let r := s.readLease n; r.2.emit (.value n 0x208 r.1))

/-- GRANT (R165, R166). -/
def execGrant (n : Fin 8) (v : BitVec 4) (s : State) : Result := .next (s.ownerWrite n (fun s => s.wOwnGrant n v))

/-- TWIN_SET (R165). -/
def execTwinSet (n : Fin 8) (v : BitVec 4) (s : State) : Result := .next (s.ownerWrite n (fun s => s.wTwin n v))

/-- OWNER_LEASE_EXPIRE (R166): LEASE_LEFT reaches 0. -/
def execOwnerLeaseExpire (s : State) : Result := .next s.lapse

/-- RING_CONFIG_WRITE (R168). -/
def execRingConfigWrite (n : Fin 8) (pg : Fin 8) (off : Nat) (v : W32) (s : State) : Result :=
  .next (s.ownerWrite n (fun s => s.wRing pg off v))

/-- NOTICE_RING_CONFIG_WRITE (R168). -/
def execNoticeRingConfigWrite (n : Fin 8) (pg : Fin 8) (off : Nat) (v : W32) (s : State) : Result :=
  .next (s.ownerWrite n (fun s => s.wNotice pg off v))

/-- CQ_DOORBELL (R170). -/
def execCqDoorbell (n : Fin 8) (pg : Fin 8) (t : W16) (s : State) : Result := .next (s.ownerWrite n (fun s => s.wDoorbell pg t))

/-! ## Ethernet messages (R162) -/

/-- The message that a datagram's bytes spell; fewer than its 20 header bytes spell none. -/
def Datagram.ofBytes (bs : List Byte) : Option Datagram :=
  if bs.length < 20 then none
  else some { typ := bs.getD 0 0, status := bs.getD 1 0, req := BitVec.ofNat 32 (lb bs 4 4), off := lb bs 8 8, len := lb bs 16 2, data := bs.drop 20 }

/-- A message as a datagram's bytes. -/
def Datagram.bytes (m : Datagram) : List Byte :=
  [m.typ, m.status, 0, 0] ++ toBytes 4 m.req ++ toBytes 8 (BitVec.ofNat 64 m.off) ++ toBytes 2 (BitVec.ofNat 16 m.len) ++ [0, 0] ++ m.data

/-- Whether a message's offset, length and data fit its type. -/
def Datagram.good (m : Datagram) : Bool :=
  decide (m.typ = 4) ||
  ((decide (m.typ = 1) || decide (m.typ = 2)) && decide (m.off % 4 = 0) && decide (4 ≤ m.len) && decide (m.len ≤ 1024) && decide (m.len % 4 = 0) &&
   (decide (m.typ = 1) || decide (m.data.length = m.len)))

/-- READ: 4-byte accesses in ascending order. -/
def State.readWords (s : State) (n off : Nat) : Nat → List Byte × State
  | 0 => ([], s)
  | k + 1 =>
    let r := s.hostRead n off
    let t := r.2.readWords n (off + 4) k
    (toBytes 4 r.1 ++ t.1, t.2)

/-- WRITE: 4-byte accesses in ascending order; the flag says that one was ignored. -/
def State.writeWords (s : State) (n off : Nat) : List Byte → Nat → Bool × State
  | _, 0 => (false, s)
  | bs, k + 1 =>
    let r := if s.isOwner n then s.hostWrite n off (ofBytes 32 (bs.take 4)) else none
    let t := (r.getD (s.ignoreBy n)).writeWords n (off + 4) (bs.drop 4) k
    (r.isNone || t.1, t.2)

/-- Sends a response and keeps it among the last 64. -/
def State.respond (s : State) (n : Nat) (m : Datagram) (status : Byte) (data : List Byte) : State :=
  let r : Datagram := { typ := 3, status := status, req := m.req, off := m.off, len := m.len, data := data }
  (s.modSession n (fun x => { x with seen := keepLast 64 (x.seen ++ [(m.req, r)]) })).emit (.datagram n (Datagram.bytes r))

/-- A message on an open Ethernet session: answered from the record when its number is among the last 64. -/
def State.message (s : State) (n : Nat) (m : Datagram) (typ : Byte) (act : State → State) : State :=
  if n < 2 ∨ ¬ (s.session n).isOpen ∨ s.dealers.takeover ≠ .none then s
  else match (s.session n).seen.find? (fun x => x.1 = m.req) with
    | some x => s.emit (.datagram n (Datagram.bytes x.2))
    | none => if ¬ Datagram.good m then s.respond n m 2 [] else if m.typ = typ then act s else s

/-- A datagram's message; bytes that spell none are ignored, and counted (R15). -/
def State.datagram (s : State) (n : Nat) (bs : List Byte) (f : Datagram → State) : State :=
  match Datagram.ofBytes bs with
  | some m => f m
  | none => if n < 2 ∨ ¬ (s.session n).isOpen ∨ s.dealers.takeover ≠ .none then s else s.ignore

/-- SESSION_READ (R162). -/
def execSessionRead (n : Fin 8) (msg : List Byte) (s : State) : Result :=
  .next (s.datagram n msg (fun m => s.message n m 1 (fun s => let r := s.readWords n m.off (m.len / 4); r.2.respond n m 0 r.1)))

/-- SESSION_WRITE (R162). -/
def execSessionWrite (n : Fin 8) (msg : List Byte) (s : State) : Result :=
  .next (s.datagram n msg (fun m => s.message n m 2 (fun s =>
    let r := s.writeWords n m.off m.data (m.len / 4); r.2.respond n m (if r.1 then 1 else 0) [])))

/-- SESSION_HEARTBEAT (R162). -/
def execSessionHeartbeat (n : Fin 8) (msg : List Byte) (s : State) : Result :=
  .next (s.datagram n msg (fun m => s.message n m 4 (fun s => s.respond n m 0 [])))

/-! ## MCTP (R164) -/

/-- MCTP_MESSAGE: reads of the identity block change nothing, writes are ignored, SPDM goes to the Assayer. -/
def execMctpMessage (m : MctpMsg) (s : State) : Result :=
  .next (match m with
    | .read off => s.emit (.mctp (toBytes 4 (if off < 0x100000 then s.hostWord false off else 0)))
    | .write _ _ => s
    | .spdm bs => s.spdmAnswer bs
    | .partialMsg => s.setOwn (fun o => { o with mctpDrop := satInc o.mctpDrop }))

/-- MCTP_TIMEOUT: more than 100 ms between packets. -/
def execMctpTimeout (s : State) : Result := .next (s.setOwn (fun o => { o with mctpDrop := satInc o.mctpDrop }))

end Sys2Proof.Machine
end

