-- ==== Sys2Proof/Machine/HostCmds.lean ====
section
/-! DEFINITION. The host commands of a ring: how the next one starts, what each does, and its completion record
(R145, R170–R174, R186, R195). -/

namespace Sys2Proof.Machine

/-! ## Completions (R170, R173) -/

/-- The 16 bytes of a completion record (R173). -/
def completionRecord (tag : W32) (op status : Byte) (result : W64) : List Byte :=
  toBytes 4 tag ++ [op, status, 0, 0] ++ toBytes 8 result

/-- A completion: written at once, or kept until its ring has room (R173). -/
def State.complete (s : State) (n : Nat) (done : Nat) (rec_ : List Byte) : State :=
  if (s.session n).cplFull then s.modSession n (fun (y : Session) => { y with owed := some (done, rec_), cur := none })
  else s.putCompletion n done rec_

/-- HOST_COMMAND_START: the oldest accepted descriptor starts once the command before it is complete and the completion
ring has room; a discarded run of descriptors completes with BAD_DESC (R170, R173). In a takeover gap none starts (R187). -/
def execHostCommandStart (n : Fin 8) (s : State) : Result :=
  .next (
    let x := s.session n
    if s.dealers.takeover ≠ .none ∨ x.cur.isSome ∨ x.owed.isSome ∨ x.cplFull then s
    else match x.taken with
      | [] => s
      | .cmd i d :: rest => s.modSession n (fun (y : Session) => { y with taken := rest, cur := some (i, d) })
      | .bad i next :: rest =>
        (s.modSession n (fun (y : Session) => { y with taken := rest })).complete n next
          (completionRecord 0xFFFFFFFF 0 4 (BitVec.ofNat 64 i)))

/-! ## Commands (R172) -/

/-- The parts of a descriptor (R169). -/
def descOp (d : BitVec 512) : Byte := byteField d 0 8
def descTag (d : BitVec 512) : W32 := byteField d 4 32
def descNat (d : BitVec 512) (i n : Nat) : Nat := (byteField d i (8 * n) : BitVec (8 * n)).toNat
/-- Reserved bytes 1–3 and 56–59 are 0. -/
def descClean (d : BitVec 512) : Bool := decide (descNat d 1 3 = 0) && decide (descNat d 56 4 = 0)

/-- What a command answers: nothing yet, or its status, its result and the state it leaves. -/
abbrev CmdAnswer := Option (Byte × W64 × State)

def cmdOk (s : State) : CmdAnswer := some (0, 0, s)
def cmdBad (s : State) : CmdAnswer := some (2, 0, s)

/-- An op that R172 does not list. -/
def opReserved (op : Byte) : Bool := decide (op = 0 ∨ 0x0D < op.toNat)

/-- Runs the ring's current command when its op is the one asked about; BAD_ARG for a reserved byte that is not 0. -/
def State.hostCmd (s : State) (n : Nat) (isOp : Byte → Bool) (f : State → BitVec 512 → CmdAnswer) : State :=
  match (s.session n).cur with
  | none => s
  | some (i, d) =>
    if ¬ isOp (descOp d) ∨ s.dealers.takeover ≠ .none then s
    else
      match (if descClean d ∨ opReserved (descOp d) then f s d else cmdBad s) with
      | none => s
      | some (st, res, s') =>
        s'.complete n ((i + 1) % ringSize (s.session n).cqOrder) (completionRecord (descTag d) (descOp d) st res)

/-- LOADI's range is free: no context that runs or waits has its PC in it. -/
def State.rangeFree (s : State) (first count : Nat) : Bool :=
  (List.range 16).all (fun c =>
    let x := s.ctx c
    !(decide (x.run = .running) || decide (x.run = .waiting)) || decide (x.pc < first) || decide (first + count ≤ x.pc))

/-- Writes instructions to the store and journals them. -/
def State.loadInstr (s : State) (first : Nat) : List W64 → State
  | [] => s
  | w :: ws =>
    State.loadInstr (({ s with dealers := { s.dealers with core := { s.dealers.core with
      istore := SMap.set z64 s.dealers.core.istore first w } } }).journal (.istore first w)) (first + 1) ws

/-- Reads n instructions of the depot, 8 bytes each, little-endian. -/
def State.instrAt (s : State) (a : Nat) : Nat → List W64
  | 0 => []
  | n + 1 => ofBytes 64 (s.depRead a 8) :: State.instrAt s (a + 8) n

/-- LOADI. -/
def State.cmdLoadi (s : State) (d : BitVec 512) : CmdAnswer :=
  let a := descNat d 8 8
  let first := descNat d 16 4
  let count := descNat d 20 4
  if count = 0 ∨ istoreSize < count ∨ istoreSize < first + count ∨ ¬ s.inDepot a (8 * count) then cmdBad s
  else if s.badLine a (8 * count) then some (0x0A, 0, s)
  else if ¬ s.rangeFree first count then none
  else cmdOk (s.loadInstr first (s.instrAt a count))

/-- The range of DLOAD and DSAVE, when it is well formed. -/
def State.copyRange (s : State) (d : BitVec 512) : Option (Nat × Nat × Nat) :=
  let a := descNat d 8 8
  let t := descNat d 16 4
  let n := descNat d 20 4
  if t % 64 ≠ 0 ∨ n % 64 ≠ 0 ∨ n = 0 ∨ ¬ inDs t n ∨ ¬ s.inDepot a n then none else some (a, t, n)

/-- DLOAD. -/
def State.cmdDload (s : State) (d : BitVec 512) : CmdAnswer :=
  match s.copyRange d with
  | none => cmdBad s
  | some (a, t, n) => if s.badLine a n then some (0x0A, 0, s) else cmdOk (s.dsWrite t (s.depRead a n))

/-- DSAVE. -/
def State.cmdDsave (s : State) (d : BitVec 512) : CmdAnswer :=
  match s.copyRange d with
  | none => cmdBad s
  | some (a, t, n) => cmdOk (s.depWrite a (s.dsRead t n))

/-- START. -/
def State.cmdStart (s : State) (d : BitVec 512) : CmdAnswer :=
  let c := descNat d 8 1
  let prio := descNat d 9 1
  let entry := descNat d 12 4
  if 16 ≤ c ∨ 4 ≤ prio ∨ istoreSize ≤ entry then cmdBad s
  else if (s.ctx c).run = .running ∨ (s.ctx c).run = .waiting then some (1, 0, s)
  else some (0, BitVec.ofNat 64 c, s.startCtx c entry (BitVec.ofNat 2 prio) ((toBytes 64 d).extract 16 48) 0 0)

/-- STOP. -/
def State.cmdStop (s : State) (d : BitVec 512) : CmdAnswer :=
  let c := descNat d 8 1
  if 16 ≤ c then cmdBad s else cmdOk (s.stopCtx c)

/-- CLEAR. -/
def State.cmdClear (s : State) (d : BitVec 512) : CmdAnswer :=
  let c := descNat d 8 1
  if 16 ≤ c then cmdBad s
  else if (s.ctx c).run ≠ .halted then some (1, 0, s)
  else cmdOk ((s.modCtx c (fun (x : Context) => { x with run := .idle })).journalCtx c)

/-- R174: the event code is one of R175's, the mask names a context, the entry lies in the store, reserved bits are 0. -/
def Binding.good (b : Binding) : Bool :=
  decide (1 ≤ b.code.toNat ∧ b.code.toNat ≤ 0x16) && decide (b.mask ≠ 0) && decide (bitsAt b 81 15 = (0 : BitVec 15)) &&
    decide (bitsAt b 10 6 = (0 : BitVec 6)) && decide (bitsAt b 98 6 = (0 : BitVec 6)) && decide (byteField b 13 8 = (0 : Byte))

/-- BINDR. -/
def State.cmdBindr (s : State) (d : BitVec 512) : CmdAnswer :=
  let i := descNat d 8 1
  let b : Binding := byteField d 16 128
  if Binding.good b then cmdOk ((s.setBinding i b).stream (.binding (Fin.ofNat 256 i) b)) else cmdBad s

/-- UNBINDR: dispatches pending for the slot are dropped. -/
def State.cmdUnbindr (s : State) (d : BitVec 512) : CmdAnswer :=
  let i := descNat d 8 1
  let gone := s.reflex.pend.filter (fun x => decide (x.slot = i))
  let s := { s with reflex := { s.reflex with pend := s.reflex.pend.filter (fun x => decide (x.slot ≠ i)) } }
  let s := gone.foldl (fun s x => s.stream (.pendingTake x.raw)) s
  cmdOk ((s.setBinding i 0).stream (.binding (Fin.ofNat 256 i) 0))

/-- PLAN. -/
def State.cmdPlan (s : State) (d : BitVec 512) : CmdAnswer :=
  let a := descNat d 8 8
  let n := descNat d 16 4
  if ¬ s.isActive then some (8, 0, s)
  else if ¬ s.inDepot a n then cmdBad s
  else if s.badLine a n then some (0x0A, 0, s)
  else
    let bs := s.depRead a n
    match s.checkPlan bs with
    | .ok p => cmdOk ((s.bindPlan p).stream (.plan bs))
    | .bad st i => some (st, BitVec.ofNat 64 i, s)

/-- R145: an agent list in the depot. -/
def State.depotList (s : State) (a : Nat) : Option (List W16) :=
  if ¬ s.inDepot a 8 then none
  else
    let n := s.depLE a 2
    if n = 0 ∨ 9216 < n ∨ s.depLE (a + 2) 6 ≠ 0 ∨ ¬ s.inDepot a (8 * (1 + (n + 3) / 4)) then none
    else some ((List.range n).map (fun i => BitVec.ofNat 16 (s.depLE (a + 8 + 2 * i) 2)))

/-- KITTY. -/
def State.cmdKitty (s : State) (d : BitVec 512) : CmdAnswer :=
  let a := descNat d 8 8
  if ¬ s.isActive then some (8, 0, s)
  else if s.badLine a 8 then some (0x0A, 0, s)
  else match s.depotList a with
    | none => cmdBad s
    | some ids =>
      if s.badLine a (8 * (1 + (ids.length + 3) / 4)) then some (0x0A, 0, s)
      else
        let l := ids.foldl (fun m x => insertId x m) []
        cmdOk ({ s with fab := { s.fab with kitty := l } }.stream (.kitty l))

/-- Journals every RUNNING context where issue has stopped it (R186). -/
def State.journalRunning (s : State) : State :=
  (List.range 16).foldl (fun s c => if (s.ctx c).run = .running then s.journalCtx c else s) s

/-- HANDOVER: issue stops; at the instruction boundary, with every record applied, the takeover begins (R186). Without a
standby it is BUSY. -/
def State.cmdHandover (s : State) : CmdAnswer :=
  if ¬ s.dealers.standby ∨ s.dealers.handover then some (1, 0, s)
  else cmdOk ({ s with dealers := { s.dealers with handover := true } } : State).journalRunning.handOver

/-- SOLO. -/
def State.cmdSolo (s : State) (d : BitVec 512) : CmdAnswer :=
  if ¬ s.isActive then some (8, 0, s)
  else match descNat d 8 1 with
    | 0 => cmdOk (s.setPair (fun p => { p with solo := .off }))
    | 1 => cmdOk (s.setPair (fun p => { p with solo := .cmd }))
    | _ => cmdBad s

/-- RESUME: only a fenced package without a RENEW for 20 ms takes the pod (R193, R195). -/
def State.cmdResume (s : State) : CmdAnswer :=
  let quiet : Bool := match s.pair.renewAt with
    | none => true
    | some t => decide (t + 20000 ≤ s.us)
  if s.pair.fenced ∧ quiet = true then cmdOk (s.takePod (s.vbat.cepoch + 1) 3) else some (9, 0, s)

/-! ## The rows -/

def execLoadi (n : Fin 8) (s : State) : Result := .next (s.hostCmd n (· = 0x01) State.cmdLoadi)
def execDload (n : Fin 8) (s : State) : Result := .next (s.hostCmd n (· = 0x02) State.cmdDload)
def execDsave (n : Fin 8) (s : State) : Result := .next (s.hostCmd n (· = 0x03) State.cmdDsave)
def execStart (n : Fin 8) (s : State) : Result := .next (s.hostCmd n (· = 0x04) State.cmdStart)
def execStop (n : Fin 8) (s : State) : Result := .next (s.hostCmd n (· = 0x05) State.cmdStop)
def execClear (n : Fin 8) (s : State) : Result := .next (s.hostCmd n (· = 0x06) State.cmdClear)
def execBindr (n : Fin 8) (s : State) : Result := .next (s.hostCmd n (· = 0x07) State.cmdBindr)
def execUnbindr (n : Fin 8) (s : State) : Result := .next (s.hostCmd n (· = 0x08) State.cmdUnbindr)
def execPlan (n : Fin 8) (s : State) : Result := .next (s.hostCmd n (· = 0x09) State.cmdPlan)
def execKitty (n : Fin 8) (s : State) : Result := .next (s.hostCmd n (· = 0x0A) State.cmdKitty)
def execHandover (n : Fin 8) (s : State) : Result := .next (s.hostCmd n (· = 0x0B) (fun s _ => s.cmdHandover))
def execSolo (n : Fin 8) (s : State) : Result := .next (s.hostCmd n (· = 0x0C) State.cmdSolo)
def execResume (n : Fin 8) (s : State) : Result := .next (s.hostCmd n (· = 0x0D) (fun s _ => s.cmdResume))

/-- BAD_OP: any op not listed in R172. -/
def execBadOp (n : Fin 8) (s : State) : Result :=
  .next (s.hostCmd n opReserved (fun s _ => some (3, 0, s)))

end Sys2Proof.Machine
end

