-- ==== Sys2Proof/Machine/Dispatch.lean ====
section
/-! DEFINITION. One arm per command of the opcode table, each a direct call of its meaning. -/

namespace Sys2Proof.Machine

/-- The effect of a command on everything but the queue. -/
def exec (i : Instr) (s : State) : Host.Outcome State Fault Refusal :=
  match i with
  | .regWrite n off v => Sys2Proof.Machine.execRegWrite n off v s
  | .ignoredClr n v => Sys2Proof.Machine.execIgnoredClr n v s
  | .depotApertureAccess n off v => Sys2Proof.Machine.execDepotApertureAccess n off v s
  | .flitArrival a p f => Sys2Proof.Machine.execFlitArrival a p f s
  | .outputAllocation a => Sys2Proof.Machine.execOutputAllocation a s
  | .hostOffer a f => Sys2Proof.Machine.execHostOffer a f s
  | .flitAdmit a => Sys2Proof.Machine.execFlitAdmit a s
  | .ejectRemove a b => Sys2Proof.Machine.execEjectRemove a b s
  | .ejectStall a b => Sys2Proof.Machine.execEjectStall a b s
  | .pathLatchExpire a src seq => Sys2Proof.Machine.execPathLatchExpire a src seq s
  | .retxTimeout a dest seq => Sys2Proof.Machine.execRetxTimeout a dest seq s
  | .requestAbandon a dest seq => Sys2Proof.Machine.execRequestAbandon a dest seq s
  | .mgmtSinkConsume a => Sys2Proof.Machine.execMgmtSinkConsume a s
  | .frameStart who => Sys2Proof.Machine.execFrameStart who s
  | .syncExchange who frame => Sys2Proof.Machine.execSyncExchange who frame s
  | .syncLost a => Sys2Proof.Machine.execSyncLost a s
  | .slotExchange a => Sys2Proof.Machine.execSlotExchange a s
  | .convoyOffer a q f => Sys2Proof.Machine.execConvoyOffer a q f s
  | .telemetryWindow a meas => Sys2Proof.Machine.execTelemetryWindow a meas s
  | .congestionRecord f => Sys2Proof.Machine.execCongestionRecord f s
  | .agentTimeout id => Sys2Proof.Machine.execAgentTimeout id s
  | .summaryEntry => Sys2Proof.Machine.execSummaryEntry s
  | .drained a => Sys2Proof.Machine.execDrained a s
  | .counterLowRead a ctrl k => Sys2Proof.Machine.execCounterLowRead a ctrl k s
  | .localWrite a off v => Sys2Proof.Machine.execLocalWrite a off v s
  | .idLock a => Sys2Proof.Machine.execIdLock a s
  | .slotFWrite a v => Sys2Proof.Machine.execSlotFWrite a v s
  | .laneSignalLoss who p => Sys2Proof.Machine.execLaneSignalLoss who p s
  | .fecUncorrLimit who p => Sys2Proof.Machine.execFecUncorrLimit who p s
  | .linkIdle who p => Sys2Proof.Machine.execLinkIdle who p s
  | .downSetReceived who p => Sys2Proof.Machine.execDownSetReceived who p s
  | .linkTrained who p peer pport flight => Sys2Proof.Machine.execLinkTrained who p peer pport flight s
  | .trumpReceive who inp f => Sys2Proof.Machine.execTrumpReceive who inp f s
  | .trumpFilterExpire who d => Sys2Proof.Machine.execTrumpFilterExpire who d s
  | .cardPlay a => Sys2Proof.Machine.execCardPlay a s
  | .commandPiece a => Sys2Proof.Machine.execCommandPiece a s
  | .cmdProbe a => Sys2Proof.Machine.execCmdProbe a s
  | .cmdAgentRead a => Sys2Proof.Machine.execCmdAgentRead a s
  | .cmdAgentWrite a => Sys2Proof.Machine.execCmdAgentWrite a s
  | .cmdGate a => Sys2Proof.Machine.execCmdGate a s
  | .cmdUngate a => Sys2Proof.Machine.execCmdUngate a s
  | .cmdSwap a => Sys2Proof.Machine.execCmdSwap a s
  | .cmdExchange a => Sys2Proof.Machine.execCmdExchange a s
  | .cmdLoad a => Sys2Proof.Machine.execCmdLoad a s
  | .cmdArm a => Sys2Proof.Machine.execCmdArm a s
  | .cmdDisarm a => Sys2Proof.Machine.execCmdDisarm a s
  | .cmdUnfence a => Sys2Proof.Machine.execCmdUnfence a s
  | .cmdRelease a => Sys2Proof.Machine.execCmdRelease a s
  | .cmdQuarantine a => Sys2Proof.Machine.execCmdQuarantine a s
  | .cmdBind a => Sys2Proof.Machine.execCmdBind a s
  | .cmdPfence a => Sys2Proof.Machine.execCmdPfence a s
  | .cmdPreset a => Sys2Proof.Machine.execCmdPreset a s
  | .cmdPunfence a => Sys2Proof.Machine.execCmdPunfence a s
  | .cmdUcodeOpen a => Sys2Proof.Machine.execCmdUcodeOpen a s
  | .cmdUcodePatch a => Sys2Proof.Machine.execCmdUcodePatch a s
  | .cmdUcodeCommit a => Sys2Proof.Machine.execCmdUcodeCommit a s
  | .cmdSecMsg a => Sys2Proof.Machine.execCmdSecMsg a s
  | .cmdBankcopy a => Sys2Proof.Machine.execCmdBankcopy a s
  | .cmdReservedOpcode a => Sys2Proof.Machine.execCmdReservedOpcode a s
  | .ucodeSwitch a => Sys2Proof.Machine.execUcodeSwitch a s
  | .ucodeSelftest a pass => Sys2Proof.Machine.execUcodeSelftest a pass s
  | .secUpMessage a msg => Sys2Proof.Machine.execSecUpMessage a msg s
  | .partFenceAck a p => Sys2Proof.Machine.execPartFenceAck a p s
  | .fenceAckTimeout a p => Sys2Proof.Machine.execFenceAckTimeout a p s
  | .drainWindowEnd a p => Sys2Proof.Machine.execDrainWindowEnd a p s
  | .partFenceAckLow a p => Sys2Proof.Machine.execPartFenceAckLow a p s
  | .partRstDone a p => Sys2Proof.Machine.execPartRstDone a p s
  | .resetLimitExpire a p => Sys2Proof.Machine.execResetLimitExpire a p s
  | .katWrite a p v => Sys2Proof.Machine.execKatWrite a p v s
  | .partStateWrite a p v => Sys2Proof.Machine.execPartStateWrite a p v s
  | .partTick a p => Sys2Proof.Machine.execPartTick a p s
  | .watchdogExpire a p => Sys2Proof.Machine.execWatchdogExpire a p s
  | .downMessageWrite a v => Sys2Proof.Machine.execDownMessageWrite a v s
  | .upSend a => Sys2Proof.Machine.execUpSend a s
  | .upDataWrite a k v => Sys2Proof.Machine.execUpDataWrite a k v s
  | .mbxClaimRead a ctrl => Sys2Proof.Machine.execMbxClaimRead a ctrl s
  | .mbxRelease a ctrl => Sys2Proof.Machine.execMbxRelease a ctrl s
  | .mbxRing a ctrl => Sys2Proof.Machine.execMbxRing a ctrl s
  | .mbxDone a ctrl => Sys2Proof.Machine.execMbxDone a ctrl s
  | .mbxDataWrite a ctrl k v => Sys2Proof.Machine.execMbxDataWrite a ctrl k v s
  | .mbxLeaseExpire a => Sys2Proof.Machine.execMbxLeaseExpire a s
  | .fwBoot a => Sys2Proof.Machine.execFwBoot a s
  | .uciBr c => Sys2Proof.Machine.execUciBr c s
  | .uciCall c => Sys2Proof.Machine.execUciCall c s
  | .uciRet c => Sys2Proof.Machine.execUciRet c s
  | .uciWaitt c => Sys2Proof.Machine.execUciWaitt c s
  | .uciSigt c => Sys2Proof.Machine.execUciSigt c s
  | .uciYield c => Sys2Proof.Machine.execUciYield c s
  | .uciHalt c => Sys2Proof.Machine.execUciHalt c s
  | .uciNop c => Sys2Proof.Machine.execUciNop c s
  | .uciMovi c => Sys2Proof.Machine.execUciMovi c s
  | .uciAdd c => Sys2Proof.Machine.execUciAdd c s
  | .uciAddi c => Sys2Proof.Machine.execUciAddi c s
  | .uciSub c => Sys2Proof.Machine.execUciSub c s
  | .uciAnd c => Sys2Proof.Machine.execUciAnd c s
  | .uciOr c => Sys2Proof.Machine.execUciOr c s
  | .uciXor c => Sys2Proof.Machine.execUciXor c s
  | .uciShl c => Sys2Proof.Machine.execUciShl c s
  | .uciShr c => Sys2Proof.Machine.execUciShr c s
  | .uciCmp c => Sys2Proof.Machine.execUciCmp c s
  | .uciCmpi c => Sys2Proof.Machine.execUciCmpi c s
  | .uciLd c => Sys2Proof.Machine.execUciLd c s
  | .uciSt c => Sys2Proof.Machine.execUciSt c s
  | .uciCopy c => Sys2Proof.Machine.execUciCopy c s
  | .uciRds c => Sys2Proof.Machine.execUciRds c s
  | .uciWrs c => Sys2Proof.Machine.execUciWrs c s
  | .illegalInstruction c => Sys2Proof.Machine.execIllegalInstruction c s
  | .contextFault c ecc => Sys2Proof.Machine.execContextFault c ecc s
  | .uciProbe c => Sys2Proof.Machine.execUciProbe c s
  | .uciTrain c => Sys2Proof.Machine.execUciTrain c s
  | .uciFence c => Sys2Proof.Machine.execUciFence c s
  | .uciUnfence c => Sys2Proof.Machine.execUciUnfence c s
  | .uciDrain c => Sys2Proof.Machine.execUciDrain c s
  | .uciInstall c => Sys2Proof.Machine.execUciInstall c s
  | .uciSwap c => Sys2Proof.Machine.execUciSwap c s
  | .uciArm c => Sys2Proof.Machine.execUciArm c s
  | .uciPlay c => Sys2Proof.Machine.execUciPlay c s
  | .uciCut c => Sys2Proof.Machine.execUciCut c s
  | .uciClose c => Sys2Proof.Machine.execUciClose c s
  | .uciPreset c => Sys2Proof.Machine.execUciPreset c s
  | .uciFold c => Sys2Proof.Machine.execUciFold c s
  | .uciDraw c => Sys2Proof.Machine.execUciDraw c s
  | .uciBind c => Sys2Proof.Machine.execUciBind c s
  | .uciAdmit c => Sys2Proof.Machine.execUciAdmit c s
  | .uciAcmd c => Sys2Proof.Machine.execUciAcmd c s
  | .uciSnap c => Sys2Proof.Machine.execUciSnap c s
  | .uciGuard c => Sys2Proof.Machine.execUciGuard c s
  | .uciDigest c => Sys2Proof.Machine.execUciDigest c s
  | .uciSeal c => Sys2Proof.Machine.execUciSeal c s
  | .uciDraincp c => Sys2Proof.Machine.execUciDraincp c s
  | .uciLaunch c => Sys2Proof.Machine.execUciLaunch c s
  | .uciJoin c => Sys2Proof.Machine.execUciJoin c s
  | .uciRetire c => Sys2Proof.Machine.execUciRetire c s
  | .uciQpush c => Sys2Proof.Machine.execUciQpush c s
  | .uciQpop c => Sys2Proof.Machine.execUciQpop c s
  | .uciTally c => Sys2Proof.Machine.execUciTally c s
  | .uciSettle c => Sys2Proof.Machine.execUciSettle c s
  | .uciMbx c => Sys2Proof.Machine.execUciMbx c s
  | .uciAttest c => Sys2Proof.Machine.execUciAttest c s
  | .uciKeyload c => Sys2Proof.Machine.execUciKeyload c s
  | .uciKeyerase c => Sys2Proof.Machine.execUciKeyerase c s
  | .uciScrub c => Sys2Proof.Machine.execUciScrub c s
  | .uciLend c => Sys2Proof.Machine.execUciLend c s
  | .uciWave c => Sys2Proof.Machine.execUciWave c s
  | .insnTimeout c => Sys2Proof.Machine.execInsnTimeout c s
  | .cmdResponse f => Sys2Proof.Machine.execCmdResponse f s
  | .cmdResend c k => Sys2Proof.Machine.execCmdResend c k s
  | .cmdIssue c k => Sys2Proof.Machine.execCmdIssue c k s
  | .ctimerExpire c => Sys2Proof.Machine.execCtimerExpire c s
  | .noticeReceive f => Sys2Proof.Machine.execNoticeReceive f s
  | .heartbeat => Sys2Proof.Machine.execHeartbeat s
  | .heartbeatMiss => Sys2Proof.Machine.execHeartbeatMiss s
  | .startCheckDone pass => Sys2Proof.Machine.execStartCheckDone pass s
  | .takeoverDeadline => Sys2Proof.Machine.execTakeoverDeadline s
  | .journalApply => Sys2Proof.Machine.execJournalApply s
  | .standbyReloadDone => Sys2Proof.Machine.execStandbyReloadDone s
  | .pcieLinkUp b => Sys2Proof.Machine.execPcieLinkUp b s
  | .pcieLinkDownExpire b => Sys2Proof.Machine.execPcieLinkDownExpire b s
  | .dtlsHandshake port peer cert => Sys2Proof.Machine.execDtlsHandshake port peer cert s
  | .dtlsResume n port => Sys2Proof.Machine.execDtlsResume n port s
  | .dtlsCloseNotify n => Sys2Proof.Machine.execDtlsCloseNotify n s
  | .sessionLeaseExpire n => Sys2Proof.Machine.execSessionLeaseExpire n s
  | .sessionRead n m => Sys2Proof.Machine.execSessionRead n m s
  | .sessionWrite n m => Sys2Proof.Machine.execSessionWrite n m s
  | .sessionHeartbeat n m => Sys2Proof.Machine.execSessionHeartbeat n m s
  | .mctpMessage m => Sys2Proof.Machine.execMctpMessage m s
  | .mctpTimeout => Sys2Proof.Machine.execMctpTimeout s
  | .ownerClaim n => Sys2Proof.Machine.execOwnerClaim n s
  | .leaseLeftRead n => Sys2Proof.Machine.execLeaseLeftRead n s
  | .grant n v => Sys2Proof.Machine.execGrant n v s
  | .twinSet n v => Sys2Proof.Machine.execTwinSet n v s
  | .ownerLeaseExpire => Sys2Proof.Machine.execOwnerLeaseExpire s
  | .ringConfigWrite n pg off v => Sys2Proof.Machine.execRingConfigWrite n pg off v s
  | .noticeRingConfigWrite n pg off v => Sys2Proof.Machine.execNoticeRingConfigWrite n pg off v s
  | .cqDoorbell n pg t => Sys2Proof.Machine.execCqDoorbell n pg t s
  | .hostCommandStart n => Sys2Proof.Machine.execHostCommandStart n s
  | .loadi n => Sys2Proof.Machine.execLoadi n s
  | .dload n => Sys2Proof.Machine.execDload n s
  | .dsave n => Sys2Proof.Machine.execDsave n s
  | .start n => Sys2Proof.Machine.execStart n s
  | .stop n => Sys2Proof.Machine.execStop n s
  | .clear n => Sys2Proof.Machine.execClear n s
  | .bindr n => Sys2Proof.Machine.execBindr n s
  | .unbindr n => Sys2Proof.Machine.execUnbindr n s
  | .plan n => Sys2Proof.Machine.execPlan n s
  | .kitty n => Sys2Proof.Machine.execKitty n s
  | .handover n => Sys2Proof.Machine.execHandover n s
  | .solo n => Sys2Proof.Machine.execSolo n s
  | .resume n => Sys2Proof.Machine.execResume n s
  | .badOp n => Sys2Proof.Machine.execBadOp n s
  | .eventDispatch => Sys2Proof.Machine.execEventDispatch s
  | .pendingDispatchStart => Sys2Proof.Machine.execPendingDispatchStart s
  | .runLimitExpire c => Sys2Proof.Machine.execRunLimitExpire c s
  | .tick => Sys2Proof.Machine.execTick s
  | .renewSend => Sys2Proof.Machine.execRenewSend s
  | .pairRenew wire fr => Sys2Proof.Machine.execPairRenew wire fr s
  | .pairAck wire fr => Sys2Proof.Machine.execPairAck wire fr s
  | .pairYield wire fr => Sys2Proof.Machine.execPairYield wire fr s
  | .pairAbsent wire fr => Sys2Proof.Machine.execPairAbsent wire fr s
  | .activeLeaseExpire => Sys2Proof.Machine.execActiveLeaseExpire s
  | .standbyLeaseExpire => Sys2Proof.Machine.execStandbyLeaseExpire s
  | .mirrorUpdate rx => Sys2Proof.Machine.execMirrorUpdate rx s
  | .stiStream e => Sys2Proof.Machine.execStiStream e s
  | .stiMode e => Sys2Proof.Machine.execStiMode e s
  | .stiGeom e => Sys2Proof.Machine.execStiGeom e s
  | .stiShcfg e => Sys2Proof.Machine.execStiShcfg e s
  | .stiDivring e => Sys2Proof.Machine.execStiDivring e s
  | .stiOpnd e => Sys2Proof.Machine.execStiOpnd e s
  | .stiObmp e => Sys2Proof.Machine.execStiObmp e s
  | .stiOutd e => Sys2Proof.Machine.execStiOutd e s
  | .stiOaux e => Sys2Proof.Machine.execStiOaux e s
  | .stiMove e => Sys2Proof.Machine.execStiMove e s
  | .stiLds e => Sys2Proof.Machine.execStiLds e s
  | .stiPrefetch e => Sys2Proof.Machine.execStiPrefetch e s
  | .stiModel e => Sys2Proof.Machine.execStiModel e s
  | .stiTile e => Sys2Proof.Machine.execStiTile e s
  | .stiRun e => Sys2Proof.Machine.execStiRun e s
  | .stiBytes e => Sys2Proof.Machine.execStiBytes e s
  | .stiGfcoef e => Sys2Proof.Machine.execStiGfcoef e s
  | .stiLayout e => Sys2Proof.Machine.execStiLayout e s
  | .stiHashcfg e => Sys2Proof.Machine.execStiHashcfg e s
  | .stiTwait e => Sys2Proof.Machine.execStiTwait e s
  | .stiTsig e => Sys2Proof.Machine.execStiTsig e s
  | .stiSeti e => Sys2Proof.Machine.execStiSeti e s
  | .stiAdd e => Sys2Proof.Machine.execStiAdd e s
  | .stiAddi e => Sys2Proof.Machine.execStiAddi e s
  | .stiMuli e => Sys2Proof.Machine.execStiMuli e s
  | .stiLoop e => Sys2Proof.Machine.execStiLoop e s
  | .stiEndl e => Sys2Proof.Machine.execStiEndl e s
  | .stiNop e => Sys2Proof.Machine.execStiNop e s
  | .stiEnd e => Sys2Proof.Machine.execStiEnd e s
  | .tileComplete e => Sys2Proof.Machine.execTileComplete e s
  | .tileTimeout e => Sys2Proof.Machine.execTileTimeout e s
  | .streamFault e => Sys2Proof.Machine.execStreamFault e s
  | .scratchEccError e unc => Sys2Proof.Machine.execScratchEccError e unc s
  | .depotReadError e => Sys2Proof.Machine.execDepotReadError e s
  | .stationHwFail e => Sys2Proof.Machine.execStationHwFail e s
  | .engineScrubDone e ok => Sys2Proof.Machine.execEngineScrubDone e ok s
  | .katStreamDone e ok => Sys2Proof.Machine.execKatStreamDone e ok s
  | .waitLimitExpire e => Sys2Proof.Machine.execWaitLimitExpire e s
  | .programBroadcast dies img ver => Sys2Proof.Machine.execProgramBroadcast dies img ver s
  | .dieSleep d => Sys2Proof.Machine.execDieSleep d s
  | .wakeTokenGrant => Sys2Proof.Machine.execWakeTokenGrant s
  | .wakeTokenReturn => Sys2Proof.Machine.execWakeTokenReturn s
  | .dieAwake d => Sys2Proof.Machine.execDieAwake d s
  | .verifierJob => Sys2Proof.Machine.execVerifierJob s
  | .forecastBatch lib policy models => Sys2Proof.Machine.execForecastBatch lib policy models s
  | .deal image files deck policy place => Sys2Proof.Machine.execDeal image files deck policy place s
  | .followOnStaging repair => Sys2Proof.Machine.execFollowOnStaging repair s
  | .unhandedRepair d => Sys2Proof.Machine.execUnhandedRepair d s
  | .agentLossTrump d => Sys2Proof.Machine.execAgentLossTrump d s
  | .convoySchedule job => Sys2Proof.Machine.execConvoySchedule job s
  | .discoveryStart => Sys2Proof.Machine.execDiscoveryStart s
  | .hello f => Sys2Proof.Machine.execHello f s
  | .probeRetry k => Sys2Proof.Machine.execProbeRetry k s
  | .untrainedReprobe id p => Sys2Proof.Machine.execUntrainedReprobe id p s
  | .discoveryCompare => Sys2Proof.Machine.execDiscoveryCompare s
  | .darkPortPass => Sys2Proof.Machine.execDarkPortPass s
  | .drainLimitExpire c => Sys2Proof.Machine.execDrainLimitExpire c s
  | .partNotice => Sys2Proof.Machine.execPartNotice s
  | .restartTokenRefill dom => Sys2Proof.Machine.execRestartTokenRefill dom s
  | .presetHeldSend dom => Sys2Proof.Machine.execPresetHeldSend dom s
  | .budgetWrite n dom v => Sys2Proof.Machine.execBudgetWrite n dom v s
  | .returningUnbind id => Sys2Proof.Machine.execReturningUnbind id s
  | .tallyAdd f => Sys2Proof.Machine.execTallyAdd f s
  | .tallyRead f => Sys2Proof.Machine.execTallyRead f s
  | .tallyWait f => Sys2Proof.Machine.execTallyWait f s
  | .tallyWaitHoldExpire src seq => Sys2Proof.Machine.execTallyWaitHoldExpire src seq s
  | .tallyCountWrite n t v => Sys2Proof.Machine.execTallyCountWrite n t v s
  | .tallyConfigWrite n t v => Sys2Proof.Machine.execTallyConfigWrite n t v s
  | .settlementBoundary => Sys2Proof.Machine.execSettlementBoundary s
  | .settlementCall k => Sys2Proof.Machine.execSettlementCall k s
  | .settlementRecall k => Sys2Proof.Machine.execSettlementRecall k s
  | .settlementFinalize k => Sys2Proof.Machine.execSettlementFinalize k s
  | .report f => Sys2Proof.Machine.execReport f s
  | .queueDescriptorWrite n q off v => Sys2Proof.Machine.execQueueDescriptorWrite n q off v s
  | .queueHeadWrite n q v => Sys2Proof.Machine.execQueueHeadWrite n q v s
  | .queueTailWrite n q v => Sys2Proof.Machine.execQueueTailWrite n q v s
  | .waitEntryExpire q => Sys2Proof.Machine.execWaitEntryExpire q s
  | .ledgerMbxPost party m => Sys2Proof.Machine.execLedgerMbxPost party m s
  | .ledgerMbxTake party m => Sys2Proof.Machine.execLedgerMbxTake party m s
  | .deviceServerTake m => Sys2Proof.Machine.execDeviceServerTake m s
  | .ledgerMbxClaimRead party m => Sys2Proof.Machine.execLedgerMbxClaimRead party m s
  | .ledgerMbxRelease party m => Sys2Proof.Machine.execLedgerMbxRelease party m s
  | .ledgerMbxRing party m => Sys2Proof.Machine.execLedgerMbxRing party m s
  | .ledgerMbxDone party m => Sys2Proof.Machine.execLedgerMbxDone party m s
  | .ledgerMbxLeaseExpire m => Sys2Proof.Machine.execLedgerMbxLeaseExpire m s
  | .partyResetAbort party => Sys2Proof.Machine.execPartyResetAbort party s
  | .landingFlit port slot f => Sys2Proof.Machine.execLandingFlit port slot f s
  | .landingWindowClose k => Sys2Proof.Machine.execLandingWindowClose k s
  | .segmentDelivery k => Sys2Proof.Machine.execSegmentDelivery k s
  | .partTenantWrite n p v => Sys2Proof.Machine.execPartTenantWrite n p v s
  | .ledgerDieError b => Sys2Proof.Machine.execLedgerDieError b s
  | .spdmRequest req => Sys2Proof.Machine.execSpdmRequest req s
  | .setCertificate cert => Sys2Proof.Machine.execSetCertificate cert s
  | .provUnlock n => Sys2Proof.Machine.execProvUnlock n s
  | .provUnlockExpire => Sys2Proof.Machine.execProvUnlockExpire s
  | .rollfwd n => Sys2Proof.Machine.execRollfwd n s
  | .extendGo n => Sys2Proof.Machine.execExtendGo n s
  | .setGen n => Sys2Proof.Machine.execSetGen n s
  | .xferAllow n v => Sys2Proof.Machine.execXferAllow n v s
  | .xferReq n v => Sys2Proof.Machine.execXferReq n v s
  | .xferEnd r => Sys2Proof.Machine.execXferEnd r s
  | .releaseKeyExpire id => Sys2Proof.Machine.execReleaseKeyExpire id s
  | .mirrorRebuild => Sys2Proof.Machine.execMirrorRebuild s
  | .spdmSessionTimeout k => Sys2Proof.Machine.execSpdmSessionTimeout k s
  | .depotGrant n k => Sys2Proof.Machine.execDepotGrant n k s
  | .depotRelease n k => Sys2Proof.Machine.execDepotRelease n k s
  | .depotTenantWrite n k v => Sys2Proof.Machine.execDepotTenantWrite n k v s
  | .depotScrubDone => Sys2Proof.Machine.execDepotScrubDone s
  | .tamperAlarm cell => Sys2Proof.Machine.execTamperAlarm cell s
  | .tempAlarm high => Sys2Proof.Machine.execTempAlarm high s
  | .battLost => Sys2Proof.Machine.execBattLost s
  | .rtcSet n v => Sys2Proof.Machine.execRtcSet n v s
  | .monoInc n v => Sys2Proof.Machine.execMonoInc n v s
  | .heldClear n => Sys2Proof.Machine.execHeldClear n s
  | .sysReset => Sys2Proof.Machine.execSysReset s
  | .sysResetRelease => Sys2Proof.Machine.execSysResetRelease s
  | .por => Sys2Proof.Machine.execPor s
  | .perst b => Sys2Proof.Machine.execPerst b s
  | .dealerWatchdog b => Sys2Proof.Machine.execDealerWatchdog b s
  | .therm => Sys2Proof.Machine.execTherm s
  | .assayerErrorReset => Sys2Proof.Machine.execAssayerErrorReset s
  | .rstReq n v => Sys2Proof.Machine.execRstReq n v s
  | .peerReset cepoch => Sys2Proof.Machine.execPeerReset cepoch s
  | .brownout => Sys2Proof.Machine.execBrownout s
  | .domainReset dom => Sys2Proof.Machine.execDomainReset dom s
  | .pllLockTimeout dom => Sys2Proof.Machine.execPllLockTimeout dom s
  | .blockReset n v => Sys2Proof.Machine.execBlockReset n v s
  | .blockResetDone ok => Sys2Proof.Machine.execBlockResetDone ok s
  | .optionLoading r => Sys2Proof.Machine.execOptionLoading r s
  | .assayerBoot r => Sys2Proof.Machine.execAssayerBoot r s
  | .dealerBoot r => Sys2Proof.Machine.execDealerBoot r s
  | .depotTraining ok => Sys2Proof.Machine.execDepotTraining ok s
  | .laneTraining ok => Sys2Proof.Machine.execLaneTraining ok s
  | .stationWaves failed => Sys2Proof.Machine.execStationWaves failed s
  | .ready ms => Sys2Proof.Machine.execReady ms s
  | .phaseOverrun => Sys2Proof.Machine.execPhaseOverrun s
  | .coldStartWaitExpire => Sys2Proof.Machine.execColdStartWaitExpire s
  | .depotRetire n v => Sys2Proof.Machine.execDepotRetire n v s
  | .depotStackOffline k => Sys2Proof.Machine.execDepotStackOffline k s
  | .governorInterval power => Sys2Proof.Machine.execGovernorInterval power s
  | .pwrLimitWrite n v => Sys2Proof.Machine.execPwrLimitWrite n v s
  | .pwrPeakClear n v => Sys2Proof.Machine.execPwrPeakClear n v s
  | .tempSample u t => Sys2Proof.Machine.execTempSample u t s
  | .lendStart e => Sys2Proof.Machine.execLendStart e s
  | .lendReturn e => Sys2Proof.Machine.execLendReturn e s
  | .laneRetrainStart who lane cause => Sys2Proof.Machine.execLaneRetrainStart who lane cause s
  | .calibrationWindow who lane margin => Sys2Proof.Machine.execCalibrationWindow who lane margin s
  | .retrainChoose who lane => Sys2Proof.Machine.execRetrainChoose who lane s
  | .retrainAdopt who lane => Sys2Proof.Machine.execRetrainAdopt who lane s
  | .retrainTimeout who lane => Sys2Proof.Machine.execRetrainTimeout who lane s
  | .laneAdapt who lane margin => Sys2Proof.Machine.execLaneAdapt who lane margin s
  | .recenterWindow k ch => Sys2Proof.Machine.execRecenterWindow k ch s
  | .recenterDone k better => Sys2Proof.Machine.execRecenterDone k better s
  | .railSample k mv amps => Sys2Proof.Machine.execRailSample k mv amps s
  | .powerGood => Sys2Proof.Machine.execPowerGood s
  | .railSequenceFault => Sys2Proof.Machine.execRailSequenceFault s
  | .statusCauseClear n alert v => Sys2Proof.Machine.execStatusCauseClear n alert v s
  | .bifWrite n p v => Sys2Proof.Machine.execBifWrite n p v s
  | .agentPowerOn a b => Sys2Proof.Machine.execAgentPowerOn a b s
  | .heldAbsent => Sys2Proof.Machine.execHeldAbsent s
  | .bindIncrementHoldExpire x => Sys2Proof.Machine.execBindIncrementHoldExpire x s

end Sys2Proof.Machine
end

