-- ==== Sys2Proof/WellFormed.lean ====
section
/-! DEFINITION. Well-formed commands: operands within what the hardware has. A command that is not well formed names
something that does not exist; its meaning then changes nothing or faults. -/

namespace Sys2Proof

/-- Agent places go with 16-bit agent IDs (R16). -/
def okPlace (a : Nat) : Bool := decide (a < 65536)

/-- An agent has at most 128 ports (R95). -/
def okPort (p : Nat) : Bool := decide (p < 128)

/-- Register accesses are of aligned 32-bit words (R12). -/
def okOff (off : Nat) : Bool := decide (off % 4 = 0)

/-- The package, or an agent place. -/
def okWho (who : Option Nat) : Bool := who.all (fun a => decide (a < 65536))

/-- An arrival port, or none. -/
def okIn (p : Option Nat) : Bool := p.all (fun a => decide (a < 128))

/-- A package has 80 sub-ports (R507). -/
def okSub (p : Nat) : Bool := decide (p < 80)

/-- A gate lane (160 of them, R471), or an agent lane, two for each of 128 ports. -/
def okLane (who : Option Nat) (l : Nat) : Bool := if who = none then decide (l < 160) else decide (l < 256)

/-- A command whose operands name only what exists. -/
def WellFormed (i : Instr) : Bool :=
  match i with
  | .regWrite _ _ _ => true
  | .ignoredClr _ _ => true
  | .depotApertureAccess _ _ _ => true
  | .flitArrival a p _ => okPlace a && okPort p
  | .outputAllocation a => okPlace a
  | .hostOffer a _ => okPlace a
  | .flitAdmit a => okPlace a
  | .ejectRemove a _ => okPlace a
  | .ejectStall a _ => okPlace a
  | .pathLatchExpire a _ _ => okPlace a
  | .retxTimeout a _ _ => okPlace a
  | .requestAbandon a _ _ => okPlace a
  | .mgmtSinkConsume a => okPlace a
  | .frameStart who => okWho who
  | .syncExchange who _ => okWho who
  | .syncLost a => okPlace a
  | .slotExchange a => okPlace a
  | .convoyOffer a _ _ => okPlace a
  | .telemetryWindow a _ => okPlace a
  | .congestionRecord _ => true
  | .agentTimeout _ => true
  | .summaryEntry => true
  | .drained a => okPlace a
  | .counterLowRead a _ _ => okPlace a
  | .localWrite a off _ => okPlace a && okOff off
  | .idLock a => okPlace a
  | .slotFWrite a _ => okPlace a
  | .laneSignalLoss who p => okWho who && okPort p
  | .fecUncorrLimit who p => okWho who && okPort p
  | .linkIdle who p => okWho who && okPort p
  | .downSetReceived who p => okWho who && okPort p
  | .linkTrained who p _ _ _ => okWho who && okPort p
  | .trumpReceive who inp _ => okWho who && okIn inp
  | .trumpFilterExpire who _ => okWho who
  | .cardPlay a => okPlace a
  | .commandPiece a => okPlace a
  | .cmdProbe a => okPlace a
  | .cmdAgentRead a => okPlace a
  | .cmdAgentWrite a => okPlace a
  | .cmdGate a => okPlace a
  | .cmdUngate a => okPlace a
  | .cmdSwap a => okPlace a
  | .cmdExchange a => okPlace a
  | .cmdLoad a => okPlace a
  | .cmdArm a => okPlace a
  | .cmdDisarm a => okPlace a
  | .cmdUnfence a => okPlace a
  | .cmdRelease a => okPlace a
  | .cmdQuarantine a => okPlace a
  | .cmdBind a => okPlace a
  | .cmdPfence a => okPlace a
  | .cmdPreset a => okPlace a
  | .cmdPunfence a => okPlace a
  | .cmdUcodeOpen a => okPlace a
  | .cmdUcodePatch a => okPlace a
  | .cmdUcodeCommit a => okPlace a
  | .cmdSecMsg a => okPlace a
  | .cmdBankcopy a => okPlace a
  | .cmdReservedOpcode a => okPlace a
  | .ucodeSwitch a => okPlace a
  | .ucodeSelftest a _ => okPlace a
  | .secUpMessage a _ => okPlace a
  | .partFenceAck a _ => okPlace a
  | .fenceAckTimeout a _ => okPlace a
  | .drainWindowEnd a _ => okPlace a
  | .partFenceAckLow a _ => okPlace a
  | .partRstDone a _ => okPlace a
  | .resetLimitExpire a _ => okPlace a
  | .katWrite a _ _ => okPlace a
  | .partStateWrite a _ _ => okPlace a
  | .partTick a _ => okPlace a
  | .watchdogExpire a _ => okPlace a
  | .downMessageWrite a _ => okPlace a
  | .upSend a => okPlace a
  | .upDataWrite a _ _ => okPlace a
  | .mbxClaimRead a _ => okPlace a
  | .mbxRelease a _ => okPlace a
  | .mbxRing a _ => okPlace a
  | .mbxDone a _ => okPlace a
  | .mbxDataWrite a _ _ _ => okPlace a
  | .mbxLeaseExpire a => okPlace a
  | .fwBoot a => okPlace a
  | .uciBr _ => true
  | .uciCall _ => true
  | .uciRet _ => true
  | .uciWaitt _ => true
  | .uciSigt _ => true
  | .uciYield _ => true
  | .uciHalt _ => true
  | .uciNop _ => true
  | .uciMovi _ => true
  | .uciAdd _ => true
  | .uciAddi _ => true
  | .uciSub _ => true
  | .uciAnd _ => true
  | .uciOr _ => true
  | .uciXor _ => true
  | .uciShl _ => true
  | .uciShr _ => true
  | .uciCmp _ => true
  | .uciCmpi _ => true
  | .uciLd _ => true
  | .uciSt _ => true
  | .uciCopy _ => true
  | .uciRds _ => true
  | .uciWrs _ => true
  | .illegalInstruction _ => true
  | .contextFault _ _ => true
  | .uciProbe _ => true
  | .uciTrain _ => true
  | .uciFence _ => true
  | .uciUnfence _ => true
  | .uciDrain _ => true
  | .uciInstall _ => true
  | .uciSwap _ => true
  | .uciArm _ => true
  | .uciPlay _ => true
  | .uciCut _ => true
  | .uciClose _ => true
  | .uciPreset _ => true
  | .uciFold _ => true
  | .uciDraw _ => true
  | .uciBind _ => true
  | .uciAdmit _ => true
  | .uciAcmd _ => true
  | .uciSnap _ => true
  | .uciGuard _ => true
  | .uciDigest _ => true
  | .uciSeal _ => true
  | .uciDraincp _ => true
  | .uciLaunch _ => true
  | .uciJoin _ => true
  | .uciRetire _ => true
  | .uciQpush _ => true
  | .uciQpop _ => true
  | .uciTally _ => true
  | .uciSettle _ => true
  | .uciMbx _ => true
  | .uciAttest _ => true
  | .uciKeyload _ => true
  | .uciKeyerase _ => true
  | .uciScrub _ => true
  | .uciLend _ => true
  | .uciWave _ => true
  | .insnTimeout _ => true
  | .cmdResponse _ => true
  | .cmdResend _ _ => true
  | .cmdIssue _ _ => true
  | .ctimerExpire _ => true
  | .noticeReceive _ => true
  | .heartbeat => true
  | .heartbeatMiss => true
  | .startCheckDone _ => true
  | .takeoverDeadline => true
  | .journalApply => true
  | .standbyReloadDone => true
  | .pcieLinkUp _ => true
  | .pcieLinkDownExpire _ => true
  | .dtlsHandshake _ _ _ => true
  | .dtlsResume _ _ => true
  | .dtlsCloseNotify _ => true
  | .sessionLeaseExpire _ => true
  | .sessionRead _ _ => true
  | .sessionWrite _ _ => true
  | .sessionHeartbeat _ _ => true
  | .mctpMessage _ => true
  | .mctpTimeout => true
  | .ownerClaim _ => true
  | .leaseLeftRead _ => true
  | .grant _ _ => true
  | .twinSet _ _ => true
  | .ownerLeaseExpire => true
  | .ringConfigWrite _ _ off _ => okOff off
  | .noticeRingConfigWrite _ _ off _ => okOff off
  | .cqDoorbell _ _ _ => true
  | .hostCommandStart _ => true
  | .loadi _ => true
  | .dload _ => true
  | .dsave _ => true
  | .start _ => true
  | .stop _ => true
  | .clear _ => true
  | .bindr _ => true
  | .unbindr _ => true
  | .plan _ => true
  | .kitty _ => true
  | .handover _ => true
  | .solo _ => true
  | .resume _ => true
  | .badOp _ => true
  | .eventDispatch => true
  | .pendingDispatchStart => true
  | .runLimitExpire _ => true
  | .tick => true
  | .renewSend => true
  | .pairRenew _ _ => true
  | .pairAck _ _ => true
  | .pairYield _ _ => true
  | .pairAbsent _ _ => true
  | .activeLeaseExpire => true
  | .standbyLeaseExpire => true
  | .mirrorUpdate _ => true
  | .stiStream _ => true
  | .stiMode _ => true
  | .stiGeom _ => true
  | .stiShcfg _ => true
  | .stiDivring _ => true
  | .stiOpnd _ => true
  | .stiObmp _ => true
  | .stiOutd _ => true
  | .stiOaux _ => true
  | .stiMove _ => true
  | .stiLds _ => true
  | .stiPrefetch _ => true
  | .stiModel _ => true
  | .stiTile _ => true
  | .stiRun _ => true
  | .stiBytes _ => true
  | .stiGfcoef _ => true
  | .stiLayout _ => true
  | .stiHashcfg _ => true
  | .stiTwait _ => true
  | .stiTsig _ => true
  | .stiSeti _ => true
  | .stiAdd _ => true
  | .stiAddi _ => true
  | .stiMuli _ => true
  | .stiLoop _ => true
  | .stiEndl _ => true
  | .stiNop _ => true
  | .stiEnd _ => true
  | .tileComplete _ => true
  | .tileTimeout _ => true
  | .streamFault _ => true
  | .scratchEccError _ _ => true
  | .depotReadError _ => true
  | .stationHwFail _ => true
  | .engineScrubDone _ _ => true
  | .katStreamDone _ _ => true
  | .waitLimitExpire _ => true
  | .programBroadcast _ _ _ => true
  | .dieSleep _ => true
  | .wakeTokenGrant => true
  | .wakeTokenReturn => true
  | .dieAwake _ => true
  | .verifierJob => true
  | .forecastBatch _ _ _ => true
  | .deal _ _ _ _ _ => true
  | .followOnStaging _ => true
  | .unhandedRepair _ => true
  | .agentLossTrump _ => true
  | .convoySchedule _ => true
  | .discoveryStart => true
  | .hello _ => true
  | .probeRetry _ => true
  | .untrainedReprobe _ p => okPort p
  | .discoveryCompare => true
  | .darkPortPass => true
  | .drainLimitExpire _ => true
  | .partNotice => true
  | .restartTokenRefill _ => true
  | .presetHeldSend _ => true
  | .budgetWrite _ _ _ => true
  | .returningUnbind _ => true
  | .tallyAdd _ => true
  | .tallyRead _ => true
  | .tallyWait _ => true
  | .tallyWaitHoldExpire _ _ => true
  | .tallyCountWrite _ _ _ => true
  | .tallyConfigWrite _ _ _ => true
  | .settlementBoundary => true
  | .settlementCall _ => true
  | .settlementRecall _ => true
  | .settlementFinalize _ => true
  | .report _ => true
  | .queueDescriptorWrite _ _ off _ => okOff off
  | .queueHeadWrite _ _ _ => true
  | .queueTailWrite _ _ _ => true
  | .waitEntryExpire _ => true
  | .ledgerMbxPost _ _ => true
  | .ledgerMbxTake _ _ => true
  | .deviceServerTake _ => true
  | .ledgerMbxClaimRead _ _ => true
  | .ledgerMbxRelease _ _ => true
  | .ledgerMbxRing _ _ => true
  | .ledgerMbxDone _ _ => true
  | .ledgerMbxLeaseExpire _ => true
  | .partyResetAbort _ => true
  | .landingFlit port _ _ => okSub port
  | .landingWindowClose _ => true
  | .segmentDelivery _ => true
  | .partTenantWrite _ _ _ => true
  | .ledgerDieError _ => true
  | .spdmRequest _ => true
  | .setCertificate _ => true
  | .provUnlock _ => true
  | .provUnlockExpire => true
  | .rollfwd _ => true
  | .extendGo _ => true
  | .setGen _ => true
  | .xferAllow _ _ => true
  | .xferReq _ _ => true
  | .xferEnd _ => true
  | .releaseKeyExpire _ => true
  | .mirrorRebuild => true
  | .spdmSessionTimeout _ => true
  | .depotGrant _ _ => true
  | .depotRelease _ _ => true
  | .depotTenantWrite _ _ _ => true
  | .depotScrubDone => true
  | .tamperAlarm _ => true
  | .tempAlarm _ => true
  | .battLost => true
  | .rtcSet _ _ => true
  | .monoInc _ _ => true
  | .heldClear _ => true
  | .sysReset => true
  | .sysResetRelease => true
  | .por => true
  | .perst _ => true
  | .dealerWatchdog _ => true
  | .therm => true
  | .assayerErrorReset => true
  | .rstReq _ _ => true
  | .peerReset _ => true
  | .brownout => true
  | .domainReset _ => true
  | .pllLockTimeout _ => true
  | .blockReset _ _ => true
  | .blockResetDone _ => true
  | .optionLoading _ => true
  | .assayerBoot _ => true
  | .dealerBoot _ => true
  | .depotTraining _ => true
  | .laneTraining _ => true
  | .stationWaves _ => true
  | .ready _ => true
  | .phaseOverrun => true
  | .coldStartWaitExpire => true
  | .depotRetire _ _ => true
  | .depotStackOffline _ => true
  | .governorInterval _ => true
  | .pwrLimitWrite _ _ => true
  | .pwrPeakClear _ _ => true
  | .tempSample _ _ => true
  | .lendStart _ => true
  | .lendReturn _ => true
  | .laneRetrainStart who lane _ => okWho who && okLane who lane
  | .calibrationWindow who lane _ => okWho who && okLane who lane
  | .retrainChoose who lane => okWho who && okLane who lane
  | .retrainAdopt who lane => okWho who && okLane who lane
  | .retrainTimeout who lane => okWho who && okLane who lane
  | .laneAdapt who lane _ => okWho who && okLane who lane
  | .recenterWindow _ _ => true
  | .recenterDone _ _ => true
  | .railSample _ _ _ => true
  | .powerGood => true
  | .railSequenceFault => true
  | .statusCauseClear _ _ _ => true
  | .bifWrite _ _ _ => true
  | .agentPowerOn a _ => okPlace a
  | .heldAbsent => true
  | .bindIncrementHoldExpire _ => true

end Sys2Proof
end

