-- ==== Sys2Proof/Safety.lean ====
section
/-! DEFINITION. What counts as a safe run, and the conditions on a state under which a command acts, in the terms the
claims use. -/

namespace Sys2Proof.Safety

open Sys2Proof.Machine

/-- A step goes on: it answers a next state. -/
def Runs (s : Machine.State) : Prop := ∃ t, Machine.step s = .next t

/-- Every command waiting is well formed. -/
def WellFormedQueue (s : Machine.State) : Prop := ∀ c ∈ s.pending, WellFormed c = true

/-- The agent x stands at place a of the pod. -/
structure Place (s : State) (a : Nat) (x : Agent) : Prop where
  exists_ : a < 65536
  is : s.agent a = x

/-- The agent x at place a has taken the whole command c with opcode op and no play waits before it (R113, R115). -/
structure Taken (s : State) (a : Nat) (x : Agent) (c : Cmd) (op : Byte) : Prop where
  exists_ : a < 65536
  is : s.agent a = x
  cur : x.cu.cur = some c
  op : c.op = op
  piece : c.piece = 0
  more : c.more = false
  plays : x.cu.plays = []

/-- Context c holds x and issues the legal instruction w with opcode op, whose guard holds (R134, R137, R138). -/
structure Issue (s : State) (c : Fin 16) (op : Byte) (w : W64) (x : Context) : Prop where
  may : s.mayIssue c = true
  fetched : s.fetch c = w
  op : uOp w = op
  legal : uLegal w = true
  is : s.ctx c = x
  guard : x.guard w = true

/-- The same for a fabric or checkpoint instruction: the package governs the pod, and an epoch-checked instruction's EPOCH
is the fabric epoch (R143, R153). -/
structure FabricIssue (s : State) (c : Fin 16) (op : Byte) (w : W64) (x : Context) : Prop where
  issue : Issue s c op w x
  active : s.isActive = true
  epoch : epochChecked w = true → x.epoch = s.dealers.fepoch

/-- The stream x runs on engine e and issues the instruction w with opcode op: its end is not decided and it does not wait
in TWAIT (R245, R250, R259). -/
structure Tile (s : State) (e : Fin 320) (op : Nat) (w : BitVec 128) (x : Stream) : Prop where
  runs : s.runs e = true
  is : s.str e = x
  ready : x.twait = none
  word : s.stiWord e = w
  op : sOp w = op

/-- The same for an instruction that makes the configuration k: the engine holds at most three configurations (R250). -/
structure TileConf (s : State) (e : Fin 320) (op : Nat) (w : BitVec 128) (x : Stream) (k : Conf) : Prop where
  tile : Tile s e op w x
  room : (x.confs k).length ≤ 3

/-- The tally request f reaches the active package, well formed, under its slice's epoch, for a tally its slice may use (R378). -/
structure TallyRequest (s : State) (f : Flit) : Prop where
  cls : f.cls = 8
  crc : f.crc = f.crcOf
  dest : f.dest = s.myId
  active : s.dealers.role = true
  gap : s.dealers.takeover = .none
  epoch : (s.slice f.slice.toNat).sepoch.setWidth 8 = f.sep
  form : t8Bad f = false
  allowed : s.t8Allowed f = true

/-- Ring n runs the descriptor d of slot i, with opcode op, no reserved byte set and no takeover gap (R169, R170, R187). -/
structure HostCommand (s : State) (n : Fin 8) (i : Nat) (d : BitVec 512) (op : Byte) : Prop where
  cur : (s.session n).cur = some (i, d)
  op : descOp d = op
  clean : descClean d = true
  gap : s.dealers.takeover = .none

/-- What the command answers: the state t it leaves, with its completion record written (R173). -/
def answered (s t : State) (n : Fin 8) (i : Nat) (d : BitVec 512) (st : Byte) (res : W64) : State :=
  t.complete n ((i + 1) % ringSize (s.session n).cqOrder) (completionRecord (descTag d) (descOp d) st res)

/-- The state in which an instruction of context c acts: c is the context that issued last. -/
def issued (s : State) (c : Fin 16) : State := s.issued c

/-- The place of the pod whose agent a command is a step of; none for a command of the package's own (log 4). -/
def placeOf : Instr → Option Nat
  | .flitArrival a _ _ | .outputAllocation a | .hostOffer a _ | .flitAdmit a | .ejectRemove a _ | .ejectStall a _ |
    .pathLatchExpire a _ _ | .retxTimeout a _ _ | .requestAbandon a _ _ | .mgmtSinkConsume a | .syncLost a |
    .slotExchange a | .convoyOffer a _ _ | .telemetryWindow a _ | .drained a | .counterLowRead a _ _ | .localWrite a _ _ |
    .idLock a | .slotFWrite a _ | .cardPlay a | .commandPiece a | .cmdProbe a | .cmdAgentRead a | .cmdAgentWrite a |
    .cmdGate a | .cmdUngate a | .cmdSwap a | .cmdExchange a | .cmdLoad a | .cmdArm a | .cmdDisarm a | .cmdUnfence a |
    .cmdRelease a | .cmdQuarantine a | .cmdBind a | .cmdPfence a | .cmdPreset a | .cmdPunfence a | .cmdUcodeOpen a |
    .cmdUcodePatch a | .cmdUcodeCommit a | .cmdSecMsg a | .cmdBankcopy a | .cmdReservedOpcode a | .ucodeSwitch a |
    .ucodeSelftest a _ | .secUpMessage a _ | .partFenceAck a _ | .fenceAckTimeout a _ | .drainWindowEnd a _ |
    .partFenceAckLow a _ | .partRstDone a _ | .resetLimitExpire a _ | .katWrite a _ _ | .partStateWrite a _ _ |
    .partTick a _ | .watchdogExpire a _ | .downMessageWrite a _ | .upSend a | .upDataWrite a _ _ | .mbxClaimRead a _ |
    .mbxRelease a _ | .mbxRing a _ | .mbxDone a _ | .mbxDataWrite a _ _ _ | .mbxLeaseExpire a | .fwBoot a |
    .agentPowerOn a _ => some a
  | .frameStart who | .syncExchange who _ | .laneSignalLoss who _ | .fecUncorrLimit who _ | .linkIdle who _ |
    .downSetReceived who _ | .linkTrained who _ _ _ _ | .trumpReceive who _ _ | .trumpFilterExpire who _ |
    .laneRetrainStart who _ _ | .calibrationWindow who _ _ | .retrainChoose who _ | .retrainAdopt who _ |
    .retrainTimeout who _ | .laneAdapt who _ _ => who
  | _ => none

/-- The session whose register write a command is, where the register is the owner's to write (R4). -/
def writerOf : Instr → Option (Fin 8)
  | .regWrite n _ _ | .ignoredClr n _ | .grant n _ | .twinSet n _ | .ringConfigWrite n _ _ _ |
    .noticeRingConfigWrite n _ _ _ | .cqDoorbell n _ _ | .budgetWrite n _ _ | .tallyCountWrite n _ _ |
    .tallyConfigWrite n _ _ | .queueDescriptorWrite n _ _ _ | .queueHeadWrite n _ _ | .queueTailWrite n _ _ |
    .partTenantWrite n _ _ | .provUnlock n | .rollfwd n | .extendGo n | .setGen n | .xferAllow n _ | .xferReq n _ |
    .depotGrant n _ | .depotRelease n _ | .depotTenantWrite n _ _ | .rtcSet n _ | .monoInc n _ | .heldClear n | .rstReq n _ |
    .blockReset n _ | .depotRetire n _ | .pwrLimitWrite n _ | .pwrPeakClear n _ | .statusCauseClear n _ _ | .bifWrite n _ _ |
    .depotApertureAccess n _ (.write _) => some n
  | _ => none

/-- The bits of a word of the map that are not marked secure (R4): a key slot's tenant (R413), an allocation's (R422), a
ledger partition's (R375) and an engine's (R238) show to the owner alone. -/
def openMask (off : Nat) : W32 :=
  if 0x8100 ≤ off ∧ off < 0x8500 ∧ off % 16 = 0 then 0x0000FFFF
  else if 0x9000 ≤ off ∧ off < 0xA000 ∧ off % 16 = 8 then 0
  else if 0x1100000 ≤ off ∧ off < 0x1101000 ∧ off % 0x40 = 0 then 0xFFFF0000
  else if 0x10000000 ≤ off ∧ off < 0x12800000 ∧ 0x1000 ≤ off % 0x100000 ∧ off % 0x100000 < 0x1800 ∧ off % 256 = 4 then 0
  else 0xFFFFFFFF

/-- The stores of the machine are in canonical form: the depot, the two dealers' data stores, the ring SRAM and the pod's
agents. -/
structure Canonical (s : State) : Prop where
  depot : Mem.wf s.depot.mem = true
  active : Mem.wf s.dealers.core.dstore = true
  standby : Mem.wf s.dealers.shadow.dstore = true
  sram : Mem.wf s.led.sram = true
  agents : SMap.wf Agent.dflt s.agents = true

/-- The controller epoch and dealer epoch of a command are older than the pair an agent recorded (R8). -/
def OlderPair (x : Agent) (c : Cmd) : Prop :=
  older c.cep x.id.cepoch = true ∨ (c.cep = x.id.cepoch ∧ older c.dep x.id.depoch = true)

/-- They are newer than the pair the agent recorded (R8). -/
def NewerPair (x : Agent) (c : Cmd) : Prop :=
  newer c.cep x.id.cepoch = true ∨ (c.cep = x.id.cepoch ∧ newer c.dep x.id.depoch = true)

end Sys2Proof.Safety
end

