-- ==== Sys2Proof/Certificates/Slice0/Obligations.lean ====
section
/-! DEFINITION. The statements for the provers: what every command does where it acts, and what the machine keeps. -/

open Sys2Proof Sys2Proof.Machine

/-! ## Agents: flits and frames (02) -/

/-- R57–R67, R55: the flit commands act. A flit in transit is staged; a staged table-routed flit leaves on the first
free productive output; an offer waits and is admitted; an ejected flit goes to the host chip; a stall is counted and
reported; a path-return entry is freed. -/
def Obligations.FlitCommandsComplete : Prop :=
  ∀ (s : State) (a : Nat) (x : Agent), Safety.Place s a x →
    (∀ (p : Nat) (f : Flit), x.isDown p = false → f.crc = f.crcOf → isDataClass f.cls = true → f.cls ≠ 2 →
      f.path = false → f.pret = false → x.id.quar = false → f.dest ≠ x.id.id →
      exec (.flitArrival a p f) s = .next (s.setAgent a { x with
        sw := { x.sw with staged := SMap.set (fun _ => none) x.sw.staged p (some f) } })) ∧
    (∀ (p o : Nat) (f : Flit), x.sw.staged = [(p, some f)] → x.sw.trumpHeld = [] → x.inj.convoyQ = [] → f.cls ≠ 2 →
      f.path = false → f.pret = false → f.dest ≠ x.id.id →
      x.quarDrops f = false → x.maskOk (x.bankFor f) (x.entryFor (x.bankFor f) f.dest) f = true →
      (x.entryFor (x.bankFor f) f.dest).cand ≠ 0 →
      firstFrom (x.productive (x.entryFor (x.bankFor f) f.dest) f) x.sw.spread = some o → f.hops < 62 →
      exec (.outputAllocation a) s = .next (s.setAgent a { x with
        tx := x.tx ++ [.flit o
          (({ f with vc := f.vc || (x.entryFor (x.bankFor f) f.dest).dl } : Flit).hop false)]
        ports := SMap.modify portDflt x.ports o (fun q => { q with tSent := q.tSent + 1 })
        inj := x.openFlitTime.inj
        sw := { x.sw with staged := [], taken := [o], ejectCnt := 0, sinkCnt := 0, admitted := false,
                          spread := (o + 1) % max 1 x.build.ports, ft := x.sw.ft + 1, trumpHeld := [] } })) ∧
    (∀ f : Flit, x.build.endpoint = true → isDataClass f.cls = true → f.cls ≠ 2 → x.id.bound = true → x.id.quar = false →
      exec (.hostOffer a f) s = .next (s.setAgent a { x with inj := { x.inj with offers := x.inj.offers ++ [f] } })) ∧
    (∀ (f : Flit) (o : Nat), x.sw.admitted = false → x.inj.own = [] → x.inj.outst = [] → x.inj.offers = [f] →
      x.id.bound = true → x.id.quar = false → x.held (x.stamp f) = false → x.admitFate (x.stamp f) = .go o →
      exec (.flitAdmit a) s =
        .next (s.setAgent a (({ x with inj := { x.inj with offers := [] } } : Agent).admitOffer o (x.stamp f)))) ∧
    (∀ (f : Flit) (fs : List Flit), x.sw.eb0 = f :: fs →
      exec (.ejectRemove a false) s = .next (s.setAgent a { x with sw := { x.sw with eb0 := fs }, tx := x.tx ++ [.host f] })) ∧
    (∀ (f : Flit) (fs : List Flit), x.sw.eb1 = f :: fs →
      exec (.ejectRemove a true) s = .next (s.setAgent a { x with sw := { x.sw with eb1 := fs }, tx := x.tx ++ [.host f] })) ∧
    (∀ b : Bool, 128 ≤ (if b then x.sw.eb1 else x.sw.eb0).length →
      exec (.ejectStall a b) s =
        .next (s.setAgent a ((x.count 11).notice (noticePay 0x05 (if b then 1 else 0) 0 0 0)))) ∧
    (∀ (src seq : W16) (l : Latch), x.sw.latch.find? (fun l => l.src = src && l.seq = seq) = some l →
      exec (.pathLatchExpire a src seq) s =
        .next (s.setAgent a { x with sw := { x.sw with latch := x.sw.latch.erase l } }))

/-- R69, R70, R72, R73, R75, R76, R81, R82, R98: the request, frame and telemetry commands of an agent act: a timed-out
request waits for its retransmission, one out of retries is given up, counted and told to the host chip and the controller
(the host message's layout is open, log 101), the sink takes a command, a lost sync is noticed, a slot table comes into
force at its frame, a convoy offer waits in its queue (an offer of another class is made class 2: the model's choice, log
99), a window's records are formed for every port and sent, and DRAINED is sent once nothing is in flight. -/
def Obligations.RequestAndFrameCommandsComplete : Prop :=
  ∀ (s : State) (a : Nat) (x : Agent), Safety.Place s a x →
    (∀ (d q : W16) (o : Outst), x.outst? d q = some o → o.queued = false → o.sends < x.inj.retryMax.toNat →
      exec (.retxTimeout a d q) s =
        .next (s.setAgent a (x.modOutst d q (fun y => { y with queued := true, sends := y.sends + 1 })))) ∧
    (∀ (d q : W16) (o : Outst), x.outst? d q = some o → o.queued = false → x.inj.retryMax.toNat ≤ o.sends →
      ∃ y : Agent, exec (.requestAbandon a d q) s = .next (s.setAgent a y) ∧
        y.inj.outst = x.inj.outst.filter (fun z => !(decide (z.dest = d) && decide (z.seq = q))) ∧
        y.inj.completed = x.inj.completed + 1 ∧
        SMap.get word64Dflt y.cu.cnt 18 = satInc (SMap.get word64Dflt x.cu.cnt 18) ∧
        y.mbx.downFull = true ∧ y.mbx.downColl = (x.mbx.downColl || x.mbx.downFull) ∧
        y.inj.own = x.inj.own ++ [{ flit := x.noticeFlit (putField (putField (putField (0 : Payload) 0 (6 : Byte)) 2 d) 4 q)
                                    port := none }]) ∧
    (∀ (i : SinkItem) (is : List SinkItem) (c : Cmd), x.sw.sink = i :: is → i.flit.cls = 4 → x.cu.plays = [] →
      x.cu.cur = none → c = Cmd.ofFlit i.flit i.port → i.flit.path = false → badFormat i.flit = false → c.piece = 0 →
      c.more = false → reservedOp c.op = false → c.cep = x.id.cepoch → c.dep = x.id.depoch →
      newer c.fep x.id.fepoch = false →
      exec (.mgmtSinkConsume a) s = .next (s.setAgent a
        { x with sw := { x.sw with sink := is }, cu := { x.cu with cur := some c } })) ∧
    (exec (.syncLost a) s = .next (s.setAgent a
      (({ x with id := { x.id with syncLost := true, tSync := true } } : Agent).notice
        (putField (putField (0 : Payload) 0 (0x0B : Byte)) 4 x.id.frame)))) ∧
    (x.sw.slotPend = true → newer x.sw.slotF x.sw.slotAt = true → newer x.sw.slotF x.id.frame = false →
      exec (.slotExchange a) s =
        .next (s.setAgent a { x with sw := { x.sw with slotPend := false, slotBank := !x.sw.slotBank } })) ∧
    (∀ (q : Fin 16) (f : Flit), x.build.endpoint = true → x.id.bound = true → x.id.quar = false →
      exec (.convoyOffer a q f) s = .next (s.setAgent a { x with inj := { x.inj with
        convoyQ := SMap.set queueDflt x.inj.convoyQ q (SMap.get queueDflt x.inj.convoyQ q ++ [{ f with cls := 2 }]) } })) ∧
    (∀ m : List PortMeas, ∃ y : Agent, exec (.telemetryWindow a m) s = .next (s.setAgent a y) ∧
      (∀ p < x.build.ports,
        (y.port p).record = (x.port p).tDefl ++ (x.port p).tDrops ++ satNat 12 (m.getD p measDflt).fec ++
          (m.getD p measDflt).margin ++ (satNat 8 ((x.port p).tSent * 255 * 278528 / 20560000000) : Byte) ++
          satNat 6 (m.getD p measDflt).uncorr ++ BitVec.ofBool ((x.port p).tDown || !(x.port p).up) ++
          BitVec.ofBool ((x.port p).tRetrain || (x.port p).retrain) ++ BitVec.ofBool (x.id.tSync || x.id.syncLost) ++
          BitVec.ofBool ((x.port p).cut || (x.port p).peerq) ++ (0 : BitVec 4) ∧
        (y.port p).tDefl = 0 ∧ (y.port p).tDrops = 0 ∧ (y.port p).tSent = 0) ∧
      y.inj.own = x.inj.own ++ (List.range ((x.build.ports + 4) / 5)).map (fun i =>
        ({ flit := y.teleFlit (x.id.frame.toNat / 100 - 1) (5 * i) (min 5 (x.build.ports - 5 * i)), port := none } : OwnFlit))) ∧
    (x.inj.drainNote ≠ 0 → x.inFlight = 0 →
      ∃ y : Agent, exec (.drained a) s = .next (s.setAgent a y) ∧ y.inj.drainNote = 0 ∧
        y.inj.own = x.inj.own ++ [{ flit := x.noticeFlit (putField (putField (putField (0 : Payload) 0 (1 : Byte)) 2
          (x.inj.drainSlice.setWidth 16 : W16)) 4 x.inj.drainGen), port := none }])

/-- R92, R95, R102, R110, R114, R505: the register, lock, slot and play commands of an agent act. -/
def Obligations.AgentRegisterCommandsComplete : Prop :=
  ∀ (s : State) (a : Nat) (x : Agent), Safety.Place s a x →
    (∀ (k : Nat), k < 20 → exec (.counterLowRead a true k) s = .next (s.setAgent a { x with cu := { x.cu with
      ctrlLatch := some (0xE000 + 8 * k, bitsAt (SMap.get word64Dflt x.cu.cnt k) 32 32) } })) ∧
    (∀ (k : Nat), k < 20 → exec (.counterLowRead a false k) s = .next (s.setAgent a { x with cu := { x.cu with
      hostLatch := some (0xE000 + 8 * k, bitsAt (SMap.get word64Dflt x.cu.cnt k) 32 32) } })) ∧
    (∀ (off : Nat) (v : W32), off % 4 = 0 → x.checkWrite false off v = 0 →
      exec (.localWrite a off v) s = .next (s.setAgent a (x.storeWord false off v))) ∧
    exec (.idLock a) s = .next (s.setAgent a { x with id := { x.id with lock := true } }) ∧
    (∀ v : W32, x.restOk (!x.sw.slotBank) = true →
      exec (.slotFWrite a v) s =
        .next (s.setAgent a { x with sw := { x.sw with slotF := v, slotPend := true, slotAt := x.id.frame } })) ∧
    (∀ (k : Nat) (d : Desc), x.cu.plays = [(k, d)] → (x.slot k).state = 2 → (x.slot k).count = 0 →
      exec (.cardPlay a) s = .next (s.setAgent a
        ((({ x with
            cu := { x.cu with plays := [] }
            hand := SMap.set slotHandDflt x.hand k { x.slot k with state := 3, playFrame := x.id.frame }
            playLog := (((bitsAt x.id.frame 8 24 ++ BitVec.ofNat 8 k : W32) ++ (x.slot k).cardId) :: x.playLog).take 8 } :
          Agent).count 15).notice
          (putField (noticePay 0x02 (BitVec.ofNat 8 k) 0 ((x.slot k).cardId.setWidth 64) d) 16 x.id.frame)))) ∧
    (∀ c : Cmd, x.cu.cur = some c → c.path = true → c.piece = 0 → c.more = true → reservedOp c.op = false →
      x.cu.pieces = [] → x.cu.plays = [] → x.pairOrder c = 1 → newer c.fep x.id.fepoch = false →
      exec (.commandPiece a) s = .next (s.setAgent a
        (({ x with cu := { x.cu with
            pieces := [{ src := c.src, op := c.op, arg := c.arg, next := 1, words := c.words }] } } : Agent).answer c 0 [])))

/-! ## Agents: the command set (R117) -/

/-- R117, R505, R89: PROBE, AGENT_READ, AGENT_WRITE and the table commands act and answer OK. -/
def Obligations.ReadWriteAndTableCommandsComplete : Prop :=
  ∀ (s : State) (a : Nat) (x : Agent) (c : Cmd),
    (Safety.Taken s a x c 0x01 →
      exec (.cmdProbe a) s = .next (s.setAgent a (x.respond c 0 (x.hello c.port)))) ∧
    (Safety.Taken s a x c 0x02 → oneBlock c.arg.toNat c.cnt = true →
      exec (.cmdAgentRead a) s =
        .next (s.setAgent a ((x.readWords c.arg.toNat c.cnt).2.answer c 0 (x.readWords c.arg.toNat c.cnt).1))) ∧
    (Safety.Taken s a x c 0x03 → oneBlock c.arg.toNat c.words.length = true → x.checkWords c.arg.toNat c.words = 0 →
      exec (.cmdAgentWrite a) s = .next (s.setAgent a ((x.storeWords c.arg.toNat c.words).answer c 0 []))) ∧
    (Safety.Taken s a x c 0x04 → x.build.endpoint = true → c.gen = x.id.tgen + 1 → 0 < x.inFlight →
      exec (.cmdGate a) s = .next (s.setAgent a
        (({ x with inj := { x.inj with gated := putBit x.inj.gated c.slice.toNat true, drainNote := 1,
                                       drainGen := c.gen, drainSlice := c.slice } } : Agent).answer c 0 []))) ∧
    (Safety.Taken s a x c 0x05 → x.build.endpoint = true → c.gen = x.id.tgen + 1 →
      exec (.cmdUngate a) s = .next (s.setAgent a
        (({ x with inj := { x.inj with gated := putBit x.inj.gated c.slice.toNat false, drainNote := 0 } } : Agent).answer
          c 0 []))) ∧
    (Safety.Taken s a x c 0x06 → c.gen = x.id.tgen + 1 →
      exec (.cmdSwap a) s = .next (s.setAgent a
        (({ x with tbl := { x.tbl with bankSel := putBit x.tbl.bankSel c.slice.toNat (!x.tbl.act) } } : Agent).answer
          c 0 []))) ∧
    (Safety.Taken s a x c 0x07 → c.gen = x.id.tgen + 1 →
      exec (.cmdExchange a) s = .next (s.setAgent a
        (({ x with
            tbl := { x.tbl with mgmtSel := !x.tbl.act, act := !x.tbl.act,
                                bankSel := if x.tbl.act then 0 else BitVec.allOnes 512 }
            id := { x.id with tgen := x.id.tgen + 1, tblValid := true } } : Agent).answer c 0 [])))

/-- R105, R117, R44, R333: the hand commands, UNFENCE, RELEASE, QUARANTINE and BIND act and answer OK. -/
def Obligations.HandAndBindCommandsComplete : Prop :=
  ∀ (s : State) (a : Nat) (x : Agent) (c : Cmd),
    (Safety.Taken s a x c 0x08 →
      exec (.cmdLoad a) s = .next (s.setAgent a
        (((x.setSlot c.slot { x.slot c.slot with state := 1 }).setHandOk false).answer c 0 []))) ∧
    (Safety.Taken s a x c 0x09 → (x.slot c.slot).state = 1 → (x.slot c.slot).armable = true →
      exec (.cmdArm a) s = .next (s.setAgent a ((x.setSlot c.slot { x.slot c.slot with state := 2 }).answer c 0 []))) ∧
    (Safety.Taken s a x c 0x0A →
      exec (.cmdDisarm a) s = .next (s.setAgent a
        (((x.setSlot c.slot { x.slot c.slot with state := 0 }).setHandOk false).answer c 0 []))) ∧
    (Safety.Taken s a x c 0x0B → (bitsAt c.arg 0 8).toNat < x.build.ports →
      exec (.cmdUnfence a) s = .next (s.setAgent a
        ((x.modPort (bitsAt c.arg 0 8).toNat (fun q => { q with tfence := false })).answer c 0 []))) ∧
    (Safety.Taken s a x c 0x0C → x.id.tblValid = true → x.id.handOk = true → c.fep = x.id.fepoch →
      (∀ k, (x.slot k).state ≠ 2) →
      exec (.cmdRelease a) s = .next (s.setAgent a
        (({ x with id := { x.id with quar := false, pwron := false } } : Agent).answer c 0 []))) ∧
    (Safety.Taken s a x c 0x0D →
      exec (.cmdQuarantine a) s = .next (s.setAgent a (({ x with id := { x.id with quar := true } } : Agent).answer c 0 []))) ∧
    (Safety.Taken s a x c 0x0E → x.build.endpoint = true → c.arg.getLsbD 31 = false → ∀ w ws, c.words = w :: ws →
      newer (bitsAt w 0 16) x.id.sepoch = false →
      exec (.cmdBind a) s = .next (s.setAgent a
        (({ x with id := { x.id with slice := c.slice, sepoch := bitsAt w 0 16, bound := true } } : Agent).answer c 0 [])))

/-- R115, R117, R126, R127, R128, R317: the partition, microcode, secure and bank commands act and answer OK; a
reserved opcode is answered BAD_OP. -/
def Obligations.PartitionAndMicrocodeCommandsComplete : Prop :=
  ∀ (s : State) (a : Nat) (x : Agent) (c : Cmd),
    (Safety.Taken s a x c 0x10 → x.hasPart c.part = true → (x.part c.part).state = 0 →
      exec (.cmdPfence a) s = .next (s.setAgent a ((x.setPart c.part { x.part c.part with
        state := 2, fenceReq := true, window := false, toSent := false, unfencing := false }).answer c 0 []))) ∧
    (Safety.Taken s a x c 0x11 → x.hasPart c.part = true → (x.part c.part).state = 1 → (x.part c.part).fenceReq = true →
      (x.part c.part).fenceAck = true → (x.part c.part).unfencing = false →
      exec (.cmdPreset a) s = .next (s.setAgent a ((x.setPart c.part { x.part c.part with
        state := 3, rstReq := true, rstDone := false, kat := 0, limitOn := true, resetOn := 1 }).answer c 0 []))) ∧
    (Safety.Taken s a x c 0x12 → x.hasPart c.part = true → (x.part c.part).state = 1 → (x.part c.part).kat ≠ 2 →
      (x.part c.part).rstReq = false →
      exec (.cmdPunfence a) s = .next (s.setAgent a ((x.setPart c.part { x.part c.part with
        fenceReq := false, unfencing := true, window := false }).answer c 0 []))) ∧
    (∀ v vs, Safety.Taken s a x c 0x14 → c.words = v :: vs → c.arg ≠ 0 → c.arg.toNat ≤ 262144 →
      (x.uc.len ≠ c.arg ∨ x.uc.ver ≠ v → exec (.cmdUcodeOpen a) s = .next (s.setAgent a (({ x with uc := { x.uc with
        rx := true, len := c.arg, ver := v, chunks := [], got := [], commit := none } } : Agent).answer c 0 []))) ∧
      (x.uc.len = c.arg → x.uc.ver = v → exec (.cmdUcodeOpen a) s =
        .next (s.setAgent a (({ x with uc := { x.uc with rx := true } } : Agent).answer c 0 [])))) ∧
    (Safety.Taken s a x c 0x15 → c.words.length = 6 → c.arg.toNat < x.uc.chunkCount → c.arg.toNat < 65536 → x.uc.rx = true →
      x.uc.commit = none → x.uc.testing = false →
      exec (.cmdUcodePatch a) s = .next (s.setAgent a (({ x with uc := { x.uc with
        chunks := SMap.modify (fun _ => (0 : BitVec 384)) x.uc.chunks c.arg.toNat
          (fun y => putBits y 0 (ofBytes 192 (c.words.flatMap (fun w => toBytes 4 w))))
        got := SMap.modify (fun _ => (0 : BitVec 2)) x.uc.got c.arg.toNat (fun y => y ||| 1) } } : Agent).answer c 0 []))) ∧
    (Safety.Taken s a x c 0x16 → x.uc.rx = true → x.uc.commit = none → x.uc.testing = false → x.uc.ready = true →
      sha384 x.uc.imageBytes = x.uc.digest →
      exec (.cmdUcodeCommit a) s = .next (s.setAgent a
        (({ x with uc := { x.uc with commit := some (c.arg, x.id.frame) } } : Agent).answer c 0 []))) ∧
    (Safety.Taken s a x c 0x17 → (bitsAt c.arg 0 8).toNat < 8 → c.arg.getLsbD 8 = false →
      exec (.cmdSecMsg a) s = .next (s.setAgent a (({ x with mbx := { x.mbx with
        secDown := Mem.writeL x.mbx.secDown (32 * (bitsAt c.arg 0 8).toNat) (c.words.flatMap (fun w => toBytes 4 w)) } } :
          Agent).answer c 0 []))) ∧
    (Safety.Taken s a x c 0x18 → x.tbl.act = false → x.tbl.mgmtSel = false → x.tbl.bankSel = 0 →
      exec (.cmdBankcopy a) s = .next (s.setAgent a (({ x with tbl := { x.tbl with
        region := copyBank entryDflt x.tbl.region 0 1024 1024
        member := copyBank entryDflt x.tbl.member 0 64 64
        masks := copyBank (fun _ => (0 : BitVec 512)) x.tbl.masks 0 256 256 } } : Agent).answer c 0 []))) ∧
    (∀ op, Safety.Taken s a x c op → reservedOp op = true →
      exec (.cmdReservedOpcode a) s = .next (s.setAgent a (x.answer c 0x0B [])))

/-! ## Agents: partitions, mailboxes, microcode (03, 09) -/

/-- R120, R122, R317, R318: the events of a partition that exists act. -/
def Obligations.PartitionEventsComplete : Prop :=
  ∀ (s : State) (a : Nat) (x : Agent) (p : Fin 16), Safety.Place s a x → x.hasPart p = true →
    ((x.part p).fenceReq = true → (x.part p).state = 2 → (x.part p).unfencing = false →
      exec (.partFenceAck a p) s = .next (s.setAgent a (x.setPart p { x.part p with fenceAck := true, window := true }))) ∧
    ((x.part p).fenceReq = true → (x.part p).fenceAck = false → (x.part p).toSent = false → (x.part p).state = 2 →
      exec (.fenceAckTimeout a p) s =
        .next (s.setAgent a ((x.setPart p { x.part p with toSent := true }).partNotice p 2))) ∧
    ((x.part p).window = true → (x.part p).state = 2 →
      exec (.drainWindowEnd a p) s =
        .next (s.setAgent a ((x.setPart p { x.part p with window := false, state := 1 }).partNotice p 1))) ∧
    ((x.part p).unfencing = true →
      exec (.partFenceAckLow a p) s = .next (s.setAgent a ((x.setPart p { x.part p with
        fenceAck := false, unfencing := false, toSent := false, state := 0, wdBase := (x.part p).progress }).partNotice p 8))) ∧
    ((x.part p).rstReq = true → (x.part p).state = 3 →
      exec (.partRstDone a p) s = .next (s.setAgent a ((x.setPart p { x.part p with
        rstDone := true, rstReq := false, resetOn := 2, state := 4 }).partNotice p 3))) ∧
    ((x.part p).limitOn = true →
      exec (.resetLimitExpire a p) s =
        .next (s.setAgent a ((x.setPart p { x.part p with limitOn := false }).partNotice p 4))) ∧
    (∀ v : BitVec 2, v = 1 ∨ v = 2 → (x.part p).state = 4 →
      exec (.katWrite a p v) s = .next (s.setAgent a ((x.setPart p { x.part p with
        kat := v, state := 1, limitOn := false, resetOn := 0, rstDone := false }).partNotice p (if v = 1 then 5 else 6)))) ∧
    (exec (.partStateWrite a p 5) s = .next (s.setAgent a (x.setPart p { x.part p with
        state := 5, fenceReq := true, unfencing := false }))) ∧
    (exec (.partTick a p) s =
      .next (s.setAgent a (x.setPart p { x.part p with progress := (x.part p).progress + 1 }))) ∧
    ((x.part p).state = 0 → (x.part p).unfencing = false → (x.part p).wdMs ≠ 0 → (x.part p).progress = (x.part p).wdBase →
      exec (.watchdogExpire a p) s = .next (s.setAgent a ((x.setPart p { x.part p with wdBase := (x.part p).progress }).partNotice p 7)))

/-- R123–R126, R128, R129: the mailbox, boot, secure-channel and microcode events of an agent act. -/
def Obligations.AgentMailboxAndBootEventsComplete : Prop :=
  ∀ (s : State) (a : Nat) (x : Agent), Safety.Place s a x →
    (∀ v : W32, x.mbx.downFull = false → exec (.downMessageWrite a v) s = .next (s.setAgent a { x with mbx := { x.mbx with
      down := putBits x.mbx.down 224 v, downFull := true } })) ∧
    (x.mbx.upSend = false → exec (.upSend a) s = .next (s.setAgent a
      (({ x with mbx := { x.mbx with upSend := true } } : Agent).notice
        (putField (putField (0 : Payload) 0 (8 : Byte)) 8 x.mbx.up)))) ∧
    (∀ (i : Fin 8) (v : W32), x.mbx.upSend = false → exec (.upDataWrite a i v) s =
      .next (s.setAgent a { x with mbx := { x.mbx with up := putBits x.mbx.up (32 * i) v } })) ∧
    (∀ ctrl : Bool, x.mbx.claim = 0 → exec (.mbxClaimRead a ctrl) s =
      .next (s.setAgent a { x with mbx := { x.mbx with claim := if ctrl then 2 else 1 } })) ∧
    (∀ ctrl : Bool, x.mbx.claim = partyNo ctrl → exec (.mbxRelease a ctrl) s =
      .next (s.setAgent a { x with mbx := { x.mbx with claim := 0, ring := false, done := false } })) ∧
    (x.mbx.claim = 2 → x.mbx.ring = false → exec (.mbxRing a true) s =
      .next (s.setAgent a { x with mbx := { x.mbx with ring := true } })) ∧
    (x.mbx.claim = 1 → x.mbx.ring = true → x.mbx.done = false → exec (.mbxDone a true) s =
      .next (s.setAgent a { x with mbx := { x.mbx with done := true } })) ∧
    (∀ (ctrl : Bool) (i : Fin 10) (v : W32), x.mbx.claim = partyNo ctrl → x.mbx.ring = false →
      exec (.mbxDataWrite a ctrl i v) s =
        .next (s.setAgent a { x with mbx := { x.mbx with data := putBits x.mbx.data (32 * i) v } })) ∧
    (x.mbx.claim ≠ 0 → exec (.mbxLeaseExpire a) s = .next (s.setAgent a
      (({ x with mbx := { x.mbx with claim := 0, ring := false, done := false, expired := true } } : Agent).mbxNotice 3))) ∧
    (x.mbx.claim ≠ 2 → exec (.fwBoot a) s =
      .next (s.setAgent a { x with mbx := { ({} : AgentMbx) with secDown := x.mbx.secDown } })) ∧
    (∀ msg : List Byte, 0 < msg.length → msg.length ≤ 32 → exec (.secUpMessage a msg) s =
      .next (s.setAgent a (x.notice (secPay 0 true msg)))) ∧
    (∀ f t : W32, x.uc.commit = some (f, t) → frameDue f t x.id.frame = true →
      exec (.ucodeSwitch a) s = .next (s.setAgent a { x with uc := { x.uc with
        commit := none, testing := true, prevImg := x.uc.img, prevDigest := x.uc.imgDigest, prevVersion := x.uc.version,
        img := x.uc.chunks, imgDigest := some x.uc.digest, version := x.uc.ver } })) ∧
    (x.uc.testing = true → exec (.ucodeSelftest a true) s = .next (s.setAgent a
      (({ x with uc := { x.uc with testing := false, rx := false } } : Agent).notice
        (putField (putField (putField (0 : Payload) 0 (0x0A : Byte)) 1 (1 : Byte)) 4 x.uc.version)))) ∧
    (x.uc.testing = true → exec (.ucodeSelftest a false) s = .next (s.setAgent a
      (({ x with uc := { x.uc with testing := false, rx := false, img := x.uc.prevImg, imgDigest := x.uc.prevDigest,
                                   version := x.uc.prevVersion } } : Agent).notice
        (putField (putField (putField (0 : Payload) 0 (0x0A : Byte)) 1 (2 : Byte)) 4 x.uc.prevVersion)))) ∧
    (∀ b : Build, exec (.agentPowerOn a b) s = .next (s.setAgent a { Agent.powerOn b with tx := x.tx }))

/-! ## The dealer's instructions (04) -/

/-- R149: the register instructions write their destination register or predicate, step the PC, and change nothing else. -/
def Obligations.RegisterInstructionsComplete : Prop :=
  ∀ (s : State) (c : Fin 16) (w : W64) (x : Context),
    (Safety.Issue s c 0x10 w x → exec (.uciMovi c) s =
      .next ((Safety.issued s c).setCtx c (x.setReg (uRd w) (moviVal (x.reg (uRd w)) w)).next)) ∧
    (Safety.Issue s c 0x11 w x → exec (.uciAdd c) s =
      .next ((Safety.issued s c).setCtx c (x.setReg (uRd w) (x.reg (uRa w) + x.reg (uRb w))).next)) ∧
    (Safety.Issue s c 0x12 w x → exec (.uciAddi c) s =
      .next ((Safety.issued s c).setCtx c (x.setReg (uRd w) (x.reg (uRa w) + uImmS w)).next)) ∧
    (Safety.Issue s c 0x13 w x → exec (.uciSub c) s =
      .next ((Safety.issued s c).setCtx c (x.setReg (uRd w) (x.reg (uRa w) - x.reg (uRb w))).next)) ∧
    (Safety.Issue s c 0x14 w x → exec (.uciAnd c) s =
      .next ((Safety.issued s c).setCtx c (x.setReg (uRd w) (x.reg (uRa w) &&& x.reg (uRb w))).next)) ∧
    (Safety.Issue s c 0x15 w x → exec (.uciOr c) s =
      .next ((Safety.issued s c).setCtx c (x.setReg (uRd w) (x.reg (uRa w) ||| x.reg (uRb w))).next)) ∧
    (Safety.Issue s c 0x16 w x → exec (.uciXor c) s =
      .next ((Safety.issued s c).setCtx c (x.setReg (uRd w) (x.reg (uRa w) ^^^ x.reg (uRb w))).next)) ∧
    (Safety.Issue s c 0x17 w x → exec (.uciShl c) s =
      .next ((Safety.issued s c).setCtx c (x.setReg (uRd w) (x.reg (uRa w) <<< ((x.reg (uRb w)).toNat % 64))).next)) ∧
    (Safety.Issue s c 0x18 w x → uMod w = 0 → exec (.uciShr c) s =
      .next ((Safety.issued s c).setCtx c (x.setReg (uRd w) (x.reg (uRa w) >>> ((x.reg (uRb w)).toNat % 64))).next)) ∧
    (Safety.Issue s c 0x18 w x → uMod w = 1 → exec (.uciShr c) s =
      .next ((Safety.issued s c).setCtx c
        (x.setReg (uRd w) ((x.reg (uRa w)).sshiftRight ((x.reg (uRb w)).toNat % 64))).next)) ∧
    (Safety.Issue s c 0x19 w x → exec (.uciCmp c) s =
      .next ((Safety.issued s c).setCtx c (x.setPred (uRd w) (cmpVal (uMod w) (x.reg (uRa w)) (x.reg (uRb w)))).next)) ∧
    (Safety.Issue s c 0x1A w x → exec (.uciCmpi c) s =
      .next ((Safety.issued s c).setCtx c (x.setPred (uRd w) (cmpVal (uMod w) (x.reg (uRa w)) (uImmS w))).next))

/-- R138, R149, R383: the control instructions, the halts of an illegal or faulting instruction, and the timer act. -/
def Obligations.ControlInstructionsComplete : Prop :=
  ∀ (s : State) (c : Fin 16) (w : W64) (x : Context),
    (Safety.Issue s c 0x01 w x → badTarget (x.target w) = false → exec (.uciBr c) s =
      .next ((Safety.issued s c).setCtx c { x with pc := (x.target w).toNat })) ∧
    (Safety.Issue s c 0x02 w x → badTarget (x.target w) = false → x.stack.length < 16 → exec (.uciCall c) s =
      .next ((Safety.issued s c).setCtx c
        { x with pc := (x.target w).toNat, stack := ((x.pc + 1) % 131072) :: x.stack })) ∧
    (∀ (p : Nat) (ps : List Nat), Safety.Issue s c 0x03 w x → x.stack = p :: ps → exec (.uciRet c) s =
      .next ((Safety.issued s c).setCtx c { x with pc := p, stack := ps })) ∧
    (Safety.Issue s c 0x04 w x →
      cmpHolds (uMod w) (s.tally (bitsAt (x.reg (uRa w)) 0 16).toNat).count.toNat (x.reg (uRb w)).toNat = true →
      exec (.uciWaitt c) s = .next ((Safety.issued s c).succeed c 0x04 0 0)) ∧
    (Safety.Issue s c 0x04 w x →
      cmpHolds (uMod w) (s.tally (bitsAt (x.reg (uRa w)) 0 16).toNat).count.toNat (x.reg (uRb w)).toNat = false →
      exec (.uciWaitt c) s = .next ((Safety.issued s c).waitJ c (Running.ofWord x w))) ∧
    (∀ s1, Safety.Issue s c 0x05 w x →
      (Safety.issued s c).tallyAdd (bitsAt (x.reg (uRa w)) 0 16).toNat (uImm w).toInt true = some s1 →
      exec (.uciSigt c) s =
        .next ((s1.endShort c 0x05 0 0 0 0 0).wakeTally (bitsAt (x.reg (uRa w)) 0 16).toNat)) ∧
    (Safety.Issue s c 0x06 w x → uMod w = 0 → exec (.uciYield c) s = .next
      ((fun t : State => { t with dealers := { t.dealers with yielded := some c.val } }) ((Safety.issued s c).setCtx c x.next))) ∧
    (Safety.Issue s c 0x06 w x → uMod w = 1 → x.ctimer ≠ 0 → exec (.uciYield c) s =
      .next (((Safety.issued s c).setCtx c { x with run := .waiting, asleep := true }).journalCtx c)) ∧
    (Safety.Issue s c 0x07 w x → exec (.uciHalt c) s = .next ((Safety.issued s c).halt c (uImm w ++ (1 : Byte)))) ∧
    (Safety.Issue s c 0x08 w x → exec (.uciNop c) s = .next ((Safety.issued s c).setCtx c x.next)) ∧
    (s.mayIssue c = true → uLegal (s.fetch c) = false → exec (.illegalInstruction c) s =
      .next ((s.halt c 2).ignore)) ∧
    (s.mayIssue c = true → exec (.contextFault c true) s = .next
      ((fun t : State => { t with dealers := { t.dealers with hbStop := true } }) (s.halt c 6))) ∧
    (∀ op, Safety.Issue s c op w x → x.faultOf w ≠ 0 → exec (.contextFault c false) s =
      .next (s.halt c ((0 : BitVec 24) ++ x.faultOf w))) ∧
    (s.ctx c = x → x.asleep = true → exec (.ctimerExpire c) s =
      .next (s.setCtx c { x with pc := (x.pc + 1) % 131072, ctimer := 0, asleep := false, run := .running }))

/-- R136, R149: loads, stores, copies and the special registers. -/
def Obligations.DataInstructionsComplete : Prop :=
  ∀ (s : State) (c : Fin 16) (w : W64) (x : Context),
    (Safety.Issue s c 0x1B w x → x.ldst w + 2 ^ uMod w ≤ 0x400000 → x.ldst w % 2 ^ uMod w = 0 → exec (.uciLd c) s =
      .next ((Safety.issued s c).setCtx c
        (x.setReg (uRd w) (BitVec.ofNat 64 (leNat (Mem.readN s.dealers.core.dstore (x.ldst w) (2 ^ uMod w))))).next)) ∧
    (Safety.Issue s c 0x1C w x → x.ldst w + 2 ^ uMod w ≤ 0x400000 → x.ldst w % 2 ^ uMod w = 0 → exec (.uciSt c) s =
      .next ((((Safety.issued s c).dsWrite (x.ldst w) (toBytes (2 ^ uMod w) (x.reg (uRb w)))).stepPc c).journalCtx c)) ∧
    (Safety.Issue s c 0x1D w x → x.copyDs w + 64 * (uImm w).toNat ≤ 0x400000 →
      s.inDepot (x.copyDep w) (64 * (uImm w).toNat) = true → 2 * (uImm w).toNat ≤ tmoNs w → exec (.uciCopy c) s =
      .next (((Safety.issued s c).copyUnits (uMod w = 1) (x.copyDs w) (x.copyDep w) (uImm w).toNat).succeed c 0x1D
        (uImm w).toNat 0)) ∧
    (Safety.Issue s c 0x1E w x → (uImm w).toNat ≠ 8 → exec (.uciRds c) s =
      .next ((Safety.issued s c).setCtx c (x.setReg (uRd w) (s.special c (uImm w).toNat)).next)) ∧
    (Safety.Issue s c 0x1F w x → s.wrsOk (uImm w).toNat (x.reg (uRa w)) = true → exec (.uciWrs c) s =
      .next (((Safety.issued s c).putSpecial c (uImm w).toNat (x.reg (uRa w))).stepPc c)) ∧
    (Safety.Issue s c 0x1F w x → s.wrsOk (uImm w).toNat (x.reg (uRa w)) = false → exec (.uciWrs c) s =
      .next ((Safety.issued s c).ignore.setCtx c x.next))

/-- R144, R145, R153: PROBE, TRAIN, the fences, PRESET, FOLD, BIND, ADMIT and ACMD issue to their targets. -/
def Obligations.AgentListInstructionsComplete : Prop :=
  ∀ (s : State) (c : Fin 16) (w : W64) (x : Context),
    (∀ ps, Safety.FabricIssue s c 0x20 w x → s.probeList (x.reg (uRa w)).toNat = some ps →
      (x.reg (uRb w)).toNat + 64 * ps.length ≤ 0x400000 → exec (.uciProbe c) s =
      .next ((Safety.issued s c).startTargets c (Running.ofWord x w) (probeTargets ps))) ∧
    (∀ fp sub : Nat, Safety.FabricIssue s c 0x21 w x → uMod w = 2 → fp = (bitsAt (x.reg (uRa w)) 0 8).toNat →
      sub = (bitsAt (x.reg (uRa w)) 8 2).toNat → fp < 40 → sub < 2 → s.subTrains (2 * fp + sub) = true →
      exec (.uciTrain c) s = .next ((((Safety.issued s c).pkgPortDown (2 * fp + sub) true).modGPort ((2 * fp + sub) / 2)
        (fun g => { g with takenDown := putBit g.takenDown ((2 * fp + sub) % 2) true })).succeed c 0x21 1 0)) ∧
    (Safety.FabricIssue s c 0x22 w x → exec (.uciFence c) s =
      .next ((Safety.issued s c).startTargets c (Running.ofWord x w) [s.target 0 (bitsAt (x.reg (uRa w)) 0 16)
        [.cmd (agCmd 0x10 (bitsAt (x.reg (uRb w)) 0 32)), .await 7 1]])) ∧
    (Safety.FabricIssue s c 0x23 w x → uMod w = 0 → exec (.uciUnfence c) s =
      .next ((Safety.issued s c).startTargets c (Running.ofWord x w) [s.target 0 (bitsAt (x.reg (uRa w)) 0 16)
        [.cmd (agCmd 0x0B (bitsAt (x.reg (uRb w)) 0 32))]])) ∧
    (Safety.FabricIssue s c 0x23 w x → uMod w = 1 → exec (.uciUnfence c) s =
      .next ((Safety.issued s c).startTargets c (Running.ofWord x w) [s.target 0 (bitsAt (x.reg (uRa w)) 0 16)
        [.cmd (agCmd 0x12 (bitsAt (x.reg (uRb w)) 0 32)), .await 7 8]])) ∧
    (Safety.FabricIssue s c 0x2B w x → x.long = none → exec (.uciPreset c) s =
      .next ((Safety.issued s c).startTargets c (Running.ofWord x w) [{ s.target 0 (bitsAt (x.reg (uRa w)) 0 16)
        [.cmd (agCmd 0x11 (bitsAt (x.reg (uRb w)) 0 32)), .await 7 3, .await 7 5] with okSeen := false }])) ∧
    (Safety.FabricIssue s c 0x2C w x → uMod w = 0 → exec (.uciFold c) s =
      .next ((Safety.issued s c).startTargets c (Running.ofWord x w) [s.target 0 (bitsAt (x.reg (uRa w)) 0 16)
        [.cmd (agWrite (0xA004 + 0x40 * (bitsAt (x.reg (uRb w)) 0 4).toNat) [0x50])]])) ∧
    (Safety.FabricIssue s c 0x2C w x → uMod w = 1 → exec (.uciFold c) s =
      .next (((Safety.issued s c).recordAccFold (bitsAt (x.reg (uRa w)) 0 16) 7).startTargets c (Running.ofWord x w)
        [s.target 0 (bitsAt (x.reg (uRa w)) 0 16) [.cmd (agCmd 0x0E 0x80000000)]])) ∧
    (∀ ids, Safety.FabricIssue s c 0x2E w x → uMod w < 2 → s.agentList (x.reg (uRa w)).toNat = some ids →
      exec (.uciBind c) s = .next ((Safety.issued s c).bindNow c (Running.ofWord x w) ids)) ∧
    (∀ ids, Safety.FabricIssue s c 0x2F w x → uMod w = 1 → s.agentList (x.reg (uRa w)).toNat = some ids →
      exec (.uciAdmit c) s = .next ((Safety.issued s c).startTargets c (Running.ofWord x w)
        (ids.zipIdx.map (fun p => s.target p.2 p.1 [.cmd (agCmd 0x0D 0)])))) ∧
    (∀ ids, Safety.FabricIssue s c 0x2F w x → uMod w = 0 → s.agentList (x.reg (uRa w)).toNat = some ids →
      (∀ id ∈ ids, s.releaseHeld id = false) → exec (.uciAdmit c) s = .next ((Safety.issued s c).startTargets c
        (Running.ofWord x w) (ids.zipIdx.map (fun p => s.target p.2 p.1 [.cmd (agCmd 0x0C 0)])))) ∧
    (∀ ids k, Safety.FabricIssue s c 0x30 w x → s.agentList (x.reg (uRa w)).toNat = some ids →
      (x.reg (uRb w)).toNat + 48 ≤ 0x400000 → (x.reg (uRd w)).toNat + 48 * ids.length ≤ 0x400000 →
      acmdSpec (s.dsRead (x.reg (uRb w)).toNat 48) = some k → exec (.uciAcmd c) s =
      .next ((Safety.issued s c).startTargets c (Running.ofWord x w) (s.targets ids [.cmd k])))

/-- R150–R153, R287: the table-change instructions and ARM issue to their targets. -/
def Obligations.TableChangeInstructionsComplete : Prop :=
  ∀ (s : State) (c : Fin 16) (w : W64) (x : Context),
    (∀ im e, Safety.FabricIssue s c 0x24 w x → s.dealers.change.isOpen = true → s.dealers.change.owner = some c.val →
      s.dealers.change.image = (x.reg (uRa w)).toNat → s.image (x.reg (uRa w)).toNat = some im →
      im.slices.find? (fun e => e.slice = (x.reg (uRb w)).toNat) = some e → exec (.uciDrain c) s =
      .next ((Safety.issued s c).startTargets c (Running.ofWord x w)
        (s.targets e.ends [.cmd (agCmd 0x04 (BitVec.ofNat 32 e.slice)), .await 1 0]))) ∧
    (∀ im, Safety.FabricIssue s c 0x25 w x → s.image (x.reg (uRa w)).toNat = some im → im.fromEpoch = x.epoch →
      s.dealers.change.isOpen = false → s.imageVerified (x.reg (uRa w)).toNat = true → exec (.uciInstall c) s =
      .next (((Safety.issued s c).openChange c (x.reg (uRa w)).toNat).startTargets c
        { Running.ofWord x w with arg := 0 } (im.agents.zipIdx.map (fun p => s.installTarget im p.2 p.1)))) ∧
    (∀ im e, Safety.FabricIssue s c 0x26 w x → uMod w = 0 → s.dealers.change.isOpen = true →
      s.dealers.change.owner = some c.val → s.dealers.change.image = (x.reg (uRa w)).toNat →
      s.image (x.reg (uRa w)).toNat = some im → im.slices.find? (fun e => e.slice = (x.reg (uRb w)).toNat) = some e →
      exec (.uciSwap c) s = .next ((Safety.issued s c).startTargets c
        { Running.ofWord x w with later := [s.targets e.ends [.cmd (agCmd 0x05 (BitVec.ofNat 32 e.slice))]] }
        (s.targets e.swap [.cmd (agCmd 0x06 (BitVec.ofNat 32 e.slice))]))) ∧
    (∀ im, Safety.FabricIssue s c 0x26 w x → uMod w = 1 → s.dealers.change.isOpen = true →
      s.dealers.change.owner = some c.val → s.dealers.change.image = (x.reg (uRa w)).toNat →
      s.image (x.reg (uRa w)).toNat = some im →
      (∀ e ∈ im.slices, s.dealers.change.swapped.getLsbD e.slice = true) → exec (.uciSwap c) s =
      .next ((Safety.issued s c).startTargets c (Running.ofWord x w) (s.targets im.agents [.cmd (agCmd 0x07 0)]))) ∧
    (∀ es, Safety.FabricIssue s c 0x27 w x → uMod w = 1 → s.cardList (x.reg (uRa w)).toNat = some es →
      exec (.uciArm c) s = .next ((Safety.issued s c).startTargets c { Running.ofWord x w with first := 0 }
        (es.zipIdx.map (fun p => s.target p.2 p.1.1 [.cmd (agCmd 0x0A (BitVec.ofNat 32 p.1.2.1))])))) ∧
    (∀ es, Safety.FabricIssue s c 0x27 w x → uMod w = 0 → s.cardList (x.reg (uRa w)).toNat = some es → es.all s.cardOk = true →
      (∀ e ∈ es, BitVec.ofNat 32 (s.depLE (e.2.2 + 8) 4) = x.epoch) →
      exec (.uciArm c) s = .next ((Safety.issued s c).startTargets c { Running.ofWord x w with first := 0 }
        (es.zipIdx.map (fun p => s.target p.2 p.1.1 (s.cardSteps p.1.2.1 p.1.2.2)) ++ s.handTargets w es))) ∧
    (Safety.Issue s c 0x28 w x → s.isActive = true → descOk (x.reg (uRa w)) = true → exec (.uciPlay c) s =
      .next (((Safety.issued s c).originate (x.reg (uRa w))).endShort c 0x28 0 0 0 0 0)) ∧
    (Safety.FabricIssue s c 0x29 w x → uMod w = 0 → s.dealers.change.isOpen = false → descOk (x.reg (uRa w)) = true →
      exec (.uciCut c) s = .next (
        (((Safety.issued s c).cutOwn (x.reg (uRa w)) true).cutOut (s.linkHit (x.reg (uRa w)))).startTargets c
          (Running.ofWord x w) (s.cutTargets (x.reg (uRa w)) true))) ∧
    (Safety.FabricIssue s c 0x29 w x → uMod w = 1 → s.dealers.change.isOpen = false → descOk (x.reg (uRa w)) = true →
      exec (.uciCut c) s = .next (
        ((((Safety.issued s c).cutOwn (x.reg (uRa w)) false).restore (x.reg (uRa w))).revisit (x.reg (uRa w))).startTargets c
          (Running.ofWord x w) (s.cutTargets (x.reg (uRa w)) false))) ∧
    (∀ cs, Safety.Issue s c 0x2A w x → s.isActive = true → descOk (x.reg (uRa w)) = true →
      cs = (Safety.issued s c).closures (x.reg (uRa w)) → (x.reg (uRb w)).toNat + 16 * cs.length ≤ 0x400000 →
      exec (.uciClose c) s = .next ((((Safety.issued s c).applyClosures cs).dsWrite (x.reg (uRb w)).toNat
        (cs.flatMap closureRec)).endShort c 0x2A 0 0 cs.length 0 0)) ∧
    (∀ id, Safety.Issue s c 0x2D w x → s.isActive = true → s.drawSpare (bitsAt (x.reg (uRa w)) 0 16) = some id →
      exec (.uciDraw c) s = .next (
        ((({ Safety.issued s c with fab := { s.fab with kitty := s.fab.kitty.filter (· ≠ id) } } : State).stream
          (.kitty (s.fab.kitty.filter (· ≠ id)))).setCtx c (x.setReg (uRd w) (id.setWidth 64))).endShort c 0x2D 0 0 1 0 0))

/-- R155, R363: the checkpoint instructions: SNAP, GUARD and DRAINCP start their exchanges, DIGEST writes the digest,
SEAL writes the seal and remembers it. -/
def Obligations.CheckpointInstructionsComplete : Prop :=
  ∀ (s : State) (c : Fin 16) (w : W64) (x : Context) (ids : List W16),
    (Safety.FabricIssue s c 0x40 w x → s.agentList (x.reg (uRa w)).toNat = some ids →
      (x.reg (uRb w)).toNat + 40 ≤ 0x400000 → exec (.uciSnap c) s =
      .next ((Safety.issued s c).startTargets c (Running.ofWord x w)
        (s.targets ids (exchange (modFlag w (s.dsRead (x.reg (uRb w)).toNat 40)))))) ∧
    (Safety.FabricIssue s c 0x41 w x → s.agentList (x.reg (uRa w)).toNat = some ids →
      (x.reg (uRb w)).toNat + 40 ≤ 0x400000 → exec (.uciGuard c) s =
      .next ((Safety.issued s c).startTargets c (Running.ofWord x w)
        (s.targets ids (exchange (modFlag w (s.dsRead (x.reg (uRb w)).toNat 40)))))) ∧
    (Safety.FabricIssue s c 0x44 w x → s.agentList (x.reg (uRa w)).toNat = some ids →
      (x.reg (uRb w)).toNat + 40 ≤ 0x400000 → exec (.uciDraincp c) s =
      .next ((Safety.issued s c).startTargets c (Running.ofWord x w)
        (s.targets ids (exchange (s.dsRead (x.reg (uRb w)).toNat 40))))) ∧
    (Safety.FabricIssue s c 0x42 w x → uMod w = 0 → 0 < (x.reg (uRb w)).toNat → (x.reg (uRb w)).toNat ≤ 1048576 →
      (x.reg (uRd w)).toNat + 48 ≤ 0x400000 → (x.reg (uRa w)).toNat + 48 * (x.reg (uRb w)).toNat ≤ 0x400000 →
      exec (.uciDigest c) s = .next (((Safety.issued s c).dsWrite (x.reg (uRd w)).toNat
        (toBytes 48 (sha384 (s.dsRead (x.reg (uRa w)).toNat (48 * (x.reg (uRb w)).toNat))))).succeed c 0x42
          (x.reg (uRb w)).toNat 0)) ∧
    (∀ d : Digest, Safety.FabricIssue s c 0x43 w x → 128 ≤ (x.reg (uRb w)).toNat →
      s.inDepot (x.reg (uRa w)).toNat (x.reg (uRb w)).toNat = true →
      d = sealOf (s.depRead (x.reg (uRa w)).toNat (x.reg (uRb w)).toNat) →
      s.lastSeal (s.depLE ((x.reg (uRa w)).toNat + 4) 4) = none → ∃ t, exec (.uciSeal c) s = .next t ∧
        t.depot.mem = Mem.writeL s.depot.mem ((x.reg (uRa w)).toNat + 48)
          (toBytes 48 d ++ toBytes 4 (bitsAt (x.reg (uRd w)) 0 32 : W32)) ∧
        t.dealers.sealed = SMap.set noneOf s.dealers.sealed (s.depLE ((x.reg (uRa w)).toNat + 4) 4)
          (some (bitsAt (x.reg (uRd w)) 0 32, d)))

/-! ## The stations' instructions (07) -/

/-- R251, R261: the preamble, scalar and loop instructions write what they name, go on at the next index (a loop goes back to
its start, or past its ENDL), and change nothing else. -/
def Obligations.StationScalarInstructionsComplete : Prop :=
  ∀ (s : State) (e : Fin 320) (w : BitVec 128) (x : Stream),
    (Safety.Tile s e 0x01 w x → exec (.stiStream e) s = .next (s.stiSet e (fun y => { y with pre := { y.pre with
      isByte := decide (sMod w = 1), route := bitsAt (sImm32 w) 0 11 } }))) ∧
    (Safety.Tile s e 0x02 w x → exec (.stiMode e) s = .next (s.stiSet e (fun y => { y with pre := { y.pre with
      mode := sMod w, accF := (bitsAt (sImm32 w) 0 4).toNat, srA := (sImm32 w).getLsbD 4, srP := (sImm32 w).getLsbD 5,
      eacc := bitsAt (sImm32 w) 8 8, oexp := bitsAt (sImm32 w) 16 8 } }))) ∧
    (Safety.Tile s e 0x03 w x → exec (.stiGeom e) s = .next (s.stiSet e (fun y => { y with pre := { y.pre with
      mt := (bitsAt (sImm32 w) 0 16).toNat, nt := (bitsAt (sImm32 w) 16 16).toNat, kt := (bitsAt (sImm64 w) 0 16).toNat } }))) ∧
    (Safety.Tile s e 0x04 w x → exec (.stiShcfg e) s = .next (s.stiSet e (fun y => { y with pre := { y.pre with
      n := 2 ^ (bitsAt (sImm32 w) 0 4).toNat, source := (sImm32 w).getLsbD 12,
      tau := if (bitsAt (sImm32 w) 4 5).toNat = 0 then 4 else (bitsAt (sImm32 w) 4 5).toNat } }))) ∧
    (Safety.Tile s e 0x05 w x → exec (.stiDivring e) s = .next (s.stiSet e (fun y => { y with pre := { y.pre with
      divRing := some (y.reg (sY w) + sImm64 w, (sImm32 w).toNat) } }))) ∧
    (Safety.Tile s e 0x38 w x → exec (.stiSeti e) s = .next (s.stiSet e (fun y => y.setReg (sX w) (sImm64 w)))) ∧
    (Safety.Tile s e 0x39 w x → exec (.stiAdd e) s =
      .next (s.stiSet e (fun y => y.setReg (sX w) (y.reg (sY w) + y.reg (sZ w))))) ∧
    (Safety.Tile s e 0x3A w x → exec (.stiAddi e) s =
      .next (s.stiSet e (fun y => y.setReg (sX w) (y.reg (sY w) + (sImm32 w).signExtend 64)))) ∧
    (Safety.Tile s e 0x3B w x → exec (.stiMuli e) s =
      .next (s.stiSet e (fun y => y.setReg (sX w) (y.reg (sY w) * (sImm32 w).setWidth 64)))) ∧
    (∀ n : W32, Safety.Tile s e 0x3C w x → n = (if sMod w = 0 then sImm32 w else bitsAt (x.reg (sY w)) 0 32) → n ≠ 0 →
      exec (.stiLoop e) s = .next (s.stiSet e (fun y => { y with
        loops := SMap.set noneOf y.loops (sX w) (some (n, ((s.eng e).pc + 1) % 4096)) }))) ∧
    (Safety.Tile s e 0x3C w x → (if sMod w = 0 then sImm32 w else bitsAt (x.reg (sY w)) 0 32) = 0 →
      exec (.stiLoop e) s = .next (s.modEng e (fun y => { y with
        pc := (s.die (e / 8)).afterEndl (sX w) (((s.eng e).pc + 1) % 4096) 4096 }))) ∧
    (∀ i, Safety.Tile s e 0x3D w x → SMap.get noneOf x.loops (sX w) = some (1, i) →
      exec (.stiEndl e) s = .next (s.stiSet e (fun y => { y with loops := SMap.set noneOf y.loops (sX w) none }))) ∧
    (∀ (n : W32) (i : Nat), Safety.Tile s e 0x3D w x → SMap.get noneOf x.loops (sX w) = some (n, i) → n ≠ 1 →
      exec (.stiEndl e) s = .next (s.modEng e (fun y => { y with
        pc := i, str := { y.str with loops := SMap.set noneOf y.str.loops (sX w) (some (n - 1, i)) } }))) ∧
    (Safety.Tile s e 0x3E w x → exec (.stiNop e) s = .next (s.stiNext e))

/-- R250, R252, R254, R257: an instruction that changes the configuration makes the new one for the computes that issue after
it, as long as the engine holds no fourth; an OBMP before its OPND is kept for it (the
model's reading, log 21). -/
def Obligations.StationConfigurationInstructionsComplete : Prop :=
  ∀ (s : State) (e : Fin 320) (w : BitVec 128) (x : Stream) (k : Conf),
    (∀ o : OpSlot, Safety.TileConf s e 0x08 w x k → o.fmt = (bitsAt (sImm32 w) 0 4).toNat → o.addr = x.reg (sY w) + sImm64 w →
      o.exp = bitsAt (sImm32 w) 4 8 → o.key = (bitsAt (sImm32 w) 12 4).toNat → o.withBmp = (sImm32 w).getLsbD 16 → o.pre = [] →
      o.bmp = (match SMap.get noneOf x.conf.slots (sX w) with | some q => q.bmp | none => SMap.get z64 x.conf.early (sX w)) →
      k = { x.conf with slots := SMap.set noneOf x.conf.slots (sX w) (some o) } →
      exec (.stiOpnd e) s = .next (s.stiSet e (fun y => { y with conf := k }))) ∧
    (∀ o : OpSlot, Safety.TileConf s e 0x09 w x k → SMap.get noneOf x.conf.slots (sX w) = some o →
      k = { x.conf with slots := SMap.set noneOf x.conf.slots (sX w) (some { o with bmp := x.reg (sY w) + sImm64 w }) } →
      exec (.stiObmp e) s = .next (s.stiSet e (fun y => { y with conf := k }))) ∧
    (Safety.TileConf s e 0x09 w x k → SMap.get noneOf x.conf.slots (sX w) = none →
      k = { x.conf with early := SMap.set z64 x.conf.early (sX w) (x.reg (sY w) + sImm64 w) } →
      exec (.stiObmp e) s = .next (s.stiSet e (fun y => { y with conf := k }))) ∧
    (Safety.TileConf s e 0x0A w x k →
      k = { x.conf with out := some (x.reg (sY w) + sImm64 w, (bitsAt (sImm32 w) 0 4).toNat, (bitsAt (sImm32 w) 12 4).toNat) } →
      exec (.stiOutd e) s = .next (s.stiSet e (fun y => { y with conf := k }))) ∧
    (∀ a : Option W64, Safety.TileConf s e 0x0B w x k →
      a = (if (sImm32 w).getLsbD 0 then some (x.reg (sY w) + sImm64 w) else none) →
      k = (if sMod w = 0 then { x.conf with flagsAt := a } else if sMod w = 1 then { x.conf with bmpAt := a }
           else { x.conf with witAt := a }) →
      exec (.stiOaux e) s = .next (s.stiSet e (fun y => { y with conf := k }))) ∧
    (∀ o : OpSlot, Safety.TileConf s e 0x13 w x k → SMap.get noneOf x.conf.slots (sX w) = some o → x.prefetch = none →
      k = { x.conf with slots := SMap.set noneOf x.conf.slots (sX w) (some { o with
        addr := x.reg (sY w) + sImm64 w, exp := bitsAt (sImm32 w) 4 8, key := (bitsAt (sImm32 w) 12 4).toNat, pre := [] }) } →
      exec (.stiModel e) s = .next (s.stiSet e (fun y => { y with conf := k, prefetch := none }))) ∧
    (Safety.TileConf s e 0x28 w x k → k = { x.conf with gf := some (x.reg (sX w), (sImm32 w).toNat) } →
      exec (.stiGfcoef e) s = .next (s.stiSet e (fun y => { y with conf := k }))) ∧
    (Safety.TileConf s e 0x29 w x k → sMod w = 0 → k = { x.conf with layIn := some (x.reg (sX w), (sImm32 w).toNat) } →
      exec (.stiLayout e) s = .next (s.stiSet e (fun y => { y with conf := k }))) ∧
    (Safety.TileConf s e 0x29 w x k → sMod w = 1 → k = { x.conf with layOut := some (x.reg (sX w), (sImm32 w).toNat) } →
      exec (.stiLayout e) s = .next (s.stiSet e (fun y => { y with conf := k }))) ∧
    (Safety.TileConf s e 0x2A w x k → x.pre.isByte = true ∨ x.jobs = [] →
      k = { x.conf with hash := some (sMod w, x.reg (sY w) + sImm64 w, (sImm32 w).toNat) } →
      exec (.stiHashcfg e) s = .next (s.stiSet e (fun y => { y with conf := k, hmsg := 0, hbuf := [] })))

/-- R254, R256, R258–R260, R263: data movement, compute, tally and END instructions act. -/
def Obligations.StationWorkInstructionsComplete : Prop :=
  ∀ (s : State) (e : Fin 320) (w : BitVec 128) (x : Stream),
    (∀ s1, Safety.Tile s e 0x10 w x → x.jobs = [] →
      s1 = s.moveLines e (x.reg (sX w)) (x.reg (sY w)) (sMod w % 16) (sMod w / 16) x.moved ((sImm32 w).toNat - x.moved) →
      s1.runs e = true → (s1.str e).moved = (sImm32 w).toNat →
      exec (.stiMove e) s = .next (s1.stiSet e (fun y => { y with moved := 0 }))) ∧
    (∀ a : W64, ∀ o : Nat, Safety.Tile s e 0x11 w x → a = x.reg (sY w) + (sImm32 w).signExtend 64 →
      bitsAt a 0 3 = (0 : BitVec 3) → s.place e a 8 = some (.scratch o) →
      exec (.stiLds e) s = .next (s.stiSet e (fun y => y.setReg (sX w) (Mem.readLE (s.eng e).scratch o 8 64)))) ∧
    (∀ (o : OpSlot) (n : Nat) (bs : List Byte) (s1 : State), Safety.Tile s e 0x12 w x →
      SMap.get noneOf x.conf.slots (sX w) = some o →
      n = tileBytes o.fmt * min (sImm32 w).toNat (65536 / tileBytes o.fmt) →
      s.load e (x.reg (sY w) + sImm64 w) n 15 = .ok bs s1 →
      exec (.stiPrefetch e) s =
        .next (s1.stiSet e (fun y => { y with prefetch := some (sX w, x.reg (sY w) + sImm64 w, bs) }))) ∧
    (Safety.Tile s e 0x20 w x → x.jobs.length < 3 → (x.reg (sX w)).toNat < x.pre.mt → (x.reg (sY w)).toNat < x.pre.nt →
      exec (.stiTile e) s = .next (s.stiSet e (fun y => { y with jobs := y.jobs ++
        [{ conf := x.conf, work := .tiles (x.reg (sX w)).toNat (x.reg (sY w)).toNat false }] }))) ∧
    (Safety.Tile s e 0x21 w x → x.jobs.length < 3 → exec (.stiRun e) s =
      .next (s.stiSet e (fun y => { y with jobs := y.jobs ++ [{ conf := x.conf, work := .tiles 0 0 true }] }))) ∧
    (∀ n : Nat, Safety.Tile s e 0x2B w x → x.jobs.length < 3 → n = (x.reg (sX w)).toNat → 0 < n → n % 64 = 0 →
      x.pre.route.getLsbD 6 = false → x.pre.route.getLsbD 8 = false → x.pre.route.getLsbD 9 = false → x.conf.hash = none →
      exec (.stiBytes e) s = .next ((s.modStr e (fun y => { y with jobs := y.jobs ++
        [{ conf := x.conf, work := .bytes n 0 none none (List.replicate 4 ([], 0)) x.hmsg }] })).stiSet e
          (fun y => { y with conf := y.conf.advance (x.reg (sX w)) }))) ∧
    (∀ t : Nat, Safety.Tile s e 0x30 w x → t = (bitsAt (x.reg (sX w)) 0 16 : W16).toNat →
      s.streamTally (s.eng e).tenant t = true →
      cmpHolds (sMod w) ((s.dirty (s.tallyPart t)).tally t).count.toNat (x.reg (sY w)).toNat = true →
      exec (.stiTwait e) s = .next ((s.dirty (s.tallyPart t)).stiNext e)) ∧
    (∀ t : W16, Safety.Tile s e 0x30 w x → t = bitsAt (x.reg (sX w)) 0 16 → s.streamTally (s.eng e).tenant t.toNat = true →
      cmpHolds (sMod w) ((s.dirty (s.tallyPart t.toNat)).tally t.toNat).count.toNat (x.reg (sY w)).toNat = false →
      exec (.stiTwait e) s = .next ((s.dirty (s.tallyPart t.toNat)).modStr e
        (fun y => { y with twait := some (t, sMod w, x.reg (sY w), (s.dirty (s.tallyPart t.toNat)).us) }))) ∧
    (∀ (t : Nat) (s1 : State), Safety.Tile s e 0x31 w x → x.jobs = [] → x.enc = [] → s.dealers.takeover = .none →
      t = (bitsAt (x.reg (sX w)) 0 16 : W16).toNat → s.streamTally (s.eng e).tenant t = true →
      s.tallyAdd t (sImm32 w).toInt true = some s1 → (s1.wakeTally t).runs e = true →
      exec (.stiTsig e) s = .next ((s1.wakeTally t).stiNext e)) ∧
    (Safety.Tile s e 0x3F w x → x.jobs = [] → exec (.stiEnd e) s =
      .next ((((s.flushUnits e).endStream e 1 0 0).depWrite ((s.flushUnits e).str e).commit
        (toBytes 8 ((s.flushUnits e).commitWord e))).stWake))

/-- R237, R240, R264–R270, R456, R460, R461: what happens to engines, streams and dies takes its effect.
How many beats of a tile that a fault cut off stand in the depot is free (log 109). -/
def Obligations.StationEventsComplete : Prop :=
  ∀ (s : State) (e : Fin 320) (d : Fin 40),
    (∀ j rest, s.runs e = true → (s.str e).jobs = j :: rest → exec (.tileComplete e) s =
      .next (match j.work with
        | .tiles i k _ => s.matrixTile e j rest i k
        | .bytes n done inR outR cores base => s.bytesTile e j rest n done inR outR cores base)) ∧
    (s.runs e = true → (s.str e).twait = none → exec (.tileTimeout e) s = .next (s.faultStr e 4)) ∧
    (∀ f, (s.eng e).st = 1 → (s.str e).ending = some f → f ≠ 6 → s.inHand e = none → exec (.streamFault e) s =
      .next ((s.endStream e (if f = 1 then 3 else 2) f (if f = 0x0B then 4 else 0)).stWake)) ∧
    (∀ (f : Byte) (bs : List Byte) (at_ : List (W64 × Nat)) (k : Nat) (s1 : State), (s.eng e).st = 1 →
      (s.str e).ending = some f → f ≠ 6 → s.inHand e = some (bs, at_) →
      k = (Config.free 16 s.fresh).toNat % (bs.length / 64 + 1) →
      s1 = ({ s with fresh := s.fresh + 1 } : State).putFront e (bs.take (64 * k)) at_ → exec (.streamFault e) s =
      .next ((s1.endStream e (if f = 1 then 3 else 2) f (if f = 0x0B then 4 else 0)).stWake)) ∧
    ((s.eng e).st = 1 → (s.str e).ending = some 6 → s.inHand e = none →
      exec (.streamFault e) s = .next (s.eraseStream e)) ∧
    (s.runs e = true → exec (.scratchEccError e true) s = .next (s.faultStr e 2)) ∧
    (s.runs e = true → exec (.scratchEccError e false) s = .next (s.modEng e (fun y => { y with
      eccCorr := satInc y.eccCorr, str := { y.str with ecc := y.str.ecc || decide (y.str.jobs ≠ []) } }))) ∧
    ((s.eng e).st = 2 ∨ (s.eng e).st = 3 → exec (.scratchEccError e false) s =
      .next (s.modEng e (fun y => { y with eccCorr := satInc y.eccCorr }))) ∧
    (s.runs e = true → exec (.depotReadError e) s = .next (s.faultStr e 3)) ∧
    (s.runs e = true → exec (.stationHwFail e) s = .next (s.faultStr e 0x0B)) ∧
    (s.runs e = true → (s.str e).twait.isSome = true → exec (.waitLimitExpire e) s = .next (s.faultStr e 7)) ∧
    (∀ ok, (s.eng e).st = 2 → s.blkDie (e / 8) = false → (s.eng e).after = .nothing → exec (.engineScrubDone e ok) s =
      .next (((s.modEng e (fun y => { y.scrubbed with st := if ok then 0 else 4, after := .nothing })).idleNow e).stWake)) ∧
    (∀ ok, (s.eng e).st = 3 → s.blkDie (e / 8) = false → exec (.katStreamDone e ok) s =
      .next ((((s.modEng e (fun y => { y.scrubbed with st := if ok then 0 else 4, after := .nothing })).modDie (e / 8)
        (fun x => { x with katPass := putBit x.katPass (e % 8) ok, katLeft := putBit x.katLeft (e % 8) false })).idleNow e).stWake)) ∧
    (∀ dies img ver, exec (.programBroadcast dies img ver) s = .next (((List.range 40).foldl
      (fun s d => if dies.getLsbD d then s.broadcastTo d img ver else s) (s.extend 6 (img.flatMap (toBytes 16)))).stWake)) ∧
    ((s.die d).st = 4 → s.dieIdle d = true → s.plat.pwr.idleSleep ≠ 0 →
      (s.die d).idleAt + s.plat.pwr.idleSleep.toNat ≤ s.us → (s.die d).katLeft = 0 →
      exec (.dieSleep d) s = .next (s.modDie d (fun x => { x with st := 2, mhz := 0 }))) ∧
    (∀ k cls r s1, s.plat.pwr.wakeQ = (k, cls) :: r → s.plat.pwr.tokens ≠ 0 → s.plat.pwr.tokensHeld = false →
      s1 = (s.wakeFor k cls).shed cls (s.plat.pwr.ceiling - wakeCost) → s1.plat.pwr.proj + wakeCost ≤ s1.plat.pwr.ceiling →
      exec .wakeTokenGrant s = .next (s1.setPwr (fun p => { p with
        wakeQ := r, tokens := p.tokens - 1, proj := p.proj + wakeCost }))) ∧
    (exec .wakeTokenReturn s = .next (s.setPwr (fun p => { p with tokens := min 4 (p.tokens + 1) }))) ∧
    ((s.die d).st = 3 → s.blkDie d = false → exec (.dieAwake d) s =
      .next ((s.modDie d (fun x => { x with st := 4, mhz := 1200, idleAt := s.us })).stWake))

/-- R157, R382, R395, R402: the ledger instructions: a push or a pop that can go on does, TALLY reads, sets or adds, SETTLE
waits for the settlement that runs or asks for one, MBX starts its exchange. -/
def Obligations.LedgerInstructionsComplete : Prop :=
  ∀ (s : State) (c : Fin 16) (w : W64) (x : Context) (r : Running), r = Running.ofWord x w →
    (∀ (q : Nat) (t : State), Safety.Issue s c 0x60 w x → q = (bitsAt (x.reg (uRa w)) 0 15 : BitVec 15).toNat →
      s.qUsable q = true → (x.reg (uRb w)).toNat + (s.queue q).entry ≤ 0x400000 → t = (Safety.issued s c).wait c r →
      t.qWait q = none → (t.queue q).isEmpty = true → (t.queue q).isFull = false → (t.qWaiters 0x60 q).head? = some c.val →
      (t.ctx c).long = some r → exec (.uciQpush c) s = .next
        (((t.qPush q (t.dsRead (x.reg (uRb w)).toNat (t.queue q).entry)).succeed c 0x60 1 0).qRun q 32799)) ∧
    (∀ (q : Nat) (t : State), Safety.Issue s c 0x61 w x → q = (bitsAt (x.reg (uRa w)) 0 15 : BitVec 15).toNat →
      s.qUsable q = true → (x.reg (uRb w)).toNat + (s.queue q).entry ≤ 0x400000 → t = (Safety.issued s c).wait c r →
      t.qWait q = none → (t.queue q).isEmpty = false → (t.qWaiters 0x61 q).head? = some c.val → (t.ctx c).long = some r →
      exec (.uciQpop c) s = .next
        ((((t.dsWrite (x.reg (uRb w)).toNat (t.qHead q)).qPop q).succeed c 0x61 1 0).qRun q 32799)) ∧
    (∀ (t : Nat) (s1 : State), Safety.Issue s c 0x62 w x → t = (bitsAt (x.reg (uRa w)) 0 16 : W16).toNat → uMod w = 0 →
      s1 = (Safety.issued s c).dirty (s.tallyPart t) → exec (.uciTally c) s =
        .next ((s1.modCtx c (fun y => y.setReg (uRd w) ((s1.tally t).count.setWidth 64))).endShort c 0x62 0 0 0 0 0)) ∧
    (∀ (t : Nat) (s1 : State), Safety.Issue s c 0x62 w x → t = (bitsAt (x.reg (uRa w)) 0 16 : W16).toNat → uMod w = 1 →
      (x.reg (uRb w)).toNat < 0x100000000 → s1 = (Safety.issued s c).tallySet t (bitsAt (x.reg (uRb w)) 0 32) →
      exec (.uciTally c) s = .next
        (((s1.modCtx c (fun y => y.setReg (uRd w) ((s1.tally t).count.setWidth 64))).endShort c 0x62 0 0 0 0 0).wakeTally t)) ∧
    (∀ (t : Nat) (s1 : State), Safety.Issue s c 0x62 w x → t = (bitsAt (x.reg (uRa w)) 0 16 : W16).toNat → uMod w = 2 →
      (Safety.issued s c).tallyAdd t (x.reg (uRb w)).toInt true = some s1 → exec (.uciTally c) s = .next
        (((s1.modCtx c (fun y => y.setReg (uRd w) ((s1.tally t).count.setWidth 64))).endShort c 0x62 0 0 0 0 0).wakeTally t)) ∧
    (Safety.Issue s c 0x63 w x → s.led.settle.open_ = [] → exec (.uciSettle c) s =
      .next (((Safety.issued s c).setSettle (fun y => { y with asked := true })).waitJ c { r with arg := s.stamp.toNat })) ∧
    (∀ k, Safety.Issue s c 0x63 w x → s.led.settle.open_.getLast? = some k → exec (.uciSettle c) s =
      .next ((Safety.issued s c).waitJ c { r with arg := k.stamp.toNat })) ∧
    (Safety.Issue s c 0x64 w x → uMod w = 0 → (x.reg (uRb w)).toNat + 32 ≤ 0x400000 → exec (.uciMbx c) s =
      .next ((Safety.issued s c).startTargets c r [s.target 0 (bitsAt (x.reg (uRa w)) 0 16) [.cmd (agWrite 0xC000
        ((List.range 8).map (fun i => ofBytes 32 (s.dsRead ((x.reg (uRb w)).toNat + 4 * i) 4))))]])) ∧
    (Safety.Issue s c 0x64 w x → uMod w = 1 → (x.reg (uRb w)).toNat + 40 ≤ 0x400000 → (x.reg (uRd w)).toNat + 40 ≤ 0x400000 →
      exec (.uciMbx c) s = .next ((Safety.issued s c).startTargets c r
        [s.target 0 (bitsAt (x.reg (uRa w)) 0 16) (exchange (s.dsRead (x.reg (uRb w)).toNat 40))])) ∧
    (∀ m : Nat, Safety.Issue s c 0x64 w x → uMod w = 3 → m = (bitsAt (x.reg (uRa w)) 0 12 : BitVec 12).toNat →
      (s.mbx m).en = true → (s.mbx m).server = 9 → (x.reg (uRd w)).toNat + 40 ≤ 0x400000 → exec (.uciMbx c) s =
        .next (((Safety.issued s c).waitJ c r).mbxWake m 96))

/-- R156, R158, R159, R244: the station, security and power instructions: a LAUNCH that finds its engine starts the stream and
returns its handle, a JOIN of an ended stream writes its record, the others act on their engine, die, key or range. -/
def Obligations.DeviceInstructionsComplete : Prop :=
  ∀ (s : State) (c : Fin 16) (w : W64) (x : Context) (r : Running), r = Running.ofWord x w →
    (∀ (a want h e : Nat) (d : Nat) (b : List Byte) (q : Running) (t u : State), Safety.Issue s c 0x50 w x →
      a = (x.reg (uRa w)).toNat → want = (x.reg (uRb w)).toNat → a + 128 ≤ 0x400000 → a % 64 = 0 →
      b = s.dsRead a 128 → (want < 320 ∧ (s.die (want / 8)).st ≠ 0 ∧ (s.die (want / 8)).psver.toNat = lb b 4 4 ∨ want = 0xFFFF) →
      s.checkDie want (lb b 4 4) = some d → (Safety.issued s c).launchOk d b = true →
      h = (Safety.issued s c).nextHandle s.stat.lastHandle.toNat 65536 →
      q = { r with arg := h, data := (List.range 16).map (fun i => BitVec.ofNat 64 (lb b (8 * i) 8)) } →
      t = ({ Safety.issued s c with stat := { s.stat with lastHandle := BitVec.ofNat 16 h } } : State).waitJ c q →
      t.pickEngine want (lb q.block 4 4) = some e → (t.die (e / 8)).st = 4 →
      (t.die (e / 8)).psver.toNat = lb q.block 4 4 → t.launchOk (e / 8) q.block = true →
      u = t.setPwr (fun p => { p with engClass := SMap.set zNat p.engClass e (t.ctxClass c) }) →
      (u.eng e).tenant.toNat = lb q.block 0 2 → (u.eng e).dirty = false →
      exec (.uciLaunch c) s = .next ((u.startStream e (BitVec.ofNat 16 h) q.block).launched c q)) ∧
    (∀ (z : Ended) (t : State), Safety.Issue s c 0x51 w x → (x.reg (uRb w)).toNat + 128 ≤ 0x400000 →
      t = (Safety.issued s c).waitJ c r → t.stat.ended.find? (fun y => y.handle.toNat = (x.reg (uRa w)).toNat) = some z →
      z.st = 1 → exec (.uciJoin c) s = .next
        ((({ t with stat := { t.stat with ended := t.stat.ended.filter (fun y => decide (y ≠ z)) } } : State).dsWrite
          (x.reg (uRb w)).toNat z.record).succeed c 0x51 0 0)) ∧
    (∀ (e : Nat) (t : State), Safety.Issue s c 0x52 w x → uMod w = 0 → t = (Safety.issued s c).waitJ c r →
      t.liveOn (x.reg (uRa w)).toNat = some e → (t.eng e).st = 1 → exec (.uciRetire c) s = .next (t.faultStr e 1)) ∧
    (∀ (n d : Nat) (t : State), Safety.Issue s c 0x52 w x → uMod w = 1 → t = (Safety.issued s c).waitJ c r →
      n = (x.reg (uRa w)).toNat → n < 40 → (t.die n).st = 4 → (List.range 40).find? (fun d => (t.die d).st = 1) = some d →
      exec (.uciRetire c) s = .next ((t.retireDie n d).stWake)) ∧
    (∀ (t : State), Safety.Issue s c 0x70 w x → uMod w = 0 → (x.reg (uRb w)).toNat + 32 ≤ 0x400000 →
      (x.reg (uRd w)).toNat + 1024 ≤ 0x400000 → t = (Safety.issued s c).waitJ c r →
      exec (.uciAttest c) s = .next (t.attestOwn c r)) ∧
    (∀ (k : Nat) (t : State), Safety.Issue s c 0x70 w x → uMod w = 1 → (x.reg (uRb w)).toNat + 32 ≤ 0x400000 →
      (x.reg (uRd w)).toNat + 96 ≤ 0x400000 → t = (Safety.issued s c).waitJ c r →
      (List.range 64).find? (fun k => !t.spdmLive k) = some k → exec (.uciAttest c) s = .next
        (((t.putRun c { r with phase := 1, arg := k }).setSpdm k
          (some { agent := bitsAt (x.reg (uRa w)) 0 16, ctx := c.val, step := 0 })).secSend k
          { agent := bitsAt (x.reg (uRa w)) 0 16, ctx := c.val, step := 0 })) ∧
    (∀ (n : Nat) (b : List Byte) (q : Running) (t : State), Safety.Issue s c 0x71 w x →
      n = (x.reg (uRa w)).toNat → n < 64 → (x.reg (uRb w)).toNat + 208 ≤ 0x400000 →
      q = { r with data := (List.range 26).map (fun i => BitVec.ofNat 64
        (((Safety.issued s c).waitJ c r).dsLE ((x.reg (uRb w)).toNat + 8 * i) 8)) } →
      t = ((Safety.issued s c).waitJ c r).putRun c q → b = q.data.flatMap (fun v => toBytes 8 v) →
      (t.keySlot n).st ≠ 2 → t.holdOld n = 0 → exec (.uciKeyload c) s = .next (match t.unwrap b with
        | none => t.abort c 0x71 0x1E
        | some k => (t.loadSlot n b k).succeed c 0x71 0 0)) ∧
    (∀ (n : Nat) (t : State), Safety.Issue s c 0x72 w x → n = (x.reg (uRa w)).toNat → n < 64 →
      t = (Safety.issued s c).waitJ c r → exec (.uciKeyerase c) s = .next
        (if (t.keySlot n).st = 0 then t.succeed c 0x72 0 0 else (t.startErase n).keyWake)) ∧
    (∀ (n : Nat) (t : State), Safety.Issue s c 0x73 w x → uMod w = 0 → n = (x.reg (uRa w)).toNat → n < 320 →
      t = (Safety.issued s c).waitJ c r → (t.die (n / 8)).st ≠ 0 → (t.eng n).st = 0 → exec (.uciScrub c) s = .next
        (((t.modEng n (fun y => { y with st := 2 })).putRun c { r with data := [BitVec.ofNat 64 n] }).tryScrub c
          { r with data := [BitVec.ofNat 64 n] })) ∧
    (∀ (n : Nat) (t : State), Safety.Issue s c 0x73 w x → uMod w = 2 → n = (x.reg (uRa w)).toNat → n < 64 →
      t = (Safety.issued s c).waitJ c r → t.partBusy n = false →
      exec (.uciScrub c) s = .next ((t.scrubPart n).succeed c 0x73 0 0)) ∧
    (∀ (n m : Nat) (t : State), Safety.Issue s c 0x73 w x → uMod w = 3 → n = (x.reg (uRa w)).toNat →
      m = (x.reg (uRb w)).toNat → 0 < m → m ≤ 0x40000000 → t = (Safety.issued s c).waitJ c r → t.inDepot n m = true →
      t.rangeBusy n m = false → exec (.uciScrub c) s = .next { t with depot := { t.depot with
        scrubs := t.depot.scrubs ++ [{ addr := n, len := m, entry := none, ctx := some c.val }] } }) ∧
    (Safety.Issue s c 0x80 w x → uMod w = 0 → 20 ≤ (x.reg (uRa w)).toNat → (x.reg (uRa w)).toNat ≤ 10000 →
      exec (.uciLend c) s = .next (((Safety.issued s c).setPwr (fun p => { p with
        lendUs := (x.reg (uRa w)).toNat })).endShort c 0x80 0 0 0 0 0)) ∧
    (Safety.Issue s c 0x80 w x → uMod w = 1 →
      exec (.uciLend c) s = .next ((Safety.issued s c).withdrawLoans.endShort c 0x80 0 0 0 0 0)) ∧
    (∀ (t : State), Safety.Issue s c 0x81 w x → uMod w = 0 → (x.reg (uRa w)).toNat < 2 ^ 40 →
      t = (Safety.issued s c).waitJ c r → (∀ d ∈ maskDies (x.reg (uRa w)), (t.die d).st ≠ 0) →
      exec (.uciWave c) s = .next (((maskDies (x.reg (uRa w))).foldl
        (fun s d => if (s.die d).st = 1 then s else s.requestWake d (t.ctxClass c)) t).stWake))

/-- R140, R144, R146, R153, R339: the command engine's commands: a target's command is issued, resent, answered, its
instruction ends at its limit, and held PRESETs go out as tokens return. -/
def Obligations.CommandEngineEventsComplete : Prop :=
  ∀ (s : State) (c : Fin 16) (r : Running), (s.ctx c).long = some r → s.dealers.takeover = .none →
    (∀ (i : Nat) (t : Target) (k : CmdSpec), r.targets[i]? = some t → t.cmdOf = some k →
      s.sendable c i r t = true → s.engineTurn = some c.val → exec (.cmdIssue c i) s = .next
        (({ s with dealers := { s.dealers with
          lastCmd := SMap.set lastDflt s.dealers.lastCmd (s.ctx c).prio.toNat c.val } } : State).issueTarget c i r t k)) ∧
    (∀ (i : Nat) (t : Target) (k : CmdSpec) (q : W16), uOp r.word ≠ 0x64 → r.targets[i]? = some t → t.cmdOf = some k →
      t.seq = some q → t.state = 0 → epochChecked r.word = false → uOp r.word ≠ 0x20 → uOp r.word ≠ 0x29 →
      exec (.cmdResend c i) s =
        .next ((s.putRun c (r.setTarget i { t with tries := t.tries + 1, sentAt := s.us })).sendTarget c r
          { t with tries := t.tries + 1, sentAt := s.us } { k with gen := t.gen.getD k.gen } q)) ∧
    (∀ (f : Flit) (i : Nat), f.cls = 5 → f.crc = f.crcOf → f.dest = s.myId → s.awaited f = some (c.val, i) →
      exec (.cmdResponse f) s = .next (s.onResponse c i f)) ∧
    (r.first = 0 → r.notVerified = false → uOp r.word ≠ 0x1D → uOp r.word ≠ 0x81 →
      exec (.insnTimeout c) s = .next (s.endTargets c r 1 1)) ∧
    (r.first ≠ 0 → r.notVerified = false → exec (.insnTimeout c) s = .next (s.endTargets c r 2 0x13)) ∧
    (r.first = 0 → r.notVerified = true → exec (.insnTimeout c) s = .next ((s.closeUnverified r).endTargets c r 2 0x16)) ∧
    (uOp r.word = 0x24 → r.first = 0 → exec (.drainLimitExpire c) s = .next (s.endTargets c r 1 3)) ∧
    (∀ dom : Fin 32, exec (.restartTokenRefill dom) s = .next
      (s.setFold (fun f => { f with tokens := SMap.modify zNat f.tokens dom (· - 1) }))) ∧
    (∀ (dom : Fin 32) (x : Nat × Nat × Nat) (t : State) (q : Running) (u : Target) (k : CmdSpec),
      s.fab.fold.waiting.find? (fun x => x.1 = dom.val) = some x → s.tokensOf dom ≠ 0 →
      t = s.setFold (fun f => { f with waiting := dropFirst f.waiting x }) → t.heldCmd x = some (q, u, k) →
      exec (.presetHeldSend dom) s = .next ((t.takeToken dom).issueNow x.2.1 x.2.2 q u k)) ∧
    (∀ sl : BitVec 9, s.incHeld sl.toNat = false → uOp r.word = 0x2E → r.phase = 9 → bitsAt r.rb 0 9 = sl →
      (∀ k : Nat, k < c.val → ∀ q, (s.ctx k).long = some q → uOp q.word ≠ 0x2E) →
      exec (.bindIncrementHoldExpire sl) s = .next ((s.incEpoch sl.toNat).bindNow c r (r.targets.map (·.agent))))

/-- R118, R175, R325, R334, R336, R339, R506: notices are taken, the fold monitor acts on the oldest PART notice, an agent
with an unbind pending is unbound, BUDGET is written. -/
def Obligations.NoticeEventsComplete : Prop :=
  ∀ (s : State),
    (∀ (f : Flit) (code : Nat), f.cls = 6 → f.crc = f.crcOf → f.dest = s.myId → f.seq ≠ 0xFFFF →
      code = (byteField f.pay 0 8 : Byte).toNat →
      exec (.noticeReceive f) s = .next ((if code < 16 then s.evqPush f code else s).noticeAct f code)) ∧
    (∀ (f : Flit), f.cls = 4 → f.crc = f.crcOf → f.dest = s.myId → exec (.noticeReceive f) s = .next s.ignore) ∧
    (∀ (f : Flit) (fs : List Flit) (p : Fin 16) (t u : State), s.fab.fold.notices = f :: fs →
      (byteField f.pay 1 8 : Byte).toNat = p.val → s.isActive = true → s.dealers.takeover = .none →
      t = s.setFold (fun b => { b with notices := fs }) → u = t.foldAct f.src p (byteField f.pay 2 8) →
      exec .partNotice s = .next ((u.partEvent f.src (byteField f.pay 1 8) (byteField f.pay 2 8)).partInsn f.src
        (byteField f.pay 1 8) (byteField f.pay 2 8) ((u.foldPart f.src p.val).folded && !(t.foldPart f.src p.val).folded))) ∧
    (∀ id : W16, (s.foldAcc id).unbindPending = true → exec (.returningUnbind id) s =
      .next (s.devCmd id (agCmd 0x0E 0x80000000))) ∧
    (∀ (n : Fin 8) (d : Fin 32) (v : W32), s.isOwner n = true → 1 ≤ v.toNat → v.toNat ≤ 65535 →
      exec (.budgetWrite n d v) s = .next (s.setFold (fun f => { f with
        budget := SMap.set budgetDflt f.budget d (v.setWidth 16),
        tokens := SMap.set zNat f.tokens d (v.toNat - min (s.tokensOf d) v.toNat) })))

/-! ## Links, trumps, lanes (02, 09, 14) -/

/-- R313–R315, R107: a package port or an agent's port that stands UP clears UP; for a local reason it sends DOWN sets, and
with TFENCE clear it raises a trump. A trained port comes up again and keeps its TFENCE. -/
def Obligations.LinkEventsComplete : Prop :=
  (∀ (s t : State) (p : Nat), p < 80 → (s.sub p).up = true → (s.sub p).tfence = false →
    t = ((s.modSub p (fun q => { q with up := false, trained := false, tDown := true, retrain := false })).lanesTo p 0) →
    exec (.laneSignalLoss none p) s = .next ((t.emit (.downSets p)).raise p) ∧
    exec (.fecUncorrLimit none p) s = .next ((t.emit (.downSets p)).raise p) ∧
    exec (.linkIdle none p) s = .next ((t.emit (.downSets p)).raise p) ∧
    exec (.downSetReceived none p) s = .next (t.raise p)) ∧
  (∀ (s : State) (a p : Nat) (x y : Agent), Safety.Place s a x → p < x.build.ports → (x.port p).up = true →
    (x.port p).tfence = false → x.cal = none →
    y = x.modPort p (fun q => { q with up := false, trained := false, tDown := true, retrain := false }) →
    exec (.laneSignalLoss (some a) p) s = .next (s.setAgent a ((y.emit (.downSets p)).raise p)) ∧
    exec (.fecUncorrLimit (some a) p) s = .next (s.setAgent a ((y.emit (.downSets p)).raise p)) ∧
    exec (.linkIdle (some a) p) s = .next (s.setAgent a ((y.emit (.downSets p)).raise p)) ∧
    exec (.downSetReceived (some a) p) s = .next (s.setAgent a (y.raise p))) ∧
  (∀ (s : State) (a p : Nat) (x : Agent) (peer flight : W16) (pport : Byte), Safety.Place s a x → x.mayTrain = true →
    p < x.build.ports → exec (.linkTrained (some a) p peer pport flight) s = .next (s.setAgent a (x.modPort p (fun q =>
      { q with trained := true, up := true, peerId := peer, peerPort := pport, flight := flight })))) ∧
  (∀ (s : State) (p : Nat) (peer flight : W16) (pport : Byte), s.subEnabled p = true → (s.gport (p / 2)).takenDown.getLsbD (p % 2) = false →
    ∃ t, exec (.linkTrained none p peer pport flight) s = .next t ∧ t.fab.ports = SMap.modify portDflt s.fab.ports p
      (fun q => { q with trained := true, up := true, peerId := peer, peerPort := pport, flight := flight }))

/-- R72, R73, R108, R136: a frame starts at an agent and at the package, a sync exchange takes the parent's frame number,
a trump is filtered, forwarded and acted upon, and a filter entry is released. -/
def Obligations.FrameAndTrumpEventsComplete : Prop :=
  (∀ (s : State), exec (.frameStart none) s =
    .next ({ s with fab := { s.fab with frame := s.fab.frame + 1 } } : State).microsecond.ownMargins.bgResend.batchTick) ∧
  (∀ (s : State) (a : Nat) (x : Agent), Safety.Place s a x → exec (.frameStart (some a)) s = .next (s.setAgent a
    { x with id := { x.id with frame := x.id.frame + 1 }, sw := { x.sw with ft := 0 }, inj := { x.inj with convoyCnt := [] } })) ∧
  (∀ (s : State) (fr : W32), s.dealers.role = false → s.synced = true →
    exec (.syncExchange none fr) s = .next { s with fab := { s.fab with frame := fr } }) ∧
  (∀ (s : State) (a : Nat) (x : Agent) (fr : W32), Safety.Place s a x → x.id.syncEn = true →
    (x.port x.id.syncPort.toNat).up = true →
    exec (.syncExchange (some a) fr) s = .next (s.setAgent a { x with id := { x.id with frame := fr, syncLost := false } })) ∧
  (∀ (s : State) (p : Nat) (f : Flit) (d : Desc), f.cls = 7 → s.subDown p = false → f.crc = f.crcOf → d = byteField f.pay 0 64 →
    d ∉ s.fab.filter → s.fab.disc.active = false → descKind d ≠ 1 → exec (.trumpReceive none (some p) f) s =
      .next (((s.filterIn d).trumpOut (some p) f).post 0x01 (descReporter d) (putField (d.setWidth 128) 8 (byteField f.pay 8 32 : W32)))) ∧
  (∀ (s : State) (a : Nat) (x : Agent) (f : Flit) (d : Desc), Safety.Place s a x → f.cls = 7 → d = byteField f.pay 0 64 →
    exec (.trumpReceive (some a) none f) s = .next (s.setAgent a (({ x with
      cu := { x.cu with filter := keepLast 16 (x.cu.filter.filter (· ≠ d) ++ [d]) } }.trumpForward none f).trumpAct d))) ∧
  (∀ (s : State) (d : Desc), exec (.trumpFilterExpire none d) s =
    .next { s with fab := { s.fab with filter := s.fab.filter.filter (· ≠ d) } }) ∧
  (∀ (s : State) (a : Nat) (x : Agent) (d : Desc), Safety.Place s a x → exec (.trumpFilterExpire (some a) d) s =
    .next (s.setAgent a { x with cu := { x.cu with filter := x.cu.filter.filter (· ≠ d) } }))

/-- R470–R474: the lane commands act at the package: an active lane with room retrains, a window is counted and its better
margin kept, the better setting is chosen for the second frame after, adopted at that frame, given up after 5,000 frames. -/
def Obligations.LaneCommandsComplete : Prop :=
  ∀ (s : State) (l : Nat) (x : Lane), l < 160 → s.lane l = x →
    (∀ c : RetrainCause, s.retrainDue l c = true → x.st = 2 → s.laneRoom l = true → exec (.laneRetrainStart none l c) s = .next
      ((s.modLane l (fun y => { y with
        st := 3, windows := 0, best := 0, start := some s.fab.frame, adopt := none, waiting := false })).modSub (subOfLane l) (fun q => { q with retrain := true, tRetrain := true }))) ∧
    (∀ m : BitVec 6, x.st = 3 → exec (.calibrationWindow none l m) s = .next (s.modLane l (fun y =>
      { y with windows := satInc y.windows, best := if y.best.toNat < m.toNat then m else y.best }))) ∧
    (x.st = 3 → 4096 ≤ x.windows.toNat → x.adopt = none → x.margin.toNat < x.best.toNat →
      exec (.retrainChoose none l) s = .next (s.modLane l (fun y => { y with adopt := some (s.fab.frame + 2) }))) ∧
    (∀ f : W32, x.adopt = some f → newer f s.fab.frame = false → exec (.retrainAdopt none l) s = .next (s.laneEnd l true)) ∧
    (∀ f : W32, x.start = some f → x.windows.toNat < 4096 → 5000 ≤ (s.fab.frame - f).toNat →
      exec (.retrainTimeout none l) s = .next (s.laneEnd l false)) ∧
    (∀ m : BitVec 6, x.st = 2 → exec (.laneAdapt none l m) s = .next (s.modLane l (fun y => { y with margin := m })))

/-- R473, R474, R470: the same commands at an agent, which retrains one lane at a time, and the windows of the depot's
channels (R476): a due channel of a stack in service enters its window, and a window keeps or adopts its timing. -/
def Obligations.AgentLaneAndRecentreCommandsComplete : Prop :=
  (∀ (s : State) (a l : Nat) (x : Agent), Safety.Place s a x →
    (∀ c : RetrainCause, x.cal = none → (x.port (l / 2)).up = true → (c = .margin ∨ c = .peer) →
      exec (.laneRetrainStart (some a) l c) s = .next (s.setAgent a
        { (x.modPort (l / 2) (fun q => { q with retrain := true, tRetrain := true })) with
          cal := some { lane := l, start := x.id.frame, windows := 0, best := 0, adopt := none } })) ∧
    (∀ (k : Cal), x.cal = some k → k.lane = l →
      (∀ m : BitVec 6, x.inRest (l / 2) = true → exec (.calibrationWindow (some a) l m) s = .next (s.setAgent a
        { x with cal := some { k with windows := k.windows + 1, best := if k.best.toNat < m.toNat then m else k.best } })) ∧
      (4096 ≤ k.windows → k.adopt = none → (x.laneMargin l).toNat < k.best.toNat → exec (.retrainChoose (some a) l) s =
        .next (s.setAgent a { x with cal := some { k with adopt := some (x.id.frame + 2) } })) ∧
      (∀ f, k.adopt = some f → newer f x.id.frame = false →
        exec (.retrainAdopt (some a) l) s = .next (s.setAgent a (x.calEnd l true))) ∧
      (k.windows < 4096 → 5000 ≤ (x.id.frame - k.start).toNat →
        exec (.retrainTimeout (some a) l) s = .next (s.setAgent a (x.calEnd l false)))) ∧
    (∀ m : BitVec 6, (x.port (l / 2)).up = true → exec (.laneAdapt (some a) l m) s = .next (s.setAgent a
      (x.modPort (l / 2) (fun q => if l % 2 = 0 then { q with margin0 := m } else { q with margin1 := m }))))) ∧
  (∀ (s : State) (i : Fin 6) (c : Fin 16), s.plat.bring.online.getLsbD i = true → s.plat.bring.retiring.getLsbD i = false →
    (s.chan (16 * i + c)).lastAt + 1000 * s.plat.pwr.recenterMs.toNat ≤ s.us →
    (∀ y ∈ s.stackChans i, y.inWin = false ∧ y.lastAt + 10 ≤ s.us) →
    exec (.recenterWindow i c) s = .next (s.modChan (16 * i + c) (fun y =>
      { y with inWin := true, lastAt := s.us, lastT := SMap.get zNat s.plat.pwr.temps (48 + i) }))) ∧
  (∀ (s : State) (i : Fin 6) (c : Nat), (List.range 16).find? (fun c => (s.chan (16 * i + c)).inWin) = some c →
    exec (.recenterDone i true) s = .next (s.modChan (16 * i + c) (fun y => { y with inWin := false, fails := 0 })))

/-! ## The dealer pair and the package pair (05) -/

/-- R183–R188: a heartbeat is counted, a missed one isolates the old dealer and takes the next dealer epoch, the start check
completes the takeover or fails it, the deadline fails it, the journal is applied, and a reloaded dealer stands by. -/
def Obligations.DealerPairEventsComplete : Prop :=
  ∀ (s : State),
    (s.dealers.takeover = .none → s.dealers.hbStop = false → s.handoverReady = false →
      exec .heartbeat s = .next { s with dealers := { s.dealers with beats := s.dealers.beats + 1 } }) ∧
    (s.dealers.hbStop = true → exec .heartbeat s = .next s) ∧
    (∀ t : State, s.dealers.takeover = .none → s.dealers.standby = true → t = s.setFold (fun f => { f with waiting := [] }) →
      exec .heartbeatMiss s = .next { t with
        dealers := { t.dealers with takeover := .checking, depoch := s.dealers.depoch + 1, core := {}, handover := s.handoverReady }
        vbat := { t.vbat with depoch := s.dealers.depoch + 1 } }) ∧
    (s.dealers.takeover = .none → s.dealers.standby = false → exec .heartbeatMiss s = .next s.failTakeover) ∧
    (∀ (k : Core) (t : State), s.dealers.takeover = .checking → k = s.dealers.journal.foldl JRec.apply s.dealers.shadow →
      t = ({ s.measureUpdate with dealers := { s.dealers with
        core := k, shadow := k, journal := [], active := !s.dealers.active, standby := false,
        reload := s.dealers.handover, handover := false, takeover := .none, beats := 0, hbStop := false, cycle := 0 } } : State) →
      exec (.startCheckDone true) s = .next ((t.swapAssayers.applyGap.runDeferred.redoAll.gapDone).post 0x0F
        (if t.dealers.active then 1 else 0) (t.dealers.depoch.setWidth 128))) ∧
    (s.dealers.takeover = .checking → exec (.startCheckDone false) s = .next s.failTakeover) ∧
    (s.dealers.takeover = .checking → exec .takeoverDeadline s = .next s.failTakeover) ∧
    (∀ (r : JRec) (rs : List JRec), s.dealers.journal = r :: rs → s.dealers.handover = false → exec .journalApply s =
      .next { s with dealers := { s.dealers with journal := rs, shadow := r.apply s.dealers.shadow } }) ∧
    (∀ r : JRec, s.dealers.journal = [r] → s.dealers.handover = true → s.dealers.takeover = .none → s.dealers.standby = true →
      (∀ c < 16, (s.ctx c).long = none) → ∃ t : State, exec .journalApply s = .next t ∧ t.dealers.takeover = .checking ∧
        t.dealers.depoch = s.dealers.depoch + 1 ∧ t.vbat.depoch = s.dealers.depoch + 1 ∧ t.dealers.handover = true ∧
        t.dealers.journal = []) ∧
    (s.dealers.reload = true → exec .standbyReloadDone s =
      .next { s with dealers := { s.dealers with reload := false, standby := true, shadow := s.dealers.core, journal := [] } })

/-- R189–R195, R428: the active package sends RENEW and takes an ACK, a standby answers a RENEW, a frame of a leaving peer or
an expired lease makes a standby take the pod and an active package go solo or fence itself, a held package sends ABSENT, and
updates leave and arrive. -/
def Obligations.PackagePairEventsComplete : Prop :=
  ∀ (s : State),
    (∀ t : State, s.isActive = true → s.pair.stopped = false →
      t = s.setPair (fun p => { p with number := p.number + 1, sentAt := s.us }) → exec .renewSend s =
        .next { (t.sendPair 1 t.pair.number) with vbat := { s.vbat with cepoch := s.dealers.cepoch } }) ∧
    (∀ (w : Bool) (f : PairFrame) (t : State), frameGood f 1 = true → s.vbat.held = false → s.pair.fenced = false →
      s.dealers.role = false → t = s.setPair (fun p => { p with renewAt := some s.us, renewEpoch := f.cepoch }) →
      exec (.pairRenew w f) s = .next ((t.joinPair f).ackRenew w f)) ∧
    (∀ (w : Bool) (f : PairFrame), frameGood f 2 = true → s.dealers.role = true → f.number = s.pair.number →
      s.us ≤ s.pair.sentAt + 40 → exec (.pairAck w f) s = .next (s.setPair (fun p =>
        { p with acked := true, solo := if p.solo = .frame then .off else p.solo }))) ∧
    (∀ (w : Bool) (f : PairFrame), frameGood f 3 = true → s.isStandby = true →
      exec (.pairYield w f) s = .next (s.takePod s.takeEpoch 2)) ∧
    (∀ (w : Bool) (f : PairFrame), frameGood f 3 = true → s.isStandby = false → s.isActive = true →
      exec (.pairYield w f) s = .next (s.soloOn 2)) ∧
    (∀ (w : Bool) (f : PairFrame), frameGood f 4 = true → s.isStandby = true →
      exec (.pairAbsent w f) s = .next (s.takePod s.takeEpoch 1)) ∧
    (s.isActive = true → s.pair.solo = .off → exec .activeLeaseExpire s = .next s.fenceSelf) ∧
    (s.isActive = true → s.pair.solo ≠ .off →
      exec .activeLeaseExpire s = .next (s.setPair (fun p => { p with acked := false }))) ∧
    (s.isStandby = true → s.pair.renewed = true → exec .standbyLeaseExpire s = .next (s.takePod s.takeEpoch 3)) ∧
    (s.vbat.held = true ∨ s.plat.bring.dealersFailed = true → exec .heldAbsent s = .next (s.sendPair 4 s.pair.number)) ∧
    (s.isActive = true → exec (.mirrorUpdate none) s = .next s.mirrorOut) ∧
    (∀ m : MirrorItem, s.dealers.role = false → exec (.mirrorUpdate (some m)) s = .next (s.mirrorIn m))

/-- R173, R175, R177–R179: the oldest event is posted to the owner's ring and each matching binding gets its dispatch, the
first pending dispatch starts on a free context, a run limit stops its context, and TICK posts its event. -/
def Obligations.ReflexEventsComplete : Prop :=
  ∀ (s : State),
    (∀ (e : Event) (es : List Event) (t : State), s.reflex.events = e :: es → s.dealers.takeover = .none →
      t = ({ s with reflex := { s.reflex with events := es } } : State).toOwner e →
      exec .eventDispatch s = .next ((t.hitSlots e).foldl (fun s i => s.dispatch i e) t)) ∧
    (∀ (d : Dispatch) (c : Nat), s.dealers.takeover = .none → s.nextPending = some d →
      s.freeCtx (s.binding d.slot).mask = some c → exec .pendingDispatchStart s =
        .next ((({ s with reflex := { s.reflex with pend := dropFirst s.reflex.pend d } } : State).stream
          (.pendingTake d.raw)).startDispatch c d)) ∧
    (∀ (c : Fin 16) (x : Context), s.ctx c = x → x.runLimit ≠ 0 → x.run = .running → x.long = none → x.asleep = false →
      s.dealers.takeover = .none → exec (.runLimitExpire c) s = .next (s.halt c (exitWord 7 0))) ∧
    (s.own.tickUs ≠ 0 → exec .tick s = .next (s.post 0x15 0 (s.fab.frame.setWidth 128)))

/-! ## Host sessions, ownership, rings (05, 00) -/

/-- R160, R162–R164: sessions open, resume and close; a message with a new request number is answered by what it asks, and
one whose number is among the last 64 by its record; MCTP reads the identity block. Whether a chain's signatures hold
is opaque (log 61). -/
def Obligations.SessionEventsComplete : Prop :=
  ∀ (s : State),
    (∀ (b : Bool) (n : Nat) (t : State), n = (if b then 1 else 0) → (s.session n).isOpen = false →
      t = s.modSession n (fun x => { x with linkUp := true }) →
      exec (.pcieLinkUp b) s = .next (t.modSession n (fun x =>
        { x with isOpen := true, path := (if b then 1 else 0), opens := x.opens + 1, peer := 0, seen := [] }))) ∧
    (∀ (b : Bool) (n : Nat), n = (if b then 1 else 0) → exec (.pcieLinkDownExpire b) s =
      .next ((s.modSession n (fun x => { x with linkUp := false })).closeSession n)) ∧
    (∀ (p : Bool) (peer : Nat) (cert : List Byte), s.dealers.takeover = .none → s.vbat.rootSet = true →
      sha384 (Config.rootOf cert) = s.vbat.rootHash →
      (∀ k ∈ [2, 3, 4, 5, 6, 7], (s.session k).isOpen = true → (s.session k).peer ≠ peer) →
      (∀ n : Nat, [2, 3, 4, 5, 6, 7].find? (fun n => !(s.session n).isOpen) = some n →
        exec (.dtlsHandshake p peer cert) s = .next (if Config.certOk cert then s.modSession n (fun x =>
          { x with isOpen := true, path := (if p then 3 else 2), opens := x.opens + 1, peer := peer, seen := [] }) else s)) ∧
      ((∀ k ∈ [2, 3, 4, 5, 6, 7], (s.session k).isOpen = true) →
        exec (.dtlsHandshake p peer cert) s =
          .next (if Config.certOk cert then s.emit (.handshakeFailure p peer) else s))) ∧
    (∀ (n : Fin 8) (p : Bool), 2 ≤ n.val → (s.session n).isOpen = true → s.dealers.takeover = .none →
      exec (.dtlsResume n p) s = .next (s.modSession n (fun x => { x with path := if p then 3 else 2 }))) ∧
    (∀ n : Fin 8, 2 ≤ n.val → exec (.dtlsCloseNotify n) s = .next (s.closeSession n) ∧
      exec (.sessionLeaseExpire n) s = .next (s.closeSession n)) ∧
    (∀ (n : Fin 8) (bs : List Byte) (m : Datagram), 2 ≤ n.val → (s.session n).isOpen = true → s.dealers.takeover = .none →
      20 ≤ bs.length → m = { typ := bs.getD 0 0, status := bs.getD 1 0, req := ofBytes 32 ((bs.drop 4).take 4),
                             off := leNat ((bs.drop 8).take 8), len := leNat ((bs.drop 16).take 2), data := bs.drop 20 } →
      (∀ (k : W32) (r : Datagram), (s.session n).seen.find? (fun x => x.1 = m.req) = some (k, r) →
        exec (.sessionRead n bs) s = .next (s.emit (.datagram n (Datagram.bytes r))) ∧
        exec (.sessionWrite n bs) s = .next (s.emit (.datagram n (Datagram.bytes r))) ∧
        exec (.sessionHeartbeat n bs) s = .next (s.emit (.datagram n (Datagram.bytes r)))) ∧
      ((s.session n).seen.find? (fun x => x.1 = m.req) = none → Datagram.good m = true →
        ∀ (w : Bool × State) (q : List Byte × State),
          q = s.readWords n m.off (m.len / 4) → w = s.writeWords n m.off m.data (m.len / 4) →
          (m.typ = 1 → exec (.sessionRead n bs) s = .next (q.2.respond n m 0 q.1)) ∧
          (m.typ = 2 → exec (.sessionWrite n bs) s = .next (w.2.respond n m (if w.1 then 1 else 0) [])) ∧
          (m.typ = 4 → exec (.sessionHeartbeat n bs) s = .next (s.respond n m 0 [])))) ∧
    (∀ off : Nat, off < 0x100000 →
      exec (.mctpMessage (.read off)) s = .next (s.emit (.mctp (toBytes 4 (s.hostWord false off))))) ∧
    (∀ (off : Nat) (v : W32), exec (.mctpMessage (.write off v)) s = .next s) ∧
    exec (.mctpMessage .partialMsg) s = .next (s.setOwn (fun o => { o with mctpDrop := satInc o.mctpDrop })) ∧
    exec .mctpTimeout s = .next (s.setOwn (fun o => { o with mctpDrop := satInc o.mctpDrop }))

/-- R165, R166, R168, R170: an unowned device is claimed by a reading session, a lease is renewed, ownership passes or
lapses; a ring takes its base with its indices at 0; a doorbell accepts the descriptors up to it. -/
def Obligations.OwnershipAndRingCommandsComplete : Prop :=
  ∀ (s : State) (n : Fin 8),
    (s.own.owner = 0 → (s.session n).isOpen = true →
      exec (.ownerClaim n) s = .next ((s.setOwner (n + 1)).emit (.value n 0x200 0))) ∧
    (s.isOwner n = true → exec (.leaseLeftRead n) s = .next
      (({ s with own := { s.own with leaseLeft := s.own.leaseMs.setWidth 32 } } : State).emit
        (.value n 0x208 (s.own.leaseMs.setWidth 32)))) ∧
    (∀ v : BitVec 4, s.isOwner n = true → 1 ≤ v.toNat → v.toNat ≤ 8 → v.toNat ≠ n + 1 → (s.session (v.toNat - 1)).isOpen = true →
      exec (.grant n v) s = .next (s.setOwner v.toNat) ∧
      exec (.twinSet n v) s = .next { s with own := { s.own with twin := v.toNat } }) ∧
    (s.isOwner n = true → exec (.grant n 0xF) s = .next s.lapse ∧
      exec (.twinSet n 0) s = .next { s with own := { s.own with twin := 0 } }) ∧
    (s.own.owner ≠ 0 → s.own.twin = 0 → exec .ownerLeaseExpire s = .next (s.setOwner 0)) ∧
    (s.own.owner ≠ 0 → s.own.twin ≠ 0 → (s.session (s.own.twin - 1)).isOpen = true →
      exec .ownerLeaseExpire s = .next (s.setOwner s.own.twin)) ∧
    (∀ (pg : Fin 8) (v : W32), s.isOwner n = true → (s.session pg).cqDone = (s.session pg).cqCommit → v.toNat ≤ 11 →
      exec (.ringConfigWrite n pg 0x18 v) s = .next (s.modSession pg (fun y =>
        { y with cqOrder := v.setWidth 4, cqCommit := 0, cqDone := 0, cplTail := 0, cplHead := 0 }))) ∧
    (∀ (pg : Fin 8) (v : W32), s.isOwner n = true → v.toNat % 32 = 0 →
      exec (.noticeRingConfigWrite n pg 0x50 v) s = .next (s.modSession pg (fun y =>
        { y with nqBase := putBits y.nqBase 0 v, nqTail := 0, nqHead := 0 }))) ∧
    (∀ (pg : Fin 8) (t : W16) (x : Session) (k : Nat) (r : List RingItem × Nat), s.isOwner n = true → s.session pg = x →
      x.cqBase ≠ 0 → t.toNat < ringSize x.cqOrder → x.cqDone = x.cqCommit →
      k = (t.toNat + ringSize x.cqOrder - x.cqCommit.toNat) % ringSize x.cqOrder →
      r = s.takeDescs x t.toNat ((List.range k).map (fun i => (x.cqCommit.toNat + i) % ringSize x.cqOrder)) →
      exec (.cqDoorbell n pg t) s = .next (s.modSession pg (fun y =>
        { y with taken := y.taken ++ r.1, cqBad := satAdd y.cqBad r.2, cqCommit := t })))

/-- R4, R9–R13, R441, R462, R495: the owner's write takes effect by its register's rule: a lease, a limit of the fold
monitor or the power domains take the value, one out of its range is ignored and counted, RESET_CAUSE bits are cleared by 1,
a word of the ring SRAM is stored and its partition no longer clean; IGNORED_CLR clears its count; the aperture reads and
writes the depot bytes it shows, and what lies beyond its window reads 0. What a range other than these does with a whole
word is `hostWrite`; a write by another party is ignored and counted (R4). That an access to part of a register's word is
ignored is the model's choice (log 77). -/
def Obligations.RegisterWritesComplete : Prop :=
  ∀ (s : State) (n : Fin 8),
    (s.isOwner n = true →
      (∀ v : W32, exec (.regWrite n 0x190 v) s =
        .next { s with plat := { s.plat with bring := { s.plat.bring with ucPodVer := v } } }) ∧
      (∀ v : W32, 100 ≤ v.toNat → v.toNat ≤ 60000 → exec (.regWrite n 0x20C v) s =
        .next { s with own := { s.own with leaseMs := v.setWidth 16 } }) ∧
      (∀ v : W32, v.toNat < 100 ∨ 60000 < v.toNat → exec (.regWrite n 0x20C v) s = .next (s.ignoreBy n)) ∧
      (∀ v : W32, 1 ≤ v.toNat → v.toNat ≤ 60 → exec (.regWrite n 0x21C v) s =
        .next { s with own := { s.own with sessLease := v.setWidth 6 } }) ∧
      (∀ v : W32, 1 ≤ v.toNat → v.toNat ≤ 15 → exec (.regWrite n 0x304 v) s =
        .next { s with fab := { s.fab with fold := { s.fab.fold with resets := v.setWidth 4 } } }) ∧
      (∀ v : W32, 10 ≤ v.toNat → v.toNat ≤ 86400 → exec (.regWrite n 0x308 v) s =
        .next { s with fab := { s.fab with fold := { s.fab.fold with windowS := v.setWidth 17 } } }) ∧
      (∀ (k : Fin 32) (v : W32), within v 0x1F1F1F1F = true → ∃ t : State, exec (.regWrite n (0x400 + 4 * k.val) v) s = .next t ∧
        (∀ i < 4, SMap.get z8 t.fab.fold.domain (4 * k.val + i) = bitsAt v (8 * i) 8) ∧
        (∀ h, h < 4 * k.val ∨ 4 * k.val + 4 ≤ h → SMap.get z8 t.fab.fold.domain h = SMap.get z8 s.fab.fold.domain h)) ∧
      (∀ v : W32, within v 0x1FFF = true → exec (.regWrite n 0x100 v) s =
        .next (s.setRst (fun r => { r with cause := r.cause &&& ~~~(v.setWidth 13) }))) ∧
      (∀ v : W32, within v 0xFFFF = true → exec (.regWrite n 0xC000 v) s =
        .next (s.setPins (fun p => { p with gpioOut := v.setWidth 16 }))) ∧
      (∀ v : W32, exec (.regWrite n 0x1102014 v) s = .next (s.setSettle (fun x => { x with driftThresh := v }))) ∧
      (∀ (k : Nat) (v : W32), k < 0x200000 → exec (.regWrite n (0x3000000 + 4 * k) v) s =
        .next (({ s with led := { s.led with sram := Mem.writeLE s.led.sram (4 * k) 4 v } } : State).dirty (4 * k / 0x20000))) ∧
      (∀ (off : Nat) (v : W32), 0x800 ≤ off → off < 0x8000 → off % 4 = 0 →
        exec (.regWrite n off v) s = .next (s.ignoreBy n)) ∧
      (∀ (off : Nat) (v : W32), off % 4 = 0 →
        exec (.regWrite n off v) s = .next ((s.hostWrite n off v).getD (s.ignoreBy n))) ∧
      (∀ (off : Nat) (v : W32), off % 4 ≠ 0 →
        exec (.regWrite n off v) s = .next (s.writeSplit n off (toBytes 4 v))) ∧
      (∀ v : W32, v.toNat = 1 → exec (.ignoredClr n v) s = .next { s with own := { s.own with ignored := 0 } }) ∧
      (∀ v : W32, v.toNat = 0 → exec (.ignoredClr n v) s = .next s) ∧
      (∀ v : W32, 2 ≤ v.toNat → exec (.ignoredClr n v) s = .next (s.ignoreBy n)) ∧
      (∀ (x : Nat) (bs : List Byte), 0 < bs.length → x + bs.length ≤ 2 ^ 30 →
        s.inDepot (s.own.aperture.toNat * 2 ^ 30 + x) bs.length = true →
        (∀ y ∈ s.depot.scrubs, y.addr + y.len ≤ s.own.aperture.toNat * 2 ^ 30 + x ∨
          s.own.aperture.toNat * 2 ^ 30 + x + bs.length ≤ y.addr) →
        exec (.depotApertureAccess n x (.write bs)) s = .next { s with depot := { s.depot with
          mem := Mem.writeL s.depot.mem (s.own.aperture.toNat * 2 ^ 30 + x) bs } })) ∧
    (s.isOwner n = false →
      (∀ (off : Nat) (v : W32), exec (.regWrite n off v) s = .next (s.ignoreBy n)) ∧
      (∀ v : W32, exec (.ignoredClr n v) s = .next (s.ignoreBy n)) ∧
      (∀ (x : Nat) (bs : List Byte), exec (.depotApertureAccess n x (.write bs)) s = .next (s.ignoreBy n))) ∧
    (∀ x k : Nat, x + k ≤ 2 ^ 30 → s.inDepot (s.own.aperture.toNat * 2 ^ 30 + x) k = true →
      (∀ y ∈ s.depot.scrubs, y.addr + y.len ≤ s.own.aperture.toNat * 2 ^ 30 + x ∨
        s.own.aperture.toNat * 2 ^ 30 + x + k ≤ y.addr) →
      exec (.depotApertureAccess n x (.read k)) s = .next (s.emit (.bytes n (0x40000000 + x)
        (Mem.readN s.depot.mem (s.own.aperture.toNat * 2 ^ 30 + x) k)))) ∧
    (∀ x k : Nat, 2 ^ 30 ≤ x → exec (.depotApertureAccess n x (.read k)) s =
      .next (s.emit (.bytes n (0x40000000 + x) (List.replicate k 0))))

/-- R170, R172–R174, R186, R195: the next accepted command starts; each host command with legal arguments does what it says
and completes OK; a reserved op completes with BAD_OP. -/
def Obligations.HostStoreCommandsComplete : Prop :=
  ∀ (s : State) (n : Fin 8) (i : Nat) (d : BitVec 512),
    (∀ (rest : List RingItem), s.dealers.takeover = .none → (s.session n).cur = none → (s.session n).owed = none →
      (s.session n).cplFull = false → (s.session n).taken = .cmd i d :: rest →
      exec (.hostCommandStart n) s = .next (s.modSession n (fun y => { y with taken := rest, cur := some (i, d) }))) ∧
    (∀ (rest : List RingItem) (k : Nat), s.dealers.takeover = .none → (s.session n).cur = none →
      (s.session n).owed = none → (s.session n).cplFull = false → (s.session n).taken = .bad i k :: rest → exec (.hostCommandStart n) s =
        .next ((s.modSession n (fun y => { y with taken := rest })).complete n k (completionRecord 0xFFFFFFFF 0 4 (BitVec.ofNat 64 i)))) ∧
    (∀ a first count : Nat, Safety.HostCommand s n i d 0x01 → a = descNat d 8 8 → first = descNat d 16 4 → count = descNat d 20 4 →
      count ≠ 0 → first + count ≤ istoreSize → s.inDepot a (8 * count) = true → s.badLine a (8 * count) = false →
      s.rangeFree first count = true →
      exec (.loadi n) s = .next (Safety.answered s (s.loadInstr first (s.instrAt a count)) n i d 0 0)) ∧
    (∀ a t k : Nat, Safety.HostCommand s n i d 0x02 → s.copyRange d = some (a, t, k) → s.badLine a k = false →
      exec (.dload n) s = .next (Safety.answered s (s.dsWrite t (s.depRead a k)) n i d 0 0)) ∧
    (∀ a t k : Nat, Safety.HostCommand s n i d 0x03 → s.copyRange d = some (a, t, k) →
      exec (.dsave n) s = .next (Safety.answered s (s.depWrite a (s.dsRead t k)) n i d 0 0)) ∧
    (∀ c p e : Nat, Safety.HostCommand s n i d 0x04 → c = descNat d 8 1 → p = descNat d 9 1 → e = descNat d 12 4 → c < 16 →
      p < 4 → e < istoreSize → ((s.ctx c).run = .idle ∨ (s.ctx c).run = .halted) →
      exec (.start n) s = .next (Safety.answered s
        (s.startCtx c e (BitVec.ofNat 2 p) ((toBytes 64 d).extract 16 48) 0 0) n i d 0 (BitVec.ofNat 64 c))) ∧
    (∀ c : Nat, Safety.HostCommand s n i d 0x05 → c = descNat d 8 1 → c < 16 →
      exec (.stop n) s = .next (Safety.answered s (s.stopCtx c) n i d 0 0)) ∧
    (∀ c : Nat, Safety.HostCommand s n i d 0x06 → c = descNat d 8 1 → c < 16 → (s.ctx c).run = .halted →
      exec (.clear n) s = .next (Safety.answered s ((s.modCtx c (fun x => { x with run := .idle })).journalCtx c) n i d 0 0))

/-- The other host commands: bindings, the plan, the kitty, handover, solo, resume, and a reserved op. -/
def Obligations.HostPodCommandsComplete : Prop :=
  ∀ (s : State) (n : Fin 8) (i : Nat) (d : BitVec 512),
    (∀ (k : Nat) (b : Binding), Safety.HostCommand s n i d 0x07 → k = descNat d 8 1 → b = byteField d 16 128 →
      Binding.good b = true → exec (.bindr n) s =
        .next (Safety.answered s ((s.setBinding k b).stream (.binding (Fin.ofNat 256 k) b)) n i d 0 0)) ∧
    (∀ k : Nat, Safety.HostCommand s n i d 0x08 → k = descNat d 8 1 → (∀ x ∈ s.reflex.pend, x.slot ≠ k) →
      exec (.unbindr n) s = .next (Safety.answered s ((s.setBinding k 0).stream (.binding (Fin.ofNat 256 k) 0)) n i d 0 0)) ∧
    (∀ (a k : Nat) (p : Plan), Safety.HostCommand s n i d 0x09 → a = descNat d 8 8 → k = descNat d 16 4 → s.isActive = true →
      s.inDepot a k = true → s.badLine a k = false → s.checkPlan (s.depRead a k) = .ok p →
      exec (.plan n) s = .next (Safety.answered s ((s.bindPlan p).stream (.plan (s.depRead a k))) n i d 0 0)) ∧
    (∀ (a k j : Nat) (st : Byte), Safety.HostCommand s n i d 0x09 → a = descNat d 8 8 → k = descNat d 16 4 → s.isActive = true →
      s.inDepot a k = true → s.badLine a k = false → s.checkPlan (s.depRead a k) = .bad st j →
      exec (.plan n) s = .next (Safety.answered s s n i d st (BitVec.ofNat 64 j))) ∧
    (∀ (a : Nat) (ids l : List W16), Safety.HostCommand s n i d 0x0A → a = descNat d 8 8 → s.isActive = true →
      s.depotList a = some ids → s.badLine a 8 = false → s.badLine a (8 * (1 + (ids.length + 3) / 4)) = false →
      l = ids.foldl (fun m x => insertId x m) [] →
      exec (.kitty n) s =
        .next (Safety.answered s (({ s with fab := { s.fab with kitty := l } } : State).stream (.kitty l)) n i d 0 0)) ∧
    (Safety.HostCommand s n i d 0x0B → s.dealers.standby = true → s.dealers.handover = false →
      exec (.handover n) s =
        .next (Safety.answered s ({ s with dealers := { s.dealers with handover := true } } : State).journalRunning.handOver
          n i d 0 0)) ∧
    (∀ x : Solo, Safety.HostCommand s n i d 0x0C → s.isActive = true →
      (descNat d 8 1 = 0 ∧ x = .off ∨ descNat d 8 1 = 1 ∧ x = .cmd) →
      exec (.solo n) s = .next (Safety.answered s (s.setPair (fun p => { p with solo := x })) n i d 0 0)) ∧
    (Safety.HostCommand s n i d 0x0D → s.pair.fenced = true → s.pair.renewAt = none →
      exec (.resume n) s = .next (Safety.answered s (s.takePod (s.vbat.cepoch + 1) 3) n i d 0 0)) ∧
    (∀ op : Byte, Safety.HostCommand s n i d op → opReserved op = true →
      exec (.badOp n) s = .next (Safety.answered s s n i d 3 0))

/-! ## The ledger: tallies, settlement, queues (11) -/

/-- R377–R382: an allowed ADD is applied, entered in the duplicate filter and answered, a READ answered, a WAIT answered when
it holds and held when not, its hold ends with NOT_MET; an owner write sets COUNT, and PART and EN. -/
def Obligations.TallyCommandsComplete : Prop :=
  ∀ (s : State),
    (∀ (f fl : Flit) (t : Nat) (s1 s2 : State), Safety.TallyRequest s f → t8Op f = 1 → s.filterHit f = none →
      s.filterRoom = true → t = (t8Tally f).toNat → s.tallyAdd t (t8Val f).toInt false = some s1 →
      s2 = s1.setSettle (fun x => { x with cur := x.cur.adder f.src (s.slice f.slice.toNat).part }) →
      fl = s2.completionOf f.src f.seq f.slice (t8Tally f) 1 0 (s2.tally t).count s2.stamp →
      exec (.tallyAdd f) s = .next (((s2.filterAdd
        { src := f.src, seq := f.seq, tally := t8Tally f, operand := t8Val f, completion := fl, at_ := s.us }).sendTo
          f.src fl).wakeTally t)) ∧
    (∀ (f : Flit) (x : Tally), Safety.TallyRequest s f → t8Op f = 2 → x = s.tally (t8Tally f).toNat →
      exec (.tallyRead f) s = .next ((s.dirty x.part.toNat).complete8 f 0 x.count s.stamp)) ∧
    (∀ (f : Flit) (x : Tally), Safety.TallyRequest s f → t8Op f = 3 → x = s.tally (t8Tally f).toNat →
      cmpHolds (t8Cmp f).toNat x.count.toNat (t8Val f).toNat = true →
      exec (.tallyWait f) s = .next ((s.dirty x.part.toNat).complete8 f 0 x.count s.stamp)) ∧
    (∀ (f : Flit) (x : Tally) (t : State), Safety.TallyRequest s f → t8Op f = 3 → x = s.tally (t8Tally f).toNat →
      cmpHolds (t8Cmp f).toNat x.count.toNat (t8Val f).toNat = false → s.led.holds.length < 4096 → t = s.dirty x.part.toNat →
      exec (.tallyWait f) s = .next { t with led := { t.led with holds := t.led.holds ++
        [{ src := f.src, seq := f.seq, slice := f.slice, tally := t8Tally f, cmp := (t8Cmp f).toNat, value := t8Val f }] } }) ∧
    (∀ (src seq : W16) (h : WaitHold), s.led.holds.find? (fun h => decide (h.src = src) && decide (h.seq = seq)) = some h →
      exec (.tallyWaitHoldExpire src seq) s =
        .next (({ s with led := { s.led with holds := dropFirst s.led.holds h } } : State).answerHold h 1)) ∧
    (∀ (n : Fin 8) (t : W16) (v : W32), s.isOwner n = true →
      exec (.tallyCountWrite n t v) s = .next ((s.tallySet t.toNat v).wakeTally t.toNat)) ∧
    (∀ (n : Fin 8) (t : W16) (v : W32) (p : BitVec 6), s.isOwner n = true → tallyStrict t.toNat = false →
      s.waiters t.toNat = 0 → within v 0xF3BF = true → p = bitsAt v 0 6 → v.getLsbD 7 = true →
      s.tallyUsed p.toNat < (s.lpart p.toNat).tallyQuota.toNat → exec (.tallyConfigWrite n t v) s =
        .next ((s.modTally t.toNat (fun y => { y with part := p, en := true })).dirty p.toNat)) ∧
    (∀ (n : Fin 8) (t : W16) (v : W32) (p : BitVec 6), s.isOwner n = true → tallyStrict t.toNat = false →
      s.waiters t.toNat = 0 → within v 0xF3BF = true → p = bitsAt v 0 6 → v.getLsbD 7 = false →
      exec (.tallyConfigWrite n t v) s = .next (s.modTally t.toNat (fun y => { y with part := p, en := false })))

/-- R385–R388: a boundary ends the stamp and records the running counts, CALL goes to the agents whose answers lack a flit
and is repeated, a settlement finalizes, and a REPORT flit is taken once. -/
def Obligations.SettlementCommandsComplete : Prop :=
  ∀ (s : State),
    (∀ k : Stamp, (s.led.settle.asked = true ∨ s.fab.frame.toNat % s.led.settle.period.toNat = 0) →
      k = { s.led.settle.cur with touched := s.led.settle.cur.touched.map (fun x => (x.1, (s.tally x.1.toNat).count)) } →
      exec .settlementBoundary s = .next (s.setSettle (fun x =>
        { x with open_ := x.open_ ++ [k], cur := { stamp := k.stamp + 1 }, asked := false }))) ∧
    (∀ (k : W32) (x : Stamp), s.stampOf k = some x → x.stamp = k → s.dealers.takeover = .none → x.missing ≠ [] →
      exec (.settlementCall k) s =
        .next ((s.modStamp k (fun y => { y with called := true, deferred := false })).sendCalls k x.missing) ∧
      (x.called = true → exec (.settlementRecall k) s = .next (s.sendCalls k x.missing))) ∧
    (∀ (k : W32) (x : Stamp), s.stampOf k = some x → s.dealers.takeover = .none →
      exec (.settlementFinalize k) s = .next (s.finalize x) ∧
      (x.missing = [] → exec (.settlementCall k) s = .next (s.finalize x))) ∧
    (∀ (f : Flit) (k x : Stamp) (t : State), f.cls = 9 → f.crc = f.crcOf → f.dest = s.myId → byteField f.pay 0 8 = (2 : Byte) →
      (byteField f.pay 2 8 : Byte).toNat ≤ 6 → s.reportStamp f = some k → t = s.modStamp k.stamp (fun x => x.take f) →
      t.stampOf k.stamp = some x → x.missing ≠ [] → exec (.report f) s = .next t)

/-- R375, R394–R396: the owner enables a queue that fits, consumes and produces, an expired wait entry is marked, a clean
partition takes a tenant, and a failing ledger die leaves the other serving. -/
def Obligations.QueueAndPartitionCommandsComplete : Prop :=
  ∀ (s : State),
    (∀ (n : Fin 8) (q : BitVec 15) (v : W32) (y : Queue), s.isOwner n = true → ownerQueue q.toNat = true →
      (s.queue q.toNat).en = false → within v 0x3F7FFF = true → v.getLsbD 14 = true →
      y = (s.queue q.toNat).setCfg (deviceQueue q.toNat) v → y.codesOk = true → s.queueFits y = true →
      exec (.queueDescriptorWrite n q 8 v) s =
        .next ((s.modQueue q.toNat (fun _ => { y with en := true, head := 0, tail := 0, lost := 0 })).dirty y.part.toNat)) ∧
    (∀ (n : Fin 8) (q : BitVec 15) (v : W32) (x : Queue), s.isOwner n = true → ownerQueue q.toNat = true →
      x = s.queue q.toNat → x.en = true → x.consHost = true → v.toNat < x.size →
      (v.toNat + x.size - x.head.toNat) % x.size ≤ x.count → exec (.queueHeadWrite n q v) s =
        .next (((s.modQueue q.toNat (fun x => { x with head := bitsAt v 0 15 })).dirty x.part.toNat).qRun q.toNat qFuel)) ∧
    (∀ (n : Fin 8) (q : BitVec 15) (v : W32) (x : Queue) (k : Nat) (t : State), s.isOwner n = true → ownerQueue q.toNat = true →
      x = s.queue q.toNat → x.en = true → x.prodHost = true → v.toNat < x.size → k = (v.toNat + x.size - x.tail.toNat) % x.size →
      x.count + k < x.size →
      t = (s.modQueue q.toNat (fun x => { x with tail := bitsAt v 0 15, pushes := satAdd x.pushes k })).dirty x.part.toNat →
      exec (.queueTailWrite n q v) s = .next ((t.deliverNew x x.tail.toNat k).qRun q.toNat qFuel)) ∧
    (∀ q : BitVec 15, s.qStalled q.toNat = true → exec (.waitEntryExpire q) s =
      .next ((s.qWrite (s.queue q.toNat) (s.queue q.toNat).head.toNat (2 :: (s.qHead q.toNat).drop 1)).qRun q.toNat qFuel)) ∧
    (∀ (n : Fin 8) (p : Fin 64) (v : W32), s.isOwner n = true → within v 0x8000FFFF = true → (s.lpart p).clean = true →
      (s.lpart p).tenant ≠ bitsAt v 0 16 →
      exec (.partTenantWrite n p v) s = .next (s.modLPart p (fun x => { x with tenant := bitsAt v 0 16 }))) ∧
    (∀ b : Bool, exec (.ledgerDieError b) s =
      .next (({ s with led := { s.led with degraded := true, failedHalf := b } } : State).alertBit 1))

/-- R398–R403: the ledger mailboxes: a party that may act posts, takes, claims, releases, rings and answers; a lease ends; a
device function takes its notice; a party's reset aborts its exchanges. -/
def Obligations.LedgerMailboxCommandsComplete : Prop :=
  ∀ (s : State) (p : Byte) (m : BitVec 12) (x : LMbx), s.mbx m.toNat = x → x.en = true →
    (s.partyActs p = true → x.cmd = false → x.serves p = false →
      exec (.ledgerMbxPost p m) s = .next ((s.mbxPost m.toNat).mbxWake m.toNat mbxFuel)) ∧
    (s.partyActs p = true → x.cmd = false → x.serves p = true →
      exec (.ledgerMbxTake p m) s = .next ((s.mbxTake m.toNat).mbxWake m.toNat mbxFuel)) ∧
    (s.partyActs p = true → isHost p = false → x.cmd = true → x.claim = 0 → x.serves p = false →
      exec (.ledgerMbxClaimRead p m) s = .next ((s.modMbx m.toNat (fun y => { y with claim := p })).mbxDirty m.toNat)) ∧
    (s.partyActs p = true → x.cmd = true → x.claim = p →
      exec (.ledgerMbxRelease p m) s =
        .next (((s.modMbx m.toNat LMbx.release).mbxDirty m.toNat).mbxWake m.toNat mbxFuel) ∧
      exec (.ledgerMbxRing p m) s =
        .next (((s.modMbx m.toNat (fun y => { y with ring := true })).mbxDirty m.toNat).mbxWake m.toNat mbxFuel)) ∧
    (s.partyActs p = true → x.cmd = true → x.serves p = true → x.claim ≠ 0 → x.ring = true →
      exec (.ledgerMbxDone p m) s =
        .next (((s.modMbx m.toNat (fun y => { y with done := true })).mbxDirty m.toNat).mbxWake m.toNat mbxFuel)) ∧
    (x.claim ≠ 0 → exec (.ledgerMbxLeaseExpire m) s = .next ((s.modMbx m.toNat LMbx.expire).mbxWake m.toNat mbxFuel)) ∧
    (x.server = 33 → x.cmd = false → x.full = true → m ≠ 0 →
      exec (.deviceServerTake m) s = .next ((s.mbxTake m.toNat).mbxWake m.toNat mbxFuel)) ∧
    (x.server = 33 → x.cmd = false → x.full = true → m = 0 →
      exec (.deviceServerTake m) s = .next (((s.mbxTake 0).rebuildPost x.data).mbxWake 0 mbxFuel)) ∧
    (∀ t : State, (0 :: s.led.mbx.map (·.1)).eraseDups = [m.toNat] → x.hitBy p = true →
      t = s.modMbx m.toNat (fun y => y.abortBy p) →
      exec (.partyResetAbort p) s = .next ((s.mbxWaiters m.toNat).foldl (fun t c => t.endLong c 0x64 2 0x13 0 1 0xFE) t))

/-- R366, R367: a convoy flit lands in its open window, a spent window closes, and a committed segment bound for an endpoint of
a slice leaves on its convoy, with its chunk digests (their form is the model's, log 123). -/
def Obligations.RebuildCommandsComplete : Prop :=
  ∀ (s : State),
    (∀ (p : Nat) (l : Fin 64) (f : Flit) (k : W32) (w : Landing), f.cls = 2 → s.subDown p = false → f.crc = f.crcOf →
      SMap.get noneOf s.fab.reb.sched (64 * p + l) = some k →
      s.fab.reb.windows.find? (fun w => decide (w.convoy = k) && s.isOpen w && !w.last) = some w →
      exec (.landingFlit p l f) s = .next (s.land w f)) ∧
    (∀ (p : Nat) (l : Fin 64) (f : Flit), f.cls = 2 → s.subDown p = false → f.crc = f.crcOf →
      SMap.get noneOf s.fab.reb.sched (64 * p + l) = none →
      exec (.landingFlit p l f) s = .next (s.setReb (fun r => { r with convoyMiss := satInc r.convoyMiss }))) ∧
    (∀ (i : Nat) (w : Landing), s.fab.reb.windows[i]? = some w → w.spent = true →
      exec (.landingWindowClose i) s = .next (s.setReb (fun r => { r with windows := r.windows.eraseIdx i }))) ∧
    (∀ (i : Nat) (d : Delivery) (sl : W16) (t : State), s.fab.reb.deliveries[i]? = some d →
      (s.known d.dest).bind (fun k => k.bound) = some sl → d.sent = false → d.ready = true → s.isActive = true →
      t = (List.range ((d.len + 47) / 48)).foldl (fun s j => s.sendTo d.dest (s.deliveryFlit d sl ((d.len + 47) / 48) j)) s →
      exec (.segmentDelivery i) s = .next ((t.emit (.chunkDigests d.dest (t.chunkDigests d))).setReb (fun r =>
        { r with deliveries := r.deliveries.map (fun y => if y = d then { y with sent := true } else y) })))
/-! ## Telemetry, discovery, the deck (02, 01, 08) -/

/-- R81–R83, R175: a congestion notice's records of planned ports enter the map, each under its port and window, marked late
when more than 2 windows late; an agent silent for 10 windows is posted as AGENT_TIMEOUT and its kind 2 trump falls due; each
millisecond's summary counts its ports and joins the ring, the one after the last. Where the map stands in the depot the spec
leaves open (log 116). -/
def Obligations.TelemetryEventsComplete : Prop :=
  ∀ (s : State),
    (∀ (f : Flit) (w : W32) (p n : Nat), f.cls = 6 → f.seq = 0xFFFF → f.crc = f.crcOf → f.dest = s.myId →
      w = byteField f.pay 0 32 → p = (byteField f.pay 4 8 : Byte).toNat → n = (byteField f.pay 5 8 : Byte).toNat →
      1 ≤ n → n ≤ 5 → p + n ≤ 128 →
      ∃ t : State, exec (.congestionRecord f) s = .next t ∧
        t.fab.cong.window = (if newer w s.fab.cong.window then w else s.fab.cong.window) ∧
        (∀ i < n, s.mapped f.src (p + i) = true →
          (∀ x, SMap.get noneOf s.fab.cong.ring (congKey f.src (p + i) w.toNat) = some x → newer x.window w = false) →
          SMap.get noneOf t.fab.cong.ring (congKey f.src (p + i) w.toNat) = some
            { window := w, record := byteField f.pay (8 + 8 * i) 64, late := decide (w.toNat + 3 < s.fab.frame.toNat / 100) }) ∧
        (∀ k : Nat, (∀ i < n, k ≠ congKey f.src (p + i) w.toNat) →
          SMap.get noneOf t.fab.cong.ring k = SMap.get noneOf s.fab.cong.ring k)) ∧
    (∀ (id : W16) (w : W32), s.isActive = true → s.lastWindow id = some w → w.toNat + 10 < s.fab.frame.toNat / 100 →
      exec (.agentTimeout id) s = .next ((s.post 0x05 id (w.setWidth 128)).setFold (fun b =>
        { b with trumpDue := addNew b.trumpDue id }))) ∧
    (∀ (id : W16) (w : W32), s.isActive = true → s.lastWindow id = some w → s.fab.frame.toNat / 100 ≤ w.toNat + 10 →
      exec (.agentTimeout id) s = .next s) ∧
    (∀ w : Nat, w = 10 * (s.fab.frame.toNat / 100 / 10 - 1) → ∃ (t : State) (x : Summary), exec .summaryEntry s = .next t ∧
      t.fab.cong.nSums = s.fab.cong.nSums + 1 ∧
      SMap.get noneOf t.fab.cong.sums (s.fab.cong.nSums % 86400000) = some x ∧
      t.fab.cong.ring = s.fab.cong.ring ∧
      x.down = (s.plannedPorts.filter (fun q => (s.tenWindows q.1 q.2.1 w).any (fun r => r.getLsbD 7))).length ∧
      x.retrain = (s.plannedPorts.filter (fun q => (s.tenWindows q.1 q.2.1 w).any (fun r => r.getLsbD 6))).length ∧
      x.low = (s.plannedPorts.filter (fun q => (s.tenWindows q.1 q.2.1 w).any (fun r =>
        decide ((bitsAt r 22 6 : BitVec 6).toNat < s.plat.pwr.lowMargin.toNat)))).length ∧
      x.topOcc.length ≤ 8 ∧ x.topDefl.length ≤ 8)

/-- R37–R42, R451: discovery binds the plan that waits and probes every trained port of the package, the others being dark; a
HELLO is entered under its path and its agent joins the wave, or is examined when no pass runs; a probe is repeated twice,
then its port is dark; an untrained port is probed again; the comparison ends the pass, takes the links that the plan does
not bear out out of service, and on a cold start takes the epoch after the newest reported and quarantines every agent found;
dark ports are probed again once their period is over; and a package that hears no RENEW takes the pod, its frame number
starting at 0. What is reported to the owner has the model's form (log 106). -/
def Obligations.DiscoveryEventsComplete : Prop :=
  ∀ (s : State),
    (s.isActive = true → s.fab.disc.active = false → ∃ t : State, exec .discoveryStart s = .next t ∧
      t.fab.disc.active = true ∧ t.fab.disc.cold = s.fab.gens.all (fun g => g.2.isNone) ∧ t.fab.disc.found = [] ∧
      t.fab.plan = (match s.fab.nextPlan with | some p => some p | none => s.fab.plan) ∧
      (∀ p < 80, s.subEnabled p = true → (s.sub p).trained = true → (s.sub p).up = true →
        ∃ x ∈ t.fab.disc.probes, x.path = [BitVec.ofNat 8 p] ∧ x.tries = 0) ∧
      (∀ p < 80, s.subEnabled p = true → ((s.sub p).trained = false ∨ (s.sub p).up = false) →
        [BitVec.ofNat 8 p] ∈ t.fab.disc.dark)) ∧
    (∀ (f : Flit) (x : ProbeRec) (t u : State), f.cls = 5 → f.crc = f.crcOf → f.dest = s.myId → s.isActive = true →
      s.fab.disc.probes.find? (fun x => x.seq = f.seq) = some x → helloId f.pay ≠ 0xFFFF →
      t = (s.setDisc (fun d => { d with
        probes := d.probes.filter (fun y => decide (y ≠ x)), dark := d.dark.filter (fun y => decide (y ≠ x.path)),
        untrained := d.untrained.filter (fun y => decide (some y ≠ s.untrainedAt x.path)) })).onHello f.pay x.path →
      u = t.setDisc (fun d => { d with found := addNew d.found (helloId f.pay), fresh := addNew d.fresh (helloId f.pay) }) →
      (t.fab.disc.active = false → exec (.hello f) s = .next (t.examine (helloId f.pay) false)) ∧
      (t.fab.disc.active = true → u.toSpread (helloId f.pay) x.path.length = false → exec (.hello f) s = .next u) ∧
      (t.fab.disc.active = true → u.toSpread (helloId f.pay) x.path.length = true →
        exec (.hello f) s = .next (u.spread f.pay x.path))) ∧
    (∀ (f : Flit) (x : ProbeRec) (e : Byte) (prev : W16), f.cls = 5 → f.crc = f.crcOf → f.dest = s.myId → s.isActive = true →
      s.fab.disc.probes.find? (fun x => x.seq = f.seq) = some x → helloId f.pay ≠ 0xFFFF → x.path.getLast? = some e →
      s.nodeAt x.path.dropLast = some prev → s.isDuplicate f.pay prev e.toNat = false →
      ∃ (t : State) (k : Known), exec (.hello f) s = .next t ∧ t.known (helloId f.pay) = some k ∧ k.hello = helloKey f.pay) ∧
    (∀ (i : Nat) (x : ProbeRec), s.fab.disc.probes[i]? = some x →
      (x.tries < 2 → exec (.probeRetry i) s = .next ((s.setDisc (fun d => { d with
        probes := d.probes.map (fun y => if y = x then { y with tries := y.tries + 1 } else y) })).sendPath x.path (agCmd 0x01 0) x.seq)) ∧
      (x.tries = 2 → exec (.probeRetry i) s = .next (s.setDisc (fun d => { d with
        probes := d.probes.eraseIdx i, dark := addNew d.dark x.path })))) ∧
    (∀ (id : W16) (p : Nat) (u : W16 × Nat × Nat) (path : List Byte), s.fab.disc.untrained.find? (fun u => decide (u.1 = id) &&
      decide (u.2.1 = p)) = some u → s.pathFor id = some path → u.2.2 < 10 → exec (.untrainedReprobe id p) s =
        .next ((s.setDisc (fun d => { d with
          untrained := d.untrained.map (fun y => if y = u then (u.1, u.2.1, u.2.2 + 1) else y) })).probe
            (path ++ [BitVec.ofNat 8 p]) 3)) ∧
    (s.isActive = true → s.fab.disc.active = true → s.fab.disc.probes = [] → s.fab.disc.untrained = [] →
      ∃ t : State, exec .discoveryCompare s = .next t ∧ t.fab.disc.active = false ∧ t.fab.disc.cold = false ∧
        t.fab.disc.cuts = [] ∧ t.fab.disc.fresh = [] ∧ t.fab.disc.darkAt = s.us ∧
        t.dealers.fepoch = (if s.fab.disc.cold then newestEpoch s.hellos + 1 else s.dealers.fepoch) ∧
        (∀ l ∈ s.fab.links, s.planned l = false → ∃ m ∈ t.fab.links, m.a = l.a ∧ m.ap = l.ap ∧ m.b = l.b ∧ m.bp = l.bp ∧ m.cut = true) ∧
        (s.fab.disc.cold = true → ∀ id ∈ s.fab.disc.fresh, ∀ k : Known, s.known id = some k →
          ∃ j : Known, t.known id = some j ∧ j.quar = true)) ∧
    (s.isActive = true → s.fab.disc.active = false → s.fab.disc.darkAt + 1000 * s.fab.disc.darkMs ≤ s.us →
      ∃ t : State, exec .darkPortPass s = .next t ∧ t.fab.disc.active = true ∧ t.fab.disc.darkAt = s.us ∧
        (∀ p ∈ s.fab.disc.dark, p ≠ [] → p.length ≤ 16 → ∃ x ∈ t.fab.disc.probes, x.path = p)) ∧
    (s.pair.coldWait = true → s.vbat.held = false → s.dealers.role = false →
      ∃ t : State, exec .coldStartWaitExpire s = .next t ∧ t.dealers.role = true ∧ t.dealers.cepoch = s.vbat.cepoch + 1 ∧
        t.vbat.cepoch = s.vbat.cepoch + 1 ∧ t.fab.frame = 0 ∧ t.pair.coldWait = false ∧ t.fab.disc.active = true)

/-- R276–R282, R298, R303, R306–R310: the verifier takes the job at the head of its queue and answers it, a forecast batch
starts, a deal starts with its solve's files and a job for its image and ends with its deck in force, a played repair stages
its follow-on cards, an unhanded fault's repair is originated once its cards are armed, a lost agent's trump is originated,
and a convoy schedule is written, or one that passed goes to its agents and then comes into force. How deals, batches and
schedules are driven by their commands is the model's choice (logs 111, 112, 113, 117). -/
def Obligations.DeckCommandsComplete : Prop :=
  ∀ (s : State), s.dealers.takeover = .none →
    (∀ (e : List Byte) (t : State) (r : Verdict × State), (s.queue 0x7FF0).en = true → (s.queue 0x7FF0).count ≠ 0 →
      s.qStalled 0x7FF0 = false → e = s.qHead 0x7FF0 → 1 ≤ (e.headD 0).toNat → (e.headD 0).toNat ≤ 3 →
      t = (s.qPop 0x7FF0).qRun 0x7FF0 qFuel → r = t.runJob e → exec .verifierJob s = .next ((r.2.qDevPush 0x7FF1
        (((e.drop 40).take 8) ++ [BitVec.ofNat 8 r.1.status, 0] ++ toBytes 2 r.1.agent ++ toBytes 4 (BitVec.ofNat 32 r.1.dest))).dealJudged
          e r.1.status)) ∧
    (s.isActive = true →
      (∀ lib policy models : Nat, exec (.forecastBatch lib policy models) s = .next (s.setDeck (fun d => { d with
        batch := some { at_ := s.us, lib := lib, policy := policy, outs := s.batchOuts lib models } }))) ∧
      (∀ (image : Nat) (files : SolveFiles) (deck policy : Nat) (place : List (W16 × Option (Fin 512))), s.dealers.change.isOpen = false →
        s.fab.deck.dealing = none → ∃ (t : State) (d : Deal),
          exec (.deal image files deck policy place) s = .next t ∧ t.fab.deck.dealing = some d ∧
          d.files = ⟨image, files.costs, files.dists, files.base⟩ ∧ d.policy = policy ∧ d.phase = 0 ∧
          d.epoch = s.dealers.fepoch ∧ d.cuts = s.fab.deck.cutList ∧ d.only = none ∧ d.todo ++ d.wait = [0] ∧
          t.fab.deck.area = some deck ∧ t.fab.deck.addr ≠ some d.deck ∧ t.fab.deck.placement = place) ∧
      (∀ (image : Nat) (files : SolveFiles) (deck policy : Nat) (place : List (W16 × Option (Fin 512))) (d : Deal),
        s.fab.deck.dealing = some d → d.only = none → s.dealStale d = false → d.todo = [] →
        (d.phase = 0 → s.dealers.fepoch = d.epoch → exec (.deal image files deck policy place) s = .next s) ∧
        (d.phase = 2 → d.wait = [] → ∃ t : State, exec (.deal image files deck policy place) s = .next t ∧
          t.fab.deck.addr = some d.deck ∧ t.fab.deck.deal = s.fab.deck.deal + 1 ∧ t.fab.deck.dealing = none ∧
          t.fab.deck.policyAt = some d.policy ∧ t.fab.deck.files = some d.files ∧ t.fab.deck.computed = [] ∧
          t.fab.deck.completion = some (s.dealers.fepoch, if (s.policy d.policy).flag then 1 else 0))) ∧
      (∀ (b k : Nat), s.fab.deck.addr = some b → k < s.deckRepairs b → s.fab.deck.played.contains (s.repair b k).fault = true →
        exec (.followOnStaging k) s = .next (((List.range (s.deckRepairs b)).filter (fun i =>
          decide ((s.repair b i).kind = 4) && decide ((s.repair b i).key1 = (s.repair b k).fault) && (s.repair b i).verified &&
            !(s.repair b i).compatible && !s.staged i)).foldl (fun u i => u.stagePair b i) s)) ∧
      (∀ (b : Nat) (d : Desc) (cs : List Cand) (t : State), s.fab.deck.addr = some b → descOk d = true → s.installDue b d = true →
        s.toInstall b (s.keyOf d) = (.cards cs, t) →
        ((∀ c ∈ cs, 2 ≤ t.cardState c) →
          exec (.unhandedRepair d) s = .next ((t.originate (s.keyOf d)).closeFault d)) ∧
        ((∃ c ∈ cs, t.cardState c = 1) → exec (.unhandedRepair d) s = .next t) ∧
        ((∃ c ∈ cs, t.cardState c = 0) → (∀ c ∈ cs, t.cardState c ≠ 1) →
          exec (.unhandedRepair d) s = .next (t.installCards b cs))) ∧
      (∀ (d : Desc), descOk d = true → s.lossDue d = true → s.fab.deck.addr = none →
        s.fab.filter.contains (putBits (putBits (s.keyOf d) 36 s.myId) 52 (0 : Byte)) = false →
        exec (.agentLossTrump d) s = .next ((s.originate (s.keyOf d)).lossDone d)) ∧
      (∀ (a reqs n : Nat) (c : Schedule) (f : DealFiles), s.buildSchedule reqs n = some c →
        s.inDepot a (schedBytes c s.dealers.fepoch false).length = true → s.fab.deck.files = some f →
        exec (.convoySchedule (.build a reqs n)) s = .next ((s.depWrite a (schedBytes c s.dealers.fepoch false)).qDevPush 0x7FF0
          (jobEntry 3 s.dealers.fepoch a f.costs f.dists f.base (BitVec.ofNat 64 a) 0))) ∧
      (∀ (a reqs n : Nat), s.buildSchedule reqs n = none → exec (.convoySchedule (.build a reqs n)) s = .next s) ∧
      (∀ (a : Nat) (c : Schedule), s.schedPassed a = true → s.schedule a = some c →
        (s.fab.deck.convoy = none → exec (.convoySchedule (.write a)) s = .next
          ((schedAgents c).foldl (fun u x => u.devTarget { u.target 0 x (u.slotSteps c x) with slots := true })
            (s.setDeck (fun d => { d with convoy := some { addr := a } })))) ∧
        (∀ l : ConvoyLoad, s.fab.deck.convoy = some l → l.addr = a → (∀ u ∈ schedAgents c, u ∈ l.acked) →
          s.dealers.bg.any (fun t => t.slots && (schedAgents c).contains t.agent) = false →
          ∃ t : State, exec (.convoySchedule (.write a)) s = .next t ∧ t.fab.deck.convoy = none ∧
            (∀ x ∈ c.landing, ∃ k : W32, SMap.get noneOf t.fab.reb.sched (64 * x.port + x.slot) = some k))))

/-! ## The Assayer and the coin cell (12) -/

/-- R405, R408–R414, R420, R424, R430: SPDM is answered, a certificate chain sets the operator root, PROV_UNLOCK opens and
closes, ROLLFWD raises counter 0, EXTEND_GO extends the owner's register, a set key is drawn, transferred and received, and
release keys, the mirror and secure sessions expire or are rebuilt. -/
def Obligations.AssayerCommandsComplete : Prop :=
  ∀ (s : State),
    (∀ req : List Byte, exec (.spdmRequest req) s =
      .next (({ s with fresh := s.fresh + 1 } : State).emit (.spdm (Config.spdmRespond req s.allMeas s.fresh)))) ∧
    (∀ (cert : List Byte) (t u : State), s.vbat.rootSet = false ∨ s.asy.unlock = true → t = s.spdmAnswer cert →
      u = t.setVbat (fun v => { v with rootSet := true, rootHash := sha384 (Config.rootOf cert) }) →
      exec (.setCertificate cert) s = .next (if Config.chainOk cert = true then
        ((u.setAsy (fun a => { a with rootChain := cert, unlock := false })).bumpMono 1).extend 8 (Config.rootOf cert) else t)) ∧
    exec .provUnlockExpire s = .next (s.setAsy (fun a => { a with unlock := false })) ∧
    exec .mirrorRebuild s = .next (s.setAsy (fun a => { a with mirror := a.store, mirrorOk := true })) ∧
    (∀ (id : W32) (off : ReleaseKey → ReleaseKey), off = (fun r => if r.id = id then { r with usable := false } else r) →
      exec (.releaseKeyExpire id) s = .next (s.setAsy (fun a => { a with
        store := { a.store with release := a.store.release.map off }, mirror := { a.mirror with release := a.mirror.release.map off } }))) ∧
    (∀ (k : Fin 64) (x : SpdmSess), s.spdm k = some x → ((s.setSpdm k none).ctx x.ctx).long = none →
      exec (.spdmSessionTimeout k) s = .next (s.setSpdm k none).attestWake) ∧
    (∀ (k : Fin 64) (x : SpdmSess) (r : Running) (t : State), s.spdm k = some x → t = s.setSpdm k none →
      (t.ctx x.ctx).long = some r → uOp r.word = 0x70 → r.phase = 1 → r.arg = k.val →
      exec (.spdmSessionTimeout k) s = .next (t.putRun x.ctx { r with phase := 2 }).attestWake) ∧
    (s.asy.xfer = 1 →
      (∀ (key : BitVec 256) (id : W32) (count : BitVec 4) (ms : List Digest),
        exec (.xferEnd (.key key id count ms)) s = .next (s.takeSetKey key id count ms)) ∧
      exec (.xferEnd .refused) s = .next (s.setAsy (fun a => { a with xfer := 3 })) ∧
      exec (.xferEnd .timeout) s = .next (s.setAsy (fun a => { a with xfer := 4 })) ∧
      exec (.xferEnd .notMember) s = .next (s.setAsy (fun a => { a with xfer := 5 }))) ∧
    (∀ n : Fin 8, s.isOwner n = true →
      (2 ≤ (s.session n).path.toNat → exec (.provUnlock n) s = .next (s.setAsy (fun a => { a with unlock := true }))) ∧
      ((s.mono 0).toNat ≤ s.asy.secVer.toNat →
        exec (.rollfwd n) s = .next (s.setVbat (fun v => { v with mono := SMap.set z32 v.mono 0 s.asy.secVer }))) ∧
      exec (.extendGo n) s = .next (s.extend s.asy.extIdx.toNat (toBytes 48 s.asy.extData)) ∧
      (∀ t : State, s.vbat.held = false → s.vbat.setValid = false → s.setMembers.contains Config.identityHash = true →
        t = { s with fresh := s.fresh + 1 } → exec (.setGen n) s =
          .next (((t.setVbat (fun v => { v with setKey := Config.random 256 s.fresh, setValid := true })).bumpMono 2).vlogFree 5)) ∧
      (∀ v : W32, s.vbat.held = false → 1 ≤ v.toNat → v.toNat ≤ 8 → v.toNat ≤ s.vbat.setCount.toNat →
        exec (.xferAllow n v) s = .next (s.setAsy (fun a => { a with
          allow := a.allow.filter (fun x => decide (x.1 ≠ v.toNat - 1)) ++ [(v.toNat - 1, s.us)] }))) ∧
      (∀ v : W32, v.toNat ≤ 0xFFFF → exec (.xferReq n v) s =
        .next ((s.setAsy (fun a => { a with xfer := 1 })).xferSend (v.setWidth 16))))

/-- R422: a grant, a release and a change of tenant queue the scrub of the allocation's range, and the scrub at the head of
the queue zeroes its range and gives the entry its state. -/
def Obligations.DepotAllocationCommandsComplete : Prop :=
  ∀ (s : State),
    (∀ (n : Fin 8) (i : Fin 256) (a : Alloc), s.isOwner n = true → s.alloc i = a →
      (a.st = 0 → a.size ≠ 0 → s.inDepot a.addr a.len = true → s.retiringAt a.addr a.len = false →
        s.allocMeets i a.addr a.len = false → exec (.depotGrant n i) s = .next (s.scrubAlloc i 1)) ∧
      (a.st = 1 → s.rangeBusy a.addr a.len = false → exec (.depotRelease n i) s = .next (s.scrubAlloc i 0)) ∧
      (∀ v : W32, v.toNat ≤ 0xFFFF → a.st = 0 → exec (.depotTenantWrite n i v) s =
        .next (s.modAlloc i (fun x => { x with tenant := v.setWidth 16 }))) ∧
      (∀ v : W32, v.toNat ≤ 0xFFFF → a.st = 1 → a.tenant ≠ v.setWidth 16 → s.rangeBusy a.addr a.len = false →
        exec (.depotTenantWrite n i v) s =
          .next ((s.modAlloc i (fun x => { x with tenant := v.setWidth 16 })).scrubAlloc i 1))) ∧
    (∀ (x : Scrub) (xs : List Scrub) (i : Nat) (st : BitVec 2) (t : State), s.depot.scrubs = x :: xs → x.entry = some (i, st) →
      x.ctx = none → t = { s with depot := { s.depot with
        mem := s.depot.mem.filter (fun b => decide (b.1 < x.addr) || decide (x.addr + x.len ≤ b.1)),
        bad := s.depot.bad.filter (fun l => decide (64 * l + 63 < x.addr) || decide (x.addr + x.len ≤ 64 * l)),
        scrubs := xs } } →
      exec .depotScrubDone s = .next (t.modAlloc i (fun a => { a with st := st })))

/-- R425–R431: alarms zeroize the set key and are logged, on main power with a reset; a lost battery resets the domain and
holds the package; the clock is set, owner counters rise, and HELD_CLEAR releases a package that holds a set key again. -/
def Obligations.CoinCellCommandsComplete : Prop :=
  ∀ (s : State),
    (s.vbat.tamperEn = true → exec (.tamperAlarm true) s = .next (s.alarm 1 false) ∧
      exec (.tamperAlarm false) s =
        .next ((((List.range 64).foldl State.startErase (s.alarm 1 false)).keyWake).pkgReset 12 true)) ∧
    exec (.tempAlarm true) s = .next (s.alarm 3 true) ∧
    exec (.tempAlarm false) s = .next (s.alarm 2 true) ∧
    (∀ t : State, t = (s.setVbat (fun _ => ({ ok := false, battLost := true, cause := 4, held := true } : Vbat))).vlogFree 4 →
      exec .battLost s = .next ((List.range 64).foldl State.startErase t).keyWake) ∧
    (∀ n : Fin 8, s.isOwner n = true →
      (∀ v : W32, exec (.rtcSet n v) s = .next ((s.setVbat (fun b => { b with rtcS := v, rtcSub := 0 })).vlogFree 8)) ∧
      (∀ v : W32, within v 0xF8 = true → exec (.monoInc n v) s =
        .next ([3, 4, 5, 6, 7].foldl (fun u i => if v.getLsbD i then u.bumpMono i else u) s)) ∧
      (s.vbat.setValid = true → s.vbat.cause.getLsbD 3 = false → s.vbat.cause.getLsbD 4 = false → exec (.heldClear n) s =
        .next ((s.setVbat (fun v => { v with held := false, cause := 0, tamper := false, temp := false })).vlogFree 7)))
/-! ## Reset (13) -/

/-- R432–R437: each source of a package-wide reset sets its bit and wipes the package once its pair frame has gone, POR leaves
only the coin-cell domain, and the narrower resets reach their own parts. -/
def Obligations.ResetEventsComplete : Prop :=
  ∀ (s : State),
    (s.plat.rst.pinLow = false → exec .sysReset s = .next ((s.pkgReset 1 true).setRst (fun r => { r with pinLow := true }))) ∧
    exec .sysResetRelease s = .next (s.setRst (fun r => { r with pinLow := false })) ∧
    exec .por s = .next s.por ∧
    exec .therm s = .next (((s.pkgReset 6 true).setRst (fun r => { r with thermHold := true, coolAt := none })).setPins
      (fun p => { p with thermTrip := true })) ∧
    exec .assayerErrorReset s = .next (s.pkgReset 7 true) ∧
    exec .brownout s = .next (s.pkgReset 10 false) ∧
    (∀ e : W16, s.dealers.role = false → older e s.dealers.cepoch = false → exec (.peerReset e) s = .next (s.pkgReset 9 true)) ∧
    (∀ b : Bool, exec (.perst b) s = .next ((((s.setRst (fun r =>
      { r with cause := putBit r.cause (if b then 3 else 2) true })).modSession (if b then 1 else 0) (fun x =>
        { x with linkUp := false })).closeSession (if b then 1 else 0)))) ∧
    (∀ (b : Bool) (t : State), t = s.causeBit (if b then 5 else 4) → s.plat.bring.ended.getLsbD 3 = true →
      (b = s.dealers.active → exec (.dealerWatchdog b) s = .next t.startTakeover) ∧
      (b ≠ s.dealers.active → s.dealers.takeover = .none → exec (.dealerWatchdog b) s = .next t.resetStandby)) ∧
    (∀ n : Fin 8, s.isOwner n = true → exec (.rstReq n 0x1A5C3) s = .next (s.pkgReset 8 true) ∧
      (s.dealers.standby = true → exec (.rstReq n 0x2A5C3) s = .next (s.causeBit 8).resetStandby ∧
        exec (.rstReq n 0x3A5C3) s = .next ((s.causeBit 8).setAsy (fun a => { a with mirror := {}, mirrorOk := false })))) ∧
    (∀ d : Domain, exec (.domainReset d) s = .next (s.setRst (fun r => { r with domains := r.domains.filter (· ≠ d) })) ∧
      exec (.pllLockTimeout d) s = .next (s.setRst (fun r => { r with domains := addNew r.domains d })))

/-- R438: a block reset of an idle block starts at once, one of a block in use is ignored and counted twice over, and the
oldest one's end gives BLK_STATE done or failed. -/
def Obligations.BlockResetCommandsComplete : Prop :=
  ∀ (s : State),
    (∀ (n : Fin 8) (kind : BitVec 3) (t : Byte) (v : W32), s.isOwner n = true → v = fldW t 0 ||| fldW kind 8 →
      s.blkExists kind.toNat t.toNat = true →
      (s.blkIdle kind.toNat t.toNat = true → exec (.blockReset n v) s = .next (s.blkStart kind.toNat t.toNat)) ∧
      (s.blkIdle kind.toNat t.toNat = false → exec (.blockReset n v) s =
        .next ((s.setRst (fun r => { r with blkIgnored := satInc r.blkIgnored })).ignoreBy n))) ∧
    (∀ (ok : Byte) (k d old : Nat) (t : State), s.plat.rst.blk = [(k, d, old)] →
      t = s.setRst (fun r => { r with blk := [], blkState := if ok = 0 then 3 else 2 }) →
      (k = 1 → exec (.blockResetDone ok) s = .next (t.blkDieEnd d old ok).stWake) ∧
      (k ≠ 1 → exec (.blockResetDone ok) s = .next t))
/-! ## Bring-up and power (13, 14, 15) -/

/-- R440–R453: each phase that may run ends with what it read, trained or woke; a phase that fails asserts FAULT_N. -/
def Obligations.BringUpPhasesComplete : Prop :=
  ∀ (s : State),
    (∀ (r : OptionReads) (m : Nat × State), s.mayRun 1 [0] = true → m = s.medianCode r.codes → exec (.optionLoading r) s =
      .next (({ m.2 with plat := { m.2.plat with opt := OptionReads.options r m.1 } } : State).applyPins.endPhase 1)) ∧
    (∀ (r : BootReads) (t u : State) (p : List Nat × State), s.mayRun 2 [0, 1] = true →
      t = ((s.setAsy (fun _ => {})).startAssayers (s.imageOf r)).checkReference r.reference →
      p = t.applyPins.summarize r.reference.isSome →
      u = (p.2.placeDies p.1).bootCauses (p.2.fuseFault r.reference p.1) (s.imageOf r).isNone →
      exec (.assayerBoot r) s = .next (((u.setBring (fun b => { b with online := b.online &&& u.plat.opt.depotEn })).bootMeasure r
        (s.imageOf r)).endPhase 2)) ∧
    (∀ (r : DealerBootReads) (ok : Bool → Bool), s.mayRun 3 [0, 1, 2] = true → s.plat.bring.dealersFailed = false →
      ok = (fun b => (if b then r.okB else r.okA) && !s.plat.rst.domains.contains (.dealer b)) →
      (∀ (b : Bool) (t : State), b = (if ok (s.plat.opt.reg.getLsbD 19) then s.plat.opt.reg.getLsbD 19 else !s.plat.opt.reg.getLsbD 19) →
        ok b = true → t = ({ s with dealers := { s.dealers with active := b, standby := false, reload := true } } : State).setBring
          (fun x => { x with fallback := !ok (s.plat.opt.reg.getLsbD 19), ucPodVer := r.ucVersion }) →
        exec (.dealerBoot r) s =
          .next ((((t.extend 4 r.boot).extend 5 r.firmware).setPins (fun p => { p with configured := true })).endPhase 3)) ∧
      (ok true = false → ok false = false →
        exec (.dealerBoot r) s = .next ((s.setBring (fun x => { x with dealersFailed := true })).faultBit 2))) ∧
    (∀ (ok : BitVec 6) (t : State), s.mayRun 4 [0, 1] = true → s.plat.bring.depotFail = false →
      t = ({ s with depot := { s.depot with mem := [], bad := [] } } : State).setBring (fun b => { b with online := s.stacksUp ok }) →
      (s.stacksUp ok = s.plat.opt.depotEn ∨ (s.stacksUp ok ≠ 0 ∧ Config.regionsFit (s.stacksUp ok) = true) →
        exec (.depotTraining ok) s = .next (t.endPhase 4)) ∧
      (s.stacksUp ok ≠ s.plat.opt.depotEn → s.stacksUp ok = 0 ∨ Config.regionsFit (s.stacksUp ok) = false →
        exec (.depotTraining ok) s = .next ((t.setBring (fun b => { b with depotFail := true })).faultBit 3))) ∧
    (∀ ok : BitVec 40, s.mayRun 5 [0, 1] = true → exec (.laneTraining ok) s = .next (((s.trainLanes ok).setBring (fun b =>
      { b with portsDown := satNat 8 ((List.range s.fabricPorts).filter (fun p => !s.portTrains ok p)).length })).endPhase 5)) ∧
    (∀ failed : BitVec 320, s.mayRun 6 [0, 3, 4] = true → exec (.stationWaves failed) s =
      .next (((s.wakeDies failed).setBring (fun b => { b with engFailed := satNat 8 ((s.waveDies.flatMap (fun d =>
        (List.range 8).map (fun i => 8 * d + i))).filter (s.engFails failed)).length })).endPhase 6)) ∧
    (∀ ms : W16, s.mayRun 7 [0, 1, 2, 3, 4, 5, 6] = true → exec (.ready ms) s =
      .next ((((s.endPhase 7).setBring (fun b => { b with ready := true, readyMs := ms })).setPins (fun p =>
        { p with faultCause := putBit p.faultCause 1 false })).setPair (fun p => { p with coldWait := !s.vbat.held }))) ∧
    (s.plat.bring.ready = false → s.plat.rst.powerGood = true → exec .phaseOverrun s =
      .next ((s.setBring (fun b => { b with overran := putBit b.overran b.phase.toNat true })).faultBit 1)) ∧
    (∀ (n : Fin 8) (v : W32), s.isOwner n = true → within v 0x3F = true → exec (.depotRetire n v) s =
      .next ((List.range 6).foldl (fun u i => if v.getLsbD i then u.retireStack n i else u) s)) ∧
    (∀ i : Fin 6, s.plat.bring.retiring.getLsbD i = true → s.stackUsed i = false → exec (.depotStackOffline i) s =
      .next (s.setBring (fun b => { b with online := putBit b.online i false, retiring := putBit b.retiring i false })))

/-- R463–R469, R434: the governor sheds above its ceiling and releases and lends below it, an engine that waits lends and takes
its loan back, a sensor's reading is kept and holds, alerts or cools, and the owner sets the limit and clears the peak. -/
def Obligations.PowerCommandsComplete : Prop :=
  ∀ (s : State),
    (∀ (w : Nat) (t u : State), t = s.sample w → t.plat.pwr.ceiling < t.plat.pwr.proj → u = t.shed 0 t.plat.pwr.ceiling →
      (u.plat.pwr.proj ≤ u.plat.pwr.ceiling → exec (.governorInterval w) s = .next u.putLent) ∧
      (u.plat.pwr.ceiling < u.plat.pwr.proj →
        exec (.governorInterval w) s = .next (u.setPwr (fun p => { p with tokensHeld := true })).putLent)) ∧
    (∀ (w : Nat) (t : State), t = (s.sample w).release → (s.sample w).plat.pwr.proj ≤ (s.sample w).plat.pwr.ceiling →
      (t.plat.pwr.tokensHeld = true ∨ t.plat.pwr.hold 0 ≠ 0 ∨ t.plat.pwr.hold 1 ≠ 0 ∨ t.plat.pwr.hold 2 ≠ 0 →
        exec (.governorInterval w) s = .next t.repool) ∧
      (t.plat.pwr.tokensHeld = false → t.plat.pwr.hold 0 = 0 → t.plat.pwr.hold 1 = 0 → t.plat.pwr.hold 2 = 0 →
        exec (.governorInterval w) s = .next t.repool.lendRound.lendRound.lendRound)) ∧
    (∀ (e : Fin 320) (w : Nat), (s.eng e).st = 1 → (∃ a b c, (s.str e).twait = some (a, b, c, w)) → w + s.plat.pwr.lendUs < s.us →
      exec (.lendStart e) s = .next (s.modEng e (fun y => { y with lending := true })).putLent) ∧
    (∀ e : Fin 320, (s.eng e).lending = true → (s.str e).twait = none ∨ (s.eng e).st ≠ 1 →
      exec (.lendReturn e) s = .next (s.modEng e (fun y => { y with lending := false })).repool) ∧
    (∀ (u : Sensor) (c : Int) (t v : State), t = s.setPwr (fun p => { p with
        temps := SMap.set zNat p.temps (Sensor.unit u) (storedTemp c),
        tjMax := satNat 8 ((SMap.set zNat p.temps (Sensor.unit u) (storedTemp c)).foldl (fun a x => max a (x.2 - 128)) 0) }) →
      v = (match u with | .station d => t.dieTemp d (storedTemp c) | _ => t) →
      (storedTemp c < 233 → exec (.tempSample u c) s = .next v.coolDown) ∧
      (233 ≤ storedTemp c → exec (.tempSample u c) s = .next (v.alertBit 2).coolDown)) ∧
    (∀ (n : Fin 8) (v : W32), s.isOwner n = true →
      (120 ≤ v.toNat → v.toNat ≤ 350 → exec (.pwrLimitWrite n v) s = .next (s.setPwr (fun p => { p with limit := v.setWidth 9 }))) ∧
      (v ≠ 0 → within v 0xFFFF = true → exec (.pwrPeakClear n v) s = .next (s.setPwr (fun p => { p with peak := 0 }))))

/-- R487, R494, R495, R500–R502: a rail's sample is kept and one out of its tolerance asserts ALERT_N, power-good ends P0, a
sequencing fault withholds it, a status cause that no longer holds is cleared, and BIF is written while its lanes are down. -/
def Obligations.RailAndPinCommandsComplete : Prop :=
  ∀ (s : State),
    (∀ (i : Fin 9) (mv amps : W16) (low high : Bool) (t : State),
      low = decide (100 * mv.toNat < (railNominal i).1 * (100 - (railNominal i).2)) →
      high = decide ((railNominal i).1 * (100 + (railNominal i).2) < 100 * mv.toNat) →
      t = s.modRail i (fun r => { mv := mv, amps := amps, inRange := !low && !high, low := r.low || low, high := r.high || high }) →
      (low = false → high = false → exec (.railSample i mv amps) s = .next t) ∧
      (low = true ∨ high = true → exec (.railSample i mv amps) s = .next (t.alertBit 4))) ∧
    (s.plat.rst.seqFault = false → s.plat.rst.powerGood = false → exec .powerGood s =
      .next ((s.setRst (fun r => { r with powerGood := true })).setBring (fun b => { b with ended := b.ended ||| 1, phase := 1 }))) ∧
    exec .railSequenceFault s = .next ((s.setRst (fun r => { r with seqFault := true, powerGood := false })).faultBit 4) ∧
    (∀ (n : Fin 8) (v : W32), s.isOwner n = true → within v 0x1F = true →
      exec (.statusCauseClear n false v) s = .next (s.setPins (fun p =>
        { p with faultCause := (p.faultCause &&& ~~~(v.setWidth 5)) ||| (s.faultNow &&& v.setWidth 5) })) ∧
      exec (.statusCauseClear n true v) s = .next (s.setPins (fun p =>
        { p with alertCause := (p.alertCause &&& ~~~(v.setWidth 5)) ||| (s.alertNow &&& v.setWidth 5) }))) ∧
    (∀ (n : Fin 8) (p : Fin 40) (v : W32), s.isOwner n = true → p.val < s.fabricPorts → within v 0xF13 = true →
      (bitsAt v 0 2 : BitVec 2) ≠ 3 →
      (∀ i < 4, (s.lane (laneOfSub (2 * p) + i)).st = 0 ∨ (s.lane (laneOfSub (2 * p) + i)).st = 4) →
      exec (.bifWrite n p v) s = .next (s.modGPort p (fun g => { g with bifMode := bitsAt v 0 2 })))

/-! ## The whole machine -/

/-- A step takes the command at the front of the queue and runs it with the queue's rest; on an empty queue the block idles
(the model's choice, log 1). -/
def Obligations.StepRunsFrontCommand : Prop :=
  ∀ (s : State) (c : Instr) (rest : List Instr),
    Machine.step { s with pending := c :: rest } = exec c { s with pending := rest } ∧
    Machine.step { s with pending := [] } = .next { s with pending := [] }

/-- No command touches the queue of the commands waiting, none takes back an output already made, and the count of free
values drawn never falls. -/
def Obligations.CommandsKeepQueueAndOutputs : Prop :=
  ∀ (c : Instr) (s t : State), exec c s = .next t → t.pending = s.pending ∧ s.out <+: t.out ∧ s.fresh ≤ t.fresh

/-- From every state whose stores are in canonical form (addresses strictly rising, no entry equal to what an unlisted
address reads as), each step leads to such a state: equal stores stay equal data. -/
def Obligations.StepKeepsCanonicalStores : Prop :=
  ∀ (s t : State), Safety.Canonical s → Machine.step s = .next t → Safety.Canonical t

/-- R6, R165, R323, R437, R438, R452: what reset leaves. The stores are canonical, no command waits, and the registers named
here hold the reset values their tables give. -/
def Obligations.ResetState : Prop :=
  Safety.Canonical State.reset ∧ State.reset.pending = [] ∧ State.reset.out = [] ∧
    (∀ off ∈ [0x014, 0x104, 0x108, 0x114, 0x118, 0x180, 0x184, 0x204, 0x208, 0x210, 0x218, 0x220, 0x224, 0x228, 0x30C, 0x310,
        0x314, 0x318, 0x31C], State.reset.hostWord true off = 0) ∧
    State.reset.hostWord true 0x20C = 2000 ∧ State.reset.hostWord true 0x21C = 5 ∧ State.reset.hostWord true 0x300 = 7 ∧
    State.reset.hostWord true 0x304 = 3 ∧ State.reset.hostWord true 0x308 = 600 ∧
    (∀ h < 128, State.reset.hostWord true (0x400 + 4 * (h / 4)) = 0) ∧ (∀ d < 32, State.reset.hostWord true (0x480 + 4 * d) = 32)

/-- Every command answers a next state in every state: the one stop of the model is an agent's command at a place beyond the
pod's 65,536 (log 4), which faults. -/
def Obligations.EveryCommandAnswers : Prop :=
  ∀ (c : Instr) (s : State),
    ((∀ a : Nat, Safety.placeOf c = some a → a < 65536) → ∃ t : State, exec c s = .next t) ∧
    (∀ a : Nat, Safety.placeOf c = some a → 65536 ≤ a → exec c s = .fault (.noSuchAgent a))

/-- A command that is a step of one agent leaves the package and every other agent as they were, and a command of the
package's own leaves every agent as it was. -/
def Obligations.CommandsTouchOnlyTheirOwnParty : Prop :=
  ∀ (c : Instr) (s t : State), Safety.Canonical s → exec c s = .next t →
    (Safety.placeOf c = none → t.agents = s.agents) ∧
    (∀ a : Nat, Safety.placeOf c = some a →
      { t with agents := s.agents } = s ∧ ∀ b : Nat, b ≠ a → t.agent b = s.agent b)

/-- R8: an agent orders commands by the pair of the controller epoch and the dealer epoch, the first before the second. An
unsplit command whose pair is older than the recorded one is answered STALE_EPOCH (0x01) and does nothing else; one whose
pair is newer replaces the recorded pair before it acts; with the pair recorded it is taken. The pieces of a split command
are held to the same. -/
def Obligations.AgentsOrderCommandsByEpochPair : Prop :=
  ∀ (s : State) (a : Nat) (x y : Agent) (c : Cmd), a < 65536 → s.agent a = x → reservedOp c.op = false →
    (∀ (i : SinkItem) (is : List SinkItem), x.sw.sink = i :: is → i.flit.cls = 4 → x.cmdBusy = false →
      c = Cmd.ofFlit i.flit i.port →
      (i.flit.path = true → x.cu.answered.find? (fun r => r.dest = i.flit.src && r.seq = i.flit.seq) = none) →
      badFormat i.flit = false → c.piece = 0 → c.more = false →
      y = (if i.flit.path then ({ x with sw := { x.sw with sink := is } } : Agent).clearPieces c.src
        else { x with sw := { x.sw with sink := is } }) →
      (Safety.OlderPair x c → exec (.mgmtSinkConsume a) s = .next (s.setAgent a (y.answer c 0x01 []))) ∧
      (Safety.NewerPair x c → ∃ z : Agent, exec (.mgmtSinkConsume a) s = .next (s.setAgent a z) ∧
        z.id.cepoch = c.cep ∧ z.id.depoch = c.dep ∧ z.cu.cur = some c) ∧
      (c.cep = x.id.cepoch → c.dep = x.id.depoch → ∃ z : Agent, exec (.mgmtSinkConsume a) s = .next (s.setAgent a z) ∧
        z.id.cepoch = x.id.cepoch ∧ z.id.depoch = x.id.depoch ∧ z.cu.cur = some c)) ∧
    (x.cu.cur = some c → x.cu.plays = [] → c.path = true → c.piece = 0 → c.more = true →
      (Safety.OlderPair x c → exec (.commandPiece a) s = .next (s.setAgent a ((x.clearPieces c.src).answer c 0x01 []))) ∧
      (Safety.NewerPair x c → ∃ z : Agent, exec (.commandPiece a) s = .next (s.setAgent a z) ∧
        z.id.cepoch = c.cep ∧ z.id.depoch = c.dep) ∧
      (c.cep = x.id.cepoch → c.dep = x.id.depoch → ∃ z : Agent, exec (.commandPiece a) s = .next (s.setAgent a z) ∧
        z.id.cepoch = x.id.cepoch ∧ z.id.depoch = x.id.depoch)) ∧
    (∀ (p : Pieces), x.cu.cur = some c → x.cu.plays = [] → c.path = true → c.piece ≠ 0 →
      x.cu.pieces.find? (fun p => p.src = c.src) = some p → c.piece = p.next → c.op = p.op → c.arg = p.arg →
      (Safety.OlderPair x c → exec (.commandPiece a) s = .next (s.setAgent a ((x.clearPieces c.src).answer c 0x01 []))) ∧
      (Safety.NewerPair x c → ∃ z : Agent, exec (.commandPiece a) s = .next (s.setAgent a z) ∧
        z.id.cepoch = c.cep ∧ z.id.depoch = c.dep) ∧
      (c.cep = x.id.cepoch → c.dep = x.id.depoch → ∃ z : Agent, exec (.commandPiece a) s = .next (s.setAgent a z) ∧
        z.id.cepoch = x.id.cepoch ∧ z.id.depoch = x.id.depoch))

/-- R4: a register write by a session that does not own the device is ignored and counted, whatever the register; an
observer reads what the owner would, except that the fields marked secure (a key slot's, an allocation's, a partition's and
an engine's tenant) read as 0. -/
def Obligations.ObserversWriteNothing : Prop :=
  ∀ (s : State) (n : Fin 8), s.isOwner n = false →
    (∀ c : Instr, Safety.writerOf c = some n → exec c s = .next (s.ignoreBy n)) ∧
    (∀ off k : Nat, exec (.depotApertureAccess n off (.read k)) s =
      .next (s.emit (.bytes n (0x40000000 + off) (s.readSplit off k)))) ∧
    (∀ off : Nat, s.hostWord false off = s.hostWord true off &&& Safety.openMask off)

/-- R5: an agent that reports an ID in regions 128–511, a switch in regions 0–127, or an accelerator in regions 512–1,023 is
quarantined when discovery examines it: its record says so and the QUARANTINE command (0x0D) is under way to it. -/
def Obligations.ReservedIdsAreQuarantined : Prop :=
  ∀ (s t : State) (id : W16) (k : Known) (force : Bool), s.known id = some k → t = s.examine id force →
    (128 ≤ (helloId k.hello).toNat / 64 ∧ (helloId k.hello).toNat / 64 ≤ 511 ∨
      helloBuild k.hello = 2 ∧ (helloId k.hello).toNat / 64 ≤ 127 ∨
      helloBuild k.hello = 1 ∧ 512 ≤ (helloId k.hello).toNat / 64) →
    (∃ j : Known, t.known id = some j ∧ j.quar = true) ∧
      ∃ x ∈ t.dealers.bg, x.agent = id ∧ x.steps = [.cmd (agCmd 0x0D 0)]

/-- R338: an agent's power domain is DOMAIN[h], with h the rack half of its record in the bound pod plan, as the register
file shows it; an agent without a plan record is in domain 0. -/
def Obligations.PowerDomainIsThePlans : Prop :=
  ∀ (s : State) (id : W16),
    (∀ r : PlanAgent, s.planOf id = some r → r.rackHalf.toNat < 128 → s.domainOf id =
      (bitsAt (s.hostWord true (0x400 + 4 * (r.rackHalf.toNat / 4))) (8 * (r.rackHalf.toNat % 4)) 5).toNat) ∧
    (s.planOf id = none → s.domainOf id = 0)
end

