-- ==== Sys2Proof/Laws/Maps.lean ====
section
/-! SUPPORT. Laws of the sparse stores: what a read gives after a write, and that every write keeps the canonical form. -/

namespace Sys2Proof

variable {α : Type}

/-! ## Listing a pair -/

@[simp] theorem SMap.get_nil (d : Nat → α) (k : Nat) : SMap.get d [] k = d k := rfl

@[simp] theorem SMap.get_insert_self (d : Nat → α) (m : SMap α) (k : Nat) (v : α) :
    SMap.get d (SMap.insert m k v) k = v := by
  induction m with
  | nil => simp [SMap.insert, SMap.get]
  | cons p m ih =>
    obtain ⟨k', v'⟩ := p
    simp only [SMap.insert]
    split_ifs with h1 h2
    · simp [SMap.get]
    · simp [SMap.get]
    · simp [SMap.get, h1, h2, ih]

theorem SMap.get_insert_ne (d : Nat → α) (m : SMap α) (k j : Nat) (v : α) (h : j ≠ k) :
    SMap.get d (SMap.insert m k v) j = SMap.get d m j := by
  induction m with
  | nil => simp only [SMap.insert, SMap.get, h, if_false]; split_ifs <;> rfl
  | cons p m ih =>
    obtain ⟨k', v'⟩ := p
    simp only [SMap.insert]
    split_ifs with h1 h2
    · subst h1
      simp [SMap.get, h]
    · simp only [SMap.get, h, if_false]
      split_ifs <;> first | rfl | omega
    · simp only [SMap.get, ih]

/-! ## The canonical form -/

variable [DecidableEq α]

theorem SMap.wfFrom_mono (d : Nat → α) {lo lo' : Nat} {m : SMap α} (h : SMap.wfFrom d lo' m = true) (hl : lo ≤ lo') :
    SMap.wfFrom d lo m = true := by
  cases m with
  | nil => rfl
  | cons p m =>
    obtain ⟨k, v⟩ := p
    simp only [SMap.wfFrom, Bool.and_eq_true, decide_eq_true_eq] at h ⊢
    exact ⟨⟨by omega, h.1.2⟩, h.2⟩

theorem SMap.wfFrom_insert (d : Nat → α) {m : SMap α} {lo k : Nat} {v : α} (h : SMap.wfFrom d lo m = true) (hk : lo ≤ k)
    (hv : v ≠ d k) : SMap.wfFrom d lo (SMap.insert m k v) = true := by
  induction m generalizing lo with
  | nil => simp [SMap.insert, SMap.wfFrom, hk, hv]
  | cons p m ih =>
    obtain ⟨k', v'⟩ := p
    simp only [SMap.wfFrom, Bool.and_eq_true, decide_eq_true_eq] at h
    simp only [SMap.insert]
    split_ifs with h1 h2
    · subst h1
      simp [SMap.wfFrom, hk, hv, h.2]
    · simp only [SMap.wfFrom, Bool.and_eq_true, decide_eq_true_eq]
      exact ⟨⟨hk, hv⟩, ⟨by omega, h.1.2⟩, h.2⟩
    · simp only [SMap.wfFrom, Bool.and_eq_true, decide_eq_true_eq]
      exact ⟨h.1, ih h.2 (by omega)⟩

theorem SMap.wfFrom_erase (d : Nat → α) {m : SMap α} {lo : Nat} (k : Nat) (h : SMap.wfFrom d lo m = true) :
    SMap.wfFrom d lo (SMap.erase m k) = true := by
  induction m generalizing lo with
  | nil => rfl
  | cons p m ih =>
    obtain ⟨k', v'⟩ := p
    simp only [SMap.wfFrom, Bool.and_eq_true, decide_eq_true_eq] at h
    simp only [SMap.erase]
    split_ifs with h1 h2
    · exact SMap.wfFrom_mono d h.2 (by omega)
    · simp only [SMap.wfFrom, Bool.and_eq_true, decide_eq_true_eq]
      exact h
    · simp only [SMap.wfFrom, Bool.and_eq_true, decide_eq_true_eq]
      exact ⟨h.1, ih h.2⟩

theorem SMap.wf_set (d : Nat → α) {m : SMap α} (k : Nat) (v : α) (h : SMap.wf d m = true) :
    SMap.wf d (SMap.set d m k v) = true := by
  simp only [SMap.wf, SMap.set] at *
  split_ifs with hv
  · exact SMap.wfFrom_erase d k h
  · exact SMap.wfFrom_insert d h (Nat.zero_le k) hv

theorem SMap.wf_modify (d : Nat → α) {m : SMap α} (k : Nat) (f : α → α) (h : SMap.wf d m = true) :
    SMap.wf d (SMap.modify d m k f) = true := SMap.wf_set d k _ h

/-! ## Reads after a write of a canonical store -/

theorem SMap.get_below (d : Nat → α) {m : SMap α} {lo k : Nat} (h : SMap.wfFrom d lo m = true) (hk : k < lo) :
    SMap.get d m k = d k := by
  cases m with
  | nil => rfl
  | cons p m =>
    obtain ⟨k', v⟩ := p
    simp only [SMap.wfFrom, Bool.and_eq_true, decide_eq_true_eq] at h
    have h1 : k ≠ k' := by omega
    have h2 : k < k' := by omega
    simp [SMap.get, h1, h2]

theorem SMap.get_erase (d : Nat → α) {m : SMap α} {lo : Nat} (k j : Nat) (h : SMap.wfFrom d lo m = true) :
    SMap.get d (SMap.erase m k) j = if j = k then d k else SMap.get d m j := by
  induction m generalizing lo with
  | nil => simp only [SMap.erase, SMap.get]; split_ifs with e <;> simp_all
  | cons p m ih =>
    obtain ⟨k', v'⟩ := p
    simp only [SMap.wfFrom, Bool.and_eq_true, decide_eq_true_eq] at h
    simp only [SMap.erase]
    split_ifs with h1 h2 h3 h4 h5
    · subst h1; subst h2
      exact SMap.get_below d h.2 (by omega)
    · subst h1
      by_cases hlt : j < k
      · simp [SMap.get, h2, hlt, SMap.get_below d h.2 (show j < k + 1 by omega)]
      · simp [SMap.get, h2, hlt]
    · subst h4
      simp [SMap.get, h1, h3]
    · rfl
    · subst h5
      have := ih h.2
      simp only [if_true] at this
      simp [SMap.get, h1, h3, this]
    · have := ih h.2
      simp only [h5, if_false] at this
      simp [SMap.get, this]

theorem SMap.get_set (d : Nat → α) {m : SMap α} (k j : Nat) (v : α) (h : SMap.wf d m = true) :
    SMap.get d (SMap.set d m k v) j = if j = k then v else SMap.get d m j := by
  simp only [SMap.set]
  split_ifs with hv hj hj
  · rw [SMap.get_erase d k j h]; simp [hj, hv]
  · rw [SMap.get_erase d k j h]; simp [hj]
  · subst hj; simp
  · exact SMap.get_insert_ne d m k j v hj

/-! ## Memories -/

theorem Mem.wf_write {m : Mem} (a : Nat) (v : Byte) (h : Mem.wf m = true) : Mem.wf (Mem.write m a v) = true :=
  SMap.wf_set _ a v h

theorem Mem.wf_writeL {m : Mem} (a : Nat) (bs : List Byte) (h : Mem.wf m = true) : Mem.wf (Mem.writeL m a bs) = true := by
  induction bs generalizing m a with
  | nil => exact h
  | cons b bs ih => exact ih (a + 1) (Mem.wf_write a b h)

theorem Mem.wf_writeLE {w : Nat} {m : Mem} (a n : Nat) (v : BitVec w) (h : Mem.wf m = true) :
    Mem.wf (Mem.writeLE m a n v) = true := Mem.wf_writeL a _ h

theorem Mem.read_write {m : Mem} (a j : Nat) (v : Byte) (h : Mem.wf m = true) :
    Mem.read (Mem.write m a v) j = if j = a then v else Mem.read m j := SMap.get_set _ a j v h

theorem Mem.read_writeL {m : Mem} (a j : Nat) (bs : List Byte) (h : Mem.wf m = true) :
    Mem.read (Mem.writeL m a bs) j = if a ≤ j then bs.getD (j - a) (Mem.read m j) else Mem.read m j := by
  induction bs generalizing m a with
  | nil => simp [Mem.writeL]
  | cons b bs ih =>
    rw [Mem.writeL, ih (a + 1) (Mem.wf_write a b h), Mem.read_write a j b h]
    rcases Nat.lt_trichotomy j a with hj | hj | hj
    · rw [if_neg (by omega), if_neg (by omega), if_neg (by omega)]
    · subst hj; simp
    · have e : j - a = (j - (a + 1)) + 1 := by omega
      rw [if_pos (by omega), if_neg (by omega), if_pos (by omega), e]
      simp

/-- Nothing outside the bytes written changes. -/
theorem Mem.read_writeL_outside {m : Mem} (a j : Nat) (bs : List Byte) (h : Mem.wf m = true) (hj : j < a ∨ a + bs.length ≤ j) :
    Mem.read (Mem.writeL m a bs) j = Mem.read m j := by
  rw [Mem.read_writeL a j bs h]
  split_ifs with h1
  · have : bs.length ≤ j - a := by omega
    simp [List.getD, this]
  · rfl

/-- A memory with some of its bytes dropped keeps the canonical form. -/
theorem SMap.wfFrom_filter (d : Nat → α) (p : Nat × α → Bool) {m : SMap α} {lo : Nat} (h : SMap.wfFrom d lo m = true) :
    SMap.wfFrom d lo (m.filter p) = true := by
  induction m generalizing lo with
  | nil => rfl
  | cons q m ih =>
    obtain ⟨k, v⟩ := q
    simp only [SMap.wfFrom, Bool.and_eq_true, decide_eq_true_eq] at h
    rw [List.filter_cons]
    split_ifs
    · simp only [SMap.wfFrom, Bool.and_eq_true, decide_eq_true_eq]
      exact ⟨h.1, ih h.2⟩
    · exact SMap.wfFrom_mono d (ih h.2) (by omega)

theorem Mem.wf_filter (p : Nat × Byte → Bool) {m : Mem} (h : Mem.wf m = true) : Mem.wf (m.filter p) = true :=
  SMap.wfFrom_filter _ p h

end Sys2Proof
end

