-- ==== Sys2Proof/Laws/Follows.lean ====
section
/-! SUPPORT. What every operation of the machine keeps: the command queue, the canonical form of the four memories and
of the pod's agents, the outputs already made, and free values already drawn. One relation says it, so that one lemma per operation is enough. -/

namespace Sys2Proof.Machine

/-- The depot, the active core's data store, its standby image and the ledger SRAM are in canonical form. -/
def State.MemOk (s : State) : Prop :=
  Mem.wf s.depot.mem = true ∧ Mem.wf s.dealers.core.dstore = true ∧ Mem.wf s.dealers.shadow.dstore = true ∧
    Mem.wf s.led.sram = true

/-- A state that operations other than the queue's can make of another. -/
structure State.Follows (s t : State) : Prop where
  pending : t.pending = s.pending
  fresh : s.fresh ≤ t.fresh
  out : s.out <+: t.out
  mem : s.MemOk → t.MemOk
  agents : t.agents = s.agents

theorem State.Follows.refl (s : State) : s.Follows s := ⟨rfl, Nat.le_refl _, List.prefix_refl _, id, rfl⟩

theorem State.Follows.trans {s t u : State} (h : s.Follows t) (k : t.Follows u) : s.Follows u :=
  ⟨k.pending.trans h.pending, h.fresh.trans k.fresh, h.out.trans k.out, k.mem ∘ h.mem, k.agents.trans h.agents⟩

/-- An update of fields the relation does not look at. -/
theorem State.Follows.upd {s t u : State} (h : s.Follows t) (hp : u.pending = t.pending) (hf : u.fresh = t.fresh)
    (ho : u.out = t.out) (hm : u.depot.mem = t.depot.mem) (hc : u.dealers.core.dstore = t.dealers.core.dstore)
    (hs : u.dealers.shadow.dstore = t.dealers.shadow.dstore) (hr : u.led.sram = t.led.sram)
    (ha : u.agents = t.agents := by rfl) : s.Follows u :=
  ⟨hp.trans h.pending, hf ▸ h.fresh, ho ▸ h.out, fun k => by
    have := h.mem k
    simpa [State.MemOk, hm, hc, hs, hr] using this, ha.trans h.agents⟩

/-- The same, as a structure update shows it. -/
@[simp] theorem State.Follows.make {s t : State} (h : s.Follows t) {us dl rf se ow pr st fa le as vb de pl}
    (hm : de.mem = t.depot.mem) (hc : dl.core.dstore = t.dealers.core.dstore)
    (hs : dl.shadow.dstore = t.dealers.shadow.dstore) (hr : le.sram = t.led.sram) :
    s.Follows ⟨t.pending, us, t.fresh, t.agents, dl, rf, se, ow, pr, st, fa, le, as, vb, de, pl, t.out⟩ :=
  h.upd rfl rfl rfl hm hc hs hr

/-- A free value is drawn. -/
@[simp] theorem State.Follows.draw {s t : State} (h : s.Follows t) {n us dl rf se ow pr st fa le as vb de pl}
    (hm : de.mem = t.depot.mem) (hc : dl.core.dstore = t.dealers.core.dstore)
    (hs : dl.shadow.dstore = t.dealers.shadow.dstore) (hr : le.sram = t.led.sram) :
    s.Follows ⟨t.pending, us, t.fresh + n, t.agents, dl, rf, se, ow, pr, st, fa, le, as, vb, de, pl, t.out⟩ := by
  refine ⟨h.pending, h.fresh.trans (Nat.le_add_right _ _), h.out, fun k => ?_, h.agents⟩
  have := h.mem k
  simpa [State.MemOk, hm, hc, hs, hr] using this

/-- An update that may rewrite the memories, in canonical form. -/
theorem State.Follows.memUpd {s t u : State} (h : s.Follows t) (hp : u.pending = t.pending) (hf : u.fresh = t.fresh)
    (ho : u.out = t.out) (hm : t.MemOk → u.MemOk) (ha : u.agents = t.agents := by rfl) : s.Follows u :=
  ⟨hp.trans h.pending, hf ▸ h.fresh, ho ▸ h.out, fun k => hm (h.mem k), ha.trans h.agents⟩

@[simp] theorem State.Follows.ite {c : Prop} [Decidable c] {s t u : State} (h : s.Follows t) (k : s.Follows u) :
    s.Follows (if c then t else u) := by split <;> assumption

@[simp] theorem State.Follows.foldl {α : Type} {s t : State} {f : State → α → State} {l : List α} (h : s.Follows t)
    (hf : ∀ u a, s.Follows u → s.Follows (f u a)) : s.Follows (l.foldl f t) := by
  induction l generalizing t with
  | nil => exact h
  | cons a l ih => exact ih (hf t a h)

theorem State.Follows.foldlFst {α β : Type} {s : State} {p : State × β} {f : State × β → α → State × β} {l : List α}
    (h : s.Follows p.1) (hf : ∀ q a, s.Follows q.1 → s.Follows (f q a).1) : s.Follows (l.foldl f p).1 := by
  induction l generalizing p with
  | nil => exact h
  | cons a l ih => exact ih (hf p a h)

theorem State.Follows.foldlSnd {α β : Type} {s : State} {p : β × State} {f : β × State → α → β × State} {l : List α}
    (h : s.Follows p.2) (hf : ∀ q a, s.Follows q.2 → s.Follows (f q a).2) : s.Follows (l.foldl f p).2 := by
  induction l generalizing p with
  | nil => exact h
  | cons a l ih => exact ih (hf p a h)

/-- A result that is a state follows. -/
structure State.FollowsO (s : State) (o : Option State) : Prop where
  next : ∀ t, o = some t → s.Follows t

@[simp] theorem State.FollowsO.none (s : State) : s.FollowsO none := ⟨fun _ h => by cases h⟩
@[simp] theorem State.FollowsO.some {s t : State} (h : s.Follows t) : s.FollowsO (some t) := ⟨fun _ e => by cases e; exact h⟩
theorem State.FollowsO.of {s t : State} {o : Option State} (h : s.FollowsO o) (e : o = Option.some t) : s.Follows t := h.next t e
theorem State.Follows.of2 {α : Type} {s t : State} {p : α × State} {a : α} (h : s.Follows p.2) (e : p = (a, t)) :
    s.Follows t := by subst e; exact h
@[simp] theorem State.FollowsO.getD {s t : State} {o : Option State} (h : s.FollowsO o) (k : s.Follows t) : s.Follows (o.getD t) := by
  cases o with
  | none => exact k
  | some u => exact h.next u rfl
@[simp] theorem State.FollowsO.ite {c : Prop} [Decidable c] {s : State} {o p : Option State} (h : s.FollowsO o) (k : s.FollowsO p) :
    s.FollowsO (if c then o else p) := by split <;> assumption

/-- A next state follows. -/
structure State.FollowsR (s : State) (r : Result) : Prop where
  next : ∀ t, r = .next t → s.Follows t

@[simp] theorem State.FollowsR.go {s t : State} (h : s.Follows t) : s.FollowsR (.next t) := ⟨fun _ e => by cases e; exact h⟩
/-- A next state in which at most one agent has changed, by a step of its own. -/
structure State.FollowsP (s : State) (r : Result) : Prop where
  next : ∀ t, r = .next t → ∃ u, s.Follows u ∧ (t = u ∨ ∃ a f, t = u.modAgent a f)

@[simp] theorem State.FollowsP.go {s t : State} (h : s.Follows t) : s.FollowsP (.next t) :=
  ⟨fun u e => by cases e; exact ⟨t, h, .inl rfl⟩⟩
@[simp] theorem State.FollowsP.onAgent {s t : State} (h : s.Follows t) (a : Nat) (f : Agent → Agent) : s.FollowsP (t.onAgent a f) := by
  refine ⟨fun u e => ?_⟩
  unfold State.onAgent at e
  split at e
  · cases e
    exact ⟨t, h, .inr ⟨a, f, rfl⟩⟩
  · cases e

@[simp] theorem State.emit_follows {s t : State} (h : s.Follows t) (o : Out) : s.Follows (t.emit o) :=
  ⟨h.pending, h.fresh, h.out.trans (List.prefix_append _ _), h.mem, h.agents⟩

end Sys2Proof.Machine
end

