-- ==== Sys2Proof/Laws/FollowsCore.lean ====
section
/-! SUPPORT. One lemma per operation: the state it answers follows the one it is given (the dealer core, agents, fabric instructions and reflexes). -/

namespace Sys2Proof.Machine

@[simp] theorem State.setSession_follows {s0 s : State} {a0 a1} (h : s0.Follows s) :
    s0.Follows (State.setSession s a0 a1) := by
  simp [State.setSession, h]

@[simp] theorem State.modSession_follows {s0 s : State} {a0 a1} (h : s0.Follows s) :
    s0.Follows (State.modSession s a0 a1) := by
  simp [State.modSession, h]

@[simp] theorem State.setCtx_follows {s0 s : State} {a0 a1} (h : s0.Follows s) :
    s0.Follows (State.setCtx s a0 a1) := by
  simp [State.setCtx, h]

@[simp] theorem State.modCtx_follows {s0 s : State} {a0 a1} (h : s0.Follows s) :
    s0.Follows (State.modCtx s a0 a1) := by
  simp [State.modCtx, h]

@[simp] theorem State.setDie_follows {s0 s : State} {a0 a1} (h : s0.Follows s) :
    s0.Follows (State.setDie s a0 a1) := by
  simp [State.setDie, h]

@[simp] theorem State.modDie_follows {s0 s : State} {a0 a1} (h : s0.Follows s) :
    s0.Follows (State.modDie s a0 a1) := by
  simp [State.modDie, h]

@[simp] theorem State.setEng_follows {s0 s : State} {a0 a1} (h : s0.Follows s) :
    s0.Follows (State.setEng s a0 a1) := by
  simp [State.setEng, h]

@[simp] theorem State.modEng_follows {s0 s : State} {a0 a1} (h : s0.Follows s) :
    s0.Follows (State.modEng s a0 a1) := by
  simp [State.modEng, h]

@[simp] theorem State.modLPart_follows {s0 s : State} {a0 a1} (h : s0.Follows s) :
    s0.Follows (State.modLPart s a0 a1) := by
  simp [State.modLPart, h]

@[simp] theorem State.modSlice_follows {s0 s : State} {a0 a1} (h : s0.Follows s) :
    s0.Follows (State.modSlice s a0 a1) := by
  simp [State.modSlice, h]

@[simp] theorem State.modTally_follows {s0 s : State} {a0 a1} (h : s0.Follows s) :
    s0.Follows (State.modTally s a0 a1) := by
  simp [State.modTally, h]

@[simp] theorem State.modQueue_follows {s0 s : State} {a0 a1} (h : s0.Follows s) :
    s0.Follows (State.modQueue s a0 a1) := by
  simp [State.modQueue, h]

@[simp] theorem State.modMbx_follows {s0 s : State} {a0 a1} (h : s0.Follows s) :
    s0.Follows (State.modMbx s a0 a1) := by
  simp [State.modMbx, h]

@[simp] theorem State.modLane_follows {s0 s : State} {a0 a1} (h : s0.Follows s) :
    s0.Follows (State.modLane s a0 a1) := by
  simp [State.modLane, h]

@[simp] theorem State.modGPort_follows {s0 s : State} {a0 a1} (h : s0.Follows s) :
    s0.Follows (State.modGPort s a0 a1) := by
  simp [State.modGPort, h]

@[simp] theorem State.modSub_follows {s0 s : State} {a0 a1} (h : s0.Follows s) :
    s0.Follows (State.modSub s a0 a1) := by
  simp [State.modSub, h]

@[simp] theorem State.modAlloc_follows {s0 s : State} {a0 a1} (h : s0.Follows s) :
    s0.Follows (State.modAlloc s a0 a1) := by
  simp [State.modAlloc, h]

@[simp] theorem State.modChan_follows {s0 s : State} {a0 a1} (h : s0.Follows s) :
    s0.Follows (State.modChan s a0 a1) := by
  simp [State.modChan, h]

@[simp] theorem State.setPwr_follows {s0 s : State} {a0} (h : s0.Follows s) :
    s0.Follows (State.setPwr s a0) := by
  simp [State.setPwr, h]

@[simp] theorem State.setBring_follows {s0 s : State} {a0} (h : s0.Follows s) :
    s0.Follows (State.setBring s a0) := by
  simp [State.setBring, h]

@[simp] theorem State.setRst_follows {s0 s : State} {a0} (h : s0.Follows s) :
    s0.Follows (State.setRst s a0) := by
  simp [State.setRst, h]

@[simp] theorem State.setPins_follows {s0 s : State} {a0} (h : s0.Follows s) :
    s0.Follows (State.setPins s a0) := by
  simp [State.setPins, h]

@[simp] theorem State.setPair_follows {s0 s : State} {a0} (h : s0.Follows s) :
    s0.Follows (State.setPair s a0) := by
  simp [State.setPair, h]

@[simp] theorem State.setDeck_follows {s0 s : State} {a0} (h : s0.Follows s) :
    s0.Follows (State.setDeck s a0) := by
  simp [State.setDeck, h]

@[simp] theorem State.setFold_follows {s0 s : State} {a0} (h : s0.Follows s) :
    s0.Follows (State.setFold s a0) := by
  simp [State.setFold, h]

@[simp] theorem State.setDisc_follows {s0 s : State} {a0} (h : s0.Follows s) :
    s0.Follows (State.setDisc s a0) := by
  simp [State.setDisc, h]

@[simp] theorem State.setCong_follows {s0 s : State} {a0} (h : s0.Follows s) :
    s0.Follows (State.setCong s a0) := by
  simp [State.setCong, h]

@[simp] theorem State.setReb_follows {s0 s : State} {a0} (h : s0.Follows s) :
    s0.Follows (State.setReb s a0) := by
  simp [State.setReb, h]

@[simp] theorem State.setSettle_follows {s0 s : State} {a0} (h : s0.Follows s) :
    s0.Follows (State.setSettle s a0) := by
  simp [State.setSettle, h]

@[simp] theorem State.ignore_follows {s0 s : State} (h : s0.Follows s) :
    s0.Follows (State.ignore s) := by
  simp [State.ignore, h]

@[simp] theorem State.freeVal_follows {s0 s : State} {a0} (h : s0.Follows s) :
    s0.Follows (State.freeVal s a0).2 := by
  simp [State.freeVal, h]

@[simp] theorem State.faultBit_follows {s0 s : State} {a0} (h : s0.Follows s) :
    s0.Follows (State.faultBit s a0) := by
  simp [State.faultBit, h]

@[simp] theorem State.alertBit_follows {s0 s : State} {a0} (h : s0.Follows s) :
    s0.Follows (State.alertBit s a0) := by
  simp [State.alertBit, h]

@[simp] theorem State.post_follows {s0 s : State} {a0 a1 a2} (h : s0.Follows s) :
    s0.Follows (State.post s a0 a1 a2) := by
  simp [State.post, h]

@[simp] theorem State.extend_follows {s0 s : State} {a0 a1} (h : s0.Follows s) :
    s0.Follows (State.extend s a0 a1) := by
  simp [State.extend, h]

@[simp] theorem State.vlog_follows {s0 s : State} {a0 a1 a2} (h : s0.Follows s) :
    s0.Follows (State.vlog s a0 a1 a2) := by
  simp [State.vlog, h]

@[simp] theorem execFlitArrival_follows {s0 s : State} {a0 a1 a2} (h : s0.Follows s) :
    s0.FollowsP (execFlitArrival a0 a1 a2 s) := by
  simp [execFlitArrival, h]

@[simp] theorem execOutputAllocation_follows {s0 s : State} {a0} (h : s0.Follows s) :
    s0.FollowsP (execOutputAllocation a0 s) := by
  simp [execOutputAllocation, h]

@[simp] theorem execHostOffer_follows {s0 s : State} {a0 a1} (h : s0.Follows s) :
    s0.FollowsP (execHostOffer a0 a1 s) := by
  simp [execHostOffer, h]

@[simp] theorem execFlitAdmit_follows {s0 s : State} {a0} (h : s0.Follows s) :
    s0.FollowsP (execFlitAdmit a0 s) := by
  simp [execFlitAdmit, h]

@[simp] theorem execEjectRemove_follows {s0 s : State} {a0 a1} (h : s0.Follows s) :
    s0.FollowsP (execEjectRemove a0 a1 s) := by
  simp [execEjectRemove, h]

@[simp] theorem execEjectStall_follows {s0 s : State} {a0 a1} (h : s0.Follows s) :
    s0.FollowsP (execEjectStall a0 a1 s) := by
  simp [execEjectStall, h]

@[simp] theorem execPathLatchExpire_follows {s0 s : State} {a0 a1 a2} (h : s0.Follows s) :
    s0.FollowsP (execPathLatchExpire a0 a1 a2 s) := by
  simp [execPathLatchExpire, h]

@[simp] theorem execRetxTimeout_follows {s0 s : State} {a0 a1 a2} (h : s0.Follows s) :
    s0.FollowsP (execRetxTimeout a0 a1 a2 s) := by
  simp [execRetxTimeout, h]

@[simp] theorem execRequestAbandon_follows {s0 s : State} {a0 a1 a2} (h : s0.Follows s) :
    s0.FollowsP (execRequestAbandon a0 a1 a2 s) := by
  simp [execRequestAbandon, h]

@[simp] theorem execMgmtSinkConsume_follows {s0 s : State} {a0} (h : s0.Follows s) :
    s0.FollowsP (execMgmtSinkConsume a0 s) := by
  simp [execMgmtSinkConsume, h]

@[simp] theorem execSyncLost_follows {s0 s : State} {a0} (h : s0.Follows s) :
    s0.FollowsP (execSyncLost a0 s) := by
  simp [execSyncLost, h]

@[simp] theorem execSlotExchange_follows {s0 s : State} {a0} (h : s0.Follows s) :
    s0.FollowsP (execSlotExchange a0 s) := by
  simp [execSlotExchange, h]

@[simp] theorem execConvoyOffer_follows {s0 s : State} {a0 a1 a2} (h : s0.Follows s) :
    s0.FollowsP (execConvoyOffer a0 a1 a2 s) := by
  simp [execConvoyOffer, h]

@[simp] theorem execTelemetryWindow_follows {s0 s : State} {a0 a1} (h : s0.Follows s) :
    s0.FollowsP (execTelemetryWindow a0 a1 s) := by
  simp [execTelemetryWindow, h]

@[simp] theorem execDrained_follows {s0 s : State} {a0} (h : s0.Follows s) :
    s0.FollowsP (execDrained a0 s) := by
  simp [execDrained, h]

@[simp] theorem execCounterLowRead_follows {s0 s : State} {a0 a1 a2} (h : s0.Follows s) :
    s0.FollowsP (execCounterLowRead a0 a1 a2 s) := by
  simp [execCounterLowRead, h]

@[simp] theorem execLocalWrite_follows {s0 s : State} {a0 a1 a2} (h : s0.Follows s) :
    s0.FollowsP (execLocalWrite a0 a1 a2 s) := by
  simp [execLocalWrite, h]

@[simp] theorem execIdLock_follows {s0 s : State} {a0} (h : s0.Follows s) :
    s0.FollowsP (execIdLock a0 s) := by
  simp [execIdLock, h]

@[simp] theorem execSlotFWrite_follows {s0 s : State} {a0 a1} (h : s0.Follows s) :
    s0.FollowsP (execSlotFWrite a0 a1 s) := by
  simp [execSlotFWrite, h]

@[simp] theorem execCardPlay_follows {s0 s : State} {a0} (h : s0.Follows s) :
    s0.FollowsP (execCardPlay a0 s) := by
  simp [execCardPlay, h]

@[simp] theorem execCommandPiece_follows {s0 s : State} {a0} (h : s0.Follows s) :
    s0.FollowsP (execCommandPiece a0 s) := by
  simp [execCommandPiece, h]

@[simp] theorem execCmdProbe_follows {s0 s : State} {a0} (h : s0.Follows s) :
    s0.FollowsP (execCmdProbe a0 s) := by
  simp [execCmdProbe, h]

@[simp] theorem execCmdAgentRead_follows {s0 s : State} {a0} (h : s0.Follows s) :
    s0.FollowsP (execCmdAgentRead a0 s) := by
  simp [execCmdAgentRead, h]

@[simp] theorem execCmdAgentWrite_follows {s0 s : State} {a0} (h : s0.Follows s) :
    s0.FollowsP (execCmdAgentWrite a0 s) := by
  simp [execCmdAgentWrite, h]

@[simp] theorem execCmdGate_follows {s0 s : State} {a0} (h : s0.Follows s) :
    s0.FollowsP (execCmdGate a0 s) := by
  simp [execCmdGate, h]

@[simp] theorem execCmdUngate_follows {s0 s : State} {a0} (h : s0.Follows s) :
    s0.FollowsP (execCmdUngate a0 s) := by
  simp [execCmdUngate, h]

@[simp] theorem execCmdSwap_follows {s0 s : State} {a0} (h : s0.Follows s) :
    s0.FollowsP (execCmdSwap a0 s) := by
  simp [execCmdSwap, h]

@[simp] theorem execCmdExchange_follows {s0 s : State} {a0} (h : s0.Follows s) :
    s0.FollowsP (execCmdExchange a0 s) := by
  simp [execCmdExchange, h]

@[simp] theorem execCmdLoad_follows {s0 s : State} {a0} (h : s0.Follows s) :
    s0.FollowsP (execCmdLoad a0 s) := by
  simp [execCmdLoad, h]

@[simp] theorem execCmdArm_follows {s0 s : State} {a0} (h : s0.Follows s) :
    s0.FollowsP (execCmdArm a0 s) := by
  simp [execCmdArm, h]

@[simp] theorem execCmdDisarm_follows {s0 s : State} {a0} (h : s0.Follows s) :
    s0.FollowsP (execCmdDisarm a0 s) := by
  simp [execCmdDisarm, h]

@[simp] theorem execCmdUnfence_follows {s0 s : State} {a0} (h : s0.Follows s) :
    s0.FollowsP (execCmdUnfence a0 s) := by
  simp [execCmdUnfence, h]

@[simp] theorem execCmdRelease_follows {s0 s : State} {a0} (h : s0.Follows s) :
    s0.FollowsP (execCmdRelease a0 s) := by
  simp [execCmdRelease, h]

@[simp] theorem execCmdQuarantine_follows {s0 s : State} {a0} (h : s0.Follows s) :
    s0.FollowsP (execCmdQuarantine a0 s) := by
  simp [execCmdQuarantine, h]

@[simp] theorem execCmdBind_follows {s0 s : State} {a0} (h : s0.Follows s) :
    s0.FollowsP (execCmdBind a0 s) := by
  simp [execCmdBind, h]

@[simp] theorem execCmdPfence_follows {s0 s : State} {a0} (h : s0.Follows s) :
    s0.FollowsP (execCmdPfence a0 s) := by
  simp [execCmdPfence, h]

@[simp] theorem execCmdPreset_follows {s0 s : State} {a0} (h : s0.Follows s) :
    s0.FollowsP (execCmdPreset a0 s) := by
  simp [execCmdPreset, h]

@[simp] theorem execCmdPunfence_follows {s0 s : State} {a0} (h : s0.Follows s) :
    s0.FollowsP (execCmdPunfence a0 s) := by
  simp [execCmdPunfence, h]

@[simp] theorem execCmdUcodeOpen_follows {s0 s : State} {a0} (h : s0.Follows s) :
    s0.FollowsP (execCmdUcodeOpen a0 s) := by
  simp [execCmdUcodeOpen, h]

@[simp] theorem execCmdUcodePatch_follows {s0 s : State} {a0} (h : s0.Follows s) :
    s0.FollowsP (execCmdUcodePatch a0 s) := by
  simp [execCmdUcodePatch, h]

@[simp] theorem execCmdUcodeCommit_follows {s0 s : State} {a0} (h : s0.Follows s) :
    s0.FollowsP (execCmdUcodeCommit a0 s) := by
  simp [execCmdUcodeCommit, h]

@[simp] theorem execCmdSecMsg_follows {s0 s : State} {a0} (h : s0.Follows s) :
    s0.FollowsP (execCmdSecMsg a0 s) := by
  simp [execCmdSecMsg, h]

@[simp] theorem execCmdBankcopy_follows {s0 s : State} {a0} (h : s0.Follows s) :
    s0.FollowsP (execCmdBankcopy a0 s) := by
  simp [execCmdBankcopy, h]

@[simp] theorem execCmdReservedOpcode_follows {s0 s : State} {a0} (h : s0.Follows s) :
    s0.FollowsP (execCmdReservedOpcode a0 s) := by
  simp [execCmdReservedOpcode, h]

@[simp] theorem execUcodeSwitch_follows {s0 s : State} {a0} (h : s0.Follows s) :
    s0.FollowsP (execUcodeSwitch a0 s) := by
  simp [execUcodeSwitch, h]

@[simp] theorem execUcodeSelftest_follows {s0 s : State} {a0 a1} (h : s0.Follows s) :
    s0.FollowsP (execUcodeSelftest a0 a1 s) := by
  simp [execUcodeSelftest, h]

@[simp] theorem execSecUpMessage_follows {s0 s : State} {a0 a1} (h : s0.Follows s) :
    s0.FollowsP (execSecUpMessage a0 a1 s) := by
  simp [execSecUpMessage, h]

@[simp] theorem execPartFenceAck_follows {s0 s : State} {a0 a1} (h : s0.Follows s) :
    s0.FollowsP (execPartFenceAck a0 a1 s) := by
  simp [execPartFenceAck, h]

@[simp] theorem execFenceAckTimeout_follows {s0 s : State} {a0 a1} (h : s0.Follows s) :
    s0.FollowsP (execFenceAckTimeout a0 a1 s) := by
  simp [execFenceAckTimeout, h]

@[simp] theorem execDrainWindowEnd_follows {s0 s : State} {a0 a1} (h : s0.Follows s) :
    s0.FollowsP (execDrainWindowEnd a0 a1 s) := by
  simp [execDrainWindowEnd, h]

@[simp] theorem execPartFenceAckLow_follows {s0 s : State} {a0 a1} (h : s0.Follows s) :
    s0.FollowsP (execPartFenceAckLow a0 a1 s) := by
  simp [execPartFenceAckLow, h]

@[simp] theorem execPartRstDone_follows {s0 s : State} {a0 a1} (h : s0.Follows s) :
    s0.FollowsP (execPartRstDone a0 a1 s) := by
  simp [execPartRstDone, h]

@[simp] theorem execResetLimitExpire_follows {s0 s : State} {a0 a1} (h : s0.Follows s) :
    s0.FollowsP (execResetLimitExpire a0 a1 s) := by
  simp [execResetLimitExpire, h]

@[simp] theorem execKatWrite_follows {s0 s : State} {a0 a1 a2} (h : s0.Follows s) :
    s0.FollowsP (execKatWrite a0 a1 a2 s) := by
  simp [execKatWrite, h]

@[simp] theorem execPartStateWrite_follows {s0 s : State} {a0 a1 a2} (h : s0.Follows s) :
    s0.FollowsP (execPartStateWrite a0 a1 a2 s) := by
  simp [execPartStateWrite, h]

@[simp] theorem execPartTick_follows {s0 s : State} {a0 a1} (h : s0.Follows s) :
    s0.FollowsP (execPartTick a0 a1 s) := by
  simp [execPartTick, h]

@[simp] theorem execWatchdogExpire_follows {s0 s : State} {a0 a1} (h : s0.Follows s) :
    s0.FollowsP (execWatchdogExpire a0 a1 s) := by
  simp [execWatchdogExpire, h]

@[simp] theorem execDownMessageWrite_follows {s0 s : State} {a0 a1} (h : s0.Follows s) :
    s0.FollowsP (execDownMessageWrite a0 a1 s) := by
  simp [execDownMessageWrite, h]

@[simp] theorem execUpSend_follows {s0 s : State} {a0} (h : s0.Follows s) :
    s0.FollowsP (execUpSend a0 s) := by
  simp [execUpSend, h]

@[simp] theorem execUpDataWrite_follows {s0 s : State} {a0 a1 a2} (h : s0.Follows s) :
    s0.FollowsP (execUpDataWrite a0 a1 a2 s) := by
  simp [execUpDataWrite, h]

@[simp] theorem execMbxClaimRead_follows {s0 s : State} {a0 a1} (h : s0.Follows s) :
    s0.FollowsP (execMbxClaimRead a0 a1 s) := by
  simp [execMbxClaimRead, h]

@[simp] theorem execMbxRelease_follows {s0 s : State} {a0 a1} (h : s0.Follows s) :
    s0.FollowsP (execMbxRelease a0 a1 s) := by
  simp [execMbxRelease, h]

@[simp] theorem execMbxRing_follows {s0 s : State} {a0 a1} (h : s0.Follows s) :
    s0.FollowsP (execMbxRing a0 a1 s) := by
  simp [execMbxRing, h]

@[simp] theorem execMbxDone_follows {s0 s : State} {a0 a1} (h : s0.Follows s) :
    s0.FollowsP (execMbxDone a0 a1 s) := by
  simp [execMbxDone, h]

@[simp] theorem execMbxDataWrite_follows {s0 s : State} {a0 a1 a2 a3} (h : s0.Follows s) :
    s0.FollowsP (execMbxDataWrite a0 a1 a2 a3 s) := by
  simp [execMbxDataWrite, h]

@[simp] theorem execMbxLeaseExpire_follows {s0 s : State} {a0} (h : s0.Follows s) :
    s0.FollowsP (execMbxLeaseExpire a0 s) := by
  simp [execMbxLeaseExpire, h]

@[simp] theorem execFwBoot_follows {s0 s : State} {a0} (h : s0.Follows s) :
    s0.FollowsP (execFwBoot a0 s) := by
  simp [execFwBoot, h]

@[simp] theorem execAgentPowerOn_follows {s0 s : State} {a0 a1} (h : s0.Follows s) :
    s0.FollowsP (execAgentPowerOn a0 a1 s) := by
  simp [execAgentPowerOn, h]

/-- Applying a record keeps the data store's canonical form. -/
theorem JRec.wf_apply {k : Core} (r : JRec) (h : Mem.wf k.dstore = true) : Mem.wf (r.apply k).dstore = true := by
  cases r with
  | ctx c x => exact h
  | istore i w => exact h
  | dstore a bs => exact Mem.wf_writeL _ _ h

/-- Freeing space applies records, and nothing more (R184). -/
theorem freeSpace_wf (n : Nat) (rs : List JRec) {k : Core} (h : Mem.wf k.dstore = true) :
    Mem.wf (freeSpace n rs k).2.dstore = true := by
  induction rs generalizing k with
  | nil => exact h
  | cons r rs ih =>
    unfold freeSpace
    split
    · exact h
    · exact ih (JRec.wf_apply r h)

@[simp] theorem State.journal_follows {s0 s : State} {a0} (h : s0.Follows s) :
    s0.Follows (State.journal s a0) :=
  h.memUpd rfl rfl rfl fun k => ⟨k.1, k.2.1, freeSpace_wf _ _ k.2.2.1, k.2.2.2⟩

@[simp] theorem State.journalCtx_follows {s0 s : State} {a0} (h : s0.Follows s) :
    s0.Follows (State.journalCtx s a0) := by
  simp [State.journalCtx, h]

@[simp] theorem State.dsWrite_follows {s0 s : State} {a0 a1} (h : s0.Follows s) :
    s0.Follows (State.dsWrite s a0 a1) :=
  State.Follows.foldl (h.memUpd rfl rfl rfl fun k => ⟨k.1, Mem.wf_writeL _ _ k.2.1, k.2.2⟩) fun _ _ hu =>
    State.journal_follows hu

@[simp] theorem State.issued_follows {s0 s : State} {a0} (h : s0.Follows s) :
    s0.Follows (State.issued s a0) := by
  simp [State.issued, h]

@[simp] theorem State.stepPc_follows {s0 s : State} {a0} (h : s0.Follows s) :
    s0.Follows (State.stepPc s a0) := by
  simp [State.stepPc, h]

@[simp] theorem State.uci_follows {s0 s : State} {a0 a1} {a2 : State → W64 → State} (h : s0.Follows s) (ha2 : ∀ u b0, s0.Follows u → s0.Follows (a2 u b0)) :
    s0.Follows (State.uci s a0 a1 a2) := by
  unfold State.uci
  repeat' first
    | with_reducible first | assumption | apply ha2 | apply State.stepPc_follows | apply State.issued_follows | apply State.FollowsR.go | apply State.FollowsP.go | apply State.FollowsO.some | apply State.FollowsO.none | apply State.Follows.ite | apply State.FollowsO.ite | apply State.Follows.foldl | intro _
    | dsimp only
    | split
    | refine State.FollowsO.of ?_ (by assumption)
    | refine State.Follows.of2 ?_ (by assumption)
    | with_reducible first | refine State.Follows.make ?_ rfl rfl rfl rfl | refine State.Follows.draw ?_ rfl rfl rfl rfl

@[simp] theorem State.dropChange_follows {s0 s : State} {a0} (h : s0.Follows s) :
    s0.Follows (State.dropChange s a0) := by
  simp [State.dropChange, h]

@[simp] theorem State.postHalt_follows {s0 s : State} {a0} (h : s0.Follows s) :
    s0.Follows (State.postHalt s a0) := by
  simp [State.postHalt, h]

@[simp] theorem State.halt_follows {s0 s : State} {a0 a1} (h : s0.Follows s) :
    s0.Follows (State.halt s a0 a1) := by
  simp (maxDischargeDepth := 30) [State.halt, h]

@[simp] theorem State.endShort_follows {s0 s : State} {a0 a1 a2 a3 a4 a5 a6} (h : s0.Follows s) :
    s0.Follows (State.endShort s a0 a1 a2 a3 a4 a5 a6) := by
  simp [State.endShort, h]

@[simp] theorem State.unhold_follows {s0 s : State} {a0} (h : s0.Follows s) :
    s0.Follows (State.unhold s a0) := by
  simp [State.unhold, h]

@[simp] theorem State.endLong_follows {s0 s : State} {a0 a1 a2 a3 a4 a5 a6} (h : s0.Follows s) :
    s0.Follows (State.endLong s a0 a1 a2 a3 a4 a5 a6) := by
  simp (maxDischargeDepth := 30) [State.endLong, h]

@[simp] theorem State.succeed_follows {s0 s : State} {a0 a1 a2 a3} (h : s0.Follows s) :
    s0.Follows (State.succeed s a0 a1 a2 a3) := by
  simp [State.succeed, h]

@[simp] theorem State.abort_follows {s0 s : State} {a0 a1 a2} (h : s0.Follows s) :
    s0.Follows (State.abort s a0 a1 a2) := by
  simp [State.abort, h]

@[simp] theorem State.wait_follows {s0 s : State} {a0 a1} (h : s0.Follows s) :
    s0.Follows (State.wait s a0 a1) := by
  simp [State.wait, h]

@[simp] theorem State.waitJ_follows {s0 s : State} {a0 a1} (h : s0.Follows s) :
    s0.Follows (State.waitJ s a0 a1) := by
  simp [State.waitJ, h]

@[simp] theorem State.writeMiss_follows {s0 s : State} {a0 a1} (h : s0.Follows s) :
    s0.Follows (State.writeMiss s a0 a1) := by
  simp [State.writeMiss, h]

@[simp] theorem State.depWrite_follows {s0 s : State} {a0 a1} (h : s0.Follows s) :
    s0.Follows (State.depWrite s a0 a1) := by
  exact h.memUpd rfl rfl rfl fun k => ⟨Mem.wf_writeL _ _ k.1, k.2⟩

@[simp] theorem State.sendOn_follows {s0 s : State} {a0 a1} (h : s0.Follows s) :
    s0.Follows (State.sendOn s a0 a1) := by
  simp [State.sendOn, h]

@[simp] theorem State.sendTo_follows {s0 s : State} {a0 a1} (h : s0.Follows s) :
    s0.Follows (State.sendTo s a0 a1) := by
  unfold State.sendTo
  repeat' first
    | with_reducible first | assumption | apply State.sendOn_follows | apply State.FollowsR.go | apply State.Follows.ite | apply State.Follows.foldl | intro _
    | dsimp only
    | split

@[simp] theorem State.setGen_follows {s0 s : State} {a0 a1} (h : s0.Follows s) :
    s0.Follows (State.setGen s a0 a1) := by
  simp [State.setGen, h]

@[simp] theorem State.sendCmd_follows {s0 s : State} {a0 a1 a2 a3 a4} (h : s0.Follows s) :
    s0.Follows (State.sendCmd s a0 a1 a2 a3 a4) := by
  unfold State.sendCmd
  repeat' first
    | with_reducible first | assumption | apply State.sendOn_follows | apply State.FollowsR.go | apply State.Follows.ite | apply State.Follows.foldl | intro _
    | dsimp only
    | split

@[simp] theorem State.nextSeq_follows {s0 s : State} (h : s0.Follows s) :
    s0.Follows (State.nextSeq s).2 := by
  simp [State.nextSeq, h]

@[simp] theorem State.bgSend_follows {s0 s : State} {a0 a1} (h : s0.Follows s) :
    s0.Follows (State.bgSend s a0 a1) := by
  simp (maxDischargeDepth := 30) +contextual [State.bgSend, h]

@[simp] theorem State.devCmd_follows {s0 s : State} {a0 a1} (h : s0.Follows s) :
    s0.Follows (State.devCmd s a0 a1) := by
  simp [State.devCmd, h]

@[simp] theorem State.devOnce_follows {s0 s : State} {a0 a1} (h : s0.Follows s) :
    s0.Follows (State.devOnce s a0 a1) := by
  simp [State.devOnce, h]

@[simp] theorem State.dirty_follows {s0 s : State} {a0} (h : s0.Follows s) :
    s0.Follows (State.dirty s a0) := by
  simp [State.dirty, h]

@[simp] theorem State.mirrorTally_follows {s0 s : State} {a0 a1} (h : s0.Follows s) :
    s0.Follows (State.mirrorTally s a0 a1) := by
  simp [State.mirrorTally, h]

@[simp] theorem State.putCount_follows {s0 s : State} {a0 a1} (h : s0.Follows s) :
    s0.Follows (State.putCount s a0 a1) := by
  simp (maxDischargeDepth := 30) [State.putCount, h]

@[simp] theorem State.tallyFault_follows {s0 s : State} {a0 a1} (h : s0.Follows s) :
    s0.Follows (State.tallyFault s a0 a1) := by
  simp [State.tallyFault, h]

@[simp] theorem State.tallyAdd_follows {s0 s : State} {a0 a1 a2} (h : s0.Follows s) :
    s0.FollowsO (State.tallyAdd s a0 a1 a2) := by
  simp (maxDischargeDepth := 30) [State.tallyAdd, h]

@[simp] theorem State.tallySet_follows {s0 s : State} {a0 a1} (h : s0.Follows s) :
    s0.Follows (State.tallySet s a0 a1) := by
  unfold State.tallySet
  repeat' first
    | with_reducible first | assumption | apply State.setSettle_follows | apply State.putCount_follows | apply State.FollowsR.go | apply State.Follows.ite

@[simp] theorem State.qWrite_follows {s0 s : State} {a0 a1 a2} (h : s0.Follows s) :
    s0.Follows (State.qWrite s a0 a1 a2) := by
  unfold State.qWrite
  split
  · exact h.memUpd rfl rfl rfl fun k => ⟨k.1, k.2.1, k.2.2.1, Mem.wf_writeL _ _ k.2.2.2⟩
  · simp [h]

@[simp] theorem State.deliverNotice_follows {s0 s : State} {a0 a1} (h : s0.Follows s) :
    s0.Follows (State.deliverNotice s a0 a1) := by
  simp [State.deliverNotice, h]

@[simp] theorem State.qPush_follows {s0 s : State} {a0 a1} (h : s0.Follows s) :
    s0.Follows (State.qPush s a0 a1) := by
  simp (maxDischargeDepth := 30) [State.qPush, h]

@[simp] theorem State.qPop_follows {s0 s : State} {a0} (h : s0.Follows s) :
    s0.Follows (State.qPop s a0) := by
  simp [State.qPop, h]

@[simp] theorem State.qStep_follows {s0 s : State} {a0} (h : s0.Follows s) :
    s0.FollowsO (State.qStep s a0) := by
  unfold State.qStep; dsimp only; (repeat' split) <;> simp (maxDischargeDepth := 30) +contextual [h]

@[simp] theorem State.qRun_follows {s0 s : State} {a0 a1} (h : s0.Follows s) :
    s0.Follows (State.qRun s a0 a1) := by
  induction a1 generalizing s with
  | zero => exact h
  | succ k ih =>
    unfold State.qRun
    split
    · exact ih (State.FollowsO.of (State.qStep_follows h) (by assumption))
    · exact h

@[simp] theorem State.qDevPush_follows {s0 s : State} {a0 a1} (h : s0.Follows s) :
    s0.Follows (State.qDevPush s a0 a1) := by
  simp (maxDischargeDepth := 30) [State.qDevPush, h]

@[simp] theorem State.endTwait_follows {s0 s : State} {a0} (h : s0.Follows s) :
    s0.Follows (State.endTwait s a0) := by
  simp [State.endTwait, h]

@[simp] theorem State.wakeWaitt_follows {s0 s : State} {a0} (h : s0.Follows s) :
    s0.Follows (State.wakeWaitt s a0) := by
  simp (maxDischargeDepth := 30) +contextual [State.wakeWaitt, h]

@[simp] theorem State.wakeTwait_follows {s0 s : State} {a0} (h : s0.Follows s) :
    s0.Follows (State.wakeTwait s a0) := by
  simp (maxDischargeDepth := 30) +contextual [State.wakeTwait, h]

@[simp] theorem State.answerHold_follows {s0 s : State} {a0 a1} (h : s0.Follows s) :
    s0.Follows (State.answerHold s a0 a1) := by
  simp [State.answerHold, h]

@[simp] theorem State.wakeHolds_follows {s0 s : State} {a0} (h : s0.Follows s) :
    s0.Follows (State.wakeHolds s a0) := by
  simp (maxDischargeDepth := 30) +contextual [State.wakeHolds, h]

@[simp] theorem State.wakeQueues_follows {s0 s : State} {a0} (h : s0.Follows s) :
    s0.Follows (State.wakeQueues s a0) := by
  unfold State.wakeQueues
  repeat' first
    | with_reducible first | assumption | apply State.qRun_follows | apply State.FollowsR.go | apply State.Follows.ite | apply State.Follows.foldl | intro _
    | dsimp only
    | split

@[simp] theorem State.wakeTally_follows {s0 s : State} {a0} (h : s0.Follows s) :
    s0.Follows (State.wakeTally s a0) := by
  simp (maxDischargeDepth := 30) [State.wakeTally, h]

@[simp] theorem State.stream_follows {s0 s : State} {a0} (h : s0.Follows s) :
    s0.Follows (State.stream s a0) := by
  simp [State.stream, h]

@[simp] theorem State.learn_follows {s0 s : State} {a0 a1} (h : s0.Follows s) :
    s0.Follows (State.learn s a0 a1) := by
  simp [State.learn, h]

@[simp] theorem State.modKnown_follows {s0 s : State} {a0 a1} (h : s0.Follows s) :
    s0.Follows (State.modKnown s a0 a1) := by
  simp [State.modKnown, h]

@[simp] theorem State.streamPath_follows {s0 s : State} {a0} (h : s0.Follows s) :
    s0.Follows (State.streamPath s a0) := by
  unfold State.streamPath
  repeat' first
    | with_reducible first | assumption | apply State.stream_follows | apply State.FollowsR.go | apply State.FollowsP.go | apply State.FollowsO.some | apply State.FollowsO.none | apply State.Follows.ite | apply State.FollowsO.ite | apply State.Follows.foldl | intro _
    | dsimp only
    | split
    | refine State.FollowsO.of ?_ (by assumption)
    | refine State.Follows.of2 ?_ (by assumption)
    | with_reducible first | refine State.Follows.make ?_ rfl rfl rfl rfl | refine State.Follows.draw ?_ rfl rfl rfl rfl

@[simp] theorem State.pathOnly_follows {s0 s : State} (h : s0.Follows s) :
    s0.Follows (State.pathOnly s) := by
  simp (maxDischargeDepth := 30) +contextual [State.pathOnly, h]

@[simp] theorem State.cutLinks_follows {s0 s : State} {a0 a1} (h : s0.Follows s) :
    s0.Follows (State.cutLinks s a0 a1) := by
  simp (maxDischargeDepth := 30) +contextual [State.cutLinks, h]

@[simp] theorem State.modFoldPart_follows {s0 s : State} {a0 a1 a2} (h : s0.Follows s) :
    s0.Follows (State.modFoldPart s a0 a1 a2) := by
  simp [State.modFoldPart, h]

@[simp] theorem State.modFoldAcc_follows {s0 s : State} {a0 a1} (h : s0.Follows s) :
    s0.Follows (State.modFoldAcc s a0 a1) := by
  simp [State.modFoldAcc, h]

@[simp] theorem State.addReset_follows {s0 s : State} {a0 a1} (h : s0.Follows s) : s0.Follows (State.addReset s a0 a1) :=
  State.modFoldPart_follows h

@[simp] theorem State.foldLog_follows {s0 s : State} {a0 a1 a2 a3 a4} (h : s0.Follows s) :
    s0.Follows (State.foldLog s a0 a1 a2 a3 a4) := by
  simp [State.foldLog, h]

@[simp] theorem State.recordPartFold_follows {s0 s : State} {a0 a1 a2} (h : s0.Follows s) :
    s0.Follows (State.recordPartFold s a0 a1 a2) := by
  simp (maxDischargeDepth := 30) [State.recordPartFold, h]

@[simp] theorem State.recordAccFold_follows {s0 s : State} {a0 a1} (h : s0.Follows s) :
    s0.Follows (State.recordAccFold s a0 a1) := by
  simp (maxDischargeDepth := 30) [State.recordAccFold, h]

@[simp] theorem State.unfoldPart_follows {s0 s : State} {a0 a1} (h : s0.Follows s) : s0.Follows (State.unfoldPart s a0 a1) :=
  State.Follows.ite (State.stream_follows (State.modFoldPart_follows h)) (State.modFoldPart_follows h)

@[simp] theorem State.unfolds_follows {s0 s : State} {a0 a1} (h : s0.Follows s) : s0.Follows (State.unfolds s a0 a1) :=
  State.Follows.ite h (State.Follows.foldl h fun _ _ hu => State.Follows.ite (State.unfoldPart_follows hu) hu)

@[simp] theorem State.setFoldAcc_follows {s0 s : State} {a0 a1} (h : s0.Follows s) : s0.Follows (State.setFoldAcc s a0 a1) :=
  State.Follows.ite h (State.stream_follows (State.modFoldAcc_follows h))

@[simp] theorem State.unfoldAcc_follows {s0 s : State} {a0} (h : s0.Follows s) : s0.Follows (State.unfoldAcc s a0) :=
  State.setFoldAcc_follows h

@[simp] theorem State.unboundAcc_follows {s0 s : State} {a0} (h : s0.Follows s) : s0.Follows (State.unboundAcc s a0) :=
  State.modKnown_follows (State.setFoldAcc_follows h)

@[simp] theorem State.powerReturn_follows {s0 s : State} {a0} (h : s0.Follows s) : s0.Follows (State.powerReturn s a0) :=
  State.modKnown_follows (State.unfoldAcc_follows (State.Follows.foldl h fun _ _ hu => State.unfoldPart_follows hu))

@[simp] theorem State.quarantine_follows {s0 s : State} {a0} (h : s0.Follows s) :
    s0.Follows (State.quarantine s a0) := by
  simp [State.quarantine, h]

@[simp] theorem State.relearn_follows {s0 s : State} {a0 a1} (h : s0.Follows s) :
    s0.Follows (State.relearn s a0 a1) := by
  unfold State.relearn
  repeat' first
    | with_reducible first | assumption | apply State.quarantine_follows | apply State.powerReturn_follows | apply State.learn_follows | apply State.setDisc_follows | apply State.FollowsR.go | apply State.FollowsP.go | apply State.FollowsO.some | apply State.FollowsO.none | apply State.Follows.ite | apply State.FollowsO.ite | apply State.Follows.foldl | intro _
    | dsimp only
    | split
    | refine State.FollowsO.of ?_ (by assumption)
    | refine State.Follows.of2 ?_ (by assumption)
    | with_reducible first | refine State.Follows.make ?_ rfl rfl rfl rfl | refine State.Follows.draw ?_ rfl rfl rfl rfl

@[simp] theorem State.takeToken_follows {s0 s : State} {a0} (h : s0.Follows s) :
    s0.Follows (State.takeToken s a0) := by
  simp [State.takeToken, h]

@[simp] theorem State.putDateLine_follows {s0 s : State} {a0 a1 a2} (h : s0.Follows s) :
    s0.Follows (State.putDateLine s a0 a1 a2) := by
  simp [State.putDateLine, h]

@[simp] theorem State.dateBetween_follows {s0 s : State} {a0 a1 a2} (h : s0.Follows s) :
    s0.Follows (State.dateBetween s a0 a1 a2) := by
  simp [State.dateBetween, h]

@[simp] theorem State.clearLine_follows {s0 s : State} {a0} (h : s0.Follows s) :
    s0.Follows (State.clearLine s a0) := by
  simp (maxDischargeDepth := 30) +contextual [State.clearLine, h]

@[simp] theorem State.setLine_follows {s0 s : State} {a0} (h : s0.Follows s) :
    s0.Follows (State.setLine s a0) := by
  simp (maxDischargeDepth := 30) +contextual [State.setLine, h]

@[simp] theorem State.applyClosure_follows {s0 s : State} {a0} (h : s0.Follows s) :
    s0.Follows (State.applyClosure s a0) := by
  simp (maxDischargeDepth := 30) +contextual [State.applyClosure, h]

@[simp] theorem State.applyClosures_follows {s0 s : State} {a0} (h : s0.Follows s) :
    s0.Follows (State.applyClosures s a0) := by
  simp (maxDischargeDepth := 30) +contextual [State.applyClosures, h]

@[simp] theorem State.unclose_follows {s0 s : State} {a0} (h : s0.Follows s) :
    s0.Follows (State.unclose s a0) := by
  simp (maxDischargeDepth := 30) +contextual [State.unclose, h]

@[simp] theorem State.enterLink_follows {s0 s : State} {a0} (h : s0.Follows s) :
    s0.Follows (State.enterLink s a0) := by
  simp (maxDischargeDepth := 30) +contextual [State.enterLink, h]

@[simp] theorem State.cutOut_follows {s0 s : State} {a0} (h : s0.Follows s) :
    s0.Follows (State.cutOut s a0) := by
  simp (maxDischargeDepth := 30) +contextual [State.cutOut, h]

@[simp] theorem State.putBack_follows {s0 s : State} {a0} (h : s0.Follows s) :
    s0.Follows (State.putBack s a0) := by
  simp [State.putBack, h]

@[simp] theorem State.restore_follows {s0 s : State} {a0} (h : s0.Follows s) :
    s0.Follows (State.restore s a0) := by
  simp (maxDischargeDepth := 30) +contextual [State.restore, h]

@[simp] theorem State.changeMade_follows {s0 s : State} (h : s0.Follows s) :
    s0.Follows (State.changeMade s) := by
  simp (maxDischargeDepth := 30) +contextual [State.changeMade, h]

@[simp] theorem State.probeSlots_follows {s0 s : State} {a0} (h : s0.Follows s) :
    s0.Follows (State.probeSlots s a0) := by
  simp (maxDischargeDepth := 30) +contextual [State.probeSlots, h]

@[simp] theorem State.endTargets_follows {s0 s : State} {a0 a1 a2 a3} (h : s0.Follows s) :
    s0.Follows (State.endTargets s a0 a1 a2 a3) := by
  simp (maxDischargeDepth := 30) [State.endTargets, h]

@[simp] theorem State.putRun_follows {s0 s : State} {a0 a1} (h : s0.Follows s) :
    s0.Follows (State.putRun s a0 a1) := by
  simp [State.putRun, h]

@[simp] theorem State.deposeAll_follows {s0 s : State} (h : s0.Follows s) :
    s0.Follows (State.deposeAll s) := by
  unfold State.deposeAll
  repeat' first
    | with_reducible first | assumption | apply State.endTargets_follows | apply State.FollowsR.go | apply State.Follows.ite | apply State.Follows.foldl | intro _
    | dsimp only
    | split

@[simp] theorem State.setChange_follows {s0 s : State} {a0} (h : s0.Follows s) :
    s0.Follows (State.setChange s a0) := by
  simp [State.setChange, h]

@[simp] theorem State.recordHand_follows {s0 s : State} {a0 a1} (h : s0.Follows s) :
    s0.Follows (State.recordHand s a0 a1) := by
  simp [State.recordHand, h]

@[simp] theorem State.targetDone_follows {s0 s : State} {a0 a1 a2} (h : s0.Follows s) :
    s0.Follows (State.targetDone s a0 a1 a2) := by
  unfold State.targetDone
  repeat' first
    | with_reducible first | assumption | apply State.recordHand_follows | apply State.relearn_follows | apply State.unboundAcc_follows | apply State.unfoldAcc_follows | apply State.unfolds_follows | apply State.recordPartFold_follows | apply State.modKnown_follows | apply State.dsWrite_follows | apply State.FollowsR.go | apply State.FollowsP.go | apply State.FollowsO.some | apply State.FollowsO.none | apply State.Follows.ite | apply State.FollowsO.ite | apply State.Follows.foldl | intro _
    | dsimp only
    | split
    | refine State.FollowsO.of ?_ (by assumption)
    | refine State.Follows.of2 ?_ (by assumption)
    | with_reducible first | refine State.Follows.make ?_ rfl rfl rfl rfl | refine State.Follows.draw ?_ rfl rfl rfl rfl

@[simp] theorem State.devTarget_follows {s0 s : State} {a0} (h : s0.Follows s) :
    s0.Follows (State.devTarget s a0) := by
  unfold State.devTarget
  repeat' first
    | with_reducible first | assumption | apply State.bgSend_follows | apply State.FollowsR.go | apply State.FollowsP.go | apply State.FollowsO.some | apply State.FollowsO.none | apply State.Follows.ite | apply State.FollowsO.ite | apply State.Follows.foldl | intro _
    | dsimp only
    | split
    | refine State.FollowsO.of ?_ (by assumption)
    | refine State.Follows.of2 ?_ (by assumption)
    | with_reducible first | refine State.Follows.make ?_ rfl rfl rfl rfl | refine State.Follows.draw ?_ rfl rfl rfl rfl

@[simp] theorem State.devSteps_follows {s0 s : State} {a0 a1} (h : s0.Follows s) :
    s0.Follows (State.devSteps s a0 a1) := by
  simp [State.devSteps, h]

@[simp] theorem State.bgNext_follows {s0 s : State} {a0} (h : s0.Follows s) :
    s0.Follows (State.bgNext s a0) := by
  unfold State.bgNext
  repeat' first
    | with_reducible first | assumption | apply State.bgSend_follows | apply State.FollowsR.go | apply State.FollowsP.go | apply State.FollowsO.some | apply State.FollowsO.none | apply State.Follows.ite | apply State.FollowsO.ite | apply State.Follows.foldl | intro _
    | dsimp only
    | split
    | refine State.FollowsO.of ?_ (by assumption)
    | refine State.Follows.of2 ?_ (by assumption)
    | with_reducible first | refine State.Follows.make ?_ rfl rfl rfl rfl | refine State.Follows.draw ?_ rfl rfl rfl rfl

@[simp] theorem State.bgResend_follows {s0 s : State} (h : s0.Follows s) :
    s0.Follows (State.bgResend s) := by
  unfold State.bgResend
  repeat' first
    | with_reducible first | assumption | apply State.cmdResend_follows | apply State.sendCmd_follows | apply State.FollowsR.go | apply State.FollowsP.go | apply State.FollowsO.some | apply State.FollowsO.none | apply State.Follows.ite | apply State.FollowsO.ite | apply State.Follows.foldl | intro _
    | dsimp only
    | split
    | refine State.FollowsO.of ?_ (by assumption)
    | refine State.Follows.of2 ?_ (by assumption)
    | with_reducible first | refine State.Follows.make ?_ rfl rfl rfl rfl | refine State.Follows.draw ?_ rfl rfl rfl rfl

@[simp] theorem State.sendPath_follows {s0 s : State} {a0 a1 a2} (h : s0.Follows s) :
    s0.Follows (State.sendPath s a0 a1 a2) := by
  unfold State.sendPath
  repeat' first
    | with_reducible first | assumption | apply State.sendOn_follows | apply State.FollowsR.go | apply State.FollowsP.go | apply State.FollowsO.some | apply State.FollowsO.none | apply State.Follows.ite | apply State.FollowsO.ite | apply State.Follows.foldl | intro _
    | dsimp only
    | split
    | refine State.FollowsO.of ?_ (by assumption)
    | refine State.Follows.of2 ?_ (by assumption)
    | with_reducible first | refine State.Follows.make ?_ rfl rfl rfl rfl | refine State.Follows.draw ?_ rfl rfl rfl rfl

@[simp] theorem State.probe_follows {s0 s : State} {a0 a1} (h : s0.Follows s) :
    s0.Follows (State.probe s a0 a1) := by
  simp (maxDischargeDepth := 30) +contextual [State.probe, h]

@[simp] theorem State.armOwn_follows {s0 s : State} (h : s0.Follows s) :
    s0.Follows (State.armOwn s) := by
  simp (maxDischargeDepth := 30) +contextual [State.armOwn, h]

@[simp] theorem State.armPlan_follows {s0 s : State} (h : s0.Follows s) :
    s0.Follows (State.armPlan s) := by
  simp (maxDischargeDepth := 30) +contextual [State.armPlan, h]

@[simp] theorem State.bookExchange_follows {s0 s : State} {a0 a1 a2} (h : s0.Follows s) :
    s0.Follows (State.bookExchange s a0 a1 a2) := by
  simp (maxDischargeDepth := 30) +contextual [State.bookExchange, h]

@[simp] theorem State.newEpoch_follows {s0 s : State} (h : s0.Follows s) :
    s0.Follows (State.newEpoch s) := by
  simp [State.newEpoch, h]

@[simp] theorem State.closeChange_follows {s0 s : State} {a0 a1} (h : s0.Follows s) :
    s0.Follows (State.closeChange s a0 a1) := by
  unfold State.closeChange
  repeat' first
    | with_reducible first | assumption | apply State.newEpoch_follows | apply State.bookExchange_follows | apply State.armPlan_follows | apply State.setChange_follows | apply State.changeMade_follows | apply State.stream_follows | apply State.modCtx_follows | apply State.FollowsR.go | apply State.FollowsP.go | apply State.FollowsO.some | apply State.FollowsO.none | apply State.Follows.ite | apply State.FollowsO.ite | apply State.Follows.foldl | intro _
    | dsimp only
    | split
    | refine State.FollowsO.of ?_ (by assumption)
    | refine State.Follows.of2 ?_ (by assumption)
    | with_reducible first | refine State.Follows.make ?_ rfl rfl rfl rfl | refine State.Follows.draw ?_ rfl rfl rfl rfl

@[simp] theorem State.finish_follows {s0 s : State} {a0 a1} (h : s0.Follows s) :
    s0.Follows (State.finish s a0 a1) := by
  unfold State.finish
  repeat' first
    | with_reducible first | assumption | apply State.endTargets_follows | apply State.closeChange_follows | apply State.FollowsR.go | apply State.Follows.ite

@[simp] theorem State.nextPhase_follows {s0 s : State} {a0 a1 a2 a3} (h : s0.Follows s) :
    s0.Follows (State.nextPhase s a0 a1 a2 a3) := by
  unfold State.nextPhase
  repeat' first
    | with_reducible first | assumption | apply State.setChange_follows | apply State.putRun_follows | apply State.FollowsR.go | apply State.Follows.ite

@[simp] theorem State.closeUnverified_follows {s0 s : State} {a0} (h : s0.Follows s) :
    s0.Follows (State.closeUnverified s a0) := by
  simp [State.closeUnverified, h]

@[simp] theorem State.resolve_follows {s0 s : State} {a0} (h : s0.Follows s) :
    s0.Follows (State.resolve s a0) := by
  unfold State.resolve
  repeat' first
    | with_reducible first | assumption | apply State.closeUnverified_follows | apply State.nextPhase_follows | apply State.finish_follows | apply State.endTargets_follows | apply State.FollowsR.go | apply State.FollowsP.go | apply State.FollowsO.some | apply State.FollowsO.none | apply State.Follows.ite | apply State.FollowsO.ite | apply State.Follows.foldl | intro _
    | dsimp only
    | split
    | refine State.FollowsO.of ?_ (by assumption)
    | refine State.Follows.of2 ?_ (by assumption)
    | with_reducible first | refine State.Follows.make ?_ rfl rfl rfl rfl | refine State.Follows.draw ?_ rfl rfl rfl rfl

@[simp] theorem State.refuseTarget_follows {s0 s : State} {a0 a1 a2 a3 a4 a5} (h : s0.Follows s) :
    s0.Follows (State.refuseTarget s a0 a1 a2 a3 a4 a5) := by
  simp [State.refuseTarget, h]

@[simp] theorem State.completeTarget_follows {s0 s : State} {a0 a1 a2 a3 a4} (h : s0.Follows s) :
    s0.Follows (State.completeTarget s a0 a1 a2 a3 a4) := by
  simp (maxDischargeDepth := 30) [State.completeTarget, h]

@[simp] theorem State.advance_follows {s0 s : State} {a0 a1 a2 a3 a4} (h : s0.Follows s) :
    s0.Follows (State.advance s a0 a1 a2 a3 a4) := by
  unfold State.advance; dsimp only; (repeat' split) <;> simp (maxDischargeDepth := 30) +contextual [h]

@[simp] theorem State.sendTarget_follows {s0 s : State} {a0 a1 a2 a3 a4} (h : s0.Follows s) :
    s0.Follows (State.sendTarget s a0 a1 a2 a3 a4) := by
  unfold State.sendTarget
  repeat' first
    | with_reducible first | assumption | apply State.sendOn_follows | apply State.sendCmd_follows | apply State.FollowsR.go | apply State.Follows.ite | apply State.Follows.foldl | intro _
    | dsimp only
    | split

@[simp] theorem State.measureCommit_follows {s0 s : State} {a0 a1} (h : s0.Follows s) :
    s0.Follows (State.measureCommit s a0 a1) := by
  unfold State.measureCommit
  split
  · split
    · exact State.extend_follows h
    · exact State.extend_follows (by simp [h])
  · exact h

@[simp] theorem State.issueNow_follows {s0 s : State} {a0 a1 a2 a3 a4} (h : s0.Follows s) :
    s0.Follows (State.issueNow s a0 a1 a2 a3 a4) := by
  simp (maxDischargeDepth := 30) [State.issueNow, h]

@[simp] theorem State.issueTarget_follows {s0 s : State} {a0 a1 a2 a3 a4} (h : s0.Follows s) :
    s0.Follows (State.issueTarget s a0 a1 a2 a3 a4) := by
  simp (maxDischargeDepth := 30) [State.issueTarget, h]

@[simp] theorem State.cmdIssue_follows {s0 s : State} {a0 a1} (h : s0.Follows s) :
    s0.Follows (State.cmdIssue s a0 a1) := by
  unfold State.cmdIssue
  repeat' first
    | with_reducible first | assumption | apply State.issueTarget_follows | apply State.FollowsR.go | apply State.FollowsP.go | apply State.FollowsO.some | apply State.FollowsO.none | apply State.Follows.ite | apply State.FollowsO.ite | apply State.Follows.foldl | intro _
    | dsimp only
    | split
    | refine State.FollowsO.of ?_ (by assumption)
    | refine State.Follows.of2 ?_ (by assumption)
    | with_reducible first | refine State.Follows.make ?_ rfl rfl rfl rfl | refine State.Follows.draw ?_ rfl rfl rfl rfl

@[simp] theorem State.giveUp_follows {s0 s : State} {a0 a1 a2 a3} (h : s0.Follows s) :
    s0.Follows (State.giveUp s a0 a1 a2 a3) := by
  simp [State.giveUp, h]

@[simp] theorem State.cmdResend_follows {s0 s : State} {a0 a1} (h : s0.Follows s) :
    s0.Follows (State.cmdResend s a0 a1) := by
  unfold State.cmdResend
  repeat' first
    | with_reducible first | assumption | apply State.giveUp_follows | apply State.issueTarget_follows | apply State.sendTarget_follows | apply State.putRun_follows | apply State.endTargets_follows | apply State.FollowsR.go | apply State.FollowsP.go | apply State.FollowsO.some | apply State.FollowsO.none | apply State.Follows.ite | apply State.FollowsO.ite | apply State.Follows.foldl | intro _
    | dsimp only
    | split
    | refine State.FollowsO.of ?_ (by assumption)
    | refine State.Follows.of2 ?_ (by assumption)
    | with_reducible first | refine State.Follows.make ?_ rfl rfl rfl rfl | refine State.Follows.draw ?_ rfl rfl rfl rfl

@[simp] theorem State.answered_follows {s0 s : State} {a0 a1 a2 a3 a4 a5} (h : s0.Follows s) :
    s0.Follows (State.answered s a0 a1 a2 a3 a4 a5) := by
  unfold State.answered; dsimp only; (repeat' split) <;> simp (maxDischargeDepth := 30) +contextual [h]

@[simp] theorem State.onResponse_follows {s0 s : State} {a0 a1 a2} (h : s0.Follows s) :
    s0.Follows (State.onResponse s a0 a1 a2) := by
  unfold State.onResponse; (repeat' split) <;> simp (maxDischargeDepth := 30) +contextual [h]

@[simp] theorem State.handLoaded_follows {s0 s : State} {a0 a1 a2} (h : s0.Follows s) :
    s0.Follows (State.handLoaded s a0 a1 a2) := by
  simp [State.handLoaded, h]

@[simp] theorem State.bgDone_follows {s0 s : State} {a0 a1} (h : s0.Follows s) :
    s0.Follows (State.bgDone s a0 a1) := by
  unfold State.bgDone
  repeat' first
    | with_reducible first | assumption | apply State.handLoaded_follows | apply State.unboundAcc_follows | apply State.FollowsR.go | apply State.FollowsP.go | apply State.FollowsO.some | apply State.FollowsO.none | apply State.Follows.ite | apply State.FollowsO.ite | apply State.Follows.foldl | intro _
    | dsimp only
    | split
    | refine State.FollowsO.of ?_ (by assumption)
    | refine State.Follows.of2 ?_ (by assumption)
    | with_reducible first | refine State.Follows.make ?_ rfl rfl rfl rfl | refine State.Follows.draw ?_ rfl rfl rfl rfl

@[simp] theorem State.bgEnd_follows {s0 s : State} {a0 a1} (h : s0.Follows s) :
    s0.Follows (State.bgEnd s a0 a1) := by
  simp (maxDischargeDepth := 30) +contextual [State.bgEnd, h]

@[simp] theorem State.bgResponse_follows {s0 s : State} {a0} (h : s0.Follows s) :
    s0.Follows (State.bgResponse s a0) := by
  unfold State.bgResponse; dsimp only; (repeat' split) <;> simp (maxDischargeDepth := 30) +contextual [h]

@[simp] theorem State.cmdResponse_follows {s0 s : State} {a0} (h : s0.Follows s) :
    s0.Follows (State.cmdResponse s a0) := by
  unfold State.cmdResponse
  repeat' first
    | with_reducible first | assumption | apply State.onResponse_follows | apply State.bgResponse_follows | apply State.FollowsR.go | apply State.Follows.ite | apply State.Follows.foldl | intro _
    | dsimp only
    | split

@[simp] theorem State.onTarget_follows {s0 s : State} {a0 a1} {a2 : State → Running → Target → State} (h : s0.Follows s) (ha2 : ∀ u b0 b1, s0.Follows u → s0.Follows (a2 u b0 b1)) :
    s0.Follows (State.onTarget s a0 a1 a2) := by
  unfold State.onTarget
  repeat' first
    | with_reducible first | assumption | apply State.FollowsR.go | apply State.Follows.ite | apply State.Follows.foldl | apply ha2 | intro _
    | dsimp only
    | split

@[simp] theorem State.drainedNotice_follows {s0 s : State} {a0} (h : s0.Follows s) :
    s0.Follows (State.drainedNotice s a0) := by
  simp (maxDischargeDepth := 30) +contextual [State.drainedNotice, h]

@[simp] theorem State.mbxNotice_follows {s0 s : State} {a0} (h : s0.Follows s) :
    s0.Follows (State.mbxNotice s a0) := by
  simp (maxDischargeDepth := 30) +contextual [State.mbxNotice, h]

@[simp] theorem State.partAct_follows {s0 s : State} {a0 a1 a2 a3 a4 a5} (h : s0.Follows s) :
    s0.Follows (State.partAct s a0 a1 a2 a3 a4 a5) := by
  unfold State.partAct
  repeat' first
    | with_reducible first | assumption | apply State.endTargets_follows | apply State.putRun_follows | apply State.refuseTarget_follows | apply State.completeTarget_follows | apply State.FollowsR.go | apply State.Follows.ite | apply State.Follows.foldl | intro _
    | dsimp only
    | split

@[simp] theorem State.partInsn_follows {s0 s : State} {a0 a1 a2 a3} (h : s0.Follows s) :
    s0.Follows (State.partInsn s a0 a1 a2 a3) := by
  simp (maxDischargeDepth := 30) +contextual [State.partInsn, h]

@[simp] theorem State.endTrain_follows {s0 s : State} {a0 a1 a2} (h : s0.Follows s) :
    s0.Follows (State.endTrain s a0 a1 a2) := by
  simp (maxDischargeDepth := 30) +contextual [State.endTrain, h]

@[simp] theorem State.laneStart_follows {s0 s : State} {a0} (h : s0.Follows s) :
    s0.Follows (State.laneStart s a0) := by
  unfold State.laneStart
  repeat' first
    | with_reducible first | assumption | apply State.modSub_follows | apply State.modLane_follows | apply State.FollowsR.go | apply State.Follows.ite

@[simp] theorem State.laneEnd_follows {s0 s : State} {a0 a1} (h : s0.Follows s) :
    s0.Follows (State.laneEnd s a0 a1) := by
  unfold State.laneEnd; dsimp only; (repeat' split) <;> simp (maxDischargeDepth := 30) +contextual [h]

@[simp] theorem State.lanesTo_follows {s0 s : State} {a0 a1} (h : s0.Follows s) :
    s0.Follows (State.lanesTo s a0 a1) := by
  simp (maxDischargeDepth := 30) [State.lanesTo, h]

@[simp] theorem State.filterIn_follows {s0 s : State} {a0} (h : s0.Follows s) :
    s0.Follows (State.filterIn s a0) := by
  simp [State.filterIn, h]

@[simp] theorem State.trumpOut_follows {s0 s : State} {a0 a1} (h : s0.Follows s) :
    s0.Follows (State.trumpOut s a0 a1) := by
  simp (maxDischargeDepth := 30) +contextual [State.trumpOut, h]

@[simp] theorem State.pkgTrump_follows {s0 s : State} {a0 a1} (h : s0.Follows s) :
    s0.Follows (State.pkgTrump s a0 a1) := by
  simp (maxDischargeDepth := 30) [State.pkgTrump, h]

@[simp] theorem State.raise_follows {s0 s : State} {a0} (h : s0.Follows s) :
    s0.Follows (State.raise s a0) := by
  simp [State.raise, h]

@[simp] theorem State.pkgPortDown_follows {s0 s : State} {a0 a1} (h : s0.Follows s) :
    s0.Follows (State.pkgPortDown s a0 a1) := by
  simp (maxDischargeDepth := 30) [State.pkgPortDown, h]

@[simp] theorem State.portEvent_follows {s0 s : State} {a0 a1 a2} (h : s0.Follows s) :
    s0.FollowsP (State.portEvent s a0 a1 a2) := by
  unfold State.portEvent; (repeat' split) <;> simp [h]

@[simp] theorem execLaneSignalLoss_follows {s0 s : State} {a0 a1} (h : s0.Follows s) :
    s0.FollowsP (execLaneSignalLoss a0 a1 s) := by
  simp [execLaneSignalLoss, h]

@[simp] theorem execFecUncorrLimit_follows {s0 s : State} {a0 a1} (h : s0.Follows s) :
    s0.FollowsP (execFecUncorrLimit a0 a1 s) := by
  simp [execFecUncorrLimit, h]

@[simp] theorem execLinkIdle_follows {s0 s : State} {a0 a1} (h : s0.Follows s) :
    s0.FollowsP (execLinkIdle a0 a1 s) := by
  simp [execLinkIdle, h]

@[simp] theorem execDownSetReceived_follows {s0 s : State} {a0 a1} (h : s0.Follows s) :
    s0.FollowsP (execDownSetReceived a0 a1 s) := by
  simp [execDownSetReceived, h]

@[simp] theorem State.pkgTrained_follows {s0 s : State} {a0 a1 a2 a3} (h : s0.Follows s) :
    s0.Follows (State.pkgTrained s a0 a1 a2 a3) := by
  simp (maxDischargeDepth := 30) [State.pkgTrained, h]

@[simp] theorem execLinkTrained_follows {s0 s : State} {a0 a1 a2 a3 a4} (h : s0.Follows s) :
    s0.FollowsP (execLinkTrained a0 a1 a2 a3 a4 s) := by
  unfold execLinkTrained; (repeat' split) <;> simp [h]

@[simp] theorem execTrumpReceive_follows {s0 s : State} {a0 a1 a2} (h : s0.Follows s) :
    s0.FollowsP (execTrumpReceive a0 a1 a2 s) := by
  unfold execTrumpReceive; (repeat' split) <;> simp [h]

@[simp] theorem execTrumpFilterExpire_follows {s0 s : State} {a0 a1} (h : s0.Follows s) :
    s0.FollowsP (execTrumpFilterExpire a0 a1 s) := by
  unfold execTrumpFilterExpire; (repeat' split) <;> simp [h]

@[simp] theorem State.marginWatch_follows {s0 s : State} {a0 a1 a2} (h : s0.Follows s) :
    s0.Follows (State.marginWatch s a0 a1 a2) := by
  simp (maxDischargeDepth := 30) [State.marginWatch, h]

@[simp] theorem State.ownMargins_follows {s0 s : State} (h : s0.Follows s) :
    s0.Follows (State.ownMargins s) := by
  simp (maxDischargeDepth := 30) +contextual [State.ownMargins, h]

@[simp] theorem State.microsecond_follows {s0 s : State} (h : s0.Follows s) :
    s0.Follows (State.microsecond s) := by
  simp [State.microsecond, h]

@[simp] theorem execSyncExchange_follows {s0 s : State} {a0 a1} (h : s0.Follows s) :
    s0.FollowsP (execSyncExchange a0 a1 s) := by
  unfold execSyncExchange; (repeat' split) <;> simp [h]

@[simp] theorem execLaneRetrainStart_follows {s0 s : State} {a0 a1 a2} (h : s0.Follows s) :
    s0.FollowsP (execLaneRetrainStart a0 a1 a2 s) := by
  unfold execLaneRetrainStart; (repeat' split) <;> simp [h]

@[simp] theorem execCalibrationWindow_follows {s0 s : State} {a0 a1 a2} (h : s0.Follows s) :
    s0.FollowsP (execCalibrationWindow a0 a1 a2 s) := by
  unfold execCalibrationWindow; (repeat' split) <;> simp [h]

@[simp] theorem execRetrainChoose_follows {s0 s : State} {a0 a1} (h : s0.Follows s) :
    s0.FollowsP (execRetrainChoose a0 a1 s) := by
  unfold execRetrainChoose; (repeat' split) <;> simp (maxDischargeDepth := 30) +contextual [h]

@[simp] theorem execRetrainAdopt_follows {s0 s : State} {a0 a1} (h : s0.Follows s) :
    s0.FollowsP (execRetrainAdopt a0 a1 s) := by
  unfold execRetrainAdopt; (repeat' split) <;> simp [h]

@[simp] theorem execRetrainTimeout_follows {s0 s : State} {a0 a1} (h : s0.Follows s) :
    s0.FollowsP (execRetrainTimeout a0 a1 s) := by
  unfold execRetrainTimeout; (repeat' split) <;> simp [h]

@[simp] theorem execLaneAdapt_follows {s0 s : State} {a0 a1 a2} (h : s0.Follows s) :
    s0.FollowsP (execLaneAdapt a0 a1 a2 s) := by
  unfold execLaneAdapt; (repeat' split) <;> simp [h]

@[simp] theorem State.fabGate_follows {s0 s : State} {a0 a1} {a2 : State → State} (h : s0.Follows s) (ha2 : ∀ u, s0.Follows u → s0.Follows (a2 u)) :
    s0.Follows (State.fabGate s a0 a1 a2) := by
  unfold State.fabGate
  repeat' first
    | with_reducible first | assumption | apply State.abort_follows | apply State.FollowsR.go | apply State.Follows.ite | apply State.Follows.foldl | apply ha2

@[simp] theorem State.fabShort_follows {s0 s : State} {a0 a1} {a2 : State → State} (h : s0.Follows s) (ha2 : ∀ u, s0.Follows u → s0.Follows (a2 u)) :
    s0.Follows (State.fabShort s a0 a1 a2) := by
  simp [State.fabShort, h, ha2]

@[simp] theorem State.startTargets_follows {s0 s : State} {a0 a1 a2} (h : s0.Follows s) :
    s0.Follows (State.startTargets s a0 a1 a2) := by
  simp [State.startTargets, h]

@[simp] theorem State.inStore_follows {s0 s : State} {a0 a1 a2} {a3 : State → State} (h : s0.Follows s) (ha3 : ∀ u, s0.Follows u → s0.Follows (a3 u)) :
    s0.Follows (State.inStore s a0 a1 a2 a3) := by
  simp [State.inStore, h, ha3]

@[simp] theorem State.overList_follows {s0 s : State} {a0 a1} {a2 : State → Running → List W16 → State} (h : s0.Follows s) (ha2 : ∀ u b0 b1, s0.Follows u → s0.Follows (a2 u b0 b1)) :
    s0.Follows (State.overList s a0 a1 a2) := by
  unfold State.overList; dsimp only; (repeat' split) <;> simp (maxDischargeDepth := 30) +contextual [h, ha2]

@[simp] theorem State.oneAgent_follows {s0 s : State} {a0 a1 a2} (h : s0.Follows s) :
    s0.Follows (State.oneAgent s a0 a1 a2) := by
  simp [State.oneAgent, h]

@[simp] theorem State.issueProbe_follows {s0 s : State} {a0 a1} (h : s0.Follows s) :
    s0.Follows (State.issueProbe s a0 a1) := by
  unfold State.issueProbe
  repeat' first
    | with_reducible first | assumption | apply State.fabGate_follows | apply State.abort_follows | apply State.inStore_follows | apply State.startTargets_follows | apply State.FollowsR.go | apply State.Follows.ite | apply State.Follows.foldl | intro _
    | dsimp only
    | split

@[simp] theorem execUciProbe_follows {s0 s : State} {a0} (h : s0.Follows s) :
    s0.FollowsR (execUciProbe a0 s) := by
  simp (maxDischargeDepth := 30) +contextual [execUciProbe, h]

@[simp] theorem State.trainPort_follows {s0 s : State} {a0 a1 a2} (h : s0.Follows s) :
    s0.Follows (State.trainPort s a0 a1 a2) := by
  unfold State.trainPort; (repeat' split) <;> simp (maxDischargeDepth := 30) +contextual [h]

@[simp] theorem State.issueTrain_follows {s0 s : State} {a0 a1} (h : s0.Follows s) :
    s0.Follows (State.issueTrain s a0 a1) := by
  simp (maxDischargeDepth := 30) +contextual [State.issueTrain, h]

@[simp] theorem execUciTrain_follows {s0 s : State} {a0} (h : s0.Follows s) :
    s0.FollowsR (execUciTrain a0 s) := by
  simp (maxDischargeDepth := 30) +contextual [execUciTrain, h]

@[simp] theorem State.issueFence_follows {s0 s : State} {a0 a1} (h : s0.Follows s) :
    s0.Follows (State.issueFence s a0 a1) := by
  simp (maxDischargeDepth := 30) +contextual [State.issueFence, h]

@[simp] theorem execUciFence_follows {s0 s : State} {a0} (h : s0.Follows s) :
    s0.FollowsR (execUciFence a0 s) := by
  simp (maxDischargeDepth := 30) +contextual [execUciFence, h]

@[simp] theorem State.issueUnfence_follows {s0 s : State} {a0 a1} (h : s0.Follows s) :
    s0.Follows (State.issueUnfence s a0 a1) := by
  simp (maxDischargeDepth := 30) +contextual [State.issueUnfence, h]

@[simp] theorem execUciUnfence_follows {s0 s : State} {a0} (h : s0.Follows s) :
    s0.FollowsR (execUciUnfence a0 s) := by
  simp (maxDischargeDepth := 30) +contextual [execUciUnfence, h]

@[simp] theorem State.issuePreset_follows {s0 s : State} {a0 a1} (h : s0.Follows s) :
    s0.Follows (State.issuePreset s a0 a1) := by
  simp (maxDischargeDepth := 30) +contextual [State.issuePreset, h]

@[simp] theorem execUciPreset_follows {s0 s : State} {a0} (h : s0.Follows s) :
    s0.FollowsR (execUciPreset a0 s) := by
  simp (maxDischargeDepth := 30) +contextual [execUciPreset, h]

@[simp] theorem State.inChange_follows {s0 s : State} {a0 a1} {a2 : State → Running → Image → State} (h : s0.Follows s) (ha2 : ∀ u b0 b1, s0.Follows u → s0.Follows (a2 u b0 b1)) :
    s0.Follows (State.inChange s a0 a1 a2) := by
  unfold State.inChange; dsimp only; (repeat' split) <;> simp (maxDischargeDepth := 30) +contextual [h, ha2]

@[simp] theorem State.ofSlice_follows {s0 s : State} {a0 a1} {a2 : State → Running → ImgSlice → State} (h : s0.Follows s) (ha2 : ∀ u b0 b1, s0.Follows u → s0.Follows (a2 u b0 b1)) :
    s0.Follows (State.ofSlice s a0 a1 a2) := by
  unfold State.ofSlice
  repeat' first
    | with_reducible first | assumption | apply State.inChange_follows | apply State.abort_follows | apply State.FollowsR.go | apply State.Follows.ite | apply State.Follows.foldl | apply ha2 | intro _
    | dsimp only
    | split

@[simp] theorem State.issueDrain_follows {s0 s : State} {a0 a1} (h : s0.Follows s) :
    s0.Follows (State.issueDrain s a0 a1) := by
  simp (maxDischargeDepth := 30) +contextual [State.issueDrain, h]

@[simp] theorem execUciDrain_follows {s0 s : State} {a0} (h : s0.Follows s) :
    s0.FollowsR (execUciDrain a0 s) := by
  simp (maxDischargeDepth := 30) +contextual [execUciDrain, h]

@[simp] theorem State.openChange_follows {s0 s : State} {a0 a1} (h : s0.Follows s) :
    s0.Follows (State.openChange s a0 a1) := by
  simp (maxDischargeDepth := 30) [State.openChange, h]

@[simp] theorem State.issueInstall_follows {s0 s : State} {a0 a1} (h : s0.Follows s) :
    s0.Follows (State.issueInstall s a0 a1) := by
  unfold State.issueInstall
  repeat' first
    | with_reducible first | assumption | apply State.fabGate_follows | apply State.abort_follows | apply State.openChange_follows | apply State.startTargets_follows | apply State.FollowsR.go | apply State.Follows.ite | apply State.Follows.foldl | intro _
    | dsimp only
    | split

@[simp] theorem execUciInstall_follows {s0 s : State} {a0} (h : s0.Follows s) :
    s0.FollowsR (execUciInstall a0 s) := by
  simp (maxDischargeDepth := 30) +contextual [execUciInstall, h]

@[simp] theorem State.issueSwap_follows {s0 s : State} {a0 a1} (h : s0.Follows s) :
    s0.Follows (State.issueSwap s a0 a1) := by
  simp (maxDischargeDepth := 30) +contextual [State.issueSwap, h]

@[simp] theorem execUciSwap_follows {s0 s : State} {a0} (h : s0.Follows s) :
    s0.FollowsR (execUciSwap a0 s) := by
  simp (maxDischargeDepth := 30) +contextual [execUciSwap, h]

@[simp] theorem State.issueArm_follows {s0 s : State} {a0 a1} (h : s0.Follows s) :
    s0.Follows (State.issueArm s a0 a1) := by
  unfold State.issueArm
  repeat' first
    | with_reducible first | assumption | apply State.fabGate_follows | apply State.abort_follows | apply State.startTargets_follows | apply State.FollowsR.go | apply State.Follows.ite | apply State.Follows.foldl | intro _
    | dsimp only
    | split

@[simp] theorem execUciArm_follows {s0 s : State} {a0} (h : s0.Follows s) :
    s0.FollowsR (execUciArm a0 s) := by
  simp (maxDischargeDepth := 30) +contextual [execUciArm, h]

@[simp] theorem State.originate_follows {s0 s : State} {a0} (h : s0.Follows s) :
    s0.Follows (State.originate s a0) := by
  simp [State.originate, h]

@[simp] theorem execUciPlay_follows {s0 s : State} {a0} (h : s0.Follows s) :
    s0.FollowsR (execUciPlay a0 s) := by
  simp (maxDischargeDepth := 30) +contextual [execUciPlay, h]

@[simp] theorem State.cutOwn_follows {s0 s : State} {a0 a1} (h : s0.Follows s) :
    s0.Follows (State.cutOwn s a0 a1) := by
  simp (maxDischargeDepth := 30) +contextual [State.cutOwn, h]

@[simp] theorem State.revisit_follows {s0 s : State} {a0} (h : s0.Follows s) :
    s0.Follows (State.revisit s a0) := by
  unfold State.revisit
  repeat' first
    | with_reducible first | assumption | apply State.probe_follows | apply State.quarantine_follows | apply State.FollowsR.go | apply State.FollowsP.go | apply State.FollowsO.some | apply State.FollowsO.none | apply State.Follows.ite | apply State.FollowsO.ite | apply State.Follows.foldl | intro _
    | dsimp only
    | split
    | refine State.FollowsO.of ?_ (by assumption)
    | refine State.Follows.of2 ?_ (by assumption)
    | with_reducible first | refine State.Follows.make ?_ rfl rfl rfl rfl | refine State.Follows.draw ?_ rfl rfl rfl rfl

@[simp] theorem State.cutBook_follows {s0 s : State} {a0 a1} (h : s0.Follows s) :
    s0.Follows (State.cutBook s a0 a1) := by
  simp (maxDischargeDepth := 30) +contextual [State.cutBook, h]

@[simp] theorem State.issueCut_follows {s0 s : State} {a0 a1} (h : s0.Follows s) :
    s0.Follows (State.issueCut s a0 a1) := by
  simp (maxDischargeDepth := 30) +contextual [State.issueCut, h]

@[simp] theorem execUciCut_follows {s0 s : State} {a0} (h : s0.Follows s) :
    s0.FollowsR (execUciCut a0 s) := by
  simp (maxDischargeDepth := 30) +contextual [execUciCut, h]

@[simp] theorem execUciClose_follows {s0 s : State} {a0} (h : s0.Follows s) :
    s0.FollowsR (execUciClose a0 s) := by
  simp (maxDischargeDepth := 30) +contextual [execUciClose, h]

@[simp] theorem State.issueFold_follows {s0 s : State} {a0 a1} (h : s0.Follows s) :
    s0.Follows (State.issueFold s a0 a1) := by
  simp (maxDischargeDepth := 30) +contextual [State.issueFold, h]

@[simp] theorem execUciFold_follows {s0 s : State} {a0} (h : s0.Follows s) :
    s0.FollowsR (execUciFold a0 s) := by
  simp (maxDischargeDepth := 30) +contextual [execUciFold, h]

@[simp] theorem execUciDraw_follows {s0 s : State} {a0} (h : s0.Follows s) :
    s0.FollowsR (execUciDraw a0 s) := by
  unfold execUciDraw
  repeat' first
    | with_reducible first | assumption | apply State.uci_follows | apply State.fabShort_follows | apply State.endShort_follows | apply State.modCtx_follows | apply State.stream_follows | apply State.FollowsR.go | apply State.Follows.ite | apply State.Follows.foldl | intro _
    | dsimp only
    | split
    | refine State.FollowsO.of ?_ (by assumption)
    | refine State.FollowsL.of ?_ (by assumption)
    | refine State.Follows.of2 ?_ (by assumption)
    | with_reducible first | refine State.Follows.make ?_ rfl rfl rfl rfl

@[simp] theorem State.incEpoch_follows {s0 s : State} {a0} (h : s0.Follows s) :
    s0.Follows (State.incEpoch s a0) := by
  simp [State.incEpoch, h]

@[simp] theorem State.bindNow_follows {s0 s : State} {a0 a1 a2} (h : s0.Follows s) :
    s0.Follows (State.bindNow s a0 a1 a2) := by
  simp [State.bindNow, h]

@[simp] theorem State.issueBind_follows {s0 s : State} {a0 a1} (h : s0.Follows s) :
    s0.Follows (State.issueBind s a0 a1) := by
  simp (maxDischargeDepth := 30) +contextual [State.issueBind, h]

@[simp] theorem execUciBind_follows {s0 s : State} {a0} (h : s0.Follows s) :
    s0.FollowsR (execUciBind a0 s) := by
  simp (maxDischargeDepth := 30) +contextual [execUciBind, h]

@[simp] theorem execBindIncrementHoldExpire_follows {s0 s : State} {a0} (h : s0.Follows s) :
    s0.FollowsR (execBindIncrementHoldExpire a0 s) := by
  unfold execBindIncrementHoldExpire; (repeat' split) <;> simp (maxDischargeDepth := 30) +contextual [h]

@[simp] theorem State.issueAdmit_follows {s0 s : State} {a0 a1} (h : s0.Follows s) :
    s0.Follows (State.issueAdmit s a0 a1) := by
  simp (maxDischargeDepth := 30) +contextual [State.issueAdmit, h]

@[simp] theorem execUciAdmit_follows {s0 s : State} {a0} (h : s0.Follows s) :
    s0.FollowsR (execUciAdmit a0 s) := by
  simp (maxDischargeDepth := 30) +contextual [execUciAdmit, h]

@[simp] theorem State.issueAcmd_follows {s0 s : State} {a0 a1} (h : s0.Follows s) :
    s0.Follows (State.issueAcmd s a0 a1) := by
  unfold State.issueAcmd
  repeat' first
    | with_reducible first | assumption | apply State.fabGate_follows | apply State.overList_follows | apply State.inStore_follows | apply State.abort_follows | apply State.startTargets_follows | apply State.FollowsR.go | apply State.Follows.ite | apply State.Follows.foldl | intro _
    | dsimp only
    | split

@[simp] theorem execUciAcmd_follows {s0 s : State} {a0} (h : s0.Follows s) :
    s0.FollowsR (execUciAcmd a0 s) := by
  simp (maxDischargeDepth := 30) +contextual [execUciAcmd, h]

@[simp] theorem State.setBinding_follows {s0 s : State} {a0 a1} (h : s0.Follows s) :
    s0.Follows (State.setBinding s a0 a1) := by
  simp [State.setBinding, h]

@[simp] theorem State.noticeRing_follows {s0 s : State} {a0 a1} (h : s0.Follows s) :
    s0.Follows (State.noticeRing s a0 a1) := by
  simp (maxDischargeDepth := 30) [State.noticeRing, h]

@[simp] theorem State.toOwner_follows {s0 s : State} {a0} (h : s0.Follows s) :
    s0.Follows (State.toOwner s a0) := by
  simp [State.toOwner, h]

@[simp] theorem State.startCtx_follows {s0 s : State} {a0 a1 a2 a3 a4 a5} (h : s0.Follows s) :
    s0.Follows (State.startCtx s a0 a1 a2 a3 a4 a5) := by
  simp (maxDischargeDepth := 30) [State.startCtx, h]

@[simp] theorem State.stopCtx_follows {s0 s : State} {a0} (h : s0.Follows s) :
    s0.Follows (State.stopCtx s a0) := by
  unfold State.stopCtx; dsimp only; (repeat' split) <;> simp (maxDischargeDepth := 30) +contextual [h]

@[simp] theorem State.takeLost_follows {s0 s : State} {a0} (h : s0.Follows s) :
    s0.Follows (State.takeLost s a0).2 := by
  simp [State.takeLost, h]

@[simp] theorem State.startDispatch_follows {s0 s : State} {a0 a1} (h : s0.Follows s) :
    s0.Follows (State.startDispatch s a0 a1) := by
  simp [State.startDispatch, h]

@[simp] theorem State.pendDispatch_follows {s0 s : State} {a0} (h : s0.Follows s) :
    s0.Follows (State.pendDispatch s a0) := by
  simp (maxDischargeDepth := 30) +contextual [State.pendDispatch, h]

@[simp] theorem State.dispatch_follows {s0 s : State} {a0 a1} (h : s0.Follows s) :
    s0.Follows (State.dispatch s a0 a1) := by
  unfold State.dispatch
  repeat' first
    | with_reducible first | assumption | apply State.startDispatch_follows | apply State.pendDispatch_follows | apply State.FollowsR.go | apply State.Follows.ite | apply State.Follows.foldl | intro _
    | dsimp only
    | split

@[simp] theorem execEventDispatch_follows {s0 s : State} (h : s0.Follows s) :
    s0.FollowsR (execEventDispatch s) := by
  unfold execEventDispatch; (repeat' split) <;> simp (maxDischargeDepth := 30) +contextual [h]

@[simp] theorem execPendingDispatchStart_follows {s0 s : State} (h : s0.Follows s) :
    s0.FollowsR (execPendingDispatchStart s) := by
  unfold execPendingDispatchStart; (repeat' split) <;> simp (maxDischargeDepth := 30) +contextual [h]

@[simp] theorem execRunLimitExpire_follows {s0 s : State} {a0} (h : s0.Follows s) :
    s0.FollowsR (execRunLimitExpire a0 s) := by
  simp (maxDischargeDepth := 30) +contextual [execRunLimitExpire, h]

@[simp] theorem execTick_follows {s0 s : State} (h : s0.Follows s) :
    s0.FollowsR (execTick s) := by
  unfold execTick
  repeat' first
    | with_reducible first | assumption | apply State.post_follows | apply State.FollowsR.go | apply State.Follows.ite

@[simp] theorem State.exchangeAll_follows {s0 s : State} {a0 a1 a2} (h : s0.Follows s) :
    s0.Follows (State.exchangeAll s a0 a1 a2) := by
  simp (maxDischargeDepth := 30) +contextual [State.exchangeAll, h]

@[simp] theorem State.issueSnap_follows {s0 s : State} {a0 a1} (h : s0.Follows s) :
    s0.Follows (State.issueSnap s a0 a1) := by
  simp [State.issueSnap, h]

@[simp] theorem execUciSnap_follows {s0 s : State} {a0} (h : s0.Follows s) :
    s0.FollowsR (execUciSnap a0 s) := by
  simp (maxDischargeDepth := 30) +contextual [execUciSnap, h]

@[simp] theorem execUciGuard_follows {s0 s : State} {a0} (h : s0.Follows s) :
    s0.FollowsR (execUciGuard a0 s) := by
  simp (maxDischargeDepth := 30) +contextual [execUciGuard, h]

@[simp] theorem State.issueDraincp_follows {s0 s : State} {a0 a1} (h : s0.Follows s) :
    s0.Follows (State.issueDraincp s a0 a1) := by
  simp [State.issueDraincp, h]

@[simp] theorem execUciDraincp_follows {s0 s : State} {a0} (h : s0.Follows s) :
    s0.FollowsR (execUciDraincp a0 s) := by
  simp (maxDischargeDepth := 30) +contextual [execUciDraincp, h]

@[simp] theorem State.digest_follows {s0 s : State} {a0 a1 a2 a3} (h : s0.Follows s) :
    s0.Follows (State.digest s a0 a1 a2 a3) := by
  unfold State.digest
  repeat' first
    | with_reducible first | assumption | apply State.succeed_follows | apply State.dsWrite_follows | apply State.abort_follows | apply State.FollowsR.go | apply State.Follows.ite

@[simp] theorem State.issueDigest_follows {s0 s : State} {a0 a1} (h : s0.Follows s) :
    s0.Follows (State.issueDigest s a0 a1) := by
  simp (maxDischargeDepth := 30) +contextual [State.issueDigest, h]

@[simp] theorem execUciDigest_follows {s0 s : State} {a0} (h : s0.Follows s) :
    s0.FollowsR (execUciDigest a0 s) := by
  simp (maxDischargeDepth := 30) +contextual [execUciDigest, h]

@[simp] theorem State.issueSeal_follows {s0 s : State} {a0 a1} (h : s0.Follows s) :
    s0.Follows (State.issueSeal s a0 a1) := by
  simp (maxDischargeDepth := 30) +contextual [State.issueSeal, h]

@[simp] theorem execUciSeal_follows {s0 s : State} {a0} (h : s0.Follows s) :
    s0.FollowsR (execUciSeal a0 s) := by
  simp (maxDischargeDepth := 30) +contextual [execUciSeal, h]

@[simp] theorem State.ignoreBy_follows {s0 s : State} {a0} (h : s0.Follows s) :
    s0.Follows (State.ignoreBy s a0) := by
  simp [State.ignoreBy, h]

@[simp] theorem State.ownerWrite_follows {s0 s : State} {a0} {a1 : State → Option State} (h : s0.Follows s) (ha1 : ∀ u, s0.Follows u → s0.FollowsO (a1 u)) :
    s0.Follows (State.ownerWrite s a0 a1) := by
  unfold State.ownerWrite; (repeat' split) <;> simp [h, ha1]

end Sys2Proof.Machine
end

