-- ==== Sys2Proof/Laws/FollowsLedger.lean ====
section
/-! SUPPORT. One lemma per operation: the state it answers follows the one it is given (the ledger). -/

namespace Sys2Proof.Machine

@[simp] theorem State.ignoreParty_follows {s0 s : State} {a0} (h : s0.Follows s) :
    s0.Follows (State.ignoreParty s a0) := by
  simp [State.ignoreParty, h]

@[simp] theorem State.mbxDirty_follows {s0 s : State} {a0} (h : s0.Follows s) :
    s0.Follows (State.mbxDirty s a0) := by
  simp [State.mbxDirty, h]

@[simp] theorem State.mbxPost_follows {s0 s : State} {a0} (h : s0.Follows s) :
    s0.Follows (State.mbxPost s a0) := by
  simp (maxDischargeDepth := 30) [State.mbxPost, h]

@[simp] theorem State.mbxTake_follows {s0 s : State} {a0} (h : s0.Follows s) :
    s0.Follows (State.mbxTake s a0) := by
  simp [State.mbxTake, h]

@[simp] theorem State.mbxClaim_follows {s0 s : State} {a0 a1} (h : s0.Follows s) :
    s0.Follows (State.mbxClaim s a0 a1).2 := by
  unfold State.mbxClaim; dsimp only; (repeat' split) <;> simp (maxDischargeDepth := 30) +contextual [h]

@[simp] theorem State.mbxNoticeStep_follows {s0 s : State} {a0 a1 a2} (h : s0.Follows s) :
    s0.FollowsO (State.mbxNoticeStep s a0 a1 a2) := by
  simp (maxDischargeDepth := 30) [State.mbxNoticeStep, h]

@[simp] theorem State.mbxHolderStep_follows {s0 s : State} {a0 a1 a2} (h : s0.Follows s) :
    s0.FollowsO (State.mbxHolderStep s a0 a1 a2) := by
  simp (maxDischargeDepth := 30) [State.mbxHolderStep, h]

@[simp] theorem State.mbxCmdStep_follows {s0 s : State} {a0 a1 a2} (h : s0.Follows s) :
    s0.FollowsO (State.mbxCmdStep s a0 a1 a2) := by
  simp (maxDischargeDepth := 30) [State.mbxCmdStep, h]

@[simp] theorem State.mbxStep_follows {s0 s : State} {a0 a1} (h : s0.Follows s) :
    s0.FollowsO (State.mbxStep s a0 a1) := by
  unfold State.mbxStep
  repeat' first
    | with_reducible first | assumption | apply State.mbxCmdStep_follows | apply State.mbxNoticeStep_follows | apply State.FollowsR.go | apply State.Follows.ite | apply State.Follows.foldl | apply State.FollowsO.none | apply State.FollowsO.some | apply State.FollowsO.ite | apply State.FollowsO.getD | intro _
    | dsimp only
    | split

@[simp] theorem State.mbxWake_follows {s0 s : State} {a0 a1} (h : s0.Follows s) :
    s0.Follows (State.mbxWake s a0 a1) := by
  induction a1 generalizing s with
  | zero => exact h
  | succ n ih =>
    unfold State.mbxWake
    split
    · rename_i e
      obtain ⟨_, _, e⟩ := List.exists_of_findSome?_eq_some e
      exact ih (State.FollowsO.of (State.mbxStep_follows h) e)
    · exact h

@[simp] theorem State.mbxLedger_follows {s0 s : State} {a0 a1} (h : s0.Follows s) :
    s0.Follows (State.mbxLedger s a0 a1) := by
  simp (maxDischargeDepth := 30) +contextual [State.mbxLedger, h]

@[simp] theorem State.issueMbx_follows {s0 s : State} {a0 a1} (h : s0.Follows s) :
    s0.Follows (State.issueMbx s a0 a1) := by
  unfold State.issueMbx; (repeat' split) <;> simp (maxDischargeDepth := 30) +contextual [h]

@[simp] theorem execUciMbx_follows {s0 s : State} {a0} (h : s0.Follows s) :
    s0.FollowsR (execUciMbx a0 s) := by
  simp (maxDischargeDepth := 30) +contextual [execUciMbx, h]

@[simp] theorem State.partyOn_follows {s0 s : State} {a0 a1 a2} {a3 : State → State} (h : s0.Follows s) (ha3 : ∀ u, s0.Follows u → s0.Follows (a3 u)) :
    s0.Follows (State.partyOn s a0 a1 a2 a3) := by
  unfold State.partyOn
  repeat' first
    | with_reducible first | assumption | apply State.mbxWake_follows | apply State.ignoreParty_follows | apply State.FollowsR.go | apply State.Follows.ite | apply State.Follows.foldl | apply ha3

@[simp] theorem execLedgerMbxPost_follows {s0 s : State} {a0 a1} (h : s0.Follows s) :
    s0.FollowsR (execLedgerMbxPost a0 a1 s) := by
  simp (maxDischargeDepth := 30) +contextual [execLedgerMbxPost, h]

@[simp] theorem execLedgerMbxTake_follows {s0 s : State} {a0 a1} (h : s0.Follows s) :
    s0.FollowsR (execLedgerMbxTake a0 a1 s) := by
  simp (maxDischargeDepth := 30) +contextual [execLedgerMbxTake, h]

@[simp] theorem execLedgerMbxClaimRead_follows {s0 s : State} {a0 a1} (h : s0.Follows s) :
    s0.FollowsR (execLedgerMbxClaimRead a0 a1 s) := by
  unfold execLedgerMbxClaimRead; dsimp only; (repeat' split) <;> simp (maxDischargeDepth := 30) +contextual [h]

@[simp] theorem execLedgerMbxRelease_follows {s0 s : State} {a0 a1} (h : s0.Follows s) :
    s0.FollowsR (execLedgerMbxRelease a0 a1 s) := by
  simp (maxDischargeDepth := 30) +contextual [execLedgerMbxRelease, h]

@[simp] theorem execLedgerMbxRing_follows {s0 s : State} {a0 a1} (h : s0.Follows s) :
    s0.FollowsR (execLedgerMbxRing a0 a1 s) := by
  simp (maxDischargeDepth := 30) +contextual [execLedgerMbxRing, h]

@[simp] theorem execLedgerMbxDone_follows {s0 s : State} {a0 a1} (h : s0.Follows s) :
    s0.FollowsR (execLedgerMbxDone a0 a1 s) := by
  simp (maxDischargeDepth := 30) +contextual [execLedgerMbxDone, h]

@[simp] theorem execLedgerMbxLeaseExpire_follows {s0 s : State} {a0} (h : s0.Follows s) :
    s0.FollowsR (execLedgerMbxLeaseExpire a0 s) := by
  simp (maxDischargeDepth := 30) [execLedgerMbxLeaseExpire, h]

@[simp] theorem State.abortParty_follows {s0 s : State} {a0} (h : s0.Follows s) :
    s0.Follows (State.abortParty s a0) := by
  simp (maxDischargeDepth := 30) +contextual [State.abortParty, h]

@[simp] theorem execPartyResetAbort_follows {s0 s : State} {a0} (h : s0.Follows s) :
    s0.FollowsR (execPartyResetAbort a0 s) := by
  simp [execPartyResetAbort, h]

@[simp] theorem State.wPart_follows {s0 s : State} {a0 a1 a2} (h : s0.Follows s) :
    s0.FollowsO (State.wPart s a0 a1 a2) := by
  unfold State.wPart
  repeat' first
    | with_reducible first | assumption | apply State.modLPart_follows | apply State.FollowsR.go | apply State.Follows.ite | apply State.Follows.foldl | apply State.FollowsO.none | apply State.FollowsO.some | apply State.FollowsO.ite | apply State.FollowsO.getD | intro _
    | dsimp only
    | split

@[simp] theorem State.wSlice_follows {s0 s : State} {a0 a1} (h : s0.Follows s) :
    s0.FollowsO (State.wSlice s a0 a1) := by
  unfold State.wSlice
  repeat' first
    | with_reducible first | assumption | apply State.modSlice_follows | apply State.FollowsR.go | apply State.Follows.ite | apply State.Follows.foldl | apply State.FollowsO.none | apply State.FollowsO.some | apply State.FollowsO.ite

@[simp] theorem State.wTallyCount_follows {s0 s : State} {a0 a1} (h : s0.Follows s) :
    s0.FollowsO (State.wTallyCount s a0 a1) := by
  simp (maxDischargeDepth := 30) [State.wTallyCount, h]

@[simp] theorem State.wTallyCfg_follows {s0 s : State} {a0 a1} (h : s0.Follows s) :
    s0.FollowsO (State.wTallyCfg s a0 a1) := by
  unfold State.wTallyCfg; dsimp only; (repeat' split) <;> simp (maxDischargeDepth := 30) +contextual [h]

@[simp] theorem State.wSettleReg_follows {s0 s : State} {a0 a1} (h : s0.Follows s) :
    s0.FollowsO (State.wSettleReg s a0 a1) := by
  unfold State.wSettleReg; (repeat' split) <;> simp (maxDischargeDepth := 30) +contextual [h]

@[simp] theorem State.queueOff_follows {s0 s : State} {a0} (h : s0.Follows s) :
    s0.Follows (State.queueOff s a0) := by
  unfold State.queueOff
  repeat' first
    | with_reducible first | assumption | apply State.modQueue_follows | apply State.abort_follows | apply State.FollowsR.go | apply State.Follows.ite | apply State.Follows.foldl | intro _
    | dsimp only
    | split

@[simp] theorem State.wQueueCfg_follows {s0 s : State} {a0 a1} (h : s0.Follows s) :
    s0.FollowsO (State.wQueueCfg s a0 a1) := by
  unfold State.wQueueCfg; (repeat' split) <;> simp (maxDischargeDepth := 30) +contextual [h]

@[simp] theorem State.wQueueHead_follows {s0 s : State} {a0 a1} (h : s0.Follows s) :
    s0.FollowsO (State.wQueueHead s a0 a1) := by
  simp (maxDischargeDepth := 30) [State.wQueueHead, h]

@[simp] theorem State.deliverNew_follows {s0 s : State} {a0 a1 a2} (h : s0.Follows s) :
    s0.Follows (State.deliverNew s a0 a1 a2) := by
  simp (maxDischargeDepth := 30) +contextual [State.deliverNew, h]

@[simp] theorem State.wQueueTail_follows {s0 s : State} {a0 a1} (h : s0.Follows s) :
    s0.FollowsO (State.wQueueTail s a0 a1) := by
  simp (maxDischargeDepth := 30) [State.wQueueTail, h]

@[simp] theorem State.wQueue_follows {s0 s : State} {a0 a1 a2} (h : s0.Follows s) :
    s0.FollowsO (State.wQueue s a0 a1 a2) := by
  unfold State.wQueue
  repeat' first
    | with_reducible first | assumption | apply State.modQueue_follows | apply State.wQueueCfg_follows | apply State.wQueueHead_follows | apply State.wQueueTail_follows | apply State.FollowsR.go | apply State.Follows.ite | apply State.Follows.foldl | apply State.FollowsO.none | apply State.FollowsO.some | apply State.FollowsO.ite | apply State.FollowsO.getD | intro _
    | dsimp only
    | split

@[simp] theorem State.wMbxCfg_follows {s0 s : State} {a0 a1} (h : s0.Follows s) :
    s0.FollowsO (State.wMbxCfg s a0 a1) := by
  unfold State.wMbxCfg; (repeat' split) <;> simp (maxDischargeDepth := 30) +contextual [h]

@[simp] theorem State.wMbxStatus_follows {s0 s : State} {a0 a1 a2} (h : s0.Follows s) :
    s0.FollowsO (State.wMbxStatus s a0 a1 a2) := by
  unfold State.wMbxStatus; dsimp only; (repeat' split) <;> simp (maxDischargeDepth := 30) +contextual [h]

@[simp] theorem State.wMbxData_follows {s0 s : State} {a0 a1 a2 a3} (h : s0.Follows s) :
    s0.FollowsO (State.wMbxData s a0 a1 a2 a3) := by
  simp (maxDischargeDepth := 30) [State.wMbxData, h]

@[simp] theorem State.wMbx_follows {s0 s : State} {a0 a1 a2 a3} (h : s0.Follows s) :
    s0.FollowsO (State.wMbx s a0 a1 a2 a3) := by
  simp (maxDischargeDepth := 30) [State.wMbx, h]

@[simp] theorem execTallyCountWrite_follows {s0 s : State} {a0 a1 a2} (h : s0.Follows s) :
    s0.FollowsR (execTallyCountWrite a0 a1 a2 s) := by
  simp (maxDischargeDepth := 30) +contextual [execTallyCountWrite, h]

@[simp] theorem execTallyConfigWrite_follows {s0 s : State} {a0 a1 a2} (h : s0.Follows s) :
    s0.FollowsR (execTallyConfigWrite a0 a1 a2 s) := by
  simp (maxDischargeDepth := 30) +contextual [execTallyConfigWrite, h]

@[simp] theorem execQueueDescriptorWrite_follows {s0 s : State} {a0 a1 a2 a3} (h : s0.Follows s) :
    s0.FollowsR (execQueueDescriptorWrite a0 a1 a2 a3 s) := by
  simp (maxDischargeDepth := 30) +contextual [execQueueDescriptorWrite, h]

@[simp] theorem execQueueHeadWrite_follows {s0 s : State} {a0 a1 a2} (h : s0.Follows s) :
    s0.FollowsR (execQueueHeadWrite a0 a1 a2 s) := by
  simp (maxDischargeDepth := 30) +contextual [execQueueHeadWrite, h]

@[simp] theorem execQueueTailWrite_follows {s0 s : State} {a0 a1 a2} (h : s0.Follows s) :
    s0.FollowsR (execQueueTailWrite a0 a1 a2 s) := by
  simp (maxDischargeDepth := 30) +contextual [execQueueTailWrite, h]

@[simp] theorem execPartTenantWrite_follows {s0 s : State} {a0 a1 a2} (h : s0.Follows s) :
    s0.FollowsR (execPartTenantWrite a0 a1 a2 s) := by
  simp (maxDischargeDepth := 30) +contextual [execPartTenantWrite, h]

@[simp] theorem execWaitEntryExpire_follows {s0 s : State} {a0} (h : s0.Follows s) :
    s0.FollowsR (execWaitEntryExpire a0 s) := by
  simp (maxDischargeDepth := 30) [execWaitEntryExpire, h]

@[simp] theorem execLedgerDieError_follows {s0 s : State} {a0} (h : s0.Follows s) :
    s0.FollowsR (execLedgerDieError a0 s) := by
  simp (maxDischargeDepth := 30) [execLedgerDieError, h]

@[simp] theorem State.deny_follows {s0 s : State} {a0} (h : s0.Follows s) :
    s0.Follows (State.deny s a0) := by
  unfold State.deny
  repeat' first
    | with_reducible first | assumption | apply State.modLPart_follows | apply State.FollowsR.go | apply State.Follows.ite | apply State.Follows.foldl | intro _
    | dsimp only
    | split
    | refine State.FollowsO.of ?_ (by assumption)
    | refine State.FollowsL.of ?_ (by assumption)
    | refine State.Follows.of2 ?_ (by assumption)
    | with_reducible first | refine State.Follows.make ?_ rfl rfl rfl rfl

@[simp] theorem State.complete8_follows {s0 s : State} {a0 a1 a2 a3} (h : s0.Follows s) :
    s0.Follows (State.complete8 s a0 a1 a2 a3) := by
  simp [State.complete8, h]

@[simp] theorem State.filterAdd_follows {s0 s : State} {a0} (h : s0.Follows s) :
    s0.Follows (State.filterAdd s a0) := by
  simp [State.filterAdd, h]

@[simp] theorem State.add8_follows {s0 s : State} {a0} (h : s0.Follows s) :
    s0.Follows (State.add8 s a0) := by
  unfold State.add8
  repeat' first
    | with_reducible first | assumption | apply State.tallyAdd_follows | apply State.setSettle_follows | apply State.wakeTally_follows | apply State.sendTo_follows | apply State.filterAdd_follows | apply State.FollowsR.go | apply State.Follows.ite | apply State.Follows.foldl | apply State.FollowsO.none | apply State.FollowsO.some | apply State.FollowsO.ite | apply State.FollowsO.getD | intro _
    | dsimp only
    | split
    | refine State.FollowsO.of ?_ (by assumption)
    | refine State.FollowsL.of ?_ (by assumption)
    | refine State.Follows.of2 ?_ (by assumption)
    | with_reducible first | refine State.Follows.make ?_ rfl rfl rfl rfl

@[simp] theorem State.wait8_follows {s0 s : State} {a0} (h : s0.Follows s) :
    s0.Follows (State.wait8 s a0) := by
  simp (maxDischargeDepth := 30) [State.wait8, h]

@[simp] theorem State.apply8_follows {s0 s : State} {a0} (h : s0.Follows s) :
    s0.Follows (State.apply8 s a0) := by
  unfold State.apply8; (repeat' split) <;> simp (maxDischargeDepth := 30) +contextual [h]

@[simp] theorem State.class8_follows {s0 s : State} {a0} (h : s0.Follows s) :
    s0.Follows (State.class8 s a0) := by
  unfold State.class8
  repeat' first
    | with_reducible first | assumption | apply State.apply8_follows | apply State.FollowsR.go | apply State.Follows.ite | apply State.Follows.foldl | intro _
    | dsimp only
    | split
    | refine State.FollowsO.of ?_ (by assumption)
    | refine State.FollowsL.of ?_ (by assumption)
    | refine State.Follows.of2 ?_ (by assumption)
    | with_reducible first | refine State.Follows.make ?_ rfl rfl rfl rfl

@[simp] theorem execTallyAdd_follows {s0 s : State} {a0} (h : s0.Follows s) :
    s0.FollowsR (execTallyAdd a0 s) := by
  unfold execTallyAdd
  repeat' first
    | with_reducible first | assumption | apply State.class8_follows | apply State.FollowsR.go | apply State.Follows.ite

@[simp] theorem execTallyRead_follows {s0 s : State} {a0} (h : s0.Follows s) :
    s0.FollowsR (execTallyRead a0 s) := by
  unfold execTallyRead
  repeat' first
    | with_reducible first | assumption | apply State.class8_follows | apply State.FollowsR.go | apply State.Follows.ite

@[simp] theorem execTallyWait_follows {s0 s : State} {a0} (h : s0.Follows s) :
    s0.FollowsR (execTallyWait a0 s) := by
  unfold execTallyWait
  repeat' first
    | with_reducible first | assumption | apply State.class8_follows | apply State.FollowsR.go | apply State.Follows.ite

@[simp] theorem execTallyWaitHoldExpire_follows {s0 s : State} {a0 a1} (h : s0.Follows s) :
    s0.FollowsR (execTallyWaitHoldExpire a0 a1 s) := by
  unfold execTallyWaitHoldExpire; (repeat' split) <;> simp (maxDischargeDepth := 30) +contextual [h]

@[simp] theorem State.tallyOp_follows {s0 s : State} {a0 a1 a2} (h : s0.Follows s) :
    s0.FollowsO (State.tallyOp s a0 a1 a2) := by
  unfold State.tallyOp
  repeat' first
    | with_reducible first | assumption | apply State.dirty_follows | apply State.tallySet_follows | apply State.tallyAdd_follows | apply State.FollowsR.go | apply State.Follows.ite | apply State.Follows.foldl | apply State.FollowsO.none | apply State.FollowsO.some | apply State.FollowsO.ite | apply State.FollowsO.getD | intro _
    | dsimp only
    | split

@[simp] theorem State.uTally_follows {s0 s : State} {a0 a1} (h : s0.Follows s) :
    s0.Follows (State.uTally s a0 a1) := by
  unfold State.uTally
  repeat' first
    | with_reducible first | assumption | apply State.endShort_follows | apply State.tallyOp_follows | apply State.tallyFault_follows | apply State.modCtx_follows | apply State.wakeTally_follows | apply State.FollowsR.go | apply State.Follows.ite | apply State.Follows.foldl | apply State.FollowsO.none | apply State.FollowsO.some | apply State.FollowsO.ite | apply State.FollowsO.getD | intro _
    | dsimp only
    | split
    | refine State.FollowsO.of ?_ (by assumption)

@[simp] theorem execUciTally_follows {s0 s : State} {a0} (h : s0.Follows s) :
    s0.FollowsR (execUciTally a0 s) := by
  simp (maxDischargeDepth := 30) +contextual [execUciTally, h]

@[simp] theorem State.issueQueue_follows {s0 s : State} {a0 a1} (h : s0.Follows s) :
    s0.Follows (State.issueQueue s a0 a1) := by
  simp (maxDischargeDepth := 30) +contextual [State.issueQueue, h]

@[simp] theorem execUciQpush_follows {s0 s : State} {a0} (h : s0.Follows s) :
    s0.FollowsR (execUciQpush a0 s) := by
  simp (maxDischargeDepth := 30) +contextual [execUciQpush, h]

@[simp] theorem execUciQpop_follows {s0 s : State} {a0} (h : s0.Follows s) :
    s0.FollowsR (execUciQpop a0 s) := by
  simp (maxDischargeDepth := 30) +contextual [execUciQpop, h]

@[simp] theorem State.issueSettle_follows {s0 s : State} {a0 a1} (h : s0.Follows s) :
    s0.Follows (State.issueSettle s a0 a1) := by
  unfold State.issueSettle
  repeat' first
    | with_reducible first | assumption | apply State.waitJ_follows | apply State.setSettle_follows | apply State.FollowsR.go | apply State.Follows.ite | apply State.Follows.foldl | intro _
    | dsimp only
    | split

@[simp] theorem execUciSettle_follows {s0 s : State} {a0} (h : s0.Follows s) :
    s0.FollowsR (execUciSettle a0 s) := by
  simp (maxDischargeDepth := 30) +contextual [execUciSettle, h]

@[simp] theorem State.sendCalls_follows {s0 s : State} {a0 a1} (h : s0.Follows s) :
    s0.Follows (State.sendCalls s a0 a1) := by
  simp (maxDischargeDepth := 30) +contextual [State.sendCalls, h]

@[simp] theorem State.modStamp_follows {s0 s : State} {a0 a1} (h : s0.Follows s) :
    s0.Follows (State.modStamp s a0 a1) := by
  simp [State.modStamp, h]

@[simp] theorem State.boundary_follows {s0 s : State} (h : s0.Follows s) :
    s0.Follows (State.boundary s) := by
  simp [State.boundary, h]

@[simp] theorem execSettlementBoundary_follows {s0 s : State} (h : s0.Follows s) :
    s0.FollowsR (execSettlementBoundary s) := by
  unfold execSettlementBoundary
  repeat' first
    | with_reducible first | assumption | apply State.boundary_follows | apply State.FollowsR.go | apply State.Follows.ite

@[simp] theorem State.logDrift_follows {s0 s : State} {a0 a1 a2 a3 a4} (h : s0.Follows s) :
    s0.Follows (State.logDrift s a0 a1 a2 a3 a4) := by
  simp (maxDischargeDepth := 30) [State.logDrift, h]

@[simp] theorem State.settleOne_follows {s0 s : State} {a0 a1} (h : s0.Follows s) :
    s0.Follows (State.settleOne s a0 a1).1 := by
  unfold State.settleOne; dsimp only; (repeat' split) <;> simp (maxDischargeDepth := 30) +contextual [h]

@[simp] theorem State.catchOne_follows {s0 s : State} {a0} (h : s0.Follows s) :
    s0.Follows (State.catchOne s a0) := by
  unfold State.catchOne
  repeat' first
    | with_reducible first | assumption | apply State.wakeTally_follows | apply State.modTally_follows | apply State.FollowsR.go | apply State.Follows.ite

@[simp] theorem State.endSettles_follows {s0 s : State} {a0 a1 a2} (h : s0.Follows s) :
    s0.Follows (State.endSettles s a0 a1 a2) := by
  unfold State.endSettles
  repeat' first
    | with_reducible first | assumption | apply State.succeed_follows | apply State.FollowsR.go | apply State.Follows.ite | apply State.Follows.foldl | intro _
    | dsimp only
    | split

@[simp] theorem State.finalize_follows {s0 s : State} {a0} (h : s0.Follows s) :
    s0.Follows (State.finalize s a0) := by
  have h1 : s0.Follows (s.setSettle (fun x => { x with open_ := x.open_.filter (fun y => y.stamp ≠ a0.stamp), settledNo := a0.stamp })) :=
    State.setSettle_follows h
  unfold State.finalize
  split
  · exact State.endSettles_follows (State.Follows.foldl h1 fun _ _ hu => State.catchOne_follows hu)
  · exact State.endSettles_follows (State.setSettle_follows
      (State.Follows.foldlFst (p := (_, 0)) h1 fun _ _ hq => State.settleOne_follows hq))

@[simp] theorem State.call_follows {s0 s : State} {a0} (h : s0.Follows s) :
    s0.Follows (State.call s a0) := by
  unfold State.call
  repeat' first
    | with_reducible first | assumption | apply State.modStamp_follows | apply State.finalize_follows | apply State.sendCalls_follows | apply State.FollowsR.go | apply State.Follows.ite

@[simp] theorem execSettlementCall_follows {s0 s : State} {a0} (h : s0.Follows s) :
    s0.FollowsR (execSettlementCall a0 s) := by
  unfold execSettlementCall
  repeat' first
    | with_reducible first | assumption | apply State.call_follows | apply State.FollowsR.go | apply State.Follows.ite | apply State.Follows.foldl | intro _
    | dsimp only
    | split

@[simp] theorem execSettlementRecall_follows {s0 s : State} {a0} (h : s0.Follows s) :
    s0.FollowsR (execSettlementRecall a0 s) := by
  unfold execSettlementRecall
  repeat' first
    | with_reducible first | assumption | apply State.modStamp_follows | apply State.sendCalls_follows | apply State.FollowsR.go | apply State.Follows.ite | apply State.Follows.foldl | intro _
    | dsimp only
    | split

@[simp] theorem execSettlementFinalize_follows {s0 s : State} {a0} (h : s0.Follows s) :
    s0.FollowsR (execSettlementFinalize a0 s) := by
  unfold execSettlementFinalize
  repeat' first
    | with_reducible first | assumption | apply State.modStamp_follows | apply State.finalize_follows | apply State.FollowsR.go | apply State.Follows.ite | apply State.Follows.foldl | intro _
    | dsimp only
    | split

@[simp] theorem State.runDeferred_follows {s0 s : State} (h : s0.Follows s) :
    s0.Follows (State.runDeferred s) := by
  unfold State.runDeferred
  repeat' first
    | with_reducible first | assumption | apply State.call_follows | apply State.FollowsR.go | apply State.Follows.ite | apply State.Follows.foldl | intro _
    | dsimp only
    | split

@[simp] theorem State.report_follows {s0 s : State} {a0} (h : s0.Follows s) :
    s0.Follows (State.report s a0) := by
  unfold State.report; dsimp only; (repeat' split) <;> simp (maxDischargeDepth := 30) +contextual [h]

@[simp] theorem execReport_follows {s0 s : State} {a0} (h : s0.Follows s) :
    s0.FollowsR (execReport a0 s) := by
  simp [execReport, h]

end Sys2Proof.Machine
end

