-- ==== Sys2Proof/Laws/FollowsStation.lean ====
section
/-! SUPPORT. One lemma per operation: the state it answers follows the one it is given (the station dies and their streams). -/

namespace Sys2Proof.Machine

/-- What a LOAD leaves follows. -/
structure State.FollowsL {α : Type} (s : State) (x : Ld α) : Prop where
  next : ∀ v t, x = .ok v t → s.Follows t

theorem State.FollowsL.of {α : Type} {s t : State} {x : Ld α} {v : α} (h : s.FollowsL x) (e : x = .ok v t) : s.Follows t := h.next v t e
@[simp] theorem State.FollowsL.ok {α : Type} {s t : State} {v : α} (h : s.Follows t) : s.FollowsL (.ok v t) :=
  ⟨fun _ _ e => by cases e; exact h⟩
@[simp] theorem State.FollowsL.hold {α : Type} (s : State) : s.FollowsL (.hold : Ld α) := ⟨fun _ _ e => by cases e⟩
@[simp] theorem State.FollowsL.fault {α : Type} (s : State) (c : Byte) : s.FollowsL (.fault c : Ld α) := ⟨fun _ _ e => by cases e⟩
@[simp] theorem State.FollowsL.ite {α : Type} {c : Prop} [Decidable c] {s : State} {x y : Ld α} (h : s.FollowsL x) (k : s.FollowsL y) :
    s.FollowsL (if c then x else y) := by split <;> assumption
@[simp] theorem State.FollowsL.bind {α β : Type} {s : State} {x : Ld α} {f : α → State → Ld β} (h : s.FollowsL x)
    (k : ∀ v t, s.Follows t → s.FollowsL (f v t)) : s.FollowsL (x.bind f) := by
  cases x with
  | ok v t => exact k v t (h.next v t rfl)
  | hold => exact State.FollowsL.hold s
  | fault c => exact State.FollowsL.fault s c

@[simp] theorem State.modStr_follows {s0 s : State} {a0 a1} (h : s0.Follows s) :
    s0.Follows (State.modStr s a0 a1) := by
  simp [State.modStr, h]

@[simp] theorem State.faultStr_follows {s0 s : State} {a0 a1} (h : s0.Follows s) :
    s0.Follows (State.faultStr s a0 a1) := by
  simp [State.faultStr, h]

@[simp] theorem State.loadWindow_follows {s0 s : State} {a0 a1 a2} (h : s0.Follows s) :
    s0.FollowsL (State.loadWindow s a0 a1 a2) := by
  simp (maxDischargeDepth := 30) [State.loadWindow, h]

@[simp] theorem State.loadPlain_follows {s0 s : State} {a0 a1 a2} (h : s0.Follows s) :
    s0.FollowsL (State.loadPlain s a0 a1 a2) := by
  unfold State.loadPlain
  repeat' first
    | with_reducible first | assumption | apply State.loadWindow_follows | apply State.FollowsR.go | apply State.Follows.ite | apply State.Follows.foldl | apply State.FollowsL.ok | apply State.FollowsL.hold | apply State.FollowsL.fault | apply State.FollowsL.ite | apply State.FollowsL.bind | intro _
    | dsimp only
    | split

@[simp] theorem State.loadUnit_follows {s0 s : State} {a0 a1 a2 a3} (h : s0.Follows s) :
    s0.FollowsL (State.loadUnit s a0 a1 a2 a3) := by
  unfold State.loadUnit
  repeat' first
    | with_reducible first | assumption | apply State.modStr_follows | apply State.FollowsR.go | apply State.FollowsP.go | apply State.FollowsO.some | apply State.FollowsO.none | apply State.Follows.ite | apply State.FollowsL.ok | apply State.FollowsL.hold | apply State.FollowsL.fault | apply State.FollowsL.ite | apply State.FollowsL.bind | apply State.FollowsO.ite | apply State.Follows.foldl | intro _
    | dsimp only
    | split
    | refine State.FollowsO.of ?_ (by assumption)
    | refine State.FollowsL.of ?_ (by assumption)
    | refine State.Follows.of2 ?_ (by assumption)
    | with_reducible first | refine State.Follows.make ?_ rfl rfl rfl rfl | refine State.Follows.draw ?_ rfl rfl rfl rfl

@[simp] theorem State.loadUnits_follows {s0 s : State} {a0 a1 a2 a3} {a4} (h : s0.Follows s) :
    s0.FollowsL (State.loadUnits s a0 a1 a2 a3 a4) := by
  induction a4 generalizing s a3 with
  | zero => exact State.FollowsL.ok h
  | succ n ih =>
    exact State.FollowsL.bind (State.loadUnit_follows h) fun _ _ k => State.FollowsL.bind (ih k) fun _ _ k => State.FollowsL.ok k

@[simp] theorem State.load_follows {s0 s : State} {a0 a1 a2 a3} (h : s0.Follows s) :
    s0.FollowsL (State.load s a0 a1 a2 a3) := by
  unfold State.load; dsimp only; (repeat' split) <;> simp (maxDischargeDepth := 30) +contextual [h]

@[simp] theorem State.storeDepot_follows {s0 s : State} {a0 a1 a2} (h : s0.Follows s) :
    s0.Follows (State.storeDepot s a0 a1 a2) := by
  simp (maxDischargeDepth := 30) [State.storeDepot, h]

@[simp] theorem State.sealUnit_follows {s0 s : State} {a0 a1 a2} (h : s0.Follows s) :
    s0.Follows (State.sealUnit s a0 a1 a2) := by
  simp [State.sealUnit, h]

@[simp] theorem State.gather_follows {s0 s : State} {a0 a1 a2} (h : s0.Follows s) :
    s0.Follows (State.gather s a0 a1 a2) := by
  unfold State.gather
  repeat' first
    | with_reducible first | assumption | apply State.modStr_follows | apply State.sealUnit_follows | apply State.FollowsR.go | apply State.Follows.ite

@[simp] theorem State.storeKeyed_follows {s0 s : State} {a0 a1 a2 a3 a4} (h : s0.Follows s) :
    s0.Follows (State.storeKeyed s a0 a1 a2 a3 a4) := by
  simp (maxDischargeDepth := 30) +contextual [State.storeKeyed, h]

@[simp] theorem State.put_follows {s0 s : State} {a0 a1 a2} (h : s0.Follows s) :
    s0.Follows (State.put s a0 a1 a2) := by
  unfold State.put
  repeat' first
    | with_reducible first | assumption | apply State.storeDepot_follows | apply State.faultStr_follows | apply State.modEng_follows | apply State.FollowsR.go | apply State.FollowsP.go | apply State.FollowsO.some | apply State.FollowsO.none | apply State.Follows.ite | apply State.FollowsO.ite | apply State.Follows.foldl | intro _
    | dsimp only
    | split
    | refine State.FollowsO.of ?_ (by assumption)
    | refine State.Follows.of2 ?_ (by assumption)
    | with_reducible first | refine State.Follows.make ?_ rfl rfl rfl rfl | refine State.Follows.draw ?_ rfl rfl rfl rfl

@[simp] theorem State.store_follows {s0 s : State} {a0 a1 a2 a3} (h : s0.Follows s) :
    s0.Follows (State.store s a0 a1 a2 a3) := by
  unfold State.store
  repeat' first
    | with_reducible first | assumption | apply State.put_follows | apply State.storeKeyed_follows | apply State.faultStr_follows | apply State.FollowsR.go | apply State.FollowsP.go | apply State.FollowsO.some | apply State.FollowsO.none | apply State.Follows.ite | apply State.FollowsO.ite | apply State.Follows.foldl | intro _
    | dsimp only
    | split
    | refine State.FollowsO.of ?_ (by assumption)
    | refine State.Follows.of2 ?_ (by assumption)
    | with_reducible first | refine State.Follows.make ?_ rfl rfl rfl rfl | refine State.Follows.draw ?_ rfl rfl rfl rfl

@[simp] theorem State.flushUnits_follows {s0 s : State} {a0} (h : s0.Follows s) :
    s0.Follows (State.flushUnits s a0) := by
  unfold State.flushUnits
  repeat' first
    | with_reducible first | assumption | apply State.modStr_follows | apply State.sealUnit_follows | apply State.FollowsR.go | apply State.Follows.ite | apply State.Follows.foldl | apply State.FollowsL.ok | apply State.FollowsL.hold | apply State.FollowsL.fault | apply State.FollowsL.ite | apply State.FollowsL.bind | intro _
    | dsimp only
    | split

@[simp] theorem State.loadAll_follows {s0 s : State} {a0 a1 a2} (h : s0.Follows s) :
    s0.FollowsL (State.loadAll s a0 a1 a2) := by
  induction a2 generalizing s with
  | nil => exact State.FollowsL.ok h
  | cons p r ih =>
    obtain ⟨a, n⟩ := p
    exact State.FollowsL.bind (State.load_follows h) fun _ _ k => State.FollowsL.bind (ih k) fun _ _ k => State.FollowsL.ok k

@[simp] theorem State.sti_follows {s0 s : State} {a0 a1} {a2 : State → BitVec 128 → State} (h : s0.Follows s) (ha2 : ∀ u b0, s0.Follows u → s0.Follows (a2 u b0)) :
    s0.Follows (State.sti s a0 a1 a2) := by
  simp [State.sti, h, ha2]

@[simp] theorem State.stiNext_follows {s0 s : State} {a0} (h : s0.Follows s) :
    s0.Follows (State.stiNext s a0) := by
  simp [State.stiNext, h]

@[simp] theorem State.stiSet_follows {s0 s : State} {a0 a1} (h : s0.Follows s) :
    s0.Follows (State.stiSet s a0 a1) := by
  simp [State.stiSet, h]

@[simp] theorem State.stiConf_follows {s0 s : State} {a0 a1} (h : s0.Follows s) :
    s0.Follows (State.stiConf s a0 a1) := by
  simp [State.stiConf, h]

@[simp] theorem State.stiJob_follows {s0 s : State} {a0 a1} (h : s0.Follows s) :
    s0.Follows (State.stiJob s a0 a1) := by
  simp [State.stiJob, h]

@[simp] theorem State.tStream_follows {s0 s : State} {a0 a1} (h : s0.Follows s) :
    s0.Follows (State.tStream s a0 a1) := by
  simp [State.tStream, h]

@[simp] theorem execStiStream_follows {s0 s : State} {a0} (h : s0.Follows s) :
    s0.FollowsR (execStiStream a0 s) := by
  simp (maxDischargeDepth := 30) +contextual [execStiStream, h]

@[simp] theorem State.tMode_follows {s0 s : State} {a0 a1} (h : s0.Follows s) :
    s0.Follows (State.tMode s a0 a1) := by
  simp [State.tMode, h]

@[simp] theorem execStiMode_follows {s0 s : State} {a0} (h : s0.Follows s) :
    s0.FollowsR (execStiMode a0 s) := by
  simp (maxDischargeDepth := 30) +contextual [execStiMode, h]

@[simp] theorem State.tGeom_follows {s0 s : State} {a0 a1} (h : s0.Follows s) :
    s0.Follows (State.tGeom s a0 a1) := by
  simp [State.tGeom, h]

@[simp] theorem execStiGeom_follows {s0 s : State} {a0} (h : s0.Follows s) :
    s0.FollowsR (execStiGeom a0 s) := by
  simp (maxDischargeDepth := 30) +contextual [execStiGeom, h]

@[simp] theorem State.tShcfg_follows {s0 s : State} {a0 a1} (h : s0.Follows s) :
    s0.Follows (State.tShcfg s a0 a1) := by
  simp [State.tShcfg, h]

@[simp] theorem execStiShcfg_follows {s0 s : State} {a0} (h : s0.Follows s) :
    s0.FollowsR (execStiShcfg a0 s) := by
  simp (maxDischargeDepth := 30) +contextual [execStiShcfg, h]

@[simp] theorem State.tDivring_follows {s0 s : State} {a0 a1} (h : s0.Follows s) :
    s0.Follows (State.tDivring s a0 a1) := by
  simp [State.tDivring, h]

@[simp] theorem execStiDivring_follows {s0 s : State} {a0} (h : s0.Follows s) :
    s0.FollowsR (execStiDivring a0 s) := by
  simp (maxDischargeDepth := 30) +contextual [execStiDivring, h]

@[simp] theorem State.tOpnd_follows {s0 s : State} {a0 a1} (h : s0.Follows s) :
    s0.Follows (State.tOpnd s a0 a1) := by
  simp [State.tOpnd, h]

@[simp] theorem execStiOpnd_follows {s0 s : State} {a0} (h : s0.Follows s) :
    s0.FollowsR (execStiOpnd a0 s) := by
  simp (maxDischargeDepth := 30) +contextual [execStiOpnd, h]

@[simp] theorem State.tObmp_follows {s0 s : State} {a0 a1} (h : s0.Follows s) :
    s0.Follows (State.tObmp s a0 a1) := by
  simp [State.tObmp, h]

@[simp] theorem execStiObmp_follows {s0 s : State} {a0} (h : s0.Follows s) :
    s0.FollowsR (execStiObmp a0 s) := by
  simp (maxDischargeDepth := 30) +contextual [execStiObmp, h]

@[simp] theorem State.tOutd_follows {s0 s : State} {a0 a1} (h : s0.Follows s) :
    s0.Follows (State.tOutd s a0 a1) := by
  simp [State.tOutd, h]

@[simp] theorem execStiOutd_follows {s0 s : State} {a0} (h : s0.Follows s) :
    s0.FollowsR (execStiOutd a0 s) := by
  simp (maxDischargeDepth := 30) +contextual [execStiOutd, h]

@[simp] theorem State.tOaux_follows {s0 s : State} {a0 a1} (h : s0.Follows s) :
    s0.Follows (State.tOaux s a0 a1) := by
  simp [State.tOaux, h]

@[simp] theorem execStiOaux_follows {s0 s : State} {a0} (h : s0.Follows s) :
    s0.FollowsR (execStiOaux a0 s) := by
  simp (maxDischargeDepth := 30) +contextual [execStiOaux, h]

@[simp] theorem State.moveLines_follows {s0 s : State} {a0 a1 a2 a3 a4 a5 a6} (h : s0.Follows s) :
    s0.Follows (State.moveLines s a0 a1 a2 a3 a4 a5 a6) := by
  induction a6 generalizing s a5 with
  | zero => exact h
  | succ n ih =>
    unfold State.moveLines
    dsimp only
    split
    · exact State.faultStr_follows h
    · exact h
    · have k := State.FollowsL.of (State.load_follows h) (by assumption)
      split
      · exact ih (State.modStr_follows (State.store_follows k))
      · exact State.store_follows k

@[simp] theorem State.tMove_follows {s0 s : State} {a0 a1} (h : s0.Follows s) :
    s0.Follows (State.tMove s a0 a1) := by
  simp (maxDischargeDepth := 30) [State.tMove, h]

@[simp] theorem execStiMove_follows {s0 s : State} {a0} (h : s0.Follows s) :
    s0.FollowsR (execStiMove a0 s) := by
  simp (maxDischargeDepth := 30) +contextual [execStiMove, h]

@[simp] theorem State.tLds_follows {s0 s : State} {a0 a1} (h : s0.Follows s) :
    s0.Follows (State.tLds s a0 a1) := by
  unfold State.tLds; dsimp only; (repeat' split) <;> simp (maxDischargeDepth := 30) +contextual [h]

@[simp] theorem execStiLds_follows {s0 s : State} {a0} (h : s0.Follows s) :
    s0.FollowsR (execStiLds a0 s) := by
  simp (maxDischargeDepth := 30) +contextual [execStiLds, h]

@[simp] theorem State.tPrefetch_follows {s0 s : State} {a0 a1} (h : s0.Follows s) :
    s0.Follows (State.tPrefetch s a0 a1) := by
  unfold State.tPrefetch
  repeat' first
    | with_reducible first | assumption | apply State.load_follows | apply State.stiSet_follows | apply State.stiNext_follows | apply State.faultStr_follows | apply State.FollowsR.go | apply State.Follows.ite | apply State.Follows.foldl | apply State.FollowsL.ok | apply State.FollowsL.hold | apply State.FollowsL.fault | apply State.FollowsL.ite | apply State.FollowsL.bind | intro _
    | dsimp only
    | split
    | refine State.FollowsO.of ?_ (by assumption)
    | refine State.FollowsL.of ?_ (by assumption)

@[simp] theorem execStiPrefetch_follows {s0 s : State} {a0} (h : s0.Follows s) :
    s0.FollowsR (execStiPrefetch a0 s) := by
  simp (maxDischargeDepth := 30) +contextual [execStiPrefetch, h]

@[simp] theorem State.tModel_follows {s0 s : State} {a0 a1} (h : s0.Follows s) :
    s0.Follows (State.tModel s a0 a1) := by
  unfold State.tModel; dsimp only; (repeat' split) <;> simp (maxDischargeDepth := 30) +contextual [h]

@[simp] theorem execStiModel_follows {s0 s : State} {a0} (h : s0.Follows s) :
    s0.FollowsR (execStiModel a0 s) := by
  simp (maxDischargeDepth := 30) +contextual [execStiModel, h]

@[simp] theorem State.tTile_follows {s0 s : State} {a0 a1} (h : s0.Follows s) :
    s0.Follows (State.tTile s a0 a1) := by
  unfold State.tTile; dsimp only; (repeat' split) <;> simp [h]

@[simp] theorem execStiTile_follows {s0 s : State} {a0} (h : s0.Follows s) :
    s0.FollowsR (execStiTile a0 s) := by
  simp (maxDischargeDepth := 30) +contextual [execStiTile, h]

@[simp] theorem execStiRun_follows {s0 s : State} {a0} (h : s0.Follows s) :
    s0.FollowsR (execStiRun a0 s) := by
  simp (maxDischargeDepth := 30) +contextual [execStiRun, h]

@[simp] theorem State.tBytes_follows {s0 s : State} {a0 a1} (h : s0.Follows s) :
    s0.Follows (State.tBytes s a0 a1) := by
  unfold State.tBytes; dsimp only; (repeat' split) <;> simp (maxDischargeDepth := 30) +contextual [h]

@[simp] theorem execStiBytes_follows {s0 s : State} {a0} (h : s0.Follows s) :
    s0.FollowsR (execStiBytes a0 s) := by
  simp (maxDischargeDepth := 30) +contextual [execStiBytes, h]

@[simp] theorem execStiGfcoef_follows {s0 s : State} {a0} (h : s0.Follows s) :
    s0.FollowsR (execStiGfcoef a0 s) := by
  simp (maxDischargeDepth := 30) +contextual [execStiGfcoef, h]

@[simp] theorem execStiLayout_follows {s0 s : State} {a0} (h : s0.Follows s) :
    s0.FollowsR (execStiLayout a0 s) := by
  simp (maxDischargeDepth := 30) +contextual [execStiLayout, h]

@[simp] theorem State.tHashcfg_follows {s0 s : State} {a0 a1} (h : s0.Follows s) :
    s0.Follows (State.tHashcfg s a0 a1) := by
  simp [State.tHashcfg, h]

@[simp] theorem execStiHashcfg_follows {s0 s : State} {a0} (h : s0.Follows s) :
    s0.FollowsR (execStiHashcfg a0 s) := by
  simp (maxDischargeDepth := 30) +contextual [execStiHashcfg, h]

@[simp] theorem State.denyStream_follows {s0 s : State} {a0 a1} (h : s0.Follows s) :
    s0.Follows (State.denyStream s a0 a1) := by
  simp [State.denyStream, h]

@[simp] theorem State.tTwait_follows {s0 s : State} {a0 a1} (h : s0.Follows s) :
    s0.Follows (State.tTwait s a0 a1) := by
  simp (maxDischargeDepth := 30) [State.tTwait, h]

@[simp] theorem execStiTwait_follows {s0 s : State} {a0} (h : s0.Follows s) :
    s0.FollowsR (execStiTwait a0 s) := by
  simp (maxDischargeDepth := 30) +contextual [execStiTwait, h]

@[simp] theorem State.applySig_follows {s0 s : State} {a0 a1 a2 a3} (h : s0.Follows s) :
    s0.Follows (State.applySig s a0 a1 a2 a3) := by
  unfold State.applySig
  repeat' first
    | with_reducible first | assumption | apply State.denyStream_follows | apply State.deny_follows | apply State.tallyAdd_follows | apply State.tallyFault_follows | apply State.faultStr_follows | apply State.wakeTally_follows | apply State.FollowsR.go | apply State.Follows.ite | apply State.Follows.foldl | apply State.FollowsL.ok | apply State.FollowsL.hold | apply State.FollowsL.fault | apply State.FollowsL.ite | apply State.FollowsL.bind | apply State.FollowsO.none | apply State.FollowsO.some | apply State.FollowsO.ite | apply State.FollowsO.getD | intro _
    | dsimp only
    | split
    | refine State.FollowsO.of ?_ (by assumption)

@[simp] theorem State.tTsig_follows {s0 s : State} {a0 a1} (h : s0.Follows s) :
    s0.Follows (State.tTsig s a0 a1) := by
  unfold State.tTsig
  repeat' first
    | with_reducible first | assumption | apply State.stiNext_follows | apply State.applySig_follows | apply State.FollowsR.go | apply State.Follows.ite | apply State.Follows.foldl | apply State.FollowsL.ok | apply State.FollowsL.hold | apply State.FollowsL.fault | apply State.FollowsL.ite | apply State.FollowsL.bind | intro _
    | dsimp only
    | split
    | refine State.FollowsO.of ?_ (by assumption)
    | refine State.FollowsL.of ?_ (by assumption)
    | refine State.Follows.of2 ?_ (by assumption)
    | with_reducible first | refine State.Follows.make ?_ rfl rfl rfl rfl

@[simp] theorem execStiTsig_follows {s0 s : State} {a0} (h : s0.Follows s) :
    s0.FollowsR (execStiTsig a0 s) := by
  simp (maxDischargeDepth := 30) +contextual [execStiTsig, h]

@[simp] theorem State.applyGap_follows {s0 s : State} (h : s0.Follows s) :
    s0.Follows (State.applyGap s) := by
  unfold State.applyGap
  repeat' first
    | with_reducible first | assumption | apply State.apply8_follows | apply State.applySig_follows | apply State.FollowsR.go | apply State.Follows.ite | apply State.Follows.foldl | apply State.FollowsL.ok | apply State.FollowsL.hold | apply State.FollowsL.fault | apply State.FollowsL.ite | apply State.FollowsL.bind | intro _
    | dsimp only
    | split
    | refine State.FollowsO.of ?_ (by assumption)
    | refine State.FollowsL.of ?_ (by assumption)
    | refine State.Follows.of2 ?_ (by assumption)
    | with_reducible first | refine State.Follows.make ?_ rfl rfl rfl rfl

@[simp] theorem execStiSeti_follows {s0 s : State} {a0} (h : s0.Follows s) :
    s0.FollowsR (execStiSeti a0 s) := by
  simp (maxDischargeDepth := 30) +contextual [execStiSeti, h]

@[simp] theorem execStiAdd_follows {s0 s : State} {a0} (h : s0.Follows s) :
    s0.FollowsR (execStiAdd a0 s) := by
  simp (maxDischargeDepth := 30) +contextual [execStiAdd, h]

@[simp] theorem execStiAddi_follows {s0 s : State} {a0} (h : s0.Follows s) :
    s0.FollowsR (execStiAddi a0 s) := by
  simp (maxDischargeDepth := 30) +contextual [execStiAddi, h]

@[simp] theorem execStiMuli_follows {s0 s : State} {a0} (h : s0.Follows s) :
    s0.FollowsR (execStiMuli a0 s) := by
  simp (maxDischargeDepth := 30) +contextual [execStiMuli, h]

@[simp] theorem State.tLoop_follows {s0 s : State} {a0 a1} (h : s0.Follows s) :
    s0.Follows (State.tLoop s a0 a1) := by
  simp [State.tLoop, h]

@[simp] theorem execStiLoop_follows {s0 s : State} {a0} (h : s0.Follows s) :
    s0.FollowsR (execStiLoop a0 s) := by
  simp (maxDischargeDepth := 30) +contextual [execStiLoop, h]

@[simp] theorem State.tEndl_follows {s0 s : State} {a0 a1} (h : s0.Follows s) :
    s0.Follows (State.tEndl s a0 a1) := by
  unfold State.tEndl
  repeat' first
    | with_reducible first | assumption | apply State.stiNext_follows | apply State.stiSet_follows | apply State.modEng_follows | apply State.FollowsR.go | apply State.Follows.ite | apply State.Follows.foldl | apply State.FollowsL.ok | apply State.FollowsL.hold | apply State.FollowsL.fault | apply State.FollowsL.ite | apply State.FollowsL.bind | intro _
    | dsimp only
    | split

@[simp] theorem execStiEndl_follows {s0 s : State} {a0} (h : s0.Follows s) :
    s0.FollowsR (execStiEndl a0 s) := by
  simp (maxDischargeDepth := 30) +contextual [execStiEndl, h]

@[simp] theorem execStiNop_follows {s0 s : State} {a0} (h : s0.Follows s) :
    s0.FollowsR (execStiNop a0 s) := by
  simp (maxDischargeDepth := 30) +contextual [execStiNop, h]

@[simp] theorem State.setSlot_follows {s0 s : State} {a0 a1} (h : s0.Follows s) :
    s0.Follows (State.setSlot s a0 a1) := by
  simp [State.setSlot, h]

@[simp] theorem State.loadSlot_follows {s0 s : State} {a0 a1 a2} (h : s0.Follows s) :
    s0.Follows (State.loadSlot s a0 a1 a2) := by
  simp (maxDischargeDepth := 30) [State.loadSlot, h]

@[simp] theorem State.tryKeyload_follows {s0 s : State} {a0 a1} (h : s0.Follows s) :
    s0.Follows (State.tryKeyload s a0 a1) := by
  unfold State.tryKeyload
  repeat' first
    | with_reducible first | assumption | apply State.abort_follows | apply State.succeed_follows | apply State.loadSlot_follows | apply State.FollowsR.go | apply State.Follows.ite | apply State.Follows.foldl | apply State.FollowsL.ok | apply State.FollowsL.hold | apply State.FollowsL.fault | apply State.FollowsL.ite | apply State.FollowsL.bind | intro _
    | dsimp only
    | split

@[simp] theorem State.issueKeyload_follows {s0 s : State} {a0 a1} (h : s0.Follows s) :
    s0.Follows (State.issueKeyload s a0 a1) := by
  simp (maxDischargeDepth := 30) +contextual [State.issueKeyload, h]

@[simp] theorem execUciKeyload_follows {s0 s : State} {a0} (h : s0.Follows s) :
    s0.FollowsR (execUciKeyload a0 s) := by
  unfold execUciKeyload
  repeat' first
    | with_reducible first | assumption | apply State.uci_follows | apply State.issueKeyload_follows | apply State.FollowsR.go | apply State.Follows.ite | apply State.Follows.foldl | apply State.FollowsL.ok | apply State.FollowsL.hold | apply State.FollowsL.fault | apply State.FollowsL.ite | apply State.FollowsL.bind | intro _

@[simp] theorem State.startErase_follows {s0 s : State} {a0} (h : s0.Follows s) :
    s0.Follows (State.startErase s a0) := by
  unfold State.startErase
  repeat' first
    | with_reducible first | assumption | apply State.faultStr_follows | apply State.setSlot_follows | apply State.FollowsR.go | apply State.Follows.ite | apply State.Follows.foldl | apply State.FollowsL.ok | apply State.FollowsL.hold | apply State.FollowsL.fault | apply State.FollowsL.ite | apply State.FollowsL.bind | intro _

@[simp] theorem State.eraseStep_follows {s0 s : State} {a0} (h : s0.Follows s) :
    s0.Follows (State.eraseStep s a0) := by
  unfold State.eraseStep
  repeat' first
    | with_reducible first | assumption | apply State.setSlot_follows | apply State.succeed_follows | apply State.FollowsR.go | apply State.Follows.ite | apply State.Follows.foldl | apply State.FollowsL.ok | apply State.FollowsL.hold | apply State.FollowsL.fault | apply State.FollowsL.ite | apply State.FollowsL.bind | intro _
    | dsimp only
    | split

@[simp] theorem State.keyWake_follows {s0 s : State} (h : s0.Follows s) :
    s0.Follows (State.keyWake s) := by
  unfold State.keyWake
  repeat' first
    | with_reducible first | assumption | apply State.eraseStep_follows | apply State.tryKeyload_follows | apply State.FollowsR.go | apply State.Follows.ite | apply State.Follows.foldl | apply State.FollowsL.ok | apply State.FollowsL.hold | apply State.FollowsL.fault | apply State.FollowsL.ite | apply State.FollowsL.bind | intro _
    | dsimp only
    | split

@[simp] theorem State.issueKeyerase_follows {s0 s : State} {a0 a1} (h : s0.Follows s) :
    s0.Follows (State.issueKeyerase s a0 a1) := by
  simp (maxDischargeDepth := 30) [State.issueKeyerase, h]

@[simp] theorem execUciKeyerase_follows {s0 s : State} {a0} (h : s0.Follows s) :
    s0.FollowsR (execUciKeyerase a0 s) := by
  unfold execUciKeyerase
  repeat' first
    | with_reducible first | assumption | apply State.uci_follows | apply State.issueKeyerase_follows | apply State.FollowsR.go | apply State.Follows.ite | apply State.Follows.foldl | apply State.FollowsL.ok | apply State.FollowsL.hold | apply State.FollowsL.fault | apply State.FollowsL.ite | apply State.FollowsL.bind | intro _

@[simp] theorem State.loadTile_follows {s0 s : State} {a0 a1 a2} (h : s0.Follows s) :
    s0.FollowsL (State.loadTile s a0 a1 a2) := by
  simp [State.loadTile, h]

@[simp] theorem State.loadBmp_follows {s0 s : State} {a0 a1 a2} (h : s0.Follows s) :
    s0.FollowsL (State.loadBmp s a0 a1 a2) := by
  simp [State.loadBmp, h]

@[simp] theorem State.loadSteps_follows {s0 s : State} {a0 a1 a2 a3 a4 a5 a6 a7} (h : s0.Follows s) :
    s0.FollowsL (State.loadSteps s a0 a1 a2 a3 a4 a5 a6 a7) := by
  induction a7 generalizing s a6 with
  | zero => exact State.FollowsL.ok h
  | succ n ih =>
    exact State.FollowsL.bind (State.loadTile_follows h) fun _ _ k => State.FollowsL.bind (State.loadBmp_follows k) fun _ _ k =>
      State.FollowsL.bind (State.loadTile_follows k) fun _ _ k => State.FollowsL.bind (State.loadBmp_follows k) fun _ _ k =>
        State.FollowsL.bind (ih k) fun _ _ k => State.FollowsL.ok k

@[simp] theorem State.loadPre_follows {s0 s : State} {a0 a1 a2 a3} (h : s0.Follows s) :
    s0.FollowsL (State.loadPre s a0 a1 a2 a3) := by
  unfold State.loadPre
  repeat' first
    | with_reducible first | assumption | apply Ld.bind_follows | apply State.loadTile_follows | apply State.loadBmp_follows | apply State.FollowsR.go | apply State.Follows.ite | apply State.Follows.foldl | apply State.FollowsL.ok | apply State.FollowsL.hold | apply State.FollowsL.fault | apply State.FollowsL.ite | apply State.FollowsL.bind | intro _
    | dsimp only
    | split

@[simp] theorem State.loadSource_follows {s0 s : State} {a0 a1 a2 a3 a4 a5 a6} (h : s0.Follows s) :
    s0.FollowsL (State.loadSource s a0 a1 a2 a3 a4 a5 a6) := by
  unfold State.loadSource
  repeat' first
    | with_reducible first | assumption | apply Ld.bind_follows | apply State.loadSteps_follows | apply State.FollowsR.go | apply State.Follows.ite | apply State.Follows.foldl | apply State.FollowsL.ok | apply State.FollowsL.hold | apply State.FollowsL.fault | apply State.FollowsL.ite | apply State.FollowsL.bind | intro _
    | dsimp only
    | split

@[simp] theorem State.loadJob_follows {s0 s : State} {a0 a1 a2 a3} (h : s0.Follows s) :
    s0.FollowsL (State.loadJob s a0 a1 a2 a3) := by
  unfold State.loadJob
  repeat' first
    | with_reducible first | assumption | apply Ld.bind_follows | apply State.loadSteps_follows | apply State.loadPre_follows | apply State.loadSource_follows | apply State.FollowsR.go | apply State.Follows.ite | apply State.Follows.foldl | apply State.FollowsL.ok | apply State.FollowsL.hold | apply State.FollowsL.fault | apply State.FollowsL.ite | apply State.FollowsL.bind | intro _
    | dsimp only
    | split

@[simp] theorem State.storeAux_follows {s0 s : State} {a0 a1 a2 a3 a4} (h : s0.Follows s) :
    s0.Follows (State.storeAux s a0 a1 a2 a3 a4) := by
  unfold State.storeAux
  repeat' first
    | with_reducible first | assumption | apply State.store_follows | apply State.FollowsR.go | apply State.Follows.ite | apply State.Follows.foldl | apply State.FollowsL.ok | apply State.FollowsL.hold | apply State.FollowsL.fault | apply State.FollowsL.ite | apply State.FollowsL.bind | intro _
    | dsimp only
    | split

@[simp] theorem State.diverge_follows {s0 s : State} {a0 a1} (h : s0.Follows s) :
    s0.Follows (State.diverge s a0 a1) := by
  unfold State.diverge
  repeat' first
    | with_reducible first | assumption | apply State.modStr_follows | apply State.store_follows | apply State.modEng_follows | apply State.FollowsR.go | apply State.Follows.ite | apply State.Follows.foldl | apply State.FollowsL.ok | apply State.FollowsL.hold | apply State.FollowsL.fault | apply State.FollowsL.ite | apply State.FollowsL.bind | intro _
    | dsimp only
    | split

@[simp] theorem State.digests_follows {s0 s : State} {a0 a1 a2 a3} (h : s0.Follows s) :
    s0.Follows (State.digests s a0 a1 a2 a3) := by
  induction a3 generalizing s a2 with
  | nil => exact h
  | cons x r ih => exact ih (State.store_follows h)

@[simp] theorem State.hashTile_follows {s0 s : State} {a0 a1 a2} (h : s0.Follows s) :
    s0.Follows (State.hashTile s a0 a1 a2) := by
  unfold State.hashTile
  repeat' first
    | with_reducible first | assumption | apply State.modStr_follows | apply State.digests_follows | apply State.FollowsR.go | apply State.Follows.ite | apply State.Follows.foldl | apply State.FollowsL.ok | apply State.FollowsL.hold | apply State.FollowsL.fault | apply State.FollowsL.ite | apply State.FollowsL.bind | intro _
    | dsimp only
    | split

@[simp] theorem State.tileDone_follows {s0 s : State} {a0 a1} (h : s0.Follows s) :
    s0.Follows (State.tileDone s a0 a1) := by
  simp [State.tileDone, h]

@[simp] theorem State.storeTile_follows {s0 s : State} {a0 a1 a2 a3 a4} (h : s0.Follows s) :
    s0.Follows (State.storeTile s a0 a1 a2 a3 a4) := by
  unfold State.storeTile
  repeat' first
    | with_reducible first | assumption | apply State.store_follows | apply State.storeAux_follows | apply State.diverge_follows | apply State.hashTile_follows | apply State.FollowsR.go | apply State.Follows.ite | apply State.Follows.foldl | apply State.FollowsL.ok | apply State.FollowsL.hold | apply State.FollowsL.fault | apply State.FollowsL.ite | apply State.FollowsL.bind | intro _
    | dsimp only
    | split

@[simp] theorem State.matrixTile_follows {s0 s : State} {a0 a1 a2 a3 a4} (h : s0.Follows s) :
    s0.Follows (State.matrixTile s a0 a1 a2 a3 a4) := by
  unfold State.matrixTile
  repeat' first
    | with_reducible first | assumption | apply State.loadJob_follows | apply State.faultStr_follows | apply State.storeTile_follows | apply State.modStr_follows | apply State.tileDone_follows | apply State.FollowsR.go | apply State.Follows.ite | apply State.Follows.foldl | apply State.FollowsL.ok | apply State.FollowsL.hold | apply State.FollowsL.fault | apply State.FollowsL.ite | apply State.FollowsL.bind | intro _
    | dsimp only
    | split
    | refine State.FollowsO.of ?_ (by assumption)
    | refine State.FollowsL.of ?_ (by assumption)
    | refine State.Follows.of2 ?_ (by assumption)
    | with_reducible first | refine State.Follows.make ?_ rfl rfl rfl rfl | refine State.Follows.draw ?_ rfl rfl rfl rfl

@[simp] theorem State.byteInput_follows {s0 s : State} {a0 a1 a2 a3 a4 a5} (h : s0.Follows s) :
    s0.FollowsL (State.byteInput s a0 a1 a2 a3 a4 a5) := by
  unfold State.byteInput
  repeat' first
    | with_reducible first | assumption | apply State.loadAll_follows | apply State.load_follows | apply State.FollowsR.go | apply State.Follows.ite | apply State.Follows.foldl | apply State.FollowsL.ok | apply State.FollowsL.hold | apply State.FollowsL.fault | apply State.FollowsL.ite | apply State.FollowsL.bind | intro _
    | dsimp only
    | split

@[simp] theorem State.byteLoad_follows {s0 s : State} {a0 a1 a2 a3 a4} {a5} (h : s0.Follows s) :
    s0.FollowsL (State.byteLoad s a0 a1 a2 a3 a4 a5) := by
  induction a5 generalizing s with
  | nil => exact State.FollowsL.ok h
  | cons i r ih =>
    exact State.FollowsL.bind (State.byteInput_follows h) fun _ _ k => State.FollowsL.bind (ih k) fun _ _ k => State.FollowsL.ok k

@[simp] theorem State.scatter_follows {s0 s : State} {a0 a1 a2 a3} (h : s0.Follows s) :
    s0.Follows (State.scatter s a0 a1 a2 a3) := by
  induction a3 generalizing s a2 with
  | nil => exact h
  | cons p r ih =>
    obtain ⟨a, n⟩ := p
    exact ih (State.store_follows h)

@[simp] theorem State.byteStore_follows {s0 s : State} {a0 a1 a2 a3 a4} (h : s0.Follows s) :
    s0.Follows (State.byteStore s a0 a1 a2 a3 a4) := by
  unfold State.byteStore
  repeat' first
    | with_reducible first | assumption | apply State.scatter_follows | apply State.store_follows | apply State.FollowsR.go | apply State.Follows.ite | apply State.Follows.foldl | apply State.FollowsL.ok | apply State.FollowsL.hold | apply State.FollowsL.fault | apply State.FollowsL.ite | apply State.FollowsL.bind | intro _
    | dsimp only
    | split

@[simp] theorem State.bytesTile_follows {s0 s : State} {a0 a1 a2 a3 a4 a5 a6 a7 a8} (h : s0.Follows s) :
    s0.Follows (State.bytesTile s a0 a1 a2 a3 a4 a5 a6 a7 a8) := by
  unfold State.bytesTile
  repeat' first
    | with_reducible first | assumption | apply State.byteStore_follows | apply State.byteLoad_follows | apply State.digests_follows | apply State.faultStr_follows | apply State.modEng_follows | apply State.FollowsR.go | apply State.FollowsP.go | apply State.FollowsO.some | apply State.FollowsO.none | apply State.Follows.ite | apply State.FollowsO.ite | apply State.Follows.foldl | intro _
    | dsimp only
    | split
    | refine State.FollowsO.of ?_ (by assumption)
    | refine State.FollowsL.of ?_ (by assumption)
    | refine State.Follows.of2 ?_ (by assumption)
    | with_reducible first | refine State.Follows.make ?_ rfl rfl rfl rfl | refine State.Follows.draw ?_ rfl rfl rfl rfl

@[simp] theorem State.tileStep_follows {s0 s : State} {a0} (h : s0.Follows s) :
    s0.Follows (State.tileStep s a0) := by
  unfold State.tileStep
  repeat' first
    | with_reducible first | assumption | apply State.matrixTile_follows | apply State.bytesTile_follows | apply State.FollowsR.go | apply State.Follows.ite | apply State.Follows.foldl | apply State.FollowsL.ok | apply State.FollowsL.hold | apply State.FollowsL.fault | apply State.FollowsL.ite | apply State.FollowsL.bind | intro _
    | dsimp only
    | split

@[simp] theorem State.putFront_follows {s0 s : State} {a0 a1 a2} (h : s0.Follows s) :
    s0.Follows (State.putFront s a0 a1 a2) := by
  induction a2 generalizing s a1 with
  | nil => exact h
  | cons p r ih =>
    obtain ⟨a, n⟩ := p
    exact ih (State.Follows.ite h (State.put_follows h))

@[simp] theorem State.cutTile_follows {s0 s : State} {a0} (h : s0.Follows s) :
    s0.Follows (State.cutTile s a0) := by
  unfold State.cutTile; dsimp only; (repeat' split) <;> simp (maxDischargeDepth := 30) +contextual [h]

@[simp] theorem execTileComplete_follows {s0 s : State} {a0} (h : s0.Follows s) :
    s0.FollowsR (execTileComplete a0 s) := by
  simp [execTileComplete, h]

@[simp] theorem State.idleNow_follows {s0 s : State} {a0} (h : s0.Follows s) :
    s0.Follows (State.idleNow s a0) := by
  simp [State.idleNow, h]

@[simp] theorem State.addEnded_follows {s0 s : State} {a0 a1 a2} (h : s0.Follows s) :
    s0.Follows (State.addEnded s a0 a1 a2) := by
  simp [State.addEnded, h]

@[simp] theorem State.endStream_follows {s0 s : State} {a0 a1 a2 a3} (h : s0.Follows s) :
    s0.Follows (State.endStream s a0 a1 a2 a3) := by
  simp (maxDischargeDepth := 30) [State.endStream, h]

@[simp] theorem State.eraseStream_follows {s0 s : State} {a0} (h : s0.Follows s) :
    s0.Follows (State.eraseStream s a0) := by
  unfold State.eraseStream
  repeat' first
    | with_reducible first | assumption | apply State.depWrite_follows | apply State.idleNow_follows | apply State.modEng_follows | apply State.FollowsR.go | apply State.Follows.ite | apply State.Follows.foldl | apply State.FollowsL.ok | apply State.FollowsL.hold | apply State.FollowsL.fault | apply State.FollowsL.ite | apply State.FollowsL.bind | intro _

@[simp] theorem State.requestWake_follows {s0 s : State} {a0 a1} (h : s0.Follows s) :
    s0.Follows (State.requestWake s a0 a1) := by
  simp [State.requestWake, h]

@[simp] theorem State.startStream_follows {s0 s : State} {a0 a1 a2} (h : s0.Follows s) :
    s0.Follows (State.startStream s a0 a1 a2) := by
  simp (maxDischargeDepth := 30) [State.startStream, h]

@[simp] theorem State.launched_follows {s0 s : State} {a0 a1} (h : s0.Follows s) :
    s0.Follows (State.launched s a0 a1) := by
  simp [State.launched, h]

@[simp] theorem State.beginLaunch_follows {s0 s : State} {a0 a1 a2} (h : s0.Follows s) :
    s0.Follows (State.beginLaunch s a0 a1 a2) := by
  simp (maxDischargeDepth := 30) +contextual [State.beginLaunch, h]

@[simp] theorem State.tryLaunch_follows {s0 s : State} {a0 a1} (h : s0.Follows s) :
    s0.Follows (State.tryLaunch s a0 a1) := by
  unfold State.tryLaunch; dsimp only; (repeat' split) <;> simp (maxDischargeDepth := 30) +contextual [h]

@[simp] theorem State.tryJoin_follows {s0 s : State} {a0 a1} (h : s0.Follows s) :
    s0.Follows (State.tryJoin s a0 a1) := by
  unfold State.tryJoin
  repeat' first
    | with_reducible first | assumption | apply State.dsWrite_follows | apply State.succeed_follows | apply State.abort_follows | apply State.FollowsR.go | apply State.Follows.ite | apply State.Follows.foldl | apply State.FollowsL.ok | apply State.FollowsL.hold | apply State.FollowsL.fault | apply State.FollowsL.ite | apply State.FollowsL.bind | intro _
    | dsimp only
    | split
    | refine State.FollowsO.of ?_ (by assumption)
    | refine State.FollowsL.of ?_ (by assumption)
    | refine State.Follows.of2 ?_ (by assumption)
    | with_reducible first | refine State.Follows.make ?_ rfl rfl rfl rfl

@[simp] theorem State.tryRetire_follows {s0 s : State} {a0 a1} (h : s0.Follows s) :
    s0.Follows (State.tryRetire s a0 a1) := by
  simp (maxDischargeDepth := 30) [State.tryRetire, h]

@[simp] theorem State.tryScrub_follows {s0 s : State} {a0 a1} (h : s0.Follows s) :
    s0.Follows (State.tryScrub s a0 a1) := by
  simp (maxDischargeDepth := 30) [State.tryScrub, h]

@[simp] theorem State.tryWave_follows {s0 s : State} {a0 a1} (h : s0.Follows s) :
    s0.Follows (State.tryWave s a0 a1) := by
  unfold State.tryWave
  repeat' first
    | with_reducible first | assumption | apply State.succeed_follows | apply State.FollowsR.go | apply State.Follows.ite | apply State.Follows.foldl | apply State.FollowsL.ok | apply State.FollowsL.hold | apply State.FollowsL.fault | apply State.FollowsL.ite | apply State.FollowsL.bind | intro _
    | dsimp only
    | split

@[simp] theorem State.dieStep_follows {s0 s : State} {a0} (h : s0.Follows s) :
    s0.Follows (State.dieStep s a0) := by
  unfold State.dieStep
  refine State.Follows.ite (State.Follows.foldl ?_ fun _ _ hu => State.Follows.ite (State.modEng_follows hu) hu) ?_ <;>
  · refine State.Follows.ite (State.modDie_follows ?_) ?_ <;>
    · split
      · exact State.modDie_follows h
      · exact h

@[simp] theorem State.stWake_follows {s0 s : State} (h : s0.Follows s) :
    s0.Follows (State.stWake s) := by
  exact State.Follows.foldl (State.Follows.foldl (State.keyWake_follows (State.Follows.foldl (State.Follows.foldl
    (State.Follows.foldl (State.Follows.foldl h fun _ _ hu => State.dieStep_follows hu) fun _ _ hu => State.tryJoin_follows hu)
    fun _ _ hu => State.tryRetire_follows hu) fun _ _ hu => State.tryScrub_follows hu))
    fun _ _ hu => State.Follows.ite (State.tryLaunch_follows hu) hu) fun _ _ hu => State.tryWave_follows hu

@[simp] theorem State.issueLaunch_follows {s0 s : State} {a0 a1} (h : s0.Follows s) :
    s0.Follows (State.issueLaunch s a0 a1) := by
  simp (maxDischargeDepth := 30) +contextual [State.issueLaunch, h]

@[simp] theorem execUciLaunch_follows {s0 s : State} {a0} (h : s0.Follows s) :
    s0.FollowsR (execUciLaunch a0 s) := by
  unfold execUciLaunch
  repeat' first
    | with_reducible first | assumption | apply State.uci_follows | apply State.issueLaunch_follows | apply State.FollowsR.go | apply State.Follows.ite | apply State.Follows.foldl | apply State.FollowsL.ok | apply State.FollowsL.hold | apply State.FollowsL.fault | apply State.FollowsL.ite | apply State.FollowsL.bind | intro _

@[simp] theorem State.issueJoin_follows {s0 s : State} {a0 a1} (h : s0.Follows s) :
    s0.Follows (State.issueJoin s a0 a1) := by
  simp (maxDischargeDepth := 30) +contextual [State.issueJoin, h]

@[simp] theorem execUciJoin_follows {s0 s : State} {a0} (h : s0.Follows s) :
    s0.FollowsR (execUciJoin a0 s) := by
  unfold execUciJoin
  repeat' first
    | with_reducible first | assumption | apply State.uci_follows | apply State.issueJoin_follows | apply State.FollowsR.go | apply State.Follows.ite | apply State.Follows.foldl | apply State.FollowsL.ok | apply State.FollowsL.hold | apply State.FollowsL.fault | apply State.FollowsL.ite | apply State.FollowsL.bind | intro _

@[simp] theorem State.retireDie_follows {s0 s : State} {a0 a1} (h : s0.Follows s) :
    s0.Follows (State.retireDie s a0 a1) := by
  simp [State.retireDie, h]

@[simp] theorem State.issueRetire_follows {s0 s : State} {a0 a1} (h : s0.Follows s) :
    s0.Follows (State.issueRetire s a0 a1) := by
  unfold State.issueRetire
  repeat' first
    | with_reducible first | assumption | apply State.waitJ_follows | apply State.faultStr_follows | apply State.succeed_follows | apply State.abort_follows | apply State.stWake_follows | apply State.retireDie_follows | apply State.modDie_follows | apply State.FollowsR.go | apply State.Follows.ite | apply State.Follows.foldl | apply State.FollowsL.ok | apply State.FollowsL.hold | apply State.FollowsL.fault | apply State.FollowsL.ite | apply State.FollowsL.bind | intro _
    | dsimp only
    | split

@[simp] theorem execUciRetire_follows {s0 s : State} {a0} (h : s0.Follows s) :
    s0.FollowsR (execUciRetire a0 s) := by
  unfold execUciRetire
  repeat' first
    | with_reducible first | assumption | apply State.uci_follows | apply State.issueRetire_follows | apply State.FollowsR.go | apply State.Follows.ite | apply State.Follows.foldl | apply State.FollowsL.ok | apply State.FollowsL.hold | apply State.FollowsL.fault | apply State.FollowsL.ite | apply State.FollowsL.bind | intro _

@[simp] theorem State.scrubEngines_follows {s0 s : State} {a0 a1 a2} (h : s0.Follows s) :
    s0.Follows (State.scrubEngines s a0 a1 a2) := by
  unfold State.scrubEngines
  repeat' first
    | with_reducible first | assumption | apply State.abort_follows | apply State.modEng_follows | apply State.tryScrub_follows | apply State.putRun_follows | apply State.FollowsR.go | apply State.Follows.ite | apply State.Follows.foldl | apply State.FollowsL.ok | apply State.FollowsL.hold | apply State.FollowsL.fault | apply State.FollowsL.ite | apply State.FollowsL.bind | intro _

@[simp] theorem State.scrubPart_follows {s0 s : State} {a0} (h : s0.Follows s) :
    s0.Follows (State.scrubPart s a0) := by
  unfold State.scrubPart
  exact State.modLPart_follows (h.memUpd rfl rfl rfl fun k => ⟨k.1, k.2.1, k.2.2.1, Mem.wf_filter _ k.2.2.2⟩)

@[simp] theorem State.issueScrub_follows {s0 s : State} {a0 a1} (h : s0.Follows s) :
    s0.Follows (State.issueScrub s a0 a1) := by
  unfold State.issueScrub
  repeat' first
    | with_reducible first | assumption | apply State.waitJ_follows | apply State.abort_follows | apply State.scrubEngines_follows | apply State.succeed_follows | apply State.scrubPart_follows | apply State.FollowsR.go | apply State.Follows.ite | apply State.Follows.foldl | apply State.FollowsL.ok | apply State.FollowsL.hold | apply State.FollowsL.fault | apply State.FollowsL.ite | apply State.FollowsL.bind | intro _
    | dsimp only
    | split
    | refine State.FollowsO.of ?_ (by assumption)
    | refine State.FollowsL.of ?_ (by assumption)
    | refine State.Follows.of2 ?_ (by assumption)
    | with_reducible first | refine State.Follows.make ?_ rfl rfl rfl rfl

@[simp] theorem execUciScrub_follows {s0 s : State} {a0} (h : s0.Follows s) :
    s0.FollowsR (execUciScrub a0 s) := by
  unfold execUciScrub
  repeat' first
    | with_reducible first | assumption | apply State.uci_follows | apply State.issueScrub_follows | apply State.FollowsR.go | apply State.Follows.ite | apply State.Follows.foldl | apply State.FollowsL.ok | apply State.FollowsL.hold | apply State.FollowsL.fault | apply State.FollowsL.ite | apply State.FollowsL.bind | intro _

@[simp] theorem State.withdrawLoans_follows {s0 s : State} (h : s0.Follows s) :
    s0.Follows (State.withdrawLoans s) := by
  exact State.Follows.foldl h fun _ _ hu => State.Follows.ite (State.modDie_follows hu) hu

@[simp] theorem State.uLend_follows {s0 s : State} {a0 a1} (h : s0.Follows s) :
    s0.Follows (State.uLend s a0 a1) := by
  simp (maxDischargeDepth := 30) [State.uLend, h]

@[simp] theorem execUciLend_follows {s0 s : State} {a0} (h : s0.Follows s) :
    s0.FollowsR (execUciLend a0 s) := by
  unfold execUciLend
  repeat' first
    | with_reducible first | assumption | apply State.uci_follows | apply State.uLend_follows | apply State.FollowsR.go | apply State.Follows.ite | apply State.Follows.foldl | apply State.FollowsL.ok | apply State.FollowsL.hold | apply State.FollowsL.fault | apply State.FollowsL.ite | apply State.FollowsL.bind | intro _

@[simp] theorem State.issueWave_follows {s0 s : State} {a0 a1} (h : s0.Follows s) :
    s0.Follows (State.issueWave s a0 a1) := by
  unfold State.issueWave
  repeat' first
    | with_reducible first | assumption | apply State.waitJ_follows | apply State.abort_follows | apply State.requestWake_follows | apply State.modDie_follows | apply State.stWake_follows | apply State.FollowsR.go | apply State.Follows.ite | apply State.Follows.foldl | apply State.FollowsL.ok | apply State.FollowsL.hold | apply State.FollowsL.fault | apply State.FollowsL.ite | apply State.FollowsL.bind | intro _
    | dsimp only
    | split

@[simp] theorem execUciWave_follows {s0 s : State} {a0} (h : s0.Follows s) :
    s0.FollowsR (execUciWave a0 s) := by
  unfold execUciWave
  repeat' first
    | with_reducible first | assumption | apply State.uci_follows | apply State.issueWave_follows | apply State.FollowsR.go | apply State.Follows.ite | apply State.Follows.foldl | apply State.FollowsL.ok | apply State.FollowsL.hold | apply State.FollowsL.fault | apply State.FollowsL.ite | apply State.FollowsL.bind | intro _

@[simp] theorem State.segmentsReady_follows {s0 s : State} {a0} (h : s0.Follows s) :
    s0.Follows (State.segmentsReady s a0) := by
  simp [State.segmentsReady, h]

@[simp] theorem State.tEnd_follows {s0 s : State} {a0} (h : s0.Follows s) :
    s0.Follows (State.tEnd s a0) := by
  simp (maxDischargeDepth := 30) [State.tEnd, h]

@[simp] theorem execStiEnd_follows {s0 s : State} {a0} (h : s0.Follows s) :
    s0.FollowsR (execStiEnd a0 s) := by
  unfold execStiEnd
  repeat' first
    | with_reducible first | assumption | apply State.sti_follows | apply State.tEnd_follows | apply State.FollowsR.go | apply State.Follows.ite | apply State.Follows.foldl | apply State.FollowsL.ok | apply State.FollowsL.hold | apply State.FollowsL.fault | apply State.FollowsL.ite | apply State.FollowsL.bind | intro _

@[simp] theorem State.carryFault_follows {s0 s : State} {a0} (h : s0.Follows s) :
    s0.Follows (State.carryFault s a0) := by
  unfold State.carryFault; dsimp only; (repeat' split) <;> simp (maxDischargeDepth := 30) +contextual [h]

@[simp] theorem execStreamFault_follows {s0 s : State} {a0} (h : s0.Follows s) :
    s0.FollowsR (execStreamFault a0 s) := by
  simp [execStreamFault, h]

@[simp] theorem execTileTimeout_follows {s0 s : State} {a0} (h : s0.Follows s) :
    s0.FollowsR (execTileTimeout a0 s) := by
  simp (maxDischargeDepth := 30) [execTileTimeout, h]

@[simp] theorem execScratchEccError_follows {s0 s : State} {a0 a1} (h : s0.Follows s) :
    s0.FollowsR (execScratchEccError a0 a1 s) := by
  simp (maxDischargeDepth := 30) [execScratchEccError, h]

@[simp] theorem execDepotReadError_follows {s0 s : State} {a0} (h : s0.Follows s) :
    s0.FollowsR (execDepotReadError a0 s) := by
  simp (maxDischargeDepth := 30) [execDepotReadError, h]

@[simp] theorem execStationHwFail_follows {s0 s : State} {a0} (h : s0.Follows s) :
    s0.FollowsR (execStationHwFail a0 s) := by
  simp (maxDischargeDepth := 30) [execStationHwFail, h]

@[simp] theorem execWaitLimitExpire_follows {s0 s : State} {a0} (h : s0.Follows s) :
    s0.FollowsR (execWaitLimitExpire a0 s) := by
  simp (maxDischargeDepth := 30) [execWaitLimitExpire, h]

@[simp] theorem State.afterScrub_follows {s0 s : State} {a0 a1} (h : s0.Follows s) :
    s0.Follows (State.afterScrub s a0 a1) := by
  unfold State.afterScrub
  repeat' first
    | with_reducible first | assumption | apply State.beginLaunch_follows | apply State.addEnded_follows | apply State.depWrite_follows | apply State.modEng_follows | apply State.FollowsR.go | apply State.FollowsP.go | apply State.FollowsO.some | apply State.FollowsO.none | apply State.Follows.ite | apply State.FollowsO.ite | apply State.Follows.foldl | intro _
    | dsimp only
    | split
    | refine State.FollowsO.of ?_ (by assumption)
    | refine State.Follows.of2 ?_ (by assumption)
    | with_reducible first | refine State.Follows.make ?_ rfl rfl rfl rfl | refine State.Follows.draw ?_ rfl rfl rfl rfl

@[simp] theorem State.relaunch_follows {s0 s : State} {a0 a1} (h : s0.Follows s) :
    s0.Follows (State.relaunch s a0 a1) := by
  unfold State.relaunch; dsimp only; (repeat' split) <;> simp (maxDischargeDepth := 30) +contextual [h]

@[simp] theorem State.scrubDone_follows {s0 s : State} {a0 a1} (h : s0.Follows s) :
    s0.Follows (State.scrubDone s a0 a1) := by
  simp (maxDischargeDepth := 30) [State.scrubDone, h]

@[simp] theorem execEngineScrubDone_follows {s0 s : State} {a0 a1} (h : s0.Follows s) :
    s0.FollowsR (execEngineScrubDone a0 a1 s) := by
  simp [execEngineScrubDone, h]

@[simp] theorem State.katDone_follows {s0 s : State} {a0 a1} (h : s0.Follows s) :
    s0.Follows (State.katDone s a0 a1) := by
  simp (maxDischargeDepth := 30) [State.katDone, h]

@[simp] theorem execKatStreamDone_follows {s0 s : State} {a0 a1} (h : s0.Follows s) :
    s0.FollowsR (execKatStreamDone a0 a1 s) := by
  simp [execKatStreamDone, h]

@[simp] theorem State.broadcastTo_follows {s0 s : State} {a0 a1 a2} (h : s0.Follows s) :
    s0.Follows (State.broadcastTo s a0 a1 a2) := by
  simp (maxDischargeDepth := 30) [State.broadcastTo, h]

@[simp] theorem execProgramBroadcast_follows {s0 s : State} {a0 a1 a2} (h : s0.Follows s) :
    s0.FollowsR (execProgramBroadcast a0 a1 a2 s) := by
  exact State.FollowsR.go (State.stWake_follows (State.Follows.foldl (State.extend_follows h)
    fun _ _ hu => State.Follows.ite (State.broadcastTo_follows hu) hu))

@[simp] theorem execDieSleep_follows {s0 s : State} {a0} (h : s0.Follows s) :
    s0.FollowsR (execDieSleep a0 s) := by
  simp (maxDischargeDepth := 30) [execDieSleep, h]

@[simp] theorem execWakeTokenReturn_follows {s0 s : State} (h : s0.Follows s) :
    s0.FollowsR (execWakeTokenReturn s) := by
  simp [execWakeTokenReturn, h]

@[simp] theorem execDieAwake_follows {s0 s : State} {a0} (h : s0.Follows s) :
    s0.FollowsR (execDieAwake a0 s) := by
  simp (maxDischargeDepth := 30) [execDieAwake, h]

end Sys2Proof.Machine
end

