-- ==== Sys2Proof/Laws/FollowsPackage.lean ====
section
/-! SUPPORT. One lemma per operation: the state it answers follows the one it is given (the instructions that end, security, the pair, resets, bring-up, power, the controller). -/

namespace Sys2Proof.Machine

theorem JRec.wf_applyAll (rs : List JRec) {k : Core} (h : Mem.wf k.dstore = true) : Mem.wf (rs.foldl JRec.apply k).dstore = true := by
  induction rs generalizing k with
  | nil => exact h
  | cons r rs ih => exact ih (JRec.wf_apply r h)

theorem foldl_keeps {α β : Type} (P : β → Prop) {f : β → α → β} {b : β} {l : List α} (h : P b) (hf : ∀ b a, P b → P (f b a)) :
    P (l.foldl f b) := by
  induction l generalizing b with
  | nil => exact h
  | cons a l ih => exact ih (hf b a h)

@[simp] theorem State.orFault_follows {s0 s : State} {a0 a1} {a2 : State → State} (h : s0.Follows s) (ha2 : ∀ u, s0.Follows u → s0.Follows (a2 u)) :
    s0.Follows (State.orFault s a0 a1 a2) := by
  simp [State.orFault, h, ha2]

@[simp] theorem State.uciCtx_follows {s0 s : State} {a0 a1 a2} (h : s0.Follows s) :
    s0.Follows (State.uciCtx s a0 a1 a2) := by
  unfold State.uciCtx
  repeat' first
    | with_reducible first | assumption | apply State.uci_follows | apply State.modCtx_follows | apply State.FollowsR.go | apply State.Follows.ite | apply State.Follows.foldl | apply State.FollowsL.ok | apply State.FollowsL.hold | apply State.FollowsL.fault | apply State.FollowsL.ite | apply State.FollowsL.bind | intro _

@[simp] theorem execUciBr_follows {s0 s : State} {a0} (h : s0.Follows s) :
    s0.FollowsR (execUciBr a0 s) := by
  unfold execUciBr
  repeat' first
    | with_reducible first | assumption | apply State.uci_follows | apply State.orFault_follows | apply State.modCtx_follows | apply State.FollowsR.go | apply State.Follows.ite | apply State.Follows.foldl | apply State.FollowsL.ok | apply State.FollowsL.hold | apply State.FollowsL.fault | apply State.FollowsL.ite | apply State.FollowsL.bind | intro _

@[simp] theorem execUciCall_follows {s0 s : State} {a0} (h : s0.Follows s) :
    s0.FollowsR (execUciCall a0 s) := by
  unfold execUciCall
  repeat' first
    | with_reducible first | assumption | apply State.uci_follows | apply State.orFault_follows | apply State.modCtx_follows | apply State.FollowsR.go | apply State.Follows.ite | apply State.Follows.foldl | apply State.FollowsL.ok | apply State.FollowsL.hold | apply State.FollowsL.fault | apply State.FollowsL.ite | apply State.FollowsL.bind | intro _

@[simp] theorem execUciRet_follows {s0 s : State} {a0} (h : s0.Follows s) :
    s0.FollowsR (execUciRet a0 s) := by
  unfold execUciRet
  repeat' first
    | with_reducible first | assumption | apply State.uci_follows | apply State.orFault_follows | apply State.modCtx_follows | apply State.FollowsR.go | apply State.Follows.ite | apply State.Follows.foldl | apply State.FollowsL.ok | apply State.FollowsL.hold | apply State.FollowsL.fault | apply State.FollowsL.ite | apply State.FollowsL.bind | intro _

@[simp] theorem State.waitt_follows {s0 s : State} {a0 a1} (h : s0.Follows s) :
    s0.Follows (State.waitt s a0 a1) := by
  simp [State.waitt, h]

@[simp] theorem execUciWaitt_follows {s0 s : State} {a0} (h : s0.Follows s) :
    s0.FollowsR (execUciWaitt a0 s) := by
  unfold execUciWaitt
  repeat' first
    | with_reducible first | assumption | apply State.uci_follows | apply State.waitt_follows | apply State.FollowsR.go | apply State.Follows.ite | apply State.Follows.foldl | apply State.FollowsL.ok | apply State.FollowsL.hold | apply State.FollowsL.fault | apply State.FollowsL.ite | apply State.FollowsL.bind | intro _

@[simp] theorem State.sigt_follows {s0 s : State} {a0 a1} (h : s0.Follows s) :
    s0.Follows (State.sigt s a0 a1) := by
  unfold State.sigt
  repeat' first
    | with_reducible first | assumption | apply State.tallyAdd_follows | apply State.wakeTally_follows | apply State.endShort_follows | apply State.tallyFault_follows | apply State.FollowsR.go | apply State.Follows.ite | apply State.Follows.foldl | apply State.FollowsL.ok | apply State.FollowsL.hold | apply State.FollowsL.fault | apply State.FollowsL.ite | apply State.FollowsL.bind | apply State.FollowsO.none | apply State.FollowsO.some | apply State.FollowsO.ite | apply State.FollowsO.getD | intro _
    | dsimp only
    | split
    | refine State.FollowsO.of ?_ (by assumption)

@[simp] theorem execUciSigt_follows {s0 s : State} {a0} (h : s0.Follows s) :
    s0.FollowsR (execUciSigt a0 s) := by
  unfold execUciSigt
  repeat' first
    | with_reducible first | assumption | apply State.uci_follows | apply State.sigt_follows | apply State.FollowsR.go | apply State.Follows.ite | apply State.Follows.foldl | apply State.FollowsL.ok | apply State.FollowsL.hold | apply State.FollowsL.fault | apply State.FollowsL.ite | apply State.FollowsL.bind | intro _

@[simp] theorem execUciYield_follows {s0 s : State} {a0} (h : s0.Follows s) :
    s0.FollowsR (execUciYield a0 s) := by
  simp (maxDischargeDepth := 30) +contextual [execUciYield, h]

@[simp] theorem execUciHalt_follows {s0 s : State} {a0} (h : s0.Follows s) :
    s0.FollowsR (execUciHalt a0 s) := by
  unfold execUciHalt
  repeat' first
    | with_reducible first | assumption | apply State.uci_follows | apply State.halt_follows | apply State.FollowsR.go | apply State.Follows.ite | apply State.Follows.foldl | apply State.FollowsL.ok | apply State.FollowsL.hold | apply State.FollowsL.fault | apply State.FollowsL.ite | apply State.FollowsL.bind | intro _

@[simp] theorem execUciNop_follows {s0 s : State} {a0} (h : s0.Follows s) :
    s0.FollowsR (execUciNop a0 s) := by
  unfold execUciNop
  repeat' first
    | with_reducible first | assumption | apply State.uci_follows | apply State.stepPc_follows | apply State.FollowsR.go | apply State.Follows.ite | apply State.Follows.foldl | apply State.FollowsL.ok | apply State.FollowsL.hold | apply State.FollowsL.fault | apply State.FollowsL.ite | apply State.FollowsL.bind | intro _

@[simp] theorem execUciMovi_follows {s0 s : State} {a0} (h : s0.Follows s) :
    s0.FollowsR (execUciMovi a0 s) := by
  simp [execUciMovi, h]

@[simp] theorem State.uciAlu_follows {s0 s : State} {a0 a1 a2} (h : s0.Follows s) :
    s0.Follows (State.uciAlu s a0 a1 a2) := by
  simp [State.uciAlu, h]

@[simp] theorem execUciAdd_follows {s0 s : State} {a0} (h : s0.Follows s) :
    s0.FollowsR (execUciAdd a0 s) := by
  simp [execUciAdd, h]

@[simp] theorem execUciAddi_follows {s0 s : State} {a0} (h : s0.Follows s) :
    s0.FollowsR (execUciAddi a0 s) := by
  simp [execUciAddi, h]

@[simp] theorem execUciSub_follows {s0 s : State} {a0} (h : s0.Follows s) :
    s0.FollowsR (execUciSub a0 s) := by
  simp [execUciSub, h]

@[simp] theorem execUciAnd_follows {s0 s : State} {a0} (h : s0.Follows s) :
    s0.FollowsR (execUciAnd a0 s) := by
  simp [execUciAnd, h]

@[simp] theorem execUciOr_follows {s0 s : State} {a0} (h : s0.Follows s) :
    s0.FollowsR (execUciOr a0 s) := by
  simp [execUciOr, h]

@[simp] theorem execUciXor_follows {s0 s : State} {a0} (h : s0.Follows s) :
    s0.FollowsR (execUciXor a0 s) := by
  simp [execUciXor, h]

@[simp] theorem execUciShl_follows {s0 s : State} {a0} (h : s0.Follows s) :
    s0.FollowsR (execUciShl a0 s) := by
  simp [execUciShl, h]

@[simp] theorem execUciShr_follows {s0 s : State} {a0} (h : s0.Follows s) :
    s0.FollowsR (execUciShr a0 s) := by
  simp [execUciShr, h]

@[simp] theorem execUciCmp_follows {s0 s : State} {a0} (h : s0.Follows s) :
    s0.FollowsR (execUciCmp a0 s) := by
  simp [execUciCmp, h]

@[simp] theorem execUciCmpi_follows {s0 s : State} {a0} (h : s0.Follows s) :
    s0.FollowsR (execUciCmpi a0 s) := by
  simp [execUciCmpi, h]

@[simp] theorem execUciLd_follows {s0 s : State} {a0} (h : s0.Follows s) :
    s0.FollowsR (execUciLd a0 s) := by
  unfold execUciLd
  repeat' first
    | with_reducible first | assumption | apply State.uci_follows | apply State.orFault_follows | apply State.modCtx_follows | apply State.FollowsR.go | apply State.Follows.ite | apply State.Follows.foldl | apply State.FollowsL.ok | apply State.FollowsL.hold | apply State.FollowsL.fault | apply State.FollowsL.ite | apply State.FollowsL.bind | intro _

@[simp] theorem execUciSt_follows {s0 s : State} {a0} (h : s0.Follows s) :
    s0.FollowsR (execUciSt a0 s) := by
  unfold execUciSt
  repeat' first
    | with_reducible first | assumption | apply State.uci_follows | apply State.orFault_follows | apply State.journalCtx_follows | apply State.stepPc_follows | apply State.dsWrite_follows | apply State.FollowsR.go | apply State.Follows.ite | apply State.Follows.foldl | apply State.FollowsL.ok | apply State.FollowsL.hold | apply State.FollowsL.fault | apply State.FollowsL.ite | apply State.FollowsL.bind | intro _

@[simp] theorem State.copyUnits_follows {s0 s : State} {a0 a1 a2 a3} (h : s0.Follows s) :
    s0.Follows (State.copyUnits s a0 a1 a2 a3) := by
  simp [State.copyUnits, h]

@[simp] theorem State.copy_follows {s0 s : State} {a0 a1} (h : s0.Follows s) :
    s0.Follows (State.copy s a0 a1) := by
  simp (maxDischargeDepth := 30) [State.copy, h]

@[simp] theorem execUciCopy_follows {s0 s : State} {a0} (h : s0.Follows s) :
    s0.FollowsR (execUciCopy a0 s) := by
  unfold execUciCopy
  repeat' first
    | with_reducible first | assumption | apply State.uci_follows | apply State.orFault_follows | apply State.copy_follows | apply State.FollowsR.go | apply State.Follows.ite | apply State.Follows.foldl | apply State.FollowsL.ok | apply State.FollowsL.hold | apply State.FollowsL.fault | apply State.FollowsL.ite | apply State.FollowsL.bind | intro _

@[simp] theorem execUciRds_follows {s0 s : State} {a0} (h : s0.Follows s) :
    s0.FollowsR (execUciRds a0 s) := by
  simp (maxDischargeDepth := 30) +contextual [execUciRds, h]

@[simp] theorem State.putSpecial_follows {s0 s : State} {a0 a1 a2} (h : s0.Follows s) :
    s0.Follows (State.putSpecial s a0 a1 a2) := by
  unfold State.putSpecial
  repeat' first
    | with_reducible first | assumption | apply State.modCtx_follows | apply State.FollowsR.go | apply State.Follows.ite | apply State.Follows.foldl | apply State.FollowsL.ok | apply State.FollowsL.hold | apply State.FollowsL.fault | apply State.FollowsL.ite | apply State.FollowsL.bind | intro _
    | dsimp only
    | split
    | refine State.FollowsO.of ?_ (by assumption)
    | refine State.FollowsL.of ?_ (by assumption)
    | refine State.Follows.of2 ?_ (by assumption)
    | with_reducible first | refine State.Follows.make ?_ rfl rfl rfl rfl

@[simp] theorem execUciWrs_follows {s0 s : State} {a0} (h : s0.Follows s) :
    s0.FollowsR (execUciWrs a0 s) := by
  unfold execUciWrs
  repeat' first
    | with_reducible first | assumption | apply State.uci_follows | apply State.stepPc_follows | apply State.putSpecial_follows | apply State.ignore_follows | apply State.FollowsR.go | apply State.Follows.ite | apply State.Follows.foldl | apply State.FollowsL.ok | apply State.FollowsL.hold | apply State.FollowsL.fault | apply State.FollowsL.ite | apply State.FollowsL.bind | intro _

@[simp] theorem execIllegalInstruction_follows {s0 s : State} {a0} (h : s0.Follows s) :
    s0.FollowsR (execIllegalInstruction a0 s) := by
  simp (maxDischargeDepth := 30) [execIllegalInstruction, h]

@[simp] theorem State.stopHeart_follows {s0 s : State} (h : s0.Follows s) :
    s0.Follows (State.stopHeart s) := by
  simp [State.stopHeart, h]

@[simp] theorem execContextFault_follows {s0 s : State} {a0 a1} (h : s0.Follows s) :
    s0.FollowsR (execContextFault a0 a1 s) := by
  simp (maxDischargeDepth := 30) [execContextFault, h]

@[simp] theorem execCtimerExpire_follows {s0 s : State} {a0} (h : s0.Follows s) :
    s0.FollowsR (execCtimerExpire a0 s) := by
  simp [execCtimerExpire, h]

@[simp] theorem execCmdIssue_follows {s0 s : State} {a0 a1} (h : s0.Follows s) :
    s0.FollowsR (execCmdIssue a0 a1 s) := by
  simp [execCmdIssue, h]

@[simp] theorem State.mbxRetry_follows {s0 s : State} {a0} (h : s0.Follows s) :
    s0.Follows (State.mbxRetry s a0) := by
  unfold State.mbxRetry
  repeat' first
    | with_reducible first | assumption | apply State.mbxWake_follows | apply State.FollowsR.go | apply State.Follows.ite | apply State.Follows.foldl | apply State.FollowsL.ok | apply State.FollowsL.hold | apply State.FollowsL.fault | apply State.FollowsL.ite | apply State.FollowsL.bind | intro _
    | dsimp only
    | split

@[simp] theorem execCmdResend_follows {s0 s : State} {a0 a1} (h : s0.Follows s) :
    s0.FollowsR (execCmdResend a0 a1 s) := by
  simp (maxDischargeDepth := 30) [execCmdResend, h]

@[simp] theorem execCmdResponse_follows {s0 s : State} {a0} (h : s0.Follows s) :
    s0.FollowsR (execCmdResponse a0 s) := by
  simp [execCmdResponse, h]

@[simp] theorem State.timeOut_follows {s0 s : State} {a0 a1} (h : s0.Follows s) :
    s0.Follows (State.timeOut s a0 a1) := by
  unfold State.timeOut; dsimp only; (repeat' split) <;> simp (maxDischargeDepth := 30) +contextual [h]

@[simp] theorem execInsnTimeout_follows {s0 s : State} {a0} (h : s0.Follows s) :
    s0.FollowsR (execInsnTimeout a0 s) := by
  unfold execInsnTimeout
  repeat' first
    | with_reducible first | assumption | apply State.timeOut_follows | apply State.FollowsR.go | apply State.Follows.ite | apply State.Follows.foldl | apply State.FollowsL.ok | apply State.FollowsL.hold | apply State.FollowsL.fault | apply State.FollowsL.ite | apply State.FollowsL.bind | intro _
    | dsimp only
    | split

@[simp] theorem execDrainLimitExpire_follows {s0 s : State} {a0} (h : s0.Follows s) :
    s0.FollowsR (execDrainLimitExpire a0 s) := by
  unfold execDrainLimitExpire
  repeat' first
    | with_reducible first | assumption | apply State.endTargets_follows | apply State.FollowsR.go | apply State.Follows.ite | apply State.Follows.foldl | apply State.FollowsL.ok | apply State.FollowsL.hold | apply State.FollowsL.fault | apply State.FollowsL.ite | apply State.FollowsL.bind | intro _
    | dsimp only
    | split

@[simp] theorem execRestartTokenRefill_follows {s0 s : State} {a0} (h : s0.Follows s) :
    s0.FollowsR (execRestartTokenRefill a0 s) := by
  simp [execRestartTokenRefill, h]

@[simp] theorem State.sendHeld_follows {s0 s : State} {a0} (h : s0.Follows s) :
    s0.Follows (State.sendHeld s a0) := by
  unfold State.sendHeld
  repeat' first
    | with_reducible first | assumption | apply State.setFold_follows | apply State.issueNow_follows | apply State.takeToken_follows | apply State.FollowsR.go | apply State.Follows.ite | apply State.Follows.foldl | apply State.FollowsL.ok | apply State.FollowsL.hold | apply State.FollowsL.fault | apply State.FollowsL.ite | apply State.FollowsL.bind | intro _
    | dsimp only
    | split

@[simp] theorem execPresetHeldSend_follows {s0 s : State} {a0} (h : s0.Follows s) :
    s0.FollowsR (execPresetHeldSend a0 s) := by
  simp [execPresetHeldSend, h]

@[simp] theorem State.wBudget_follows {s0 s : State} {a0 a1} (h : s0.Follows s) :
    s0.FollowsO (State.wBudget s a0 a1) := by
  simp (maxDischargeDepth := 30) [State.wBudget, h]

@[simp] theorem execBudgetWrite_follows {s0 s : State} {a0 a1 a2} (h : s0.Follows s) :
    s0.FollowsR (execBudgetWrite a0 a1 a2 s) := by
  unfold execBudgetWrite
  repeat' first
    | with_reducible first | assumption | apply State.ownerWrite_follows | apply State.wBudget_follows | apply State.FollowsR.go | apply State.Follows.ite | apply State.Follows.foldl | apply State.FollowsL.ok | apply State.FollowsL.hold | apply State.FollowsL.fault | apply State.FollowsL.ite | apply State.FollowsL.bind | apply State.FollowsO.none | apply State.FollowsO.some | apply State.FollowsO.ite | apply State.FollowsO.getD | intro _

@[simp] theorem State.foldPartition_follows {s0 s : State} {a0 a1 a2} (h : s0.Follows s) :
    s0.Follows (State.foldPartition s a0 a1 a2) := by
  simp (maxDischargeDepth := 30) [State.foldPartition, h]

@[simp] theorem State.foldAccel_follows {s0 s : State} {a0 a1 a2} (h : s0.Follows s) :
    s0.Follows (State.foldAccel s a0 a1 a2) := by
  simp (maxDischargeDepth := 30) [State.foldAccel, h]

@[simp] theorem State.foldAndCheck_follows {s0 s : State} {a0 a1 a2} (h : s0.Follows s) :
    s0.Follows (State.foldAndCheck s a0 a1 a2) := by
  simp (maxDischargeDepth := 30) [State.foldAndCheck, h]

@[simp] theorem State.foldReset_follows {s0 s : State} {a0 a1} (h : s0.Follows s) :
    s0.Follows (State.foldReset s a0 a1) := by
  unfold State.foldReset
  repeat' first
    | with_reducible first | assumption | apply State.addReset_follows | apply State.stream_follows | apply State.modFoldPart_follows | apply State.FollowsR.go | apply State.Follows.ite

@[simp] theorem State.foldAct_follows {s0 s : State} {a0 a1 a2} (h : s0.Follows s) :
    s0.Follows (State.foldAct s a0 a1 a2) := by
  unfold State.foldAct
  repeat' first
    | with_reducible first | assumption | apply State.foldReset_follows | apply State.foldAccel_follows | apply State.foldAndCheck_follows | apply State.FollowsR.go | apply State.Follows.ite | apply State.Follows.foldl | apply State.FollowsL.ok | apply State.FollowsL.hold | apply State.FollowsL.fault | apply State.FollowsL.ite | apply State.FollowsL.bind | intro _
    | dsimp only
    | split

@[simp] theorem State.partEvent_follows {s0 s : State} {a0 a1 a2} (h : s0.Follows s) :
    s0.Follows (State.partEvent s a0 a1 a2) := by
  simp [State.partEvent, h]

@[simp] theorem execPartNotice_follows {s0 s : State} (h : s0.Follows s) :
    s0.FollowsR (execPartNotice s) := by
  unfold execPartNotice
  repeat' first
    | with_reducible first | assumption | apply State.setFold_follows | apply State.foldAct_follows | apply State.partEvent_follows | apply State.partInsn_follows | apply State.FollowsR.go | apply State.Follows.ite | apply State.Follows.foldl | apply State.FollowsL.ok | apply State.FollowsL.hold | apply State.FollowsL.fault | apply State.FollowsL.ite | apply State.FollowsL.bind | intro _
    | dsimp only
    | split

@[simp] theorem execReturningUnbind_follows {s0 s : State} {a0} (h : s0.Follows s) :
    s0.FollowsR (execReturningUnbind a0 s) := by
  simp (maxDischargeDepth := 30) [execReturningUnbind, h]

@[simp] theorem State.setVbat_follows {s0 s : State} {a0} (h : s0.Follows s) :
    s0.Follows (State.setVbat s a0) := by
  simp [State.setVbat, h]

@[simp] theorem State.setAsy_follows {s0 s : State} {a0} (h : s0.Follows s) :
    s0.Follows (State.setAsy s a0) := by
  simp [State.setAsy, h]

@[simp] theorem State.bumpMono_follows {s0 s : State} {a0} (h : s0.Follows s) :
    s0.Follows (State.bumpMono s a0) := by
  simp [State.bumpMono, h]

@[simp] theorem State.vlogFree_follows {s0 s : State} {a0} (h : s0.Follows s) :
    s0.Follows (State.vlogFree s a0) := by
  simp [State.vlogFree, h]

@[simp] theorem State.draw_follows {s0 s : State} {a0} (h : s0.Follows s) :
    s0.Follows (State.draw s a0).2 := by
  simp [State.draw, h]

@[simp] theorem State.newRelease_follows {s0 s : State} (h : s0.Follows s) :
    s0.Follows (State.newRelease s).2 := by
  simp [State.newRelease, h]

@[simp] theorem State.attestOwn_follows {s0 s : State} {a0 a1} (h : s0.Follows s) :
    s0.Follows (State.attestOwn s a0 a1) := by
  simp (maxDischargeDepth := 30) [State.attestOwn, h]

@[simp] theorem State.setSpdm_follows {s0 s : State} {a0 a1} (h : s0.Follows s) :
    s0.Follows (State.setSpdm s a0 a1) := by
  simp [State.setSpdm, h]

@[simp] theorem State.secSend_follows {s0 s : State} {a0 a1} (h : s0.Follows s) :
    s0.Follows (State.secSend s a0 a1) := by
  unfold State.secSend
  repeat' first
    | with_reducible first | assumption | apply State.setSpdm_follows | apply State.devSteps_follows | apply State.FollowsR.go | apply State.Follows.ite | apply State.Follows.foldl | apply State.FollowsL.ok | apply State.FollowsL.hold | apply State.FollowsL.fault | apply State.FollowsL.ite | apply State.FollowsL.bind | intro _
    | dsimp only
    | split
    | refine State.FollowsO.of ?_ (by assumption)
    | refine State.FollowsL.of ?_ (by assumption)
    | refine State.Follows.of2 ?_ (by assumption)
    | with_reducible first | refine State.Follows.make ?_ rfl rfl rfl rfl | refine State.Follows.draw ?_ rfl rfl rfl rfl

@[simp] theorem State.tryAttest_follows {s0 s : State} {a0 a1} (h : s0.Follows s) :
    s0.Follows (State.tryAttest s a0 a1) := by
  unfold State.tryAttest
  repeat' first
    | with_reducible first | assumption | apply State.secSend_follows | apply State.setSpdm_follows | apply State.putRun_follows | apply State.FollowsR.go | apply State.Follows.ite | apply State.Follows.foldl | apply State.FollowsL.ok | apply State.FollowsL.hold | apply State.FollowsL.fault | apply State.FollowsL.ite | apply State.FollowsL.bind | intro _
    | dsimp only
    | split

@[simp] theorem State.attestWake_follows {s0 s : State} (h : s0.Follows s) :
    s0.Follows (State.attestWake s) := by
  exact State.Follows.foldl h fun _ _ hu => State.Follows.ite (State.tryAttest_follows hu) hu

@[simp] theorem State.issueAttest_follows {s0 s : State} {a0 a1} (h : s0.Follows s) :
    s0.Follows (State.issueAttest s a0 a1) := by
  unfold State.issueAttest
  repeat' first
    | with_reducible first | assumption | apply State.inStore_follows | apply State.attestOwn_follows | apply State.waitJ_follows | apply State.tryAttest_follows | apply State.FollowsR.go | apply State.Follows.ite | apply State.Follows.foldl | apply State.FollowsL.ok | apply State.FollowsL.hold | apply State.FollowsL.fault | apply State.FollowsL.ite | apply State.FollowsL.bind | intro _

@[simp] theorem execUciAttest_follows {s0 s : State} {a0} (h : s0.Follows s) :
    s0.FollowsR (execUciAttest a0 s) := by
  unfold execUciAttest
  repeat' first
    | with_reducible first | assumption | apply State.uci_follows | apply State.issueAttest_follows | apply State.FollowsR.go | apply State.Follows.ite | apply State.Follows.foldl | apply State.FollowsL.ok | apply State.FollowsL.hold | apply State.FollowsL.fault | apply State.FollowsL.ite | apply State.FollowsL.bind | intro _

@[simp] theorem State.attestEnd_follows {s0 s : State} {a0 a1 a2 a3 a4} (h : s0.Follows s) :
    s0.Follows (State.attestEnd s a0 a1 a2 a3 a4) := by
  unfold State.attestEnd
  repeat' first
    | with_reducible first | assumption | apply State.setSpdm_follows | apply State.dsWrite_follows | apply State.attestWake_follows | apply State.succeed_follows | apply State.abort_follows | apply State.FollowsR.go | apply State.Follows.ite | apply State.Follows.foldl | apply State.FollowsL.ok | apply State.FollowsL.hold | apply State.FollowsL.fault | apply State.FollowsL.ite | apply State.FollowsL.bind | intro _
    | dsimp only
    | split

@[simp] theorem State.secNotice_follows {s0 s : State} {a0} (h : s0.Follows s) :
    s0.Follows (State.secNotice s a0) := by
  unfold State.secNotice
  repeat' first
    | with_reducible first | assumption | apply State.setSpdm_follows | apply State.secSend_follows | apply State.attestEnd_follows | apply State.FollowsR.go | apply State.Follows.ite | apply State.Follows.foldl | apply State.FollowsL.ok | apply State.FollowsL.hold | apply State.FollowsL.fault | apply State.FollowsL.ite | apply State.FollowsL.bind | intro _
    | dsimp only
    | split
    | refine State.FollowsO.of ?_ (by assumption)
    | refine State.FollowsL.of ?_ (by assumption)
    | refine State.Follows.of2 ?_ (by assumption)
    | with_reducible first | refine State.Follows.make ?_ rfl rfl rfl rfl

@[simp] theorem execSpdmSessionTimeout_follows {s0 s : State} {a0} (h : s0.Follows s) :
    s0.FollowsR (execSpdmSessionTimeout a0 s) := by
  unfold execSpdmSessionTimeout
  repeat' first
    | with_reducible first | assumption | apply State.setSpdm_follows | apply State.attestWake_follows | apply State.putRun_follows | apply State.FollowsR.go | apply State.Follows.ite | apply State.Follows.foldl | apply State.FollowsL.ok | apply State.FollowsL.hold | apply State.FollowsL.fault | apply State.FollowsL.ite | apply State.FollowsL.bind | intro _
    | dsimp only
    | split

@[simp] theorem State.spdmAnswer_follows {s0 s : State} {a0} (h : s0.Follows s) :
    s0.Follows (State.spdmAnswer s a0) := by
  simp [State.spdmAnswer, h]

@[simp] theorem execSpdmRequest_follows {s0 s : State} {a0} (h : s0.Follows s) :
    s0.FollowsR (execSpdmRequest a0 s) := by
  simp [execSpdmRequest, h]

@[simp] theorem execSetCertificate_follows {s0 s : State} {a0} (h : s0.Follows s) :
    s0.FollowsR (execSetCertificate a0 s) := by
  simp (maxDischargeDepth := 30) [execSetCertificate, h]

@[simp] theorem State.wProvUnlock_follows {s0 s : State} {a0} (h : s0.Follows s) :
    s0.FollowsO (State.wProvUnlock s a0) := by
  simp (maxDischargeDepth := 30) [State.wProvUnlock, h]

@[simp] theorem execProvUnlock_follows {s0 s : State} {a0} (h : s0.Follows s) :
    s0.FollowsR (execProvUnlock a0 s) := by
  unfold execProvUnlock
  repeat' first
    | with_reducible first | assumption | apply State.ownerWrite_follows | apply State.wProvUnlock_follows | apply State.FollowsR.go | apply State.Follows.ite | apply State.Follows.foldl | apply State.FollowsL.ok | apply State.FollowsL.hold | apply State.FollowsL.fault | apply State.FollowsL.ite | apply State.FollowsL.bind | apply State.FollowsO.none | apply State.FollowsO.some | apply State.FollowsO.ite | apply State.FollowsO.getD | intro _

@[simp] theorem execProvUnlockExpire_follows {s0 s : State} (h : s0.Follows s) :
    s0.FollowsR (execProvUnlockExpire s) := by
  simp [execProvUnlockExpire, h]

@[simp] theorem State.wRollfwd_follows {s0 s : State} (h : s0.Follows s) :
    s0.FollowsO (State.wRollfwd s) := by
  simp (maxDischargeDepth := 30) [State.wRollfwd, h]

@[simp] theorem execRollfwd_follows {s0 s : State} {a0} (h : s0.Follows s) :
    s0.FollowsR (execRollfwd a0 s) := by
  unfold execRollfwd
  repeat' first
    | with_reducible first | assumption | apply State.ownerWrite_follows | apply State.wRollfwd_follows | apply State.FollowsR.go

@[simp] theorem State.wExtendGo_follows {s0 s : State} (h : s0.Follows s) :
    s0.FollowsO (State.wExtendGo s) := by
  simp [State.wExtendGo, h]

@[simp] theorem execExtendGo_follows {s0 s : State} {a0} (h : s0.Follows s) :
    s0.FollowsR (execExtendGo a0 s) := by
  unfold execExtendGo
  repeat' first
    | with_reducible first | assumption | apply State.ownerWrite_follows | apply State.wExtendGo_follows | apply State.FollowsR.go

@[simp] theorem execReleaseKeyExpire_follows {s0 s : State} {a0} (h : s0.Follows s) :
    s0.FollowsR (execReleaseKeyExpire a0 s) := by
  simp [execReleaseKeyExpire, h]

@[simp] theorem execMirrorRebuild_follows {s0 s : State} (h : s0.Follows s) :
    s0.FollowsR (execMirrorRebuild s) := by
  simp [execMirrorRebuild, h]

@[simp] theorem State.wSetGen_follows {s0 s : State} (h : s0.Follows s) :
    s0.FollowsO (State.wSetGen s) := by
  simp (maxDischargeDepth := 30) [State.wSetGen, h]

@[simp] theorem execSetGen_follows {s0 s : State} {a0} (h : s0.Follows s) :
    s0.FollowsR (execSetGen a0 s) := by
  unfold execSetGen
  repeat' first
    | with_reducible first | assumption | apply State.ownerWrite_follows | apply State.wSetGen_follows | apply State.FollowsR.go

@[simp] theorem State.wXferAllow_follows {s0 s : State} {a0} (h : s0.Follows s) :
    s0.FollowsO (State.wXferAllow s a0) := by
  simp (maxDischargeDepth := 30) [State.wXferAllow, h]

@[simp] theorem execXferAllow_follows {s0 s : State} {a0 a1} (h : s0.Follows s) :
    s0.FollowsR (execXferAllow a0 a1 s) := by
  unfold execXferAllow
  repeat' first
    | with_reducible first | assumption | apply State.ownerWrite_follows | apply State.wXferAllow_follows | apply State.FollowsR.go | apply State.Follows.ite | apply State.Follows.foldl | apply State.FollowsL.ok | apply State.FollowsL.hold | apply State.FollowsL.fault | apply State.FollowsL.ite | apply State.FollowsL.bind | apply State.FollowsO.none | apply State.FollowsO.some | apply State.FollowsO.ite | apply State.FollowsO.getD | intro _

@[simp] theorem State.peerNotice_follows {s0 s : State} {a0 a1} (h : s0.Follows s) :
    s0.Follows (State.peerNotice s a0 a1) := by
  unfold State.peerNotice
  repeat' first
    | with_reducible first | assumption | apply State.sendOn_follows | apply State.FollowsR.go | apply State.FollowsP.go | apply State.FollowsO.some | apply State.FollowsO.none | apply State.Follows.ite | apply State.FollowsO.ite | apply State.Follows.foldl | intro _
    | dsimp only
    | split
    | refine State.FollowsO.of ?_ (by assumption)
    | refine State.Follows.of2 ?_ (by assumption)
    | with_reducible first | refine State.Follows.make ?_ rfl rfl rfl rfl | refine State.Follows.draw ?_ rfl rfl rfl rfl

@[simp] theorem State.xferSend_follows {s0 s : State} {a0} (h : s0.Follows s) :
    s0.Follows (State.xferSend s a0) := by
  simp [State.xferSend, h]

@[simp] theorem State.wXferReq_follows {s0 s : State} {a0} (h : s0.Follows s) :
    s0.FollowsO (State.wXferReq s a0) := by
  simp (maxDischargeDepth := 30) [State.wXferReq, h]

@[simp] theorem State.xferNotice_follows {s0 s : State} {a0 a1} (h : s0.Follows s) :
    s0.Follows (State.xferNotice s a0 a1) := by
  unfold State.xferNotice
  repeat' first
    | with_reducible first | assumption | apply State.xferSend_follows | apply State.spdmAnswer_follows | apply State.emit_follows | apply State.FollowsR.go | apply State.FollowsP.go | apply State.FollowsO.some | apply State.FollowsO.none | apply State.Follows.ite | apply State.FollowsO.ite | apply State.Follows.foldl | intro _
    | dsimp only
    | split
    | refine State.FollowsO.of ?_ (by assumption)
    | refine State.Follows.of2 ?_ (by assumption)
    | with_reducible first | refine State.Follows.make ?_ rfl rfl rfl rfl | refine State.Follows.draw ?_ rfl rfl rfl rfl

@[simp] theorem execXferReq_follows {s0 s : State} {a0 a1} (h : s0.Follows s) :
    s0.FollowsR (execXferReq a0 a1 s) := by
  unfold execXferReq
  repeat' first
    | with_reducible first | assumption | apply State.ownerWrite_follows | apply State.wXferReq_follows | apply State.FollowsR.go | apply State.Follows.ite | apply State.Follows.foldl | apply State.FollowsL.ok | apply State.FollowsL.hold | apply State.FollowsL.fault | apply State.FollowsL.ite | apply State.FollowsL.bind | apply State.FollowsO.none | apply State.FollowsO.some | apply State.FollowsO.ite | apply State.FollowsO.getD | intro _

@[simp] theorem State.takeSetKey_follows {s0 s : State} {a0 a1 a2 a3} (h : s0.Follows s) :
    s0.Follows (State.takeSetKey s a0 a1 a2 a3) := by
  simp (maxDischargeDepth := 30) [State.takeSetKey, h]

@[simp] theorem execXferEnd_follows {s0 s : State} {a0} (h : s0.Follows s) :
    s0.FollowsR (execXferEnd a0 s) := by
  unfold execXferEnd
  repeat' first
    | with_reducible first | assumption | apply State.takeSetKey_follows | apply State.setAsy_follows | apply State.FollowsR.go | apply State.Follows.ite | apply State.Follows.foldl | apply State.FollowsL.ok | apply State.FollowsL.hold | apply State.FollowsL.fault | apply State.FollowsL.ite | apply State.FollowsL.bind | intro _
    | dsimp only
    | split

@[simp] theorem State.scrubAlloc_follows {s0 s : State} {a0 a1} (h : s0.Follows s) :
    s0.Follows (State.scrubAlloc s a0 a1) := by
  simp [State.scrubAlloc, h]

@[simp] theorem State.wGrant_follows {s0 s : State} {a0} (h : s0.Follows s) :
    s0.FollowsO (State.wGrant s a0) := by
  simp (maxDischargeDepth := 30) [State.wGrant, h]

@[simp] theorem execDepotGrant_follows {s0 s : State} {a0 a1} (h : s0.Follows s) :
    s0.FollowsR (execDepotGrant a0 a1 s) := by
  unfold execDepotGrant
  repeat' first
    | with_reducible first | assumption | apply State.ownerWrite_follows | apply State.wGrant_follows | apply State.FollowsR.go | apply State.Follows.ite | apply State.Follows.foldl | apply State.FollowsL.ok | apply State.FollowsL.hold | apply State.FollowsL.fault | apply State.FollowsL.ite | apply State.FollowsL.bind | apply State.FollowsO.none | apply State.FollowsO.some | apply State.FollowsO.ite | apply State.FollowsO.getD | intro _

@[simp] theorem State.wRelease_follows {s0 s : State} {a0} (h : s0.Follows s) :
    s0.FollowsO (State.wRelease s a0) := by
  simp (maxDischargeDepth := 30) [State.wRelease, h]

@[simp] theorem execDepotRelease_follows {s0 s : State} {a0 a1} (h : s0.Follows s) :
    s0.FollowsR (execDepotRelease a0 a1 s) := by
  unfold execDepotRelease
  repeat' first
    | with_reducible first | assumption | apply State.ownerWrite_follows | apply State.wRelease_follows | apply State.FollowsR.go | apply State.Follows.ite | apply State.Follows.foldl | apply State.FollowsL.ok | apply State.FollowsL.hold | apply State.FollowsL.fault | apply State.FollowsL.ite | apply State.FollowsL.bind | apply State.FollowsO.none | apply State.FollowsO.some | apply State.FollowsO.ite | apply State.FollowsO.getD | intro _

@[simp] theorem State.wAllocTenant_follows {s0 s : State} {a0 a1} (h : s0.Follows s) :
    s0.FollowsO (State.wAllocTenant s a0 a1) := by
  simp (maxDischargeDepth := 30) [State.wAllocTenant, h]

@[simp] theorem execDepotTenantWrite_follows {s0 s : State} {a0 a1 a2} (h : s0.Follows s) :
    s0.FollowsR (execDepotTenantWrite a0 a1 a2 s) := by
  unfold execDepotTenantWrite
  repeat' first
    | with_reducible first | assumption | apply State.ownerWrite_follows | apply State.wAllocTenant_follows | apply State.FollowsR.go | apply State.Follows.ite | apply State.Follows.foldl | apply State.FollowsL.ok | apply State.FollowsL.hold | apply State.FollowsL.fault | apply State.FollowsL.ite | apply State.FollowsL.bind | apply State.FollowsO.none | apply State.FollowsO.some | apply State.FollowsO.ite | apply State.FollowsO.getD | intro _

@[simp] theorem State.endDepotScrub_follows {s0 s : State} {a0} (h : s0.Follows s) :
    s0.Follows (State.endDepotScrub s a0) := by
  unfold State.endDepotScrub
  repeat' first
    | with_reducible first | assumption | apply State.succeed_follows | apply State.FollowsR.go | apply State.Follows.ite | apply State.Follows.foldl | apply State.FollowsL.ok | apply State.FollowsL.hold | apply State.FollowsL.fault | apply State.FollowsL.ite | apply State.FollowsL.bind | intro _
    | dsimp only
    | split

@[simp] theorem execDepotScrubDone_follows {s0 s : State} (h : s0.Follows s) :
    s0.FollowsR (execDepotScrubDone s) := by
  unfold execDepotScrubDone
  refine State.FollowsR.go ?_
  split
  · exact h
  · dsimp only
    refine State.endDepotScrub_follows ?_
    split
    · exact State.modAlloc_follows (h.memUpd rfl rfl rfl fun k => ⟨Mem.wf_filter _ k.1, k.2⟩)
    · exact h.memUpd rfl rfl rfl fun k => ⟨Mem.wf_filter _ k.1, k.2⟩

@[simp] theorem State.alarm_follows {s0 s : State} {a0 a1} (h : s0.Follows s) :
    s0.Follows (State.alarm s a0 a1) := by
  simp (maxDischargeDepth := 30) [State.alarm, h]

@[simp] theorem execTempAlarm_follows {s0 s : State} {a0} (h : s0.Follows s) :
    s0.FollowsR (execTempAlarm a0 s) := by
  simp [execTempAlarm, h]

@[simp] theorem execBattLost_follows {s0 s : State} (h : s0.Follows s) :
    s0.FollowsR (execBattLost s) := by
  unfold execBattLost
  repeat' first
    | with_reducible first | assumption | apply State.vlogFree_follows | apply State.setVbat_follows | apply State.keyWake_follows | apply State.startErase_follows | apply State.FollowsR.go | apply State.Follows.ite | apply State.Follows.foldl

@[simp] theorem State.wRtcSet_follows {s0 s : State} {a0} (h : s0.Follows s) :
    s0.FollowsO (State.wRtcSet s a0) := by
  simp (maxDischargeDepth := 30) [State.wRtcSet, h]

@[simp] theorem execRtcSet_follows {s0 s : State} {a0 a1} (h : s0.Follows s) :
    s0.FollowsR (execRtcSet a0 a1 s) := by
  unfold execRtcSet
  repeat' first
    | with_reducible first | assumption | apply State.ownerWrite_follows | apply State.wRtcSet_follows | apply State.FollowsR.go | apply State.Follows.ite | apply State.Follows.foldl | apply State.FollowsL.ok | apply State.FollowsL.hold | apply State.FollowsL.fault | apply State.FollowsL.ite | apply State.FollowsL.bind | apply State.FollowsO.none | apply State.FollowsO.some | apply State.FollowsO.ite | apply State.FollowsO.getD | intro _

@[simp] theorem State.wMonoInc_follows {s0 s : State} {a0} (h : s0.Follows s) :
    s0.FollowsO (State.wMonoInc s a0) := by
  exact State.FollowsO.ite (State.FollowsO.some (State.Follows.foldl h fun _ _ hu => State.Follows.ite (State.bumpMono_follows hu) hu))
    (State.FollowsO.none _)

@[simp] theorem execMonoInc_follows {s0 s : State} {a0 a1} (h : s0.Follows s) :
    s0.FollowsR (execMonoInc a0 a1 s) := by
  unfold execMonoInc
  repeat' first
    | with_reducible first | assumption | apply State.ownerWrite_follows | apply State.wMonoInc_follows | apply State.FollowsR.go | apply State.Follows.ite | apply State.Follows.foldl | apply State.FollowsL.ok | apply State.FollowsL.hold | apply State.FollowsL.fault | apply State.FollowsL.ite | apply State.FollowsL.bind | apply State.FollowsO.none | apply State.FollowsO.some | apply State.FollowsO.ite | apply State.FollowsO.getD | intro _

@[simp] theorem State.wHeldClear_follows {s0 s : State} (h : s0.Follows s) :
    s0.FollowsO (State.wHeldClear s) := by
  simp (maxDischargeDepth := 30) [State.wHeldClear, h]

@[simp] theorem execHeldClear_follows {s0 s : State} {a0} (h : s0.Follows s) :
    s0.FollowsR (execHeldClear a0 s) := by
  unfold execHeldClear
  repeat' first
    | with_reducible first | assumption | apply State.ownerWrite_follows | apply State.wHeldClear_follows | apply State.FollowsR.go

@[simp] theorem State.fabricFrame_follows {s0 s : State} {a0} (h : s0.Follows s) :
    s0.Follows (State.fabricFrame s a0) := by
  simp [State.fabricFrame, h]

@[simp] theorem State.pairOut_follows {s0 s : State} {a0 a1} (h : s0.Follows s) :
    s0.Follows (State.pairOut s a0 a1) := by
  simp [State.pairOut, h]

@[simp] theorem State.sendPair_follows {s0 s : State} {a0 a1} (h : s0.Follows s) :
    s0.Follows (State.sendPair s a0 a1) := by
  simp [State.sendPair, h]

@[simp] theorem State.failTakeover_follows {s0 s : State} (h : s0.Follows s) :
    s0.Follows (State.failTakeover s) := by
  unfold State.failTakeover
  exact State.setPair_follows ((State.faultBit_follows (State.sendPair_follows h)).memUpd rfl rfl rfl
    fun k => ⟨k.1, rfl, k.2.2⟩)

@[simp] theorem State.startTakeover_follows {s0 s : State} (h : s0.Follows s) :
    s0.Follows (State.startTakeover s) := by
  unfold State.startTakeover
  split
  · exact h
  · split
    · exact State.failTakeover_follows h
    · exact (State.setFold_follows h).memUpd rfl rfl rfl fun k => ⟨k.1, rfl, k.2.2⟩

@[simp] theorem State.handOver_follows {s0 s : State} (h : s0.Follows s) :
    s0.Follows (State.handOver s) := by
  simp [State.handOver, h]

@[simp] theorem execJournalApply_follows {s0 s : State} (h : s0.Follows s) :
    s0.FollowsR (execJournalApply s) := by
  refine State.FollowsR.go ?_
  split
  · exact h
  · exact State.handOver_follows (h.memUpd rfl rfl rfl fun k => ⟨k.1, k.2.1, JRec.wf_apply _ k.2.2.1, k.2.2.2⟩)

@[simp] theorem execHeartbeat_follows {s0 s : State} (h : s0.Follows s) :
    s0.FollowsR (execHeartbeat s) := by
  simp (maxDischargeDepth := 30) [execHeartbeat, h]

@[simp] theorem execHeartbeatMiss_follows {s0 s : State} (h : s0.Follows s) :
    s0.FollowsR (execHeartbeatMiss s) := by
  simp [execHeartbeatMiss, h]

@[simp] theorem State.redoLaunch_follows {s0 s : State} {a0 a1} (h : s0.Follows s) :
    s0.Follows (State.redoLaunch s a0 a1) := by
  simp (maxDischargeDepth := 30) [State.redoLaunch, h]

@[simp] theorem State.redoFab_follows {s0 s : State} {a0 a1} (h : s0.Follows s) :
    s0.Follows (State.redoFab s a0 a1) := by
  unfold State.redoFab
  repeat' first
    | with_reducible first | assumption | apply State.issueProbe_follows | apply State.issueTrain_follows | apply State.issueFence_follows | apply State.issueUnfence_follows | apply State.issueDrain_follows | apply State.issueInstall_follows | apply State.issueSwap_follows | apply State.issueArm_follows | apply State.issueCut_follows | apply State.issuePreset_follows | apply State.issueFold_follows | apply State.issueBind_follows | apply State.issueAdmit_follows | apply State.issueAcmd_follows | apply State.issueSnap_follows | apply State.issueDigest_follows | apply State.issueSeal_follows | apply State.issueDraincp_follows | apply State.FollowsR.go | apply State.Follows.ite | apply State.Follows.foldl | apply State.FollowsL.ok | apply State.FollowsL.hold | apply State.FollowsL.fault | apply State.FollowsL.ite | apply State.FollowsL.bind | intro _
    | dsimp only
    | split

@[simp] theorem State.redo_follows {s0 s : State} {a0 a1} (h : s0.Follows s) :
    s0.Follows (State.redo s a0 a1) := by
  unfold State.redo
  repeat' first
    | with_reducible first | assumption | apply State.waitt_follows | apply State.copy_follows | apply State.redoLaunch_follows | apply State.issueJoin_follows | apply State.issueRetire_follows | apply State.issueSettle_follows | apply State.issueMbx_follows | apply State.issueAttest_follows | apply State.issueKeyload_follows | apply State.issueKeyerase_follows | apply State.issueScrub_follows | apply State.issueWave_follows | apply State.redoFab_follows | apply State.FollowsR.go | apply State.Follows.ite | apply State.Follows.foldl | apply State.FollowsL.ok | apply State.FollowsL.hold | apply State.FollowsL.fault | apply State.FollowsL.ite | apply State.FollowsL.bind | intro _
    | dsimp only
    | split

@[simp] theorem State.redoAll_follows {s0 s : State} (h : s0.Follows s) :
    s0.Follows (State.redoAll s) := by
  unfold State.redoAll
  repeat' first
    | with_reducible first | assumption | apply State.redo_follows | apply State.FollowsR.go | apply State.Follows.ite | apply State.Follows.foldl | apply State.FollowsL.ok | apply State.FollowsL.hold | apply State.FollowsL.fault | apply State.FollowsL.ite | apply State.FollowsL.bind | intro _
    | dsimp only
    | split

@[simp] theorem State.swapAssayers_follows {s0 s : State} (h : s0.Follows s) :
    s0.Follows (State.swapAssayers s) := by
  simp [State.swapAssayers, h]

@[simp] theorem State.measureUpdate_follows {s0 s : State} (h : s0.Follows s) :
    s0.Follows (State.measureUpdate s) := by
  unfold State.measureUpdate
  split
  · exact State.extend_follows (by simp [h])
  · exact h

@[simp] theorem State.gapDone_follows {s0 s : State} (h : s0.Follows s) :
    s0.Follows (State.gapDone s) := by
  simp (maxDischargeDepth := 30) +contextual [State.gapDone, h]

@[simp] theorem State.measureUpdate_dealers (s : State) : s.measureUpdate.dealers = s.dealers := by
  unfold State.measureUpdate; split <;> rfl

@[simp] theorem State.finishTakeover_follows {s0 s : State} (h : s0.Follows s) :
    s0.Follows (State.finishTakeover s) := by
  refine State.post_follows (State.gapDone_follows (State.redoAll_follows (State.runDeferred_follows
    (State.applyGap_follows (State.swapAssayers_follows ?_)))))
  have hm := State.measureUpdate_follows h
  refine hm.memUpd rfl rfl rfl fun k => ?_
  simp only [State.MemOk, State.measureUpdate_dealers] at k
  exact ⟨k.1, JRec.wf_applyAll _ k.2.2.1, JRec.wf_applyAll _ k.2.2.1, k.2.2.2⟩

@[simp] theorem execStartCheckDone_follows {s0 s : State} {a0} (h : s0.Follows s) :
    s0.FollowsR (execStartCheckDone a0 s) := by
  simp (maxDischargeDepth := 30) [execStartCheckDone, h]

@[simp] theorem execTakeoverDeadline_follows {s0 s : State} (h : s0.Follows s) :
    s0.FollowsR (execTakeoverDeadline s) := by
  simp (maxDischargeDepth := 30) [execTakeoverDeadline, h]

@[simp] theorem execStandbyReloadDone_follows {s0 s : State} (h : s0.Follows s) :
    s0.FollowsR (execStandbyReloadDone s) := by
  refine State.FollowsR.go ?_
  split
  · exact h.memUpd rfl rfl rfl fun k => ⟨k.1, k.2.1, k.2.1, k.2.2.2⟩
  · exact h

@[simp] theorem State.bindPlan_follows {s0 s : State} {a0} (h : s0.Follows s) :
    s0.Follows (State.bindPlan s a0) := by
  simp [State.bindPlan, h]

@[simp] theorem State.redirect_follows {s0 s : State} {a0} (h : s0.Follows s) :
    s0.Follows (State.redirect s a0) := by
  unfold State.redirect
  repeat' first
    | with_reducible first | assumption | apply State.devCmd_follows | apply State.FollowsR.go | apply State.Follows.ite | apply State.Follows.foldl | apply State.FollowsL.ok | apply State.FollowsL.hold | apply State.FollowsL.fault | apply State.FollowsL.ite | apply State.FollowsL.bind | intro _
    | dsimp only
    | split

@[simp] theorem State.catchStamp_follows {s0 s : State} {a0 a1} (h : s0.Follows s) :
    s0.Follows (State.catchStamp s a0 a1) := by
  simp [State.catchStamp, h]

@[simp] theorem State.catchUp_follows {s0 s : State} (h : s0.Follows s) :
    s0.Follows (State.catchUp s) := by
  simp (maxDischargeDepth := 30) [State.catchUp, h]

@[simp] theorem State.takePod_follows {s0 s : State} {a0 a1} (h : s0.Follows s) :
    s0.Follows (State.takePod s a0 a1) := by
  unfold State.takePod
  repeat' first
    | with_reducible first | assumption | apply State.setPair_follows | apply State.redirect_follows | apply State.catchUp_follows | apply State.post_follows | apply State.FollowsR.go | apply State.Follows.ite | apply State.Follows.foldl | apply State.FollowsL.ok | apply State.FollowsL.hold | apply State.FollowsL.fault | apply State.FollowsL.ite | apply State.FollowsL.bind | intro _
    | dsimp only
    | split
    | refine State.FollowsO.of ?_ (by assumption)
    | refine State.FollowsL.of ?_ (by assumption)
    | refine State.Follows.of2 ?_ (by assumption)
    | with_reducible first | refine State.Follows.make ?_ rfl rfl rfl rfl

@[simp] theorem State.ackRenew_follows {s0 s : State} {a0 a1} (h : s0.Follows s) :
    s0.Follows (State.ackRenew s a0 a1) := by
  simp [State.ackRenew, h]

@[simp] theorem State.joinPair_follows {s0 s : State} {a0} (h : s0.Follows s) :
    s0.Follows (State.joinPair s a0) := by
  unfold State.joinPair
  repeat' first
    | with_reducible first | assumption | apply State.setPair_follows | apply State.FollowsR.go | apply State.Follows.ite | apply State.Follows.foldl | apply State.FollowsL.ok | apply State.FollowsL.hold | apply State.FollowsL.fault | apply State.FollowsL.ite | apply State.FollowsL.bind | intro _
    | dsimp only
    | split
    | refine State.FollowsO.of ?_ (by assumption)
    | refine State.FollowsL.of ?_ (by assumption)
    | refine State.Follows.of2 ?_ (by assumption)
    | with_reducible first | refine State.Follows.make ?_ rfl rfl rfl rfl

@[simp] theorem State.onRenew_follows {s0 s : State} {a0 a1} (h : s0.Follows s) :
    s0.Follows (State.onRenew s a0 a1) := by
  simp (maxDischargeDepth := 30) [State.onRenew, h]

@[simp] theorem execPairRenew_follows {s0 s : State} {a0 a1} (h : s0.Follows s) :
    s0.FollowsR (execPairRenew a0 a1 s) := by
  simp (maxDischargeDepth := 30) [execPairRenew, h]

@[simp] theorem State.onAck_follows {s0 s : State} {a0} (h : s0.Follows s) :
    s0.Follows (State.onAck s a0) := by
  simp [State.onAck, h]

@[simp] theorem execPairAck_follows {s0 s : State} {a0 a1} (h : s0.Follows s) :
    s0.FollowsR (execPairAck a0 a1 s) := by
  simp (maxDischargeDepth := 30) [execPairAck, h]

@[simp] theorem State.soloOn_follows {s0 s : State} {a0} (h : s0.Follows s) :
    s0.Follows (State.soloOn s a0) := by
  simp [State.soloOn, h]

@[simp] theorem State.peerGone_follows {s0 s : State} {a0} (h : s0.Follows s) :
    s0.Follows (State.peerGone s a0) := by
  simp (maxDischargeDepth := 30) [State.peerGone, h]

@[simp] theorem execPairYield_follows {s0 s : State} {a0 a1} (h : s0.Follows s) :
    s0.FollowsR (execPairYield a0 a1 s) := by
  simp (maxDischargeDepth := 30) [execPairYield, h]

@[simp] theorem execPairAbsent_follows {s0 s : State} {a0 a1} (h : s0.Follows s) :
    s0.FollowsR (execPairAbsent a0 a1 s) := by
  simp (maxDischargeDepth := 30) [execPairAbsent, h]

@[simp] theorem State.pairNotice_follows {s0 s : State} {a0} (h : s0.Follows s) :
    s0.Follows (State.pairNotice s a0) := by
  simp (maxDischargeDepth := 30) +contextual [State.pairNotice, h]

@[simp] theorem execRenewSend_follows {s0 s : State} (h : s0.Follows s) :
    s0.FollowsR (execRenewSend s) := by
  simp (maxDischargeDepth := 30) [execRenewSend, h]

@[simp] theorem State.fenceSelf_follows {s0 s : State} (h : s0.Follows s) :
    s0.Follows (State.fenceSelf s) := by
  unfold State.fenceSelf
  repeat' first
    | with_reducible first | assumption | apply State.setPair_follows | apply State.setReb_follows | apply State.post_follows | apply State.alertBit_follows | apply State.deposeAll_follows | apply State.FollowsR.go | apply State.Follows.ite | apply State.Follows.foldl | apply State.FollowsL.ok | apply State.FollowsL.hold | apply State.FollowsL.fault | apply State.FollowsL.ite | apply State.FollowsL.bind | intro _
    | dsimp only
    | split
    | refine State.FollowsO.of ?_ (by assumption)
    | refine State.FollowsL.of ?_ (by assumption)
    | refine State.Follows.of2 ?_ (by assumption)
    | with_reducible first | refine State.Follows.make ?_ rfl rfl rfl rfl

@[simp] theorem execActiveLeaseExpire_follows {s0 s : State} (h : s0.Follows s) :
    s0.FollowsR (execActiveLeaseExpire s) := by
  simp (maxDischargeDepth := 30) [execActiveLeaseExpire, h]

@[simp] theorem execStandbyLeaseExpire_follows {s0 s : State} (h : s0.Follows s) :
    s0.FollowsR (execStandbyLeaseExpire s) := by
  simp (maxDischargeDepth := 30) [execStandbyLeaseExpire, h]

@[simp] theorem execHeldAbsent_follows {s0 s : State} (h : s0.Follows s) :
    s0.FollowsR (execHeldAbsent s) := by
  simp (maxDischargeDepth := 30) [execHeldAbsent, h]

@[simp] theorem State.mirrorPend_follows {s0 s : State} {a0} (h : s0.Follows s) :
    s0.Follows (State.mirrorPend s a0) := by
  simp [State.mirrorPend, h]

@[simp] theorem State.mirrorTake_follows {s0 s : State} {a0} (h : s0.Follows s) :
    s0.Follows (State.mirrorTake s a0) := by
  unfold State.mirrorTake; dsimp only; (repeat' split) <;> simp (maxDischargeDepth := 30) +contextual [h]

@[simp] theorem State.mirrorPath_follows {s0 s : State} {a0 a1 a2 a3} (h : s0.Follows s) :
    s0.Follows (State.mirrorPath s a0 a1 a2 a3) := by
  simp [State.mirrorPath, h]

@[simp] theorem State.mirrorSettled_follows {s0 s : State} {a0 a1 a2} (h : s0.Follows s) :
    s0.Follows (State.mirrorSettled s a0 a1 a2) := by
  simp (maxDischargeDepth := 30) [State.mirrorSettled, h]

@[simp] theorem State.mirrorChange_follows {s0 s : State} {a0 a1 a2 a3} (h : s0.Follows s) :
    s0.Follows (State.mirrorChange s a0 a1 a2 a3) := by
  simp [State.mirrorChange, h]

@[simp] theorem State.mirrorFold_follows {s0 s : State} {a0 a1 a2 a3} (h : s0.Follows s) :
    s0.Follows (State.mirrorFold s a0 a1 a2 a3) := by
  unfold State.mirrorFold
  repeat' first
    | with_reducible first | assumption | apply State.modFoldPart_follows | apply State.modFoldAcc_follows | apply State.FollowsR.go | apply State.Follows.ite | apply State.Follows.foldl | apply State.FollowsL.ok | apply State.FollowsL.hold | apply State.FollowsL.fault | apply State.FollowsL.ite | apply State.FollowsL.bind | intro _
    | dsimp only
    | split

@[simp] theorem State.mirrorIn_follows {s0 s : State} {a0} (h : s0.Follows s) :
    s0.Follows (State.mirrorIn s a0) := by
  unfold State.mirrorIn; dsimp only; (repeat' split) <;> simp (maxDischargeDepth := 30) +contextual [h]

@[simp] theorem State.mirrorOut_follows {s0 s : State} (h : s0.Follows s) :
    s0.Follows (State.mirrorOut s) := by
  unfold State.mirrorOut
  repeat' first
    | with_reducible first | assumption | apply State.emit_follows | apply State.setPair_follows | apply State.FollowsR.go | apply State.Follows.ite | apply State.Follows.foldl | apply State.FollowsL.ok | apply State.FollowsL.hold | apply State.FollowsL.fault | apply State.FollowsL.ite | apply State.FollowsL.bind | intro _
    | dsimp only
    | split

@[simp] theorem State.changeAcked_follows {s0 s : State} {a0} (h : s0.Follows s) :
    s0.Follows (State.changeAcked s a0) := by
  simp [State.changeAcked, h]

@[simp] theorem execMirrorUpdate_follows {s0 s : State} {a0} (h : s0.Follows s) :
    s0.FollowsR (execMirrorUpdate a0 s) := by
  unfold execMirrorUpdate
  repeat' first
    | with_reducible first | assumption | apply State.changeAcked_follows | apply State.mirrorOut_follows | apply State.mirrorIn_follows | apply State.FollowsR.go | apply State.FollowsP.go | apply State.FollowsO.some | apply State.FollowsO.none | apply State.Follows.ite | apply State.FollowsO.ite | apply State.Follows.foldl | intro _
    | dsimp only
    | split
    | refine State.FollowsO.of ?_ (by assumption)
    | refine State.Follows.of2 ?_ (by assumption)
    | with_reducible first | refine State.Follows.make ?_ rfl rfl rfl rfl | refine State.Follows.draw ?_ rfl rfl rfl rfl

@[simp] theorem State.evqPush_follows {s0 s : State} {a0 a1} (h : s0.Follows s) :
    s0.Follows (State.evqPush s a0 a1) := by
  simp [State.evqPush, h]

@[simp] theorem State.playedNotice_follows {s0 s : State} {a0} (h : s0.Follows s) :
    s0.Follows (State.playedNotice s a0) := by
  unfold State.playedNotice
  repeat' first
    | with_reducible first | assumption | apply State.post_follows | apply State.setDeck_follows | apply State.FollowsR.go | apply State.Follows.ite | apply State.Follows.foldl | apply State.FollowsL.ok | apply State.FollowsL.hold | apply State.FollowsL.fault | apply State.FollowsL.ite | apply State.FollowsL.bind | intro _
    | dsimp only
    | split

@[simp] theorem State.unhandedNotice_follows {s0 s : State} {a0} (h : s0.Follows s) :
    s0.Follows (State.unhandedNotice s a0) := by
  simp (maxDischargeDepth := 30) [State.unhandedNotice, h]

@[simp] theorem State.learnUcode_follows {s0 s : State} {a0 a1} (h : s0.Follows s) :
    s0.Follows (State.learnUcode s a0 a1) := by
  simp [State.learnUcode, h]

@[simp] theorem State.gapNotice_follows {s0 s : State} {a0} (h : s0.Follows s) :
    s0.Follows (State.gapNotice s a0) := by
  simp [State.gapNotice, h]

@[simp] theorem State.noticeAct_follows {s0 s : State} {a0 a1} (h : s0.Follows s) :
    s0.Follows (State.noticeAct s a0 a1) := by
  unfold State.noticeAct
  repeat' first
    | with_reducible first | assumption | apply State.gapNotice_follows | apply State.learnUcode_follows | apply State.unhandedNotice_follows | apply State.playedNotice_follows | apply State.pairNotice_follows | apply State.xferNotice_follows | apply State.secNotice_follows | apply State.mbxNotice_follows | apply State.drainedNotice_follows | apply State.post_follows | apply State.ignore_follows | apply State.setFold_follows | apply State.FollowsR.go | apply State.FollowsP.go | apply State.FollowsO.some | apply State.FollowsO.none | apply State.Follows.ite | apply State.FollowsO.ite | apply State.Follows.foldl | intro _
    | dsimp only
    | split
    | refine State.FollowsO.of ?_ (by assumption)
    | refine State.Follows.of2 ?_ (by assumption)
    | with_reducible first | refine State.Follows.make ?_ rfl rfl rfl rfl | refine State.Follows.draw ?_ rfl rfl rfl rfl

@[simp] theorem State.pathNotice_follows {s0 s : State} {a0} (h : s0.Follows s) :
    s0.Follows (State.pathNotice s a0) := by
  simp (maxDischargeDepth := 30) +contextual [State.pathNotice, h]

@[simp] theorem execNoticeReceive_follows {s0 s : State} {a0} (h : s0.Follows s) :
    s0.FollowsR (execNoticeReceive a0 s) := by
  simp (maxDischargeDepth := 30) [execNoticeReceive, h]

@[simp] theorem State.wakeFor_follows {s0 s : State} {a0 a1} (h : s0.Follows s) :
    s0.Follows (State.wakeFor s a0 a1) := by
  unfold State.wakeFor
  exact .ite (State.modDie_follows (State.setPwr_follows h)) (State.setPwr_follows h)

@[simp] theorem State.putLent_follows {s0 s : State} (h : s0.Follows s) :
    s0.Follows (State.putLent s) := by
  simp [State.putLent, h]

@[simp] theorem State.stepDown_follows {s0 s : State} (h : s0.Follows s) :
    s0.Follows (State.stepDown s) := by
  unfold State.stepDown
  repeat' first
    | with_reducible first | assumption | apply State.freeVal_follows | apply State.modDie_follows | apply State.FollowsR.go | apply State.Follows.ite | apply State.Follows.foldl | apply State.FollowsL.ok | apply State.FollowsL.hold | apply State.FollowsL.fault | apply State.FollowsL.ite | apply State.FollowsL.bind | intro _
    | dsimp only
    | split

@[simp] theorem State.cover_follows {s0 s : State} {a0} (h : s0.Follows s) :
    s0.Follows (State.cover s a0) := by
  induction a0 generalizing s with
  | zero => exact h
  | succ n ih =>
    unfold State.cover
    split
    · exact h
    · exact ih (State.stepDown_follows h)

@[simp] theorem State.repool_follows {s0 s : State} (h : s0.Follows s) :
    s0.Follows (State.repool s) := by
  simp [State.repool, h]

@[simp] theorem execLendStart_follows {s0 s : State} {a0} (h : s0.Follows s) :
    s0.FollowsR (execLendStart a0 s) := by
  unfold execLendStart
  repeat' first
    | with_reducible first | assumption | apply State.putLent_follows | apply State.modEng_follows | apply State.FollowsR.go | apply State.Follows.ite | apply State.Follows.foldl | apply State.FollowsL.ok | apply State.FollowsL.hold | apply State.FollowsL.fault | apply State.FollowsL.ite | apply State.FollowsL.bind | intro _
    | dsimp only
    | split

@[simp] theorem execLendReturn_follows {s0 s : State} {a0} (h : s0.Follows s) :
    s0.FollowsR (execLendReturn a0 s) := by
  simp (maxDischargeDepth := 30) [execLendReturn, h]

@[simp] theorem State.lendRound_follows {s0 s : State} (h : s0.Follows s) :
    s0.Follows (State.lendRound s) := by
  exact State.Follows.foldl h fun _ _ hu => State.Follows.ite (State.modDie_follows hu) hu

@[simp] theorem State.withdrawClass_follows {s0 s : State} {a0} (h : s0.Follows s) :
    s0.Follows (State.withdrawClass s a0) := by
  unfold State.withdrawClass
  repeat' first
    | with_reducible first | assumption | apply State.setPwr_follows | apply State.modDie_follows | apply State.FollowsR.go | apply State.Follows.ite | apply State.Follows.foldl | apply State.FollowsL.ok | apply State.FollowsL.hold | apply State.FollowsL.fault | apply State.FollowsL.ite | apply State.FollowsL.bind | intro _

@[simp] theorem State.raiseHold_follows {s0 s : State} {a0 a1 a2} (h : s0.Follows s) :
    s0.Follows (State.raiseHold s a0 a1 a2) := by
  induction a2 generalizing s with
  | zero => exact h
  | succ n ih =>
    unfold State.raiseHold
    split
    · exact h
    · exact ih (State.setPwr_follows h)

@[simp] theorem State.shed_follows {s0 s : State} {a0 a1} (h : s0.Follows s) :
    s0.Follows (State.shed s a0 a1) := by
  unfold State.shed
  repeat' first
    | with_reducible first | assumption | apply State.withdrawClass_follows | apply State.raiseHold_follows | apply State.FollowsR.go | apply State.Follows.ite | apply State.Follows.foldl | apply State.FollowsL.ok | apply State.FollowsL.hold | apply State.FollowsL.fault | apply State.FollowsL.ite | apply State.FollowsL.bind | intro _

@[simp] theorem State.release_follows {s0 s : State} (h : s0.Follows s) :
    s0.Follows (State.release s) := by
  simp (maxDischargeDepth := 30) [State.release, h]

@[simp] theorem State.sample_follows {s0 s : State} {a0} (h : s0.Follows s) :
    s0.Follows (State.sample s a0) := by
  simp [State.sample, h]

@[simp] theorem execGovernorInterval_follows {s0 s : State} {a0} (h : s0.Follows s) :
    s0.FollowsR (execGovernorInterval a0 s) := by
  simp (maxDischargeDepth := 30) [execGovernorInterval, h]

@[simp] theorem execWakeTokenGrant_follows {s0 s : State} (h : s0.Follows s) :
    s0.FollowsR (execWakeTokenGrant s) := by
  unfold execWakeTokenGrant
  repeat' first
    | with_reducible first | assumption | apply State.shed_follows | apply State.setPwr_follows | apply State.modDie_follows | apply State.wakeFor_follows | apply State.FollowsR.go | apply State.Follows.ite | apply State.Follows.foldl | apply State.FollowsL.ok | apply State.FollowsL.hold | apply State.FollowsL.fault | apply State.FollowsL.ite | apply State.FollowsL.bind | intro _
    | dsimp only
    | split

@[simp] theorem State.wPwrLimit_follows {s0 s : State} {a0} (h : s0.Follows s) :
    s0.FollowsO (State.wPwrLimit s a0) := by
  simp (maxDischargeDepth := 30) [State.wPwrLimit, h]

@[simp] theorem execPwrLimitWrite_follows {s0 s : State} {a0 a1} (h : s0.Follows s) :
    s0.FollowsR (execPwrLimitWrite a0 a1 s) := by
  unfold execPwrLimitWrite
  repeat' first
    | with_reducible first | assumption | apply State.ownerWrite_follows | apply State.wPwrLimit_follows | apply State.FollowsR.go | apply State.Follows.ite | apply State.Follows.foldl | apply State.FollowsL.ok | apply State.FollowsL.hold | apply State.FollowsL.fault | apply State.FollowsL.ite | apply State.FollowsL.bind | apply State.FollowsO.none | apply State.FollowsO.some | apply State.FollowsO.ite | apply State.FollowsO.getD | intro _

@[simp] theorem State.wPwrPeak_follows {s0 s : State} {a0} (h : s0.Follows s) :
    s0.FollowsO (State.wPwrPeak s a0) := by
  simp (maxDischargeDepth := 30) [State.wPwrPeak, h]

@[simp] theorem execPwrPeakClear_follows {s0 s : State} {a0 a1} (h : s0.Follows s) :
    s0.FollowsR (execPwrPeakClear a0 a1 s) := by
  unfold execPwrPeakClear
  repeat' first
    | with_reducible first | assumption | apply State.ownerWrite_follows | apply State.wPwrPeak_follows | apply State.FollowsR.go | apply State.Follows.ite | apply State.Follows.foldl | apply State.FollowsL.ok | apply State.FollowsL.hold | apply State.FollowsL.fault | apply State.FollowsL.ite | apply State.FollowsL.bind | apply State.FollowsO.none | apply State.FollowsO.some | apply State.FollowsO.ite | apply State.FollowsO.getD | intro _

@[simp] theorem State.dieTemp_follows {s0 s : State} {a0 a1} (h : s0.Follows s) :
    s0.Follows (State.dieTemp s a0 a1) := by
  simp (maxDischargeDepth := 30) [State.dieTemp, h]

@[simp] theorem State.coolDown_follows {s0 s : State} (h : s0.Follows s) :
    s0.Follows (State.coolDown s) := by
  unfold State.coolDown
  repeat' first
    | with_reducible first | assumption | apply State.setRst_follows | apply State.setPins_follows | apply State.FollowsR.go | apply State.Follows.ite | apply State.Follows.foldl | apply State.FollowsL.ok | apply State.FollowsL.hold | apply State.FollowsL.fault | apply State.FollowsL.ite | apply State.FollowsL.bind | intro _
    | dsimp only
    | split

@[simp] theorem execTempSample_follows {s0 s : State} {a0 a1} (h : s0.Follows s) :
    s0.FollowsR (execTempSample a0 a1 s) := by
  unfold execTempSample
  repeat' first
    | with_reducible first | assumption | apply State.setPwr_follows | apply State.dieTemp_follows | apply State.coolDown_follows | apply State.alertBit_follows | apply State.FollowsR.go | apply State.Follows.ite | apply State.Follows.foldl | apply State.FollowsL.ok | apply State.FollowsL.hold | apply State.FollowsL.fault | apply State.FollowsL.ite | apply State.FollowsL.bind | intro _
    | dsimp only
    | split

@[simp] theorem execRecenterWindow_follows {s0 s : State} {a0 a1} (h : s0.Follows s) :
    s0.FollowsR (execRecenterWindow a0 a1 s) := by
  unfold execRecenterWindow
  repeat' first
    | with_reducible first | assumption | apply State.modChan_follows | apply State.FollowsR.go | apply State.Follows.ite

@[simp] theorem execRecenterDone_follows {s0 s : State} {a0 a1} (h : s0.Follows s) :
    s0.FollowsR (execRecenterDone a0 a1 s) := by
  unfold execRecenterDone
  repeat' first
    | with_reducible first | assumption | apply State.modChan_follows | apply State.setPwr_follows | apply State.alertBit_follows | apply State.FollowsR.go | apply State.Follows.ite | apply State.Follows.foldl | apply State.FollowsL.ok | apply State.FollowsL.hold | apply State.FollowsL.fault | apply State.FollowsL.ite | apply State.FollowsL.bind | intro _
    | dsimp only
    | split

@[simp] theorem State.modRail_follows {s0 s : State} {a0 a1} (h : s0.Follows s) :
    s0.Follows (State.modRail s a0 a1) := by
  simp [State.modRail, h]

@[simp] theorem execRailSample_follows {s0 s : State} {a0 a1 a2} (h : s0.Follows s) :
    s0.FollowsR (execRailSample a0 a1 a2 s) := by
  simp (maxDischargeDepth := 30) [execRailSample, h]

@[simp] theorem execRailSequenceFault_follows {s0 s : State} (h : s0.Follows s) :
    s0.FollowsR (execRailSequenceFault s) := by
  simp (maxDischargeDepth := 30) [execRailSequenceFault, h]

@[simp] theorem execPowerGood_follows {s0 s : State} (h : s0.Follows s) :
    s0.FollowsR (execPowerGood s) := by
  simp (maxDischargeDepth := 30) [execPowerGood, h]

@[simp] theorem State.wCause_follows {s0 s : State} {a0 a1} (h : s0.Follows s) :
    s0.FollowsO (State.wCause s a0 a1) := by
  simp (maxDischargeDepth := 30) [State.wCause, h]

@[simp] theorem execStatusCauseClear_follows {s0 s : State} {a0 a1 a2} (h : s0.Follows s) :
    s0.FollowsR (execStatusCauseClear a0 a1 a2 s) := by
  unfold execStatusCauseClear
  repeat' first
    | with_reducible first | assumption | apply State.ownerWrite_follows | apply State.wCause_follows | apply State.FollowsR.go | apply State.Follows.ite | apply State.Follows.foldl | apply State.FollowsL.ok | apply State.FollowsL.hold | apply State.FollowsL.fault | apply State.FollowsL.ite | apply State.FollowsL.bind | apply State.FollowsO.none | apply State.FollowsO.some | apply State.FollowsO.ite | apply State.FollowsO.getD | intro _

@[simp] theorem State.wBif_follows {s0 s : State} {a0 a1} (h : s0.Follows s) :
    s0.FollowsO (State.wBif s a0 a1) := by
  simp (maxDischargeDepth := 30) [State.wBif, h]

@[simp] theorem execBifWrite_follows {s0 s : State} {a0 a1 a2} (h : s0.Follows s) :
    s0.FollowsR (execBifWrite a0 a1 a2 s) := by
  unfold execBifWrite
  repeat' first
    | with_reducible first | assumption | apply State.ownerWrite_follows | apply State.wBif_follows | apply State.FollowsR.go | apply State.Follows.ite | apply State.Follows.foldl | apply State.FollowsL.ok | apply State.FollowsL.hold | apply State.FollowsL.fault | apply State.FollowsL.ite | apply State.FollowsL.bind | apply State.FollowsO.none | apply State.FollowsO.some | apply State.FollowsO.ite | apply State.FollowsO.getD | intro _

@[simp] theorem State.wiped_follows {s0 s : State} (h : s0.Follows s) :
    s0.Follows (State.wiped s) := by
  exact h.memUpd rfl rfl rfl fun _ => ⟨rfl, rfl, rfl, rfl⟩

@[simp] theorem State.goodbye_follows {s0 s : State} (h : s0.Follows s) :
    s0.Follows (State.goodbye s) := by
  simp [State.goodbye, h]

@[simp] theorem State.causeBit_follows {s0 s : State} {a0} (h : s0.Follows s) :
    s0.Follows (State.causeBit s a0) := by
  simp [State.causeBit, h]

@[simp] theorem State.pkgReset_follows {s0 s : State} {a0 a1} (h : s0.Follows s) :
    s0.Follows (State.pkgReset s a0 a1) := by
  simp (maxDischargeDepth := 30) [State.pkgReset, h]

@[simp] theorem State.por_follows {s0 s : State} (h : s0.Follows s) :
    s0.Follows (State.por s) := by
  exact h.memUpd rfl rfl rfl fun _ => ⟨rfl, rfl, rfl, rfl⟩

@[simp] theorem execPor_follows {s0 s : State} (h : s0.Follows s) :
    s0.FollowsR (execPor s) := by
  simp [execPor, h]

@[simp] theorem execSysReset_follows {s0 s : State} (h : s0.Follows s) :
    s0.FollowsR (execSysReset s) := by
  simp (maxDischargeDepth := 30) [execSysReset, h]

@[simp] theorem execSysResetRelease_follows {s0 s : State} (h : s0.Follows s) :
    s0.FollowsR (execSysResetRelease s) := by
  simp [execSysResetRelease, h]

@[simp] theorem execTherm_follows {s0 s : State} (h : s0.Follows s) :
    s0.FollowsR (execTherm s) := by
  simp (maxDischargeDepth := 30) [execTherm, h]

@[simp] theorem execAssayerErrorReset_follows {s0 s : State} (h : s0.Follows s) :
    s0.FollowsR (execAssayerErrorReset s) := by
  simp [execAssayerErrorReset, h]

@[simp] theorem execBrownout_follows {s0 s : State} (h : s0.Follows s) :
    s0.FollowsR (execBrownout s) := by
  simp [execBrownout, h]

@[simp] theorem execPeerReset_follows {s0 s : State} {a0} (h : s0.Follows s) :
    s0.FollowsR (execPeerReset a0 s) := by
  simp (maxDischargeDepth := 30) [execPeerReset, h]

@[simp] theorem execTamperAlarm_follows {s0 s : State} {a0} (h : s0.Follows s) :
    s0.FollowsR (execTamperAlarm a0 s) := by
  unfold execTamperAlarm
  repeat' first
    | with_reducible first | assumption | apply State.alarm_follows | apply State.pkgReset_follows | apply State.keyWake_follows | apply State.startErase_follows | apply State.FollowsR.go | apply State.Follows.ite | apply State.Follows.foldl

@[simp] theorem State.resetStandby_follows {s0 s : State} (h : s0.Follows s) :
    s0.Follows (State.resetStandby s) := by
  exact h.memUpd rfl rfl rfl fun k => ⟨k.1, k.2.1, rfl, k.2.2.2⟩

@[simp] theorem execDealerWatchdog_follows {s0 s : State} {a0} (h : s0.Follows s) :
    s0.FollowsR (execDealerWatchdog a0 s) := by
  unfold execDealerWatchdog
  have hc := State.causeBit_follows (a0 := if a0 then 5 else 4) h
  exact State.FollowsR.go (State.Follows.ite hc (State.Follows.ite (State.startTakeover_follows hc)
    (State.Follows.ite (State.resetStandby_follows hc) hc)))

@[simp] theorem State.wRstReq_follows {s0 s : State} {a0} (h : s0.Follows s) :
    s0.FollowsO (State.wRstReq s a0) := by
  unfold State.wRstReq
  repeat' first
    | with_reducible first | assumption | apply State.pkgReset_follows | apply State.resetStandby_follows | apply State.causeBit_follows | apply State.setAsy_follows | apply State.FollowsR.go | apply State.Follows.ite | apply State.Follows.foldl | apply State.FollowsL.ok | apply State.FollowsL.hold | apply State.FollowsL.fault | apply State.FollowsL.ite | apply State.FollowsL.bind | apply State.FollowsO.none | apply State.FollowsO.some | apply State.FollowsO.ite | apply State.FollowsO.getD | intro _
    | dsimp only
    | split

@[simp] theorem execRstReq_follows {s0 s : State} {a0 a1} (h : s0.Follows s) :
    s0.FollowsR (execRstReq a0 a1 s) := by
  unfold execRstReq
  repeat' first
    | with_reducible first | assumption | apply State.ownerWrite_follows | apply State.wRstReq_follows | apply State.FollowsR.go | apply State.Follows.ite | apply State.Follows.foldl | apply State.FollowsL.ok | apply State.FollowsL.hold | apply State.FollowsL.fault | apply State.FollowsL.ite | apply State.FollowsL.bind | apply State.FollowsO.none | apply State.FollowsO.some | apply State.FollowsO.ite | apply State.FollowsO.getD | intro _

@[simp] theorem execDomainReset_follows {s0 s : State} {a0} (h : s0.Follows s) :
    s0.FollowsR (execDomainReset a0 s) := by
  simp [execDomainReset, h]

@[simp] theorem execPllLockTimeout_follows {s0 s : State} {a0} (h : s0.Follows s) :
    s0.FollowsR (execPllLockTimeout a0 s) := by
  simp [execPllLockTimeout, h]

@[simp] theorem State.blkRefuse_follows {s0 s : State} {a0} (h : s0.Follows s) :
    s0.Follows (State.blkRefuse s a0) := by
  simp [State.blkRefuse, h]

@[simp] theorem State.blkDieStart_follows {s0 s : State} {a0} (h : s0.Follows s) :
    s0.Follows (State.blkDieStart s a0) := by
  unfold State.blkDieStart
  repeat' first
    | with_reducible first | assumption | apply State.requestWake_follows | apply State.modEng_follows | apply State.modDie_follows | apply State.FollowsR.go | apply State.Follows.ite | apply State.Follows.foldl | apply State.FollowsL.ok | apply State.FollowsL.hold | apply State.FollowsL.fault | apply State.FollowsL.ite | apply State.FollowsL.bind | intro _

@[simp] theorem State.blkLanes_follows {s0 s : State} {a0} (h : s0.Follows s) :
    s0.Follows (State.blkLanes s a0) := by
  unfold State.blkLanes
  repeat' first
    | with_reducible first | assumption | apply State.modSub_follows | apply State.lanesTo_follows | apply State.modLane_follows | apply State.FollowsR.go | apply State.Follows.ite | apply State.Follows.foldl | apply State.FollowsL.ok | apply State.FollowsL.hold | apply State.FollowsL.fault | apply State.FollowsL.ite | apply State.FollowsL.bind | intro _

@[simp] theorem State.blkStart_follows {s0 s : State} {a0 a1} (h : s0.Follows s) :
    s0.Follows (State.blkStart s a0 a1) := by
  unfold State.blkStart
  repeat' first
    | with_reducible first | assumption | apply State.blkDieStart_follows | apply State.blkLanes_follows | apply State.modLPart_follows | apply State.scrubPart_follows | apply State.setRst_follows | apply State.FollowsR.go | apply State.Follows.ite | apply State.Follows.foldl | apply State.FollowsL.ok | apply State.FollowsL.hold | apply State.FollowsL.fault | apply State.FollowsL.ite | apply State.FollowsL.bind | intro _
    | dsimp only
    | split

@[simp] theorem State.wBlock_follows {s0 s : State} {a0 a1} (h : s0.Follows s) :
    s0.FollowsO (State.wBlock s a0 a1) := by
  simp (maxDischargeDepth := 30) [State.wBlock, h]

@[simp] theorem execBlockReset_follows {s0 s : State} {a0 a1} (h : s0.Follows s) :
    s0.FollowsR (execBlockReset a0 a1 s) := by
  unfold execBlockReset
  repeat' first
    | with_reducible first | assumption | apply State.ownerWrite_follows | apply State.wBlock_follows | apply State.FollowsR.go | apply State.Follows.ite | apply State.Follows.foldl | apply State.FollowsL.ok | apply State.FollowsL.hold | apply State.FollowsL.fault | apply State.FollowsL.ite | apply State.FollowsL.bind | apply State.FollowsO.none | apply State.FollowsO.some | apply State.FollowsO.ite | apply State.FollowsO.getD | intro _

@[simp] theorem State.blkDieEnd_follows {s0 s : State} {a0 a1 a2} (h : s0.Follows s) :
    s0.Follows (State.blkDieEnd s a0 a1 a2) := by
  unfold State.blkDieEnd
  repeat' first
    | with_reducible first | assumption | apply State.modEng_follows | apply State.modDie_follows | apply State.FollowsR.go | apply State.Follows.ite | apply State.Follows.foldl | apply State.FollowsL.ok | apply State.FollowsL.hold | apply State.FollowsL.fault | apply State.FollowsL.ite | apply State.FollowsL.bind | intro _

@[simp] theorem execBlockResetDone_follows {s0 s : State} {a0} (h : s0.Follows s) :
    s0.FollowsR (execBlockResetDone a0 s) := by
  unfold execBlockResetDone
  repeat' first
    | with_reducible first | assumption | apply State.setRst_follows | apply State.stWake_follows | apply State.blkDieEnd_follows | apply State.FollowsR.go | apply State.Follows.ite | apply State.Follows.foldl | apply State.FollowsL.ok | apply State.FollowsL.hold | apply State.FollowsL.fault | apply State.FollowsL.ite | apply State.FollowsL.bind | intro _
    | dsimp only
    | split

@[simp] theorem State.endPhase_follows {s0 s : State} {a0} (h : s0.Follows s) :
    s0.Follows (State.endPhase s a0) := by
  simp [State.endPhase, h]

@[simp] theorem State.medianCode_follows {s0 s : State} {a0} (h : s0.Follows s) :
    s0.Follows (State.medianCode s a0).2 := by
  unfold State.medianCode
  repeat' first
    | with_reducible first | assumption | apply State.freeVal_follows | apply State.FollowsR.go | apply State.Follows.ite | apply State.Follows.foldl | apply State.FollowsL.ok | apply State.FollowsL.hold | apply State.FollowsL.fault | apply State.FollowsL.ite | apply State.FollowsL.bind | intro _
    | dsimp only
    | split

@[simp] theorem State.applyPins_follows {s0 s : State} (h : s0.Follows s) :
    s0.Follows (State.applyPins s) := by
  simp [State.applyPins, h]

@[simp] theorem execOptionLoading_follows {s0 s : State} {a0} (h : s0.Follows s) :
    s0.FollowsR (execOptionLoading a0 s) := by
  unfold execOptionLoading
  exact State.FollowsR.go (State.Follows.ite (State.endPhase_follows (State.applyPins_follows
    ((State.medianCode_follows h).upd rfl rfl rfl rfl rfl rfl rfl))) h)

@[simp] theorem State.fillSpares_follows {s0 s : State} {a0 a1 a2} (h : s0.Follows s) :
    s0.Follows (State.fillSpares s a0 a1 a2).2 := by
  induction a2 generalizing s a0 with
  | zero => exact h
  | succ n ih =>
    unfold State.fillSpares
    split
    · exact h
    · exact ih (State.freeVal_follows h)

@[simp] theorem State.summarize_follows {s0 s : State} {a0} (h : s0.Follows s) :
    s0.Follows (State.summarize s a0).2 := by
  simp [State.summarize, h]

@[simp] theorem State.placeDies_follows {s0 s : State} {a0} (h : s0.Follows s) :
    s0.Follows (State.placeDies s a0) := by
  unfold State.placeDies
  repeat' first
    | with_reducible first | assumption | apply State.modDie_follows | apply State.FollowsR.go | apply State.Follows.ite | apply State.Follows.foldl | apply State.FollowsL.ok | apply State.FollowsL.hold | apply State.FollowsL.fault | apply State.FollowsL.ite | apply State.FollowsL.bind | intro _

@[simp] theorem State.driftWord_follows {s0 s : State} {a0} (h : s0.Follows s) :
    s0.Follows (State.driftWord s a0) := by
  simp (maxDischargeDepth := 30) [State.driftWord, h]

@[simp] theorem State.bootCauses_follows {s0 s : State} {a0 a1} (h : s0.Follows s) :
    s0.Follows (State.bootCauses s a0 a1) := by
  simp [State.bootCauses, h]

@[simp] theorem State.bootMeasure_follows {s0 s : State} {a0 a1} (h : s0.Follows s) :
    s0.Follows (State.bootMeasure s a0 a1) := by
  unfold State.bootMeasure
  repeat' first
    | with_reducible first | assumption | apply State.extend_follows | apply State.FollowsR.go | apply State.Follows.ite | apply State.Follows.foldl | apply State.FollowsL.ok | apply State.FollowsL.hold | apply State.FollowsL.fault | apply State.FollowsL.ite | apply State.FollowsL.bind | intro _
    | dsimp only
    | split

@[simp] theorem State.startAssayers_follows {s0 s : State} {a0} (h : s0.Follows s) :
    s0.Follows (State.startAssayers s a0) := by
  unfold State.startAssayers
  repeat' first
    | with_reducible first | assumption | apply State.setAsy_follows | apply State.vlogFree_follows | apply State.FollowsR.go | apply State.Follows.ite | apply State.Follows.foldl | apply State.FollowsL.ok | apply State.FollowsL.hold | apply State.FollowsL.fault | apply State.FollowsL.ite | apply State.FollowsL.bind | intro _
    | dsimp only
    | split

@[simp] theorem State.checkReference_follows {s0 s : State} {a0} (h : s0.Follows s) : s0.Follows (State.checkReference s a0) := by
  unfold State.checkReference
  split
  · exact State.Follows.foldl h fun _ _ hu => State.driftWord_follows hu
  · exact h

@[simp] theorem execAssayerBoot_follows {s0 s : State} {a0} (h : s0.Follows s) :
    s0.FollowsR (execAssayerBoot a0 s) := by
  unfold execAssayerBoot
  exact State.FollowsR.go (State.Follows.ite (State.endPhase_follows (State.bootMeasure_follows (State.setBring_follows
    (State.bootCauses_follows (State.placeDies_follows (State.summarize_follows (State.applyPins_follows
      (State.checkReference_follows (State.startAssayers_follows (State.setAsy_follows h)))))))))) h)

@[simp] theorem execDealerBoot_follows {s0 s : State} {a0} (h : s0.Follows s) :
    s0.FollowsR (execDealerBoot a0 s) := by
  unfold execDealerBoot
  repeat' first
    | with_reducible first | assumption | apply State.setBring_follows | apply State.endPhase_follows | apply State.setPins_follows | apply State.extend_follows | apply State.faultBit_follows | apply State.FollowsR.go | apply State.Follows.ite | apply State.Follows.foldl | apply State.FollowsL.ok | apply State.FollowsL.hold | apply State.FollowsL.fault | apply State.FollowsL.ite | apply State.FollowsL.bind | intro _
    | dsimp only
    | split
    | refine State.FollowsO.of ?_ (by assumption)
    | refine State.FollowsL.of ?_ (by assumption)
    | refine State.Follows.of2 ?_ (by assumption)
    | with_reducible first | refine State.Follows.make ?_ rfl rfl rfl rfl

@[simp] theorem execDepotTraining_follows {s0 s : State} {a0} (h : s0.Follows s) :
    s0.FollowsR (execDepotTraining a0 s) := by
  unfold execDepotTraining
  refine State.FollowsR.go (State.Follows.ite ?_ h)
  dsimp only
  refine State.Follows.ite (State.endPhase_follows (State.setBring_follows ?_))
    (State.faultBit_follows (State.setBring_follows (State.setBring_follows ?_))) <;>
  exact h.memUpd rfl rfl rfl fun k => ⟨rfl, k.2⟩

@[simp] theorem State.trainLanes_follows {s0 s : State} {a0} (h : s0.Follows s) : s0.Follows (State.trainLanes s a0) :=
  State.Follows.foldl h fun _ _ hu => State.modLane_follows hu

@[simp] theorem execLaneTraining_follows {s0 s : State} {a0} (h : s0.Follows s) :
    s0.FollowsR (execLaneTraining a0 s) :=
  State.FollowsR.go (State.Follows.ite (State.endPhase_follows (State.setBring_follows (State.trainLanes_follows h))) h)

@[simp] theorem State.wakeDies_follows {s0 s : State} {a0} (h : s0.Follows s) : s0.Follows (State.wakeDies s a0) :=
  State.Follows.foldl h fun _ _ hu => State.Follows.foldl (State.modDie_follows hu) fun _ _ hv => State.modEng_follows hv

@[simp] theorem execStationWaves_follows {s0 s : State} {a0} (h : s0.Follows s) :
    s0.FollowsR (execStationWaves a0 s) :=
  State.FollowsR.go (State.Follows.ite (State.endPhase_follows (State.setBring_follows (State.wakeDies_follows h))) h)

@[simp] theorem execReady_follows {s0 s : State} {a0} (h : s0.Follows s) :
    s0.FollowsR (execReady a0 s) := by
  simp (maxDischargeDepth := 30) [execReady, h]

@[simp] theorem execPhaseOverrun_follows {s0 s : State} (h : s0.Follows s) :
    s0.FollowsR (execPhaseOverrun s) := by
  simp (maxDischargeDepth := 30) [execPhaseOverrun, h]

@[simp] theorem State.retireStack_follows {s0 s : State} {a0 a1} (h : s0.Follows s) :
    s0.Follows (State.retireStack s a0 a1) := by
  simp (maxDischargeDepth := 30) [State.retireStack, h]

@[simp] theorem State.wRetire_follows {s0 s : State} {a0 a1} (h : s0.Follows s) :
    s0.FollowsO (State.wRetire s a0 a1) := by
  exact State.FollowsO.ite (State.FollowsO.some (State.Follows.foldl h fun _ _ hu => State.Follows.ite (State.retireStack_follows hu) hu))
    (State.FollowsO.none _)

@[simp] theorem execDepotRetire_follows {s0 s : State} {a0 a1} (h : s0.Follows s) :
    s0.FollowsR (execDepotRetire a0 a1 s) := by
  unfold execDepotRetire
  repeat' first
    | with_reducible first | assumption | apply State.ownerWrite_follows | apply State.wRetire_follows | apply State.FollowsR.go | apply State.Follows.ite | apply State.Follows.foldl | apply State.FollowsL.ok | apply State.FollowsL.hold | apply State.FollowsL.fault | apply State.FollowsL.ite | apply State.FollowsL.bind | apply State.FollowsO.none | apply State.FollowsO.some | apply State.FollowsO.ite | apply State.FollowsO.getD | intro _

@[simp] theorem execDepotStackOffline_follows {s0 s : State} {a0} (h : s0.Follows s) :
    s0.FollowsR (execDepotStackOffline a0 s) := by
  unfold execDepotStackOffline
  repeat' first
    | with_reducible first | assumption | apply State.setBring_follows | apply State.FollowsR.go | apply State.Follows.ite

@[simp] theorem State.openPlan_follows {s0 s : State} {a0 a1 a2} (h : s0.Follows s) :
    s0.Follows (State.openPlan s a0 a1 a2) := by
  unfold State.openPlan
  repeat' first
    | with_reducible first | assumption | apply State.ignore_follows | apply State.setReb_follows | apply State.FollowsR.go | apply State.Follows.ite | apply State.Follows.foldl | apply State.FollowsL.ok | apply State.FollowsL.hold | apply State.FollowsL.fault | apply State.FollowsL.ite | apply State.FollowsL.bind | intro _
    | dsimp only
    | split

@[simp] theorem State.closePlan_follows {s0 s : State} {a0} (h : s0.Follows s) :
    s0.Follows (State.closePlan s a0) := by
  simp [State.closePlan, h]

@[simp] theorem State.rebuildPost_follows {s0 s : State} {a0} (h : s0.Follows s) :
    s0.Follows (State.rebuildPost s a0) := by
  unfold State.rebuildPost
  repeat' first
    | with_reducible first | assumption | apply State.ignore_follows | apply State.closePlan_follows | apply State.openPlan_follows | apply State.FollowsR.go | apply State.Follows.ite | apply State.Follows.foldl | apply State.FollowsL.ok | apply State.FollowsL.hold | apply State.FollowsL.fault | apply State.FollowsL.ite | apply State.FollowsL.bind | intro _
    | dsimp only
    | split

@[simp] theorem execDeviceServerTake_follows {s0 s : State} {a0} (h : s0.Follows s) :
    s0.FollowsR (execDeviceServerTake a0 s) := by
  simp (maxDischargeDepth := 30) [execDeviceServerTake, h]

@[simp] theorem State.land_follows {s0 s : State} {a0 a1} (h : s0.Follows s) :
    s0.Follows (State.land s a0 a1) := by
  have hm : ∀ (l : List (Byte × Nat)) (g : Nat → Nat) (m : Mem), Mem.wf m = true →
      Mem.wf (l.foldl (fun m x => Mem.write m (g x.2) x.1) m) = true := by
    intro l g
    induction l with
    | nil => exact fun _ k => k
    | cons x l ih => exact fun m k => ih _ (Mem.wf_write _ _ k)
  unfold State.land
  extract_lets d w1 a bs put mem
  have hp : ∀ t v, s0.Follows t → s0.Follows (put t v) := fun t v ht => State.setReb_follows ht
  refine State.Follows.ite (hp _ _ h) (State.Follows.ite (hp _ _ h) (hp _ _ ?_))
  exact h.memUpd rfl rfl rfl fun k => ⟨hm _ (fun j => a0.ring + (a + j) % a0.size) _ k.1, k.2⟩

@[simp] theorem execLandingFlit_follows {s0 s : State} {a0 a1 a2} (h : s0.Follows s) :
    s0.FollowsR (execLandingFlit a0 a1 a2 s) := by
  unfold execLandingFlit
  repeat' first
    | with_reducible first | assumption | apply State.setReb_follows | apply State.land_follows | apply State.FollowsR.go | apply State.Follows.ite | apply State.Follows.foldl | apply State.FollowsL.ok | apply State.FollowsL.hold | apply State.FollowsL.fault | apply State.FollowsL.ite | apply State.FollowsL.bind | intro _
    | dsimp only
    | split

@[simp] theorem execLandingWindowClose_follows {s0 s : State} {a0} (h : s0.Follows s) :
    s0.FollowsR (execLandingWindowClose a0 s) := by
  unfold execLandingWindowClose
  repeat' first
    | with_reducible first | assumption | apply State.setReb_follows | apply State.FollowsR.go | apply State.Follows.ite | apply State.Follows.foldl | apply State.FollowsL.ok | apply State.FollowsL.hold | apply State.FollowsL.fault | apply State.FollowsL.ite | apply State.FollowsL.bind | intro _
    | dsimp only
    | split

@[simp] theorem execSegmentDelivery_follows {s0 s : State} {a0} (h : s0.Follows s) :
    s0.FollowsR (execSegmentDelivery a0 s) := by
  unfold execSegmentDelivery
  repeat' first
    | with_reducible first | assumption | apply State.sendTo_follows | apply State.emit_follows | apply State.setReb_follows | apply State.FollowsR.go | apply State.Follows.ite | apply State.Follows.foldl | apply State.FollowsL.ok | apply State.FollowsL.hold | apply State.FollowsL.fault | apply State.FollowsL.ite | apply State.FollowsL.bind | intro _
    | dsimp only
    | split

@[simp] theorem State.storeRecord_follows {s0 s : State} {a0 a1 a2 a3} (h : s0.Follows s) :
    s0.Follows (State.storeRecord s a0 a1 a2 a3) := by
  simp (maxDischargeDepth := 30) [State.storeRecord, h]

@[simp] theorem execCongestionRecord_follows {s0 s : State} {a0} (h : s0.Follows s) :
    s0.FollowsR (execCongestionRecord a0 s) := by
  unfold execCongestionRecord
  repeat' first
    | with_reducible first | assumption | apply State.setCong_follows | apply State.storeRecord_follows | apply State.FollowsR.go | apply State.Follows.ite | apply State.Follows.foldl | apply State.FollowsL.ok | apply State.FollowsL.hold | apply State.FollowsL.fault | apply State.FollowsL.ite | apply State.FollowsL.bind | intro _

@[simp] theorem execAgentTimeout_follows {s0 s : State} {a0} (h : s0.Follows s) :
    s0.FollowsR (execAgentTimeout a0 s) := by
  simp (maxDischargeDepth := 30) [execAgentTimeout, h]

@[simp] theorem execSummaryEntry_follows {s0 s : State} (h : s0.Follows s) :
    s0.FollowsR (execSummaryEntry s) := by
  simp [execSummaryEntry, h]

@[simp] theorem State.darken_follows {s0 s : State} {a0} (h : s0.Follows s) :
    s0.Follows (State.darken s a0) := by
  simp [State.darken, h]

@[simp] theorem State.discover_follows {s0 s : State} (h : s0.Follows s) :
    s0.Follows (State.discover s) := by
  unfold State.discover
  repeat' first
    | with_reducible first | assumption | apply State.setDisc_follows | apply State.probe_follows | apply State.FollowsR.go | apply State.Follows.ite | apply State.Follows.foldl | apply State.FollowsL.ok | apply State.FollowsL.hold | apply State.FollowsL.fault | apply State.FollowsL.ite | apply State.FollowsL.bind | intro _
    | dsimp only
    | split
    | refine State.FollowsO.of ?_ (by assumption)
    | refine State.FollowsL.of ?_ (by assumption)
    | refine State.Follows.of2 ?_ (by assumption)
    | with_reducible first | refine State.Follows.make ?_ rfl rfl rfl rfl

@[simp] theorem execDiscoveryStart_follows {s0 s : State} (h : s0.Follows s) :
    s0.FollowsR (execDiscoveryStart s) := by
  simp [execDiscoveryStart, h]

@[simp] theorem execProbeRetry_follows {s0 s : State} {a0} (h : s0.Follows s) :
    s0.FollowsR (execProbeRetry a0 s) := by
  unfold execProbeRetry
  repeat' first
    | with_reducible first | assumption | apply State.setDisc_follows | apply State.darken_follows | apply State.sendPath_follows | apply State.FollowsR.go | apply State.Follows.ite | apply State.Follows.foldl | apply State.FollowsL.ok | apply State.FollowsL.hold | apply State.FollowsL.fault | apply State.FollowsL.ite | apply State.FollowsL.bind | intro _
    | dsimp only
    | split

@[simp] theorem execUntrainedReprobe_follows {s0 s : State} {a0 a1} (h : s0.Follows s) :
    s0.FollowsR (execUntrainedReprobe a0 a1 s) := by
  unfold execUntrainedReprobe
  repeat' first
    | with_reducible first | assumption | apply State.probe_follows | apply State.setDisc_follows | apply State.FollowsR.go | apply State.Follows.ite | apply State.Follows.foldl | apply State.FollowsL.ok | apply State.FollowsL.hold | apply State.FollowsL.fault | apply State.FollowsL.ite | apply State.FollowsL.bind | intro _
    | dsimp only
    | split

@[simp] theorem State.darkPass_follows {s0 s : State} (h : s0.Follows s) :
    s0.Follows (State.darkPass s) := by
  simp (maxDischargeDepth := 30) +contextual [State.darkPass, h]

@[simp] theorem execDarkPortPass_follows {s0 s : State} (h : s0.Follows s) :
    s0.FollowsR (execDarkPortPass s) := by
  simp (maxDischargeDepth := 30) +contextual [execDarkPortPass, h]

@[simp] theorem State.report1_follows {s0 s : State} {a0 a1} (h : s0.Follows s) :
    s0.Follows (State.report1 s a0 a1) := by
  simp [State.report1, h]

@[simp] theorem State.writeClass_follows {s0 s : State} {a0 a1 a2} (h : s0.Follows s) :
    s0.Follows (State.writeClass s a0 a1 a2) := by
  simp [State.writeClass, h]

@[simp] theorem State.addLink_follows {s0 s : State} {a0 a1 a2 a3} (h : s0.Follows s) :
    s0.Follows (State.addLink s a0 a1 a2 a3) := by
  unfold State.addLink; dsimp only; (repeat' split) <;> simp (maxDischargeDepth := 30) +contextual [h]

@[simp] theorem State.duplicate_follows {s0 s : State} {a0 a1 a2 a3} (h : s0.Follows s) :
    s0.Follows (State.duplicate s a0 a1 a2 a3) := by
  unfold State.duplicate; dsimp only; (repeat' split) <;> simp (maxDischargeDepth := 30) +contextual [h]

@[simp] theorem State.spread_follows {s0 s : State} {a0 a1} (h : s0.Follows s) :
    s0.Follows (State.spread s a0 a1) := by
  unfold State.spread
  repeat' first
    | with_reducible first | assumption | apply State.report1_follows | apply State.probe_follows | apply State.setDisc_follows | apply State.FollowsR.go | apply State.Follows.ite | apply State.Follows.foldl | apply State.FollowsL.ok | apply State.FollowsL.hold | apply State.FollowsL.fault | apply State.FollowsL.ite | apply State.FollowsL.bind | intro _

@[simp] theorem State.examine_follows {s0 s : State} {a0 a1} (h : s0.Follows s) :
    s0.Follows (State.examine s a0 a1) := by
  unfold State.examine
  repeat' first
    | with_reducible first | assumption | apply State.report1_follows | apply State.quarantine_follows | apply State.modKnown_follows | apply State.stream_follows | apply State.setGen_follows | apply State.FollowsR.go | apply State.Follows.ite | apply State.Follows.foldl | apply State.FollowsL.ok | apply State.FollowsL.hold | apply State.FollowsL.fault | apply State.FollowsL.ite | apply State.FollowsL.bind | intro _
    | dsimp only
    | split

@[simp] theorem State.onHello_follows {s0 s : State} {a0 a1} (h : s0.Follows s) :
    s0.Follows (State.onHello s a0 a1) := by
  unfold State.onHello; dsimp only; (repeat' split) <;> simp (maxDischargeDepth := 30) +contextual [h]

@[simp] theorem execHello_follows {s0 s : State} {a0} (h : s0.Follows s) :
    s0.FollowsR (execHello a0 s) := by
  unfold execHello
  repeat' first
    | with_reducible first | assumption | apply State.setDisc_follows | apply State.onHello_follows | apply State.spread_follows | apply State.examine_follows | apply State.FollowsR.go | apply State.Follows.ite | apply State.Follows.foldl | apply State.FollowsL.ok | apply State.FollowsL.hold | apply State.FollowsL.fault | apply State.FollowsL.ite | apply State.FollowsL.bind | intro _
    | dsimp only
    | split

@[simp] theorem State.cutWhere_follows {s0 s : State} {a0} (h : s0.Follows s) :
    s0.Follows (State.cutWhere s a0) := by
  simp (maxDischargeDepth := 30) +contextual [State.cutWhere, h]

@[simp] theorem State.darkLinks_follows {s0 s : State} (h : s0.Follows s) :
    s0.Follows (State.darkLinks s) := by
  unfold State.darkLinks; dsimp only; (repeat' split) <;> simp (maxDischargeDepth := 30) +contextual [h]

@[simp] theorem State.passStart_follows {s0 s : State} (h : s0.Follows s) : s0.Follows (State.passStart s) := by
  unfold State.passStart
  have h1 := State.Follows.foldl (l := s.fab.disc.cuts) (f := fun s c => s.cutWhere (s.linkHit c)) h fun _ _ hu => State.cutWhere_follows hu
  exact State.Follows.ite (h1.upd rfl rfl rfl rfl rfl rfl rfl) h1

@[simp] theorem State.cutMissing_follows {s0 s : State} (h : s0.Follows s) : s0.Follows (State.cutMissing s) :=
  State.cutWhere_follows h

@[simp] theorem State.cutWrong_follows {s0 s : State} (h : s0.Follows s) : s0.Follows (State.cutWrong s) := by
  unfold State.cutWrong
  exact (State.cutWhere_follows
    (State.Follows.foldl h fun _ _ hu => State.report1_follows (State.report1_follows hu))).upd rfl rfl rfl rfl rfl rfl rfl

@[simp] theorem State.reportFar_follows {s0 s : State} (h : s0.Follows s) :
    s0.Follows (State.reportFar s) := by
  simp (maxDischargeDepth := 30) +contextual [State.reportFar, h]

@[simp] theorem State.examineAll_follows {s0 s : State} {a0 a1} (h : s0.Follows s) : s0.Follows (State.examineAll s a0 a1) := by
  unfold State.examineAll
  exact State.Follows.foldl (State.Follows.foldl h fun _ _ hu => State.report1_follows hu) fun _ _ hu => State.examine_follows hu

@[simp] theorem State.giveParent_follows {s0 s : State} (h : s0.Follows s) :
    s0.Follows (State.giveParent s) := by
  unfold State.giveParent
  repeat' first
    | with_reducible first | assumption | apply State.stream_follows | apply State.FollowsR.go | apply State.FollowsP.go | apply State.FollowsO.some | apply State.FollowsO.none | apply State.Follows.ite | apply State.FollowsO.ite | apply State.Follows.foldl | intro _
    | dsimp only
    | split
    | refine State.FollowsO.of ?_ (by assumption)
    | refine State.Follows.of2 ?_ (by assumption)
    | with_reducible first | refine State.Follows.make ?_ rfl rfl rfl rfl | refine State.Follows.draw ?_ rfl rfl rfl rfl

@[simp] theorem execDiscoveryCompare_follows {s0 s : State} (h : s0.Follows s) :
    s0.FollowsR (execDiscoveryCompare s) := by
  simp (maxDischargeDepth := 30) +contextual [execDiscoveryCompare, h]

@[simp] theorem execColdStartWaitExpire_follows {s0 s : State} (h : s0.Follows s) :
    s0.FollowsR (execColdStartWaitExpire s) := by
  simp (maxDischargeDepth := 30) [execColdStartWaitExpire, h]

@[simp] theorem State.recordImage_follows {s0 s : State} {a0} (h : s0.Follows s) :
    s0.Follows (State.recordImage s a0) := by
  simp [State.recordImage, h]

@[simp] theorem State.markRepair_follows {s0 s : State} {a0 a1 a2} (h : s0.Follows s) :
    s0.Follows (State.markRepair s a0 a1 a2) := by
  simp [State.markRepair, h]

@[simp] theorem State.passSchedule_follows {s0 s : State} {a0} (h : s0.Follows s) :
    s0.Follows (State.passSchedule s a0) := by
  simp [State.passSchedule, h]

@[simp] theorem State.runJob_follows {s0 s : State} {a0} (h : s0.Follows s) :
    s0.Follows (State.runJob s a0).2 := by
  unfold State.runJob; dsimp only; (repeat' split) <;> simp (maxDischargeDepth := 30) +contextual [h]

@[simp] theorem State.dealJudged_follows {s0 s : State} {a0 a1} (h : s0.Follows s) :
    s0.Follows (State.dealJudged s a0 a1) := by
  unfold State.dealJudged; dsimp only; (repeat' split) <;> simp (maxDischargeDepth := 30) +contextual [h]

@[simp] theorem execVerifierJob_follows {s0 s : State} (h : s0.Follows s) :
    s0.FollowsR (execVerifierJob s) := by
  simp (maxDischargeDepth := 30) [execVerifierJob, h]

@[simp] theorem State.runSchedule_follows {s0 s : State} {a0 a1 a2} (h : s0.Follows s) :
    s0.Follows (State.runSchedule s a0 a1 a2) := by
  unfold State.runSchedule; dsimp only; (repeat' split) <;> simp (maxDischargeDepth := 30) +contextual [h]

@[simp] theorem State.sendSlots_follows {s0 s : State} {a0 a1} (h : s0.Follows s) :
    s0.Follows (State.sendSlots s a0 a1) := by
  unfold State.sendSlots; dsimp only; (repeat' split) <;> simp (maxDischargeDepth := 30) +contextual [h]

@[simp] theorem State.sendSwitch_follows {s0 s : State} {a0 a1} (h : s0.Follows s) :
    s0.Follows (State.sendSwitch s a0 a1) := by
  unfold State.sendSwitch; dsimp only; (repeat' split) <;> simp (maxDischargeDepth := 30) +contextual [h]

@[simp] theorem State.loadSchedule_follows {s0 s : State} {a0} (h : s0.Follows s) :
    s0.Follows (State.loadSchedule s a0) := by
  unfold State.loadSchedule; dsimp only; (repeat' split) <;> simp (maxDischargeDepth := 30) +contextual [h]

@[simp] theorem execConvoySchedule_follows {s0 s : State} {a0} (h : s0.Follows s) :
    s0.FollowsR (execConvoySchedule a0 s) := by
  unfold execConvoySchedule
  repeat' first
    | with_reducible first | assumption | apply State.loadSchedule_follows | apply State.runSchedule_follows | apply State.FollowsR.go | apply State.FollowsP.go | apply State.FollowsO.some | apply State.FollowsO.none | apply State.Follows.ite | apply State.FollowsO.ite | apply State.Follows.foldl | intro _
    | dsimp only
    | split
    | refine State.FollowsO.of ?_ (by assumption)
    | refine State.Follows.of2 ?_ (by assumption)
    | with_reducible first | refine State.Follows.make ?_ rfl rfl rfl rfl | refine State.Follows.draw ?_ rfl rfl rfl rfl

@[simp] theorem State.writeSingles_follows {s0 s : State} {a0 a1} (h : s0.Follows s) :
    s0.Follows (State.writeSingles s a0 a1) := by
  simp [State.writeSingles, h]

@[simp] theorem State.writePairs_follows {s0 s : State} {a0 a1 a2} (h : s0.Follows s) :
    s0.Follows (State.writePairs s a0 a1 a2) := by
  simp [State.writePairs, h]

@[simp] theorem State.loadCards_follows {s0 s : State} {a0 a1} (h : s0.Follows s) :
    s0.Follows (State.loadCards s a0 a1) := by
  simp (maxDischargeDepth := 30) +contextual [State.loadCards, h]

@[simp] theorem State.stage_follows {s0 s : State} {a0 a1 a2} (h : s0.Follows s) :
    s0.Follows (State.stage s a0 a1 a2) := by
  unfold State.stage
  repeat' first
    | with_reducible first | assumption | apply State.loadCards_follows | apply State.FollowsR.go | apply State.Follows.ite | apply State.Follows.foldl | apply State.FollowsL.ok | apply State.FollowsL.hold | apply State.FollowsL.fault | apply State.FollowsL.ite | apply State.FollowsL.bind | intro _

@[simp] theorem State.stagePair_follows {s0 s : State} {a0 a1} (h : s0.Follows s) : s0.Follows (State.stagePair s a0 a1) := by
  unfold State.stagePair
  repeat' first
    | with_reducible first | assumption | apply State.loadCards_follows | apply State.FollowsR.go | apply State.Follows.ite | apply State.Follows.foldl | apply State.FollowsL.ok | apply State.FollowsL.hold | apply State.FollowsL.fault | apply State.FollowsL.ite | apply State.FollowsL.bind | intro _
    | dsimp only
    | split

@[simp] theorem execFollowOnStaging_follows {s0 s : State} {a0} (h : s0.Follows s) :
    s0.FollowsR (execFollowOnStaging a0 s) := by
  unfold execFollowOnStaging
  repeat' first
    | with_reducible first | assumption | apply State.stagePair_follows | apply State.FollowsR.go | apply State.Follows.ite | apply State.Follows.foldl | apply State.FollowsL.ok | apply State.FollowsL.hold | apply State.FollowsL.fault | apply State.FollowsL.ite | apply State.FollowsL.bind | intro _
    | dsimp only
    | split

@[simp] theorem State.openArea_follows {s0 s : State} {a0} (h : s0.Follows s) :
    s0.Follows (State.openArea s a0) := by
  simp (maxDischargeDepth := 30) +contextual [State.openArea, h]

@[simp] theorem State.writeFiles_follows {s0 s : State} {a0 a1 a2 a3} (h : s0.Follows s) :
    s0.Follows (State.writeFiles s a0 a1 a2 a3) := by
  simp (maxDischargeDepth := 30) +contextual [State.writeFiles, h]

@[simp] theorem State.queueJobs_follows {s0 s : State} {a0} (h : s0.Follows s) :
    s0.Follows (State.queueJobs s a0) := by
  simp (maxDischargeDepth := 30) +contextual [State.queueJobs, h]

@[simp] theorem State.startDeal_follows {s0 s : State} {a0 a1 a2 a3} (h : s0.Follows s) :
    s0.Follows (State.startDeal s a0 a1 a2 a3) := by
  simp (maxDischargeDepth := 30) +contextual [State.startDeal, h]

@[simp] theorem State.cutsDone_follows {s0 s : State} {a0} (h : s0.Follows s) :
    s0.Follows (State.cutsDone s a0) := by
  simp [State.cutsDone, h]

@[simp] theorem State.dealSingles_follows {s0 s : State} {a0} (h : s0.Follows s) :
    s0.Follows (State.dealSingles s a0) := by
  simp (maxDischargeDepth := 30) +contextual [State.dealSingles, h]

@[simp] theorem State.dealPairs_follows {s0 s : State} {a0} (h : s0.Follows s) :
    s0.Follows (State.dealPairs s a0) := by
  simp (maxDischargeDepth := 30) +contextual [State.dealPairs, h]

@[simp] theorem State.dealDone_follows {s0 s : State} {a0} (h : s0.Follows s) :
    s0.Follows (State.dealDone s a0) := by
  simp [State.dealDone, h]

@[simp] theorem State.dealStep_follows {s0 s : State} {a0} (h : s0.Follows s) :
    s0.Follows (State.dealStep s a0) := by
  simp (maxDischargeDepth := 30) +contextual [State.dealStep, h]

@[simp] theorem State.placing_follows {s0 s : State} {a0} (h : s0.Follows s) :
    s0.Follows (State.placing s a0) := by
  simp [State.placing, h]

@[simp] theorem execDeal_follows {s0 s : State} {a0 a1 a2 a3 a4} (h : s0.Follows s) :
    s0.FollowsR (execDeal a0 a1 a2 a3 a4 s) := by
  unfold execDeal
  repeat' first
    | with_reducible first | assumption | apply State.placing_follows | apply State.dealStep_follows | apply State.startDeal_follows | apply State.FollowsR.go | apply State.FollowsP.go | apply State.FollowsO.some | apply State.FollowsO.none | apply State.Follows.ite | apply State.FollowsO.ite | apply State.Follows.foldl | intro _
    | dsimp only
    | split
    | refine State.FollowsO.of ?_ (by assumption)
    | refine State.Follows.of2 ?_ (by assumption)
    | with_reducible first | refine State.Follows.make ?_ rfl rfl rfl rfl | refine State.Follows.draw ?_ rfl rfl rfl rfl

@[simp] theorem State.storeComputed_follows {s0 s : State} {a0 a1 a2} (h : s0.Follows s) :
    s0.Follows (State.storeComputed s a0 a1 a2) := by
  simp (maxDischargeDepth := 30) +contextual [State.storeComputed, h]

@[simp] theorem State.compute_follows {s0 s : State} {a0 a1} (h : s0.Follows s) :
    s0.Follows (State.compute s a0 a1) := by
  simp (maxDischargeDepth := 30) [State.compute, h]

@[simp] theorem State.toInstall_follows {s0 s : State} {a0 a1} (h : s0.Follows s) :
    s0.Follows (State.toInstall s a0 a1).2 := by
  unfold State.toInstall
  repeat' first
    | with_reducible first | assumption | apply State.compute_follows | apply State.FollowsR.go | apply State.Follows.ite | apply State.Follows.foldl | apply State.FollowsL.ok | apply State.FollowsL.hold | apply State.FollowsL.fault | apply State.FollowsL.ite | apply State.FollowsL.bind | intro _
    | dsimp only
    | split

@[simp] theorem State.installCards_follows {s0 s : State} {a0 a1} (h : s0.Follows s) :
    s0.Follows (State.installCards s a0 a1) := by
  unfold State.installCards
  repeat' first
    | with_reducible first | assumption | apply State.loadCards_follows | apply State.FollowsR.go | apply State.FollowsP.go | apply State.FollowsO.some | apply State.FollowsO.none | apply State.Follows.ite | apply State.FollowsO.ite | apply State.Follows.foldl | intro _
    | dsimp only
    | split
    | refine State.FollowsO.of ?_ (by assumption)
    | refine State.Follows.of2 ?_ (by assumption)
    | with_reducible first | refine State.Follows.make ?_ rfl rfl rfl rfl | refine State.Follows.draw ?_ rfl rfl rfl rfl

@[simp] theorem State.installThen_follows {s0 s : State} {a0 a1 a2} (h : s0.Follows s) :
    s0.Follows (State.installThen s a0 a1 a2).1 := by
  unfold State.installThen
  repeat' first
    | with_reducible first | assumption | apply State.installCards_follows | apply State.originate_follows | apply State.FollowsR.go | apply State.FollowsP.go | apply State.FollowsO.some | apply State.FollowsO.none | apply State.Follows.ite | apply State.FollowsO.ite | apply State.Follows.foldl | intro _
    | dsimp only
    | split
    | refine State.FollowsO.of ?_ (by assumption)
    | refine State.Follows.of2 ?_ (by assumption)
    | with_reducible first | refine State.Follows.make ?_ rfl rfl rfl rfl | refine State.Follows.draw ?_ rfl rfl rfl rfl

@[simp] theorem State.closeFault_follows {s0 s : State} {a0} (h : s0.Follows s) :
    s0.Follows (State.closeFault s a0) := by
  simp [State.closeFault, h]

@[simp] theorem State.changeFor_follows {s0 s : State} {a0} (h : s0.Follows s) :
    s0.Follows (State.changeFor s a0) := by
  unfold State.changeFor; dsimp only; (repeat' split) <;> simp (maxDischargeDepth := 30) +contextual [h]

@[simp] theorem execUnhandedRepair_follows {s0 s : State} {a0} (h : s0.Follows s) :
    s0.FollowsR (execUnhandedRepair a0 s) := by
  unfold execUnhandedRepair
  repeat' first
    | with_reducible first | assumption | apply State.changeFor_follows | apply State.closeFault_follows | apply State.installThen_follows | apply State.toInstall_follows | apply State.FollowsR.go | apply State.FollowsP.go | apply State.FollowsO.some | apply State.FollowsO.none | apply State.Follows.ite | apply State.FollowsO.ite | apply State.Follows.foldl | intro _
    | dsimp only
    | split
    | refine State.FollowsO.of ?_ (by assumption)
    | refine State.Follows.of2 ?_ (by assumption)
    | with_reducible first | refine State.Follows.make ?_ rfl rfl rfl rfl | refine State.Follows.draw ?_ rfl rfl rfl rfl

@[simp] theorem State.lossDone_follows {s0 s : State} {a0} (h : s0.Follows s) :
    s0.Follows (State.lossDone s a0) := by
  unfold State.lossDone
  repeat' first
    | with_reducible first | assumption | apply State.setDeck_follows | apply State.setFold_follows | apply State.foldAccel_follows | apply State.FollowsR.go | apply State.Follows.ite | apply State.Follows.foldl | apply State.FollowsL.ok | apply State.FollowsL.hold | apply State.FollowsL.fault | apply State.FollowsL.ite | apply State.FollowsL.bind | intro _
    | dsimp only
    | split

@[simp] theorem execAgentLossTrump_follows {s0 s : State} {a0} (h : s0.Follows s) :
    s0.FollowsR (execAgentLossTrump a0 s) := by
  unfold execAgentLossTrump
  repeat' first
    | with_reducible first | assumption | apply State.lossDone_follows | apply State.installThen_follows | apply State.toInstall_follows | apply State.originate_follows | apply State.FollowsR.go | apply State.FollowsP.go | apply State.FollowsO.some | apply State.FollowsO.none | apply State.Follows.ite | apply State.FollowsO.ite | apply State.Follows.foldl | intro _
    | dsimp only
    | split
    | refine State.FollowsO.of ?_ (by assumption)
    | refine State.Follows.of2 ?_ (by assumption)
    | with_reducible first | refine State.Follows.make ?_ rfl rfl rfl rfl | refine State.Follows.draw ?_ rfl rfl rfl rfl

@[simp] theorem State.outScore_follows {s0 s : State} {a0 a1} (h : s0.Follows s) :
    s0.Follows (State.outScore s a0 a1).2 := by
  unfold State.outScore
  repeat' first
    | with_reducible first | assumption | apply State.freeVal_follows | apply State.FollowsR.go | apply State.Follows.ite | apply State.Follows.foldl | apply State.FollowsL.ok | apply State.FollowsL.hold | apply State.FollowsL.fault | apply State.FollowsL.ite | apply State.FollowsL.bind | intro _
    | dsimp only
    | split

@[simp] theorem State.elemScore_follows {s0 s : State} {a0 a1 a2} (h : s0.Follows s) :
    s0.Follows (State.elemScore s a0 a1 a2).2.2 := by
  refine foldl_keeps (β := Nat × W16 × State) (fun x => s0.Follows x.2.2) h fun x o hx => ?_
  have k := State.outScore_follows (a0 := a0) (a1 := o) hx
  dsimp only
  split <;> exact k

@[simp] theorem State.scoreElem_follows {s0 s : State} {a0 a1 a2 a3 a4} (h : s0.Follows s) :
    s0.Follows (State.scoreElem s a0 a1 a2 a3 a4) := by
  unfold State.scoreElem
  repeat' first
    | with_reducible first | assumption | apply State.elemScore_follows | apply State.freeVal_follows | apply State.post_follows | apply State.setDeck_follows | apply State.FollowsR.go | apply State.Follows.ite | apply State.Follows.foldl | apply State.FollowsL.ok | apply State.FollowsL.hold | apply State.FollowsL.fault | apply State.FollowsL.ite | apply State.FollowsL.bind | intro _
    | dsimp only
    | split

@[simp] theorem execForecastBatch_follows {s0 s : State} {a0 a1 a2} (h : s0.Follows s) :
    s0.FollowsR (execForecastBatch a0 a1 a2 s) := by
  simp (maxDischargeDepth := 30) +contextual [execForecastBatch, h]

@[simp] theorem State.endBatch_follows {s0 s : State} {a0} (h : s0.Follows s) :
    s0.Follows (State.endBatch s a0) := by
  unfold State.endBatch; dsimp only; (repeat' split) <;> simp (maxDischargeDepth := 30) +contextual [h]

@[simp] theorem State.batchTick_follows {s0 s : State} (h : s0.Follows s) :
    s0.Follows (State.batchTick s) := by
  unfold State.batchTick
  repeat' first
    | with_reducible first | assumption | apply State.endBatch_follows | apply State.setDeck_follows | apply State.FollowsR.go | apply State.FollowsP.go | apply State.FollowsO.some | apply State.FollowsO.none | apply State.Follows.ite | apply State.FollowsO.ite | apply State.Follows.foldl | intro _
    | dsimp only
    | split
    | refine State.FollowsO.of ?_ (by assumption)
    | refine State.Follows.of2 ?_ (by assumption)
    | with_reducible first | refine State.Follows.make ?_ rfl rfl rfl rfl | refine State.Follows.draw ?_ rfl rfl rfl rfl

@[simp] theorem execFrameStart_follows {s0 s : State} {a0} (h : s0.Follows s) :
    s0.FollowsP (execFrameStart a0 s) := by
  unfold execFrameStart; dsimp only; (repeat' split) <;> simp (maxDischargeDepth := 30) +contextual [h]

end Sys2Proof.Machine
end

