-- ==== Sys2Proof/Laws/FollowsHost.lean ====
section
/-! SUPPORT. One lemma per operation: the state it answers follows the one it is given (the host address map and the host commands). -/

namespace Sys2Proof.Machine

/-- The state of a command's answer follows. -/
structure State.FollowsA (s : State) (x : CmdAnswer) : Prop where
  next : ∀ a b t, x = some (a, b, t) → s.Follows t

theorem State.FollowsA.of {s t : State} {x : CmdAnswer} {a : Byte} {b : W64} (h : s.FollowsA x) (e : x = Option.some (a, b, t)) :
    s.Follows t := h.next a b t e
@[simp] theorem State.FollowsA.some {s t : State} {a : Byte} {b : W64} (h : s.Follows t) : s.FollowsA (some (a, b, t)) :=
  ⟨fun _ _ _ e => by cases e; exact h⟩
@[simp] theorem State.FollowsA.none (s : State) : s.FollowsA none := ⟨fun _ _ _ e => by cases e⟩
@[simp] theorem State.FollowsA.ite {c : Prop} [Decidable c] {s : State} {x y : CmdAnswer} (h : s.FollowsA x) (k : s.FollowsA y) :
    s.FollowsA (if c then x else y) := by split <;> assumption

@[simp] theorem State.setOwner_follows {s0 s : State} {a0} (h : s0.Follows s) :
    s0.Follows (State.setOwner s a0) := by
  simp [State.setOwner, h]

@[simp] theorem State.lapse_follows {s0 s : State} (h : s0.Follows s) :
    s0.Follows (State.lapse s) := by
  simp (maxDischargeDepth := 30) [State.lapse, h]

@[simp] theorem State.wOwnGrant_follows {s0 s : State} {a0 a1} (h : s0.Follows s) :
    s0.FollowsO (State.wOwnGrant s a0 a1) := by
  simp (maxDischargeDepth := 30) [State.wOwnGrant, h]

@[simp] theorem State.wTwin_follows {s0 s : State} {a0 a1} (h : s0.Follows s) :
    s0.FollowsO (State.wTwin s a0 a1) := by
  simp (maxDischargeDepth := 30) [State.wTwin, h]

@[simp] theorem State.openSession_follows {s0 s : State} {a0 a1 a2} (h : s0.Follows s) :
    s0.Follows (State.openSession s a0 a1 a2) := by
  simp [State.openSession, h]

@[simp] theorem State.closeSession_follows {s0 s : State} {a0} (h : s0.Follows s) :
    s0.Follows (State.closeSession s a0) := by
  simp (maxDischargeDepth := 30) [State.closeSession, h]

@[simp] theorem State.wRing_follows {s0 s : State} {a0 a1 a2} (h : s0.Follows s) :
    s0.FollowsO (State.wRing s a0 a1 a2) := by
  unfold State.wRing
  repeat' first
    | with_reducible first | assumption | apply State.modSession_follows | apply State.FollowsR.go | apply State.Follows.ite | apply State.Follows.foldl | apply State.FollowsL.ok | apply State.FollowsL.hold | apply State.FollowsL.fault | apply State.FollowsL.ite | apply State.FollowsL.bind | apply State.FollowsO.none | apply State.FollowsO.some | apply State.FollowsO.ite | apply State.FollowsO.getD | intro _
    | dsimp only
    | split

@[simp] theorem State.wNotice_follows {s0 s : State} {a0 a1 a2} (h : s0.Follows s) :
    s0.FollowsO (State.wNotice s a0 a1 a2) := by
  unfold State.wNotice
  repeat' first
    | with_reducible first | assumption | apply State.modSession_follows | apply State.FollowsR.go | apply State.Follows.ite | apply State.Follows.foldl | apply State.FollowsL.ok | apply State.FollowsL.hold | apply State.FollowsL.fault | apply State.FollowsL.ite | apply State.FollowsL.bind | apply State.FollowsO.none | apply State.FollowsO.some | apply State.FollowsO.ite | apply State.FollowsO.getD | intro _
    | dsimp only
    | split

@[simp] theorem State.wDoorbell_follows {s0 s : State} {a0 a1} (h : s0.Follows s) :
    s0.FollowsO (State.wDoorbell s a0 a1) := by
  simp (maxDischargeDepth := 30) [State.wDoorbell, h]

@[simp] theorem State.putCompletion_follows {s0 s : State} {a0 a1 a2} (h : s0.Follows s) :
    s0.Follows (State.putCompletion s a0 a1 a2) := by
  simp [State.putCompletion, h]

@[simp] theorem State.wCplHead_follows {s0 s : State} {a0 a1} (h : s0.Follows s) :
    s0.Follows (State.wCplHead s a0 a1) := by
  unfold State.wCplHead; dsimp only; (repeat' split) <;> simp (maxDischargeDepth := 30) +contextual [h]

@[simp] theorem State.wSess_follows {s0 s : State} {a0 a1 a2} (h : s0.Follows s) :
    s0.FollowsO (State.wSess s a0 a1 a2) := by
  unfold State.wSess; dsimp only; (repeat' split) <;> simp (maxDischargeDepth := 30) +contextual [h]

@[simp] theorem State.readClaim_follows {s0 s : State} {a0} (h : s0.Follows s) :
    s0.Follows (State.readClaim s a0).2 := by
  unfold State.readClaim
  repeat' first
    | with_reducible first | assumption | apply State.setOwner_follows | apply State.FollowsR.go | apply State.Follows.ite | apply State.Follows.foldl | apply State.FollowsL.ok | apply State.FollowsL.hold | apply State.FollowsL.fault | apply State.FollowsL.ite | apply State.FollowsL.bind | intro _
    | dsimp only
    | split

@[simp] theorem State.readLease_follows {s0 s : State} {a0} (h : s0.Follows s) :
    s0.Follows (State.readLease s a0).2 := by
  unfold State.readLease
  repeat' first
    | with_reducible first | assumption | apply State.FollowsR.go | apply State.Follows.ite | apply State.Follows.foldl | apply State.FollowsL.ok | apply State.FollowsL.hold | apply State.FollowsL.fault | apply State.FollowsL.ite | apply State.FollowsL.bind | intro _
    | dsimp only
    | split
    | refine State.FollowsO.of ?_ (by assumption)
    | refine State.FollowsL.of ?_ (by assumption)
    | refine State.Follows.of2 ?_ (by assumption)
    | with_reducible first | refine State.Follows.make ?_ rfl rfl rfl rfl

@[simp] theorem State.hostRead_follows {s0 s : State} {a0 a1} (h : s0.Follows s) :
    s0.Follows (State.hostRead s a0 a1).2 := by
  unfold State.hostRead
  repeat' first
    | with_reducible first | assumption | apply State.readClaim_follows | apply State.readLease_follows | apply State.mbxClaim_follows | apply State.FollowsR.go | apply State.Follows.ite | apply State.Follows.foldl | apply State.FollowsL.ok | apply State.FollowsL.hold | apply State.FollowsL.fault | apply State.FollowsL.ite | apply State.FollowsL.bind | intro _
    | dsimp only
    | split

@[simp] theorem State.setOwn_follows {s0 s : State} {a0} (h : s0.Follows s) :
    s0.Follows (State.setOwn s a0) := by
  simp [State.setOwn, h]

@[simp] theorem State.wIdent_follows {s0 s : State} {a0 a1 a2} (h : s0.Follows s) :
    s0.FollowsO (State.wIdent s a0 a1 a2) := by
  unfold State.wIdent
  repeat' first
    | with_reducible first | assumption | apply State.setOwn_follows | apply State.setRst_follows | apply State.wRstReq_follows | apply State.wBlock_follows | apply State.wRetire_follows | apply State.setBring_follows | apply State.wOwnGrant_follows | apply State.wTwin_follows | apply State.FollowsR.go | apply State.Follows.ite | apply State.Follows.foldl | apply State.FollowsL.ok | apply State.FollowsL.hold | apply State.FollowsL.fault | apply State.FollowsL.ite | apply State.FollowsL.bind | apply State.FollowsO.none | apply State.FollowsO.some | apply State.FollowsO.ite | apply State.FollowsO.getD | intro _
    | dsimp only
    | split

@[simp] theorem State.wFold_follows {s0 s : State} {a0 a1} (h : s0.Follows s) :
    s0.FollowsO (State.wFold s a0 a1) := by
  unfold State.wFold
  repeat' first
    | with_reducible first | assumption | apply State.setFold_follows | apply State.wBudget_follows | apply State.FollowsR.go | apply State.Follows.ite | apply State.Follows.foldl | apply State.FollowsL.ok | apply State.FollowsL.hold | apply State.FollowsL.fault | apply State.FollowsL.ite | apply State.FollowsL.bind | apply State.FollowsO.none | apply State.FollowsO.some | apply State.FollowsO.ite | apply State.FollowsO.getD | intro _
    | dsimp only
    | split

@[simp] theorem State.wAsy_follows {s0 s : State} {a0 a1 a2} (h : s0.Follows s) :
    s0.FollowsO (State.wAsy s a0 a1 a2) := by
  unfold State.wAsy
  repeat' first
    | with_reducible first | assumption | apply State.setAsy_follows | apply State.setVbat_follows | apply State.wProvUnlock_follows | apply State.wRollfwd_follows | apply State.wExtendGo_follows | apply State.wSetGen_follows | apply State.wXferAllow_follows | apply State.wXferReq_follows | apply State.FollowsR.go | apply State.Follows.ite | apply State.Follows.foldl | apply State.FollowsL.ok | apply State.FollowsL.hold | apply State.FollowsL.fault | apply State.FollowsL.ite | apply State.FollowsL.bind | apply State.FollowsO.none | apply State.FollowsO.some | apply State.FollowsO.ite | apply State.FollowsO.getD | intro _
    | dsimp only
    | split

@[simp] theorem State.wAlloc_follows {s0 s : State} {a0 a1} (h : s0.Follows s) :
    s0.FollowsO (State.wAlloc s a0 a1) := by
  unfold State.wAlloc
  repeat' first
    | with_reducible first | assumption | apply State.modAlloc_follows | apply State.wAllocTenant_follows | apply State.wGrant_follows | apply State.wRelease_follows | apply State.FollowsR.go | apply State.Follows.ite | apply State.Follows.foldl | apply State.FollowsL.ok | apply State.FollowsL.hold | apply State.FollowsL.fault | apply State.FollowsL.ite | apply State.FollowsL.bind | apply State.FollowsO.none | apply State.FollowsO.some | apply State.FollowsO.ite | apply State.FollowsO.getD | intro _
    | dsimp only
    | split

@[simp] theorem State.wFlags_follows {s0 s : State} {a0 a1} (h : s0.Follows s) :
    s0.FollowsO (State.wFlags s a0 a1) := by
  unfold State.wFlags
  repeat' first
    | with_reducible first | assumption | apply State.setVbat_follows | apply State.ignoreBy_follows | apply State.FollowsR.go | apply State.Follows.ite | apply State.Follows.foldl | apply State.FollowsL.ok | apply State.FollowsL.hold | apply State.FollowsL.fault | apply State.FollowsL.ite | apply State.FollowsL.bind | apply State.FollowsO.none | apply State.FollowsO.some | apply State.FollowsO.ite

@[simp] theorem State.wTamper_follows {s0 s : State} {a0 a1} (h : s0.Follows s) :
    s0.FollowsO (State.wTamper s a0 a1) := by
  unfold State.wTamper
  repeat' first
    | with_reducible first | assumption | apply State.setVbat_follows | apply State.wHeldClear_follows | apply State.ignoreBy_follows | apply State.FollowsO.getD | dsimp only | apply State.FollowsR.go | apply State.Follows.ite | apply State.Follows.foldl | apply State.FollowsL.ok | apply State.FollowsL.hold | apply State.FollowsL.fault | apply State.FollowsL.ite | apply State.FollowsL.bind | apply State.FollowsO.none | apply State.FollowsO.some | apply State.FollowsO.ite

@[simp] theorem State.wVbat_follows {s0 s : State} {a0 a1 a2} (h : s0.Follows s) :
    s0.FollowsO (State.wVbat s a0 a1 a2) := by
  unfold State.wVbat
  repeat' first
    | with_reducible first | assumption | apply State.wRtcSet_follows | apply State.wFlags_follows | apply State.wTamper_follows | apply State.wMonoInc_follows | apply State.FollowsR.go | apply State.Follows.ite | apply State.Follows.foldl | apply State.FollowsL.ok | apply State.FollowsL.hold | apply State.FollowsL.fault | apply State.FollowsL.ite | apply State.FollowsL.bind | apply State.FollowsO.none | apply State.FollowsO.some | apply State.FollowsO.ite | apply State.FollowsO.getD | intro _
    | dsimp only
    | split

@[simp] theorem State.wRail_follows {s0 s : State} {a0 a1} (h : s0.Follows s) :
    s0.FollowsO (State.wRail s a0 a1) := by
  simp (maxDischargeDepth := 30) [State.wRail, h]

@[simp] theorem State.wPlat_follows {s0 s : State} {a0 a1} (h : s0.Follows s) :
    s0.FollowsO (State.wPlat s a0 a1) := by
  unfold State.wPlat
  repeat' first
    | with_reducible first | assumption | apply State.setPwr_follows | apply State.setPins_follows | apply State.wRail_follows | apply State.wPwrLimit_follows | apply State.wPwrPeak_follows | apply State.wCause_follows | apply State.FollowsR.go | apply State.Follows.ite | apply State.Follows.foldl | apply State.FollowsL.ok | apply State.FollowsL.hold | apply State.FollowsL.fault | apply State.FollowsL.ite | apply State.FollowsL.bind | apply State.FollowsO.none | apply State.FollowsO.some | apply State.FollowsO.ite | apply State.FollowsO.getD | intro _
    | dsimp only
    | split

@[simp] theorem State.wSram_follows {s0 s : State} {a0 a1} (h : s0.Follows s) :
    s0.FollowsO (State.wSram s a0 a1) := by
  exact State.FollowsO.some (State.dirty_follows (h.memUpd rfl rfl rfl fun k => ⟨k.1, k.2.1, k.2.2.1, Mem.wf_writeLE _ _ _ k.2.2.2⟩))

@[simp] theorem State.wAperture_follows {s0 s : State} {a0 a1} (h : s0.Follows s) :
    s0.FollowsO (State.wAperture s a0 a1) := by
  simp (maxDischargeDepth := 30) [State.wAperture, h]

@[simp] theorem State.hostWrite_follows {s0 s : State} {a0 a1 a2} (h : s0.Follows s) :
    s0.FollowsO (State.hostWrite s a0 a1 a2) := by
  simp (maxDischargeDepth := 30) [State.hostWrite, h]

@[simp] theorem State.writePart_follows {s0 s : State} {a0 a1 a2} (h : s0.Follows s) :
    s0.FollowsO (State.writePart s a0 a1 a2) := by
  simp (maxDischargeDepth := 30) +contextual [State.writePart, h]

@[simp] theorem State.writeSplit_follows {s0 s : State} {a0 a1 a2} (h : s0.Follows s) :
    s0.Follows (State.writeSplit s a0 a1 a2) := by
  simp (maxDischargeDepth := 30) +contextual [State.writeSplit, h]

@[simp] theorem execRegWrite_follows {s0 s : State} {a0 a1 a2} (h : s0.Follows s) :
    s0.FollowsR (execRegWrite a0 a1 a2 s) := by
  simp (maxDischargeDepth := 30) +contextual [execRegWrite, h]

@[simp] theorem execIgnoredClr_follows {s0 s : State} {a0 a1} (h : s0.Follows s) :
    s0.FollowsR (execIgnoredClr a0 a1 s) := by
  unfold execIgnoredClr
  repeat' first
    | with_reducible first | assumption | apply State.ownerWrite_follows | apply State.wIdent_follows | apply State.FollowsR.go | apply State.Follows.ite | apply State.Follows.foldl | apply State.FollowsL.ok | apply State.FollowsL.hold | apply State.FollowsL.fault | apply State.FollowsL.ite | apply State.FollowsL.bind | apply State.FollowsO.none | apply State.FollowsO.some | apply State.FollowsO.ite | apply State.FollowsO.getD | intro _

@[simp] theorem execDepotApertureAccess_follows {s0 s : State} {a0 a1 a2} (h : s0.Follows s) :
    s0.FollowsR (execDepotApertureAccess a0 a1 a2 s) := by
  unfold execDepotApertureAccess
  repeat' first
    | with_reducible first | assumption | apply State.writeSplit_follows | apply State.ownerWrite_follows | apply State.emit_follows | apply State.FollowsR.go | apply State.FollowsP.go | apply State.FollowsO.some | apply State.FollowsO.none | apply State.Follows.ite | apply State.FollowsO.ite | apply State.Follows.foldl | intro _
    | dsimp only
    | split
    | refine State.FollowsO.of ?_ (by assumption)
    | refine State.Follows.of2 ?_ (by assumption)
    | with_reducible first | refine State.Follows.make ?_ rfl rfl rfl rfl | refine State.Follows.draw ?_ rfl rfl rfl rfl

@[simp] theorem execPcieLinkUp_follows {s0 s : State} {a0} (h : s0.Follows s) :
    s0.FollowsR (execPcieLinkUp a0 s) := by
  simp (maxDischargeDepth := 30) [execPcieLinkUp, h]

@[simp] theorem execPcieLinkDownExpire_follows {s0 s : State} {a0} (h : s0.Follows s) :
    s0.FollowsR (execPcieLinkDownExpire a0 s) := by
  simp (maxDischargeDepth := 30) [execPcieLinkDownExpire, h]

@[simp] theorem execPerst_follows {s0 s : State} {a0} (h : s0.Follows s) :
    s0.FollowsR (execPerst a0 s) := by
  simp (maxDischargeDepth := 30) [execPerst, h]

@[simp] theorem execDtlsHandshake_follows {s0 s : State} {a0 a1 a2} (h : s0.Follows s) :
    s0.FollowsR (execDtlsHandshake a0 a1 a2 s) := by
  unfold execDtlsHandshake; dsimp only; (repeat' split) <;> simp (maxDischargeDepth := 30) +contextual [h]

@[simp] theorem execDtlsResume_follows {s0 s : State} {a0 a1} (h : s0.Follows s) :
    s0.FollowsR (execDtlsResume a0 a1 s) := by
  simp (maxDischargeDepth := 30) [execDtlsResume, h]

@[simp] theorem execDtlsCloseNotify_follows {s0 s : State} {a0} (h : s0.Follows s) :
    s0.FollowsR (execDtlsCloseNotify a0 s) := by
  simp (maxDischargeDepth := 30) [execDtlsCloseNotify, h]

@[simp] theorem execSessionLeaseExpire_follows {s0 s : State} {a0} (h : s0.Follows s) :
    s0.FollowsR (execSessionLeaseExpire a0 s) := by
  simp (maxDischargeDepth := 30) [execSessionLeaseExpire, h]

@[simp] theorem execOwnerClaim_follows {s0 s : State} {a0} (h : s0.Follows s) :
    s0.FollowsR (execOwnerClaim a0 s) := by
  simp (maxDischargeDepth := 30) [execOwnerClaim, h]

@[simp] theorem execLeaseLeftRead_follows {s0 s : State} {a0} (h : s0.Follows s) :
    s0.FollowsR (execLeaseLeftRead a0 s) := by
  simp (maxDischargeDepth := 30) [execLeaseLeftRead, h]

@[simp] theorem execGrant_follows {s0 s : State} {a0 a1} (h : s0.Follows s) :
    s0.FollowsR (execGrant a0 a1 s) := by
  unfold execGrant
  repeat' first
    | with_reducible first | assumption | apply State.ownerWrite_follows | apply State.wOwnGrant_follows | apply State.FollowsR.go | apply State.Follows.ite | apply State.Follows.foldl | apply State.FollowsL.ok | apply State.FollowsL.hold | apply State.FollowsL.fault | apply State.FollowsL.ite | apply State.FollowsL.bind | apply State.FollowsO.none | apply State.FollowsO.some | apply State.FollowsO.ite | apply State.FollowsO.getD | intro _

@[simp] theorem execTwinSet_follows {s0 s : State} {a0 a1} (h : s0.Follows s) :
    s0.FollowsR (execTwinSet a0 a1 s) := by
  unfold execTwinSet
  repeat' first
    | with_reducible first | assumption | apply State.ownerWrite_follows | apply State.wTwin_follows | apply State.FollowsR.go | apply State.Follows.ite | apply State.Follows.foldl | apply State.FollowsL.ok | apply State.FollowsL.hold | apply State.FollowsL.fault | apply State.FollowsL.ite | apply State.FollowsL.bind | apply State.FollowsO.none | apply State.FollowsO.some | apply State.FollowsO.ite | apply State.FollowsO.getD | intro _

@[simp] theorem execOwnerLeaseExpire_follows {s0 s : State} (h : s0.Follows s) :
    s0.FollowsR (execOwnerLeaseExpire s) := by
  simp [execOwnerLeaseExpire, h]

@[simp] theorem execRingConfigWrite_follows {s0 s : State} {a0 a1 a2 a3} (h : s0.Follows s) :
    s0.FollowsR (execRingConfigWrite a0 a1 a2 a3 s) := by
  unfold execRingConfigWrite
  repeat' first
    | with_reducible first | assumption | apply State.ownerWrite_follows | apply State.wRing_follows | apply State.FollowsR.go | apply State.Follows.ite | apply State.Follows.foldl | apply State.FollowsL.ok | apply State.FollowsL.hold | apply State.FollowsL.fault | apply State.FollowsL.ite | apply State.FollowsL.bind | apply State.FollowsO.none | apply State.FollowsO.some | apply State.FollowsO.ite | apply State.FollowsO.getD | intro _

@[simp] theorem execNoticeRingConfigWrite_follows {s0 s : State} {a0 a1 a2 a3} (h : s0.Follows s) :
    s0.FollowsR (execNoticeRingConfigWrite a0 a1 a2 a3 s) := by
  unfold execNoticeRingConfigWrite
  repeat' first
    | with_reducible first | assumption | apply State.ownerWrite_follows | apply State.wNotice_follows | apply State.FollowsR.go | apply State.Follows.ite | apply State.Follows.foldl | apply State.FollowsL.ok | apply State.FollowsL.hold | apply State.FollowsL.fault | apply State.FollowsL.ite | apply State.FollowsL.bind | apply State.FollowsO.none | apply State.FollowsO.some | apply State.FollowsO.ite | apply State.FollowsO.getD | intro _

@[simp] theorem execCqDoorbell_follows {s0 s : State} {a0 a1 a2} (h : s0.Follows s) :
    s0.FollowsR (execCqDoorbell a0 a1 a2 s) := by
  unfold execCqDoorbell
  repeat' first
    | with_reducible first | assumption | apply State.ownerWrite_follows | apply State.wDoorbell_follows | apply State.FollowsR.go | apply State.Follows.ite | apply State.Follows.foldl | apply State.FollowsL.ok | apply State.FollowsL.hold | apply State.FollowsL.fault | apply State.FollowsL.ite | apply State.FollowsL.bind | apply State.FollowsO.none | apply State.FollowsO.some | apply State.FollowsO.ite | apply State.FollowsO.getD | intro _

@[simp] theorem State.readWords_follows {s0 s : State} {a0 a1 a2} (h : s0.Follows s) :
    s0.Follows (State.readWords s a0 a1 a2).2 := by
  induction a2 generalizing s a1 with
  | zero => exact h
  | succ n ih => exact ih (State.hostRead_follows h)

@[simp] theorem State.writeWords_follows {s0 s : State} {a0 a1 a2 a3} (h : s0.Follows s) :
    s0.Follows (State.writeWords s a0 a1 a2 a3).2 := by
  induction a3 generalizing s a1 a2 with
  | zero => exact h
  | succ n ih =>
    refine ih (State.FollowsO.getD ?_ (State.ignoreBy_follows h))
    exact State.FollowsO.ite (State.hostWrite_follows h) (State.FollowsO.none _)

@[simp] theorem State.respond_follows {s0 s : State} {a0 a1 a2 a3} (h : s0.Follows s) :
    s0.Follows (State.respond s a0 a1 a2 a3) := by
  simp [State.respond, h]

@[simp] theorem State.message_follows {s0 s : State} {a0 a1 a2} {a3 : State → State} (h : s0.Follows s) (ha3 : ∀ u, s0.Follows u → s0.Follows (a3 u)) :
    s0.Follows (State.message s a0 a1 a2 a3) := by
  unfold State.message
  repeat' first
    | with_reducible first | assumption | apply State.emit_follows | apply State.respond_follows | apply State.FollowsR.go | apply State.Follows.ite | apply State.Follows.foldl | apply State.FollowsL.ok | apply State.FollowsL.hold | apply State.FollowsL.fault | apply State.FollowsL.ite | apply State.FollowsL.bind | apply ha3 | intro _
    | dsimp only
    | split

@[simp] theorem State.datagram_follows {s0 s : State} {a0 a1} {a2 : Datagram → State} (h : s0.Follows s)
    (ha2 : ∀ m, s0.Follows (a2 m)) : s0.Follows (State.datagram s a0 a1 a2) := by
  unfold State.datagram
  split
  · exact ha2 _
  · exact State.Follows.ite h (State.ignore_follows h)

@[simp] theorem execSessionRead_follows {s0 s : State} {a0 a1} (h : s0.Follows s) :
    s0.FollowsR (execSessionRead a0 a1 s) :=
  State.FollowsR.go (State.datagram_follows h fun _ => State.message_follows h fun _ hu => State.respond_follows (State.readWords_follows hu))

@[simp] theorem execSessionWrite_follows {s0 s : State} {a0 a1} (h : s0.Follows s) :
    s0.FollowsR (execSessionWrite a0 a1 s) :=
  State.FollowsR.go (State.datagram_follows h fun _ => State.message_follows h fun _ hu => State.respond_follows (State.writeWords_follows hu))

@[simp] theorem execSessionHeartbeat_follows {s0 s : State} {a0 a1} (h : s0.Follows s) :
    s0.FollowsR (execSessionHeartbeat a0 a1 s) :=
  State.FollowsR.go (State.datagram_follows h fun _ => State.message_follows h fun _ hu => State.respond_follows hu)

@[simp] theorem execMctpMessage_follows {s0 s : State} {a0} (h : s0.Follows s) :
    s0.FollowsR (execMctpMessage a0 s) := by
  unfold execMctpMessage
  repeat' first
    | with_reducible first | assumption | apply State.emit_follows | apply State.spdmAnswer_follows | apply State.setOwn_follows | apply State.FollowsR.go | apply State.Follows.ite | apply State.Follows.foldl | apply State.FollowsL.ok | apply State.FollowsL.hold | apply State.FollowsL.fault | apply State.FollowsL.ite | apply State.FollowsL.bind | intro _
    | dsimp only
    | split

@[simp] theorem execMctpTimeout_follows {s0 s : State} (h : s0.Follows s) :
    s0.FollowsR (execMctpTimeout s) := by
  simp [execMctpTimeout, h]

@[simp] theorem State.complete_follows {s0 s : State} {a0 a1 a2} (h : s0.Follows s) :
    s0.Follows (State.complete s a0 a1 a2) := by
  simp [State.complete, h]

@[simp] theorem execHostCommandStart_follows {s0 s : State} {a0} (h : s0.Follows s) :
    s0.FollowsR (execHostCommandStart a0 s) := by
  unfold execHostCommandStart
  repeat' first
    | with_reducible first | assumption | apply State.modSession_follows | apply State.complete_follows | apply State.FollowsR.go | apply State.Follows.ite | apply State.Follows.foldl | apply State.FollowsL.ok | apply State.FollowsL.hold | apply State.FollowsL.fault | apply State.FollowsL.ite | apply State.FollowsL.bind | apply State.FollowsA.none | apply State.FollowsA.some | apply State.FollowsA.ite | intro _
    | dsimp only
    | split

@[simp] theorem cmdOk_follows {s0 s : State} (h : s0.Follows s) :
    s0.FollowsA (cmdOk s) := by
  simp [cmdOk, h]

@[simp] theorem cmdBad_follows {s0 s : State} (h : s0.Follows s) :
    s0.FollowsA (cmdBad s) := by
  simp [cmdBad, h]

@[simp] theorem State.hostCmd_follows {s0 s : State} {a0 a1} {a2 : State → BitVec 512 → CmdAnswer} (h : s0.Follows s) (ha2 : ∀ u b0, s0.Follows u → s0.FollowsA (a2 u b0)) :
    s0.Follows (State.hostCmd s a0 a1 a2) := by
  unfold State.hostCmd
  repeat' first
    | with_reducible first | assumption | apply cmdBad_follows | apply State.complete_follows | apply State.FollowsR.go | apply State.Follows.ite | apply State.Follows.foldl | apply State.FollowsL.ok | apply State.FollowsL.hold | apply State.FollowsL.fault | apply State.FollowsL.ite | apply State.FollowsL.bind | apply State.FollowsA.none | apply State.FollowsA.some | apply State.FollowsA.ite | apply ha2 | intro _
    | dsimp only
    | split
    | refine State.FollowsO.of ?_ (by assumption)
    | refine State.FollowsL.of ?_ (by assumption)
    | refine State.FollowsA.of ?_ (by assumption)

@[simp] theorem State.loadInstr_follows {s0 s : State} {a0 a1} (h : s0.Follows s) :
    s0.Follows (State.loadInstr s a0 a1) := by
  induction a1 generalizing s a0 with
  | nil => exact h
  | cons w ws ih => exact ih (State.journal_follows (h.upd rfl rfl rfl rfl rfl rfl rfl))

@[simp] theorem State.cmdLoadi_follows {s0 s : State} {a0} (h : s0.Follows s) :
    s0.FollowsA (State.cmdLoadi s a0) := by
  simp (maxDischargeDepth := 30) [State.cmdLoadi, h]

@[simp] theorem State.cmdDload_follows {s0 s : State} {a0} (h : s0.Follows s) :
    s0.FollowsA (State.cmdDload s a0) := by
  unfold State.cmdDload
  repeat' first
    | with_reducible first | assumption | apply cmdBad_follows | apply cmdOk_follows | apply State.dsWrite_follows | apply State.FollowsR.go | apply State.Follows.ite | apply State.Follows.foldl | apply State.FollowsL.ok | apply State.FollowsL.hold | apply State.FollowsL.fault | apply State.FollowsL.ite | apply State.FollowsL.bind | apply State.FollowsA.none | apply State.FollowsA.some | apply State.FollowsA.ite | intro _
    | dsimp only
    | split

@[simp] theorem State.cmdDsave_follows {s0 s : State} {a0} (h : s0.Follows s) :
    s0.FollowsA (State.cmdDsave s a0) := by
  unfold State.cmdDsave
  repeat' first
    | with_reducible first | assumption | apply cmdBad_follows | apply cmdOk_follows | apply State.depWrite_follows | apply State.FollowsR.go | apply State.Follows.ite | apply State.Follows.foldl | apply State.FollowsL.ok | apply State.FollowsL.hold | apply State.FollowsL.fault | apply State.FollowsL.ite | apply State.FollowsL.bind | apply State.FollowsA.none | apply State.FollowsA.some | apply State.FollowsA.ite | intro _
    | dsimp only
    | split

@[simp] theorem State.cmdStart_follows {s0 s : State} {a0} (h : s0.Follows s) :
    s0.FollowsA (State.cmdStart s a0) := by
  simp (maxDischargeDepth := 30) [State.cmdStart, h]

@[simp] theorem State.cmdStop_follows {s0 s : State} {a0} (h : s0.Follows s) :
    s0.FollowsA (State.cmdStop s a0) := by
  simp (maxDischargeDepth := 30) [State.cmdStop, h]

@[simp] theorem State.cmdClear_follows {s0 s : State} {a0} (h : s0.Follows s) :
    s0.FollowsA (State.cmdClear s a0) := by
  simp (maxDischargeDepth := 30) [State.cmdClear, h]

@[simp] theorem State.cmdBindr_follows {s0 s : State} {a0} (h : s0.Follows s) :
    s0.FollowsA (State.cmdBindr s a0) := by
  simp (maxDischargeDepth := 30) [State.cmdBindr, h]

@[simp] theorem State.cmdUnbindr_follows {s0 s : State} {a0} (h : s0.Follows s) :
    s0.FollowsA (State.cmdUnbindr s a0) := by
  unfold State.cmdUnbindr
  repeat' first
    | with_reducible first | assumption | apply State.stream_follows | apply cmdOk_follows | apply State.setBinding_follows | apply State.FollowsR.go | apply State.Follows.ite | apply State.Follows.foldl | apply State.FollowsL.ok | apply State.FollowsL.hold | apply State.FollowsL.fault | apply State.FollowsL.ite | apply State.FollowsL.bind | apply State.FollowsA.none | apply State.FollowsA.some | apply State.FollowsA.ite | intro _
    | dsimp only
    | split
    | refine State.FollowsO.of ?_ (by assumption)
    | refine State.FollowsL.of ?_ (by assumption)
    | refine State.FollowsA.of ?_ (by assumption)
    | refine State.Follows.of2 ?_ (by assumption)
    | with_reducible first | refine State.Follows.make ?_ rfl rfl rfl rfl

@[simp] theorem State.cmdPlan_follows {s0 s : State} {a0} (h : s0.Follows s) :
    s0.FollowsA (State.cmdPlan s a0) := by
  unfold State.cmdPlan
  repeat' first
    | with_reducible first | assumption | apply cmdBad_follows | apply cmdOk_follows | apply State.stream_follows | apply State.bindPlan_follows | apply State.FollowsR.go | apply State.Follows.ite | apply State.Follows.foldl | apply State.FollowsL.ok | apply State.FollowsL.hold | apply State.FollowsL.fault | apply State.FollowsL.ite | apply State.FollowsL.bind | apply State.FollowsA.none | apply State.FollowsA.some | apply State.FollowsA.ite | intro _
    | dsimp only
    | split

@[simp] theorem State.cmdKitty_follows {s0 s : State} {a0} (h : s0.Follows s) :
    s0.FollowsA (State.cmdKitty s a0) := by
  unfold State.cmdKitty
  repeat' first
    | with_reducible first | assumption | apply cmdBad_follows | apply cmdOk_follows | apply State.stream_follows | apply State.FollowsR.go | apply State.Follows.ite | apply State.Follows.foldl | apply State.FollowsL.ok | apply State.FollowsL.hold | apply State.FollowsL.fault | apply State.FollowsL.ite | apply State.FollowsL.bind | apply State.FollowsA.none | apply State.FollowsA.some | apply State.FollowsA.ite | intro _
    | dsimp only
    | split
    | refine State.FollowsO.of ?_ (by assumption)
    | refine State.FollowsL.of ?_ (by assumption)
    | refine State.FollowsA.of ?_ (by assumption)
    | refine State.Follows.of2 ?_ (by assumption)
    | with_reducible first | refine State.Follows.make ?_ rfl rfl rfl rfl

@[simp] theorem State.journalRunning_follows {s0 s : State} (h : s0.Follows s) :
    s0.Follows (State.journalRunning s) := by
  simp (maxDischargeDepth := 30) +contextual [State.journalRunning, h]

@[simp] theorem State.cmdHandover_follows {s0 s : State} (h : s0.Follows s) :
    s0.FollowsA (State.cmdHandover s) := by
  simp (maxDischargeDepth := 30) [State.cmdHandover, h]

@[simp] theorem State.cmdSolo_follows {s0 s : State} {a0} (h : s0.Follows s) :
    s0.FollowsA (State.cmdSolo s a0) := by
  unfold State.cmdSolo
  repeat' first
    | with_reducible first | assumption | apply cmdOk_follows | apply State.setPair_follows | apply cmdBad_follows | apply State.FollowsR.go | apply State.Follows.ite | apply State.Follows.foldl | apply State.FollowsL.ok | apply State.FollowsL.hold | apply State.FollowsL.fault | apply State.FollowsL.ite | apply State.FollowsL.bind | apply State.FollowsA.none | apply State.FollowsA.some | apply State.FollowsA.ite | intro _
    | dsimp only
    | split

@[simp] theorem State.cmdResume_follows {s0 s : State} (h : s0.Follows s) :
    s0.FollowsA (State.cmdResume s) := by
  simp (maxDischargeDepth := 30) [State.cmdResume, h]

@[simp] theorem execLoadi_follows {s0 s : State} {a0} (h : s0.Follows s) :
    s0.FollowsR (execLoadi a0 s) := by
  unfold execLoadi
  repeat' first
    | with_reducible first | assumption | apply State.hostCmd_follows | apply State.cmdLoadi_follows | apply State.FollowsR.go

@[simp] theorem execDload_follows {s0 s : State} {a0} (h : s0.Follows s) :
    s0.FollowsR (execDload a0 s) := by
  unfold execDload
  repeat' first
    | with_reducible first | assumption | apply State.hostCmd_follows | apply State.cmdDload_follows | apply State.FollowsR.go

@[simp] theorem execDsave_follows {s0 s : State} {a0} (h : s0.Follows s) :
    s0.FollowsR (execDsave a0 s) := by
  unfold execDsave
  repeat' first
    | with_reducible first | assumption | apply State.hostCmd_follows | apply State.cmdDsave_follows | apply State.FollowsR.go

@[simp] theorem execStart_follows {s0 s : State} {a0} (h : s0.Follows s) :
    s0.FollowsR (execStart a0 s) := by
  unfold execStart
  repeat' first
    | with_reducible first | assumption | apply State.hostCmd_follows | apply State.cmdStart_follows | apply State.FollowsR.go

@[simp] theorem execStop_follows {s0 s : State} {a0} (h : s0.Follows s) :
    s0.FollowsR (execStop a0 s) := by
  unfold execStop
  repeat' first
    | with_reducible first | assumption | apply State.hostCmd_follows | apply State.cmdStop_follows | apply State.FollowsR.go

@[simp] theorem execClear_follows {s0 s : State} {a0} (h : s0.Follows s) :
    s0.FollowsR (execClear a0 s) := by
  unfold execClear
  repeat' first
    | with_reducible first | assumption | apply State.hostCmd_follows | apply State.cmdClear_follows | apply State.FollowsR.go

@[simp] theorem execBindr_follows {s0 s : State} {a0} (h : s0.Follows s) :
    s0.FollowsR (execBindr a0 s) := by
  unfold execBindr
  repeat' first
    | with_reducible first | assumption | apply State.hostCmd_follows | apply State.cmdBindr_follows | apply State.FollowsR.go

@[simp] theorem execUnbindr_follows {s0 s : State} {a0} (h : s0.Follows s) :
    s0.FollowsR (execUnbindr a0 s) := by
  unfold execUnbindr
  repeat' first
    | with_reducible first | assumption | apply State.hostCmd_follows | apply State.cmdUnbindr_follows | apply State.FollowsR.go

@[simp] theorem execPlan_follows {s0 s : State} {a0} (h : s0.Follows s) :
    s0.FollowsR (execPlan a0 s) := by
  unfold execPlan
  repeat' first
    | with_reducible first | assumption | apply State.hostCmd_follows | apply State.cmdPlan_follows | apply State.FollowsR.go

@[simp] theorem execKitty_follows {s0 s : State} {a0} (h : s0.Follows s) :
    s0.FollowsR (execKitty a0 s) := by
  unfold execKitty
  repeat' first
    | with_reducible first | assumption | apply State.hostCmd_follows | apply State.cmdKitty_follows | apply State.FollowsR.go

@[simp] theorem execHandover_follows {s0 s : State} {a0} (h : s0.Follows s) :
    s0.FollowsR (execHandover a0 s) := by
  unfold execHandover
  repeat' first
    | with_reducible first | assumption | apply State.hostCmd_follows | apply State.cmdHandover_follows | apply State.FollowsR.go | apply State.Follows.ite | apply State.Follows.foldl | apply State.FollowsL.ok | apply State.FollowsL.hold | apply State.FollowsL.fault | apply State.FollowsL.ite | apply State.FollowsL.bind | apply State.FollowsA.none | apply State.FollowsA.some | apply State.FollowsA.ite | intro _

@[simp] theorem execSolo_follows {s0 s : State} {a0} (h : s0.Follows s) :
    s0.FollowsR (execSolo a0 s) := by
  unfold execSolo
  repeat' first
    | with_reducible first | assumption | apply State.hostCmd_follows | apply State.cmdSolo_follows | apply State.FollowsR.go

@[simp] theorem execResume_follows {s0 s : State} {a0} (h : s0.Follows s) :
    s0.FollowsR (execResume a0 s) := by
  unfold execResume
  repeat' first
    | with_reducible first | assumption | apply State.hostCmd_follows | apply State.cmdResume_follows | apply State.FollowsR.go | apply State.Follows.ite | apply State.Follows.foldl | apply State.FollowsL.ok | apply State.FollowsL.hold | apply State.FollowsL.fault | apply State.FollowsL.ite | apply State.FollowsL.bind | apply State.FollowsA.none | apply State.FollowsA.some | apply State.FollowsA.ite | intro _

@[simp] theorem execBadOp_follows {s0 s : State} {a0} (h : s0.Follows s) :
    s0.FollowsR (execBadOp a0 s) := by
  unfold execBadOp
  repeat' first
    | with_reducible first | assumption | apply State.hostCmd_follows | apply State.FollowsR.go | apply State.Follows.ite | apply State.Follows.foldl | apply State.FollowsL.ok | apply State.FollowsL.hold | apply State.FollowsL.fault | apply State.FollowsL.ite | apply State.FollowsL.bind | apply State.FollowsA.none | apply State.FollowsA.some | apply State.FollowsA.ite | intro _

end Sys2Proof.Machine
end

