-- ==== Sys2Proof/Laws/PerInstr.lean ====
section
/-! SUPPORT. One lemma per command: no command is both an agent's own step and an owner's register write (R4, R10). -/

namespace Sys2Proof.Laws.Party

open Sys2Proof.Safety

/-- A command is a step at a place of the pod, or a register write of a session's, or neither; never both. -/
def Statement (c : Instr) : Prop := placeOf c = none ∨ writerOf c = none

theorem regWrite (n) (off) (v) : Statement (.regWrite n off v) := Or.inl rfl
theorem ignoredClr (n) (v) : Statement (.ignoredClr n v) := Or.inl rfl
theorem depotApertureAccess (n) (off) (acc) : Statement (.depotApertureAccess n off acc) := Or.inl rfl
theorem flitArrival (a) (p) (f) : Statement (.flitArrival a p f) := Or.inr rfl
theorem outputAllocation (a) : Statement (.outputAllocation a) := Or.inr rfl
theorem hostOffer (a) (f) : Statement (.hostOffer a f) := Or.inr rfl
theorem flitAdmit (a) : Statement (.flitAdmit a) := Or.inr rfl
theorem ejectRemove (a) (b) : Statement (.ejectRemove a b) := Or.inr rfl
theorem ejectStall (a) (b) : Statement (.ejectStall a b) := Or.inr rfl
theorem pathLatchExpire (a) (src) (seq) : Statement (.pathLatchExpire a src seq) := Or.inr rfl
theorem retxTimeout (a) (dest) (seq) : Statement (.retxTimeout a dest seq) := Or.inr rfl
theorem requestAbandon (a) (dest) (seq) : Statement (.requestAbandon a dest seq) := Or.inr rfl
theorem mgmtSinkConsume (a) : Statement (.mgmtSinkConsume a) := Or.inr rfl
theorem frameStart (who) : Statement (.frameStart who) := Or.inr rfl
theorem syncExchange (who) (frame) : Statement (.syncExchange who frame) := Or.inr rfl
theorem syncLost (a) : Statement (.syncLost a) := Or.inr rfl
theorem slotExchange (a) : Statement (.slotExchange a) := Or.inr rfl
theorem convoyOffer (a) (q) (f) : Statement (.convoyOffer a q f) := Or.inr rfl
theorem telemetryWindow (a) (meas) : Statement (.telemetryWindow a meas) := Or.inr rfl
theorem congestionRecord (f) : Statement (.congestionRecord f) := Or.inl rfl
theorem agentTimeout (id) : Statement (.agentTimeout id) := Or.inl rfl
theorem summaryEntry : Statement .summaryEntry := Or.inl rfl
theorem drained (a) : Statement (.drained a) := Or.inr rfl
theorem counterLowRead (a) (ctrl) (i) : Statement (.counterLowRead a ctrl i) := Or.inr rfl
theorem localWrite (a) (off) (v) : Statement (.localWrite a off v) := Or.inr rfl
theorem idLock (a) : Statement (.idLock a) := Or.inr rfl
theorem slotFWrite (a) (v) : Statement (.slotFWrite a v) := Or.inr rfl
theorem laneSignalLoss (who) (p) : Statement (.laneSignalLoss who p) := Or.inr rfl
theorem fecUncorrLimit (who) (p) : Statement (.fecUncorrLimit who p) := Or.inr rfl
theorem linkIdle (who) (p) : Statement (.linkIdle who p) := Or.inr rfl
theorem downSetReceived (who) (p) : Statement (.downSetReceived who p) := Or.inr rfl
theorem linkTrained (who) (p) (peer) (pport) (flight) : Statement (.linkTrained who p peer pport flight) := Or.inr rfl
theorem trumpReceive (who) (inp) (f) : Statement (.trumpReceive who inp f) := Or.inr rfl
theorem trumpFilterExpire (who) (d) : Statement (.trumpFilterExpire who d) := Or.inr rfl
theorem cardPlay (a) : Statement (.cardPlay a) := Or.inr rfl
theorem commandPiece (a) : Statement (.commandPiece a) := Or.inr rfl
theorem cmdProbe (a) : Statement (.cmdProbe a) := Or.inr rfl
theorem cmdAgentRead (a) : Statement (.cmdAgentRead a) := Or.inr rfl
theorem cmdAgentWrite (a) : Statement (.cmdAgentWrite a) := Or.inr rfl
theorem cmdGate (a) : Statement (.cmdGate a) := Or.inr rfl
theorem cmdUngate (a) : Statement (.cmdUngate a) := Or.inr rfl
theorem cmdSwap (a) : Statement (.cmdSwap a) := Or.inr rfl
theorem cmdExchange (a) : Statement (.cmdExchange a) := Or.inr rfl
theorem cmdLoad (a) : Statement (.cmdLoad a) := Or.inr rfl
theorem cmdArm (a) : Statement (.cmdArm a) := Or.inr rfl
theorem cmdDisarm (a) : Statement (.cmdDisarm a) := Or.inr rfl
theorem cmdUnfence (a) : Statement (.cmdUnfence a) := Or.inr rfl
theorem cmdRelease (a) : Statement (.cmdRelease a) := Or.inr rfl
theorem cmdQuarantine (a) : Statement (.cmdQuarantine a) := Or.inr rfl
theorem cmdBind (a) : Statement (.cmdBind a) := Or.inr rfl
theorem cmdPfence (a) : Statement (.cmdPfence a) := Or.inr rfl
theorem cmdPreset (a) : Statement (.cmdPreset a) := Or.inr rfl
theorem cmdPunfence (a) : Statement (.cmdPunfence a) := Or.inr rfl
theorem cmdUcodeOpen (a) : Statement (.cmdUcodeOpen a) := Or.inr rfl
theorem cmdUcodePatch (a) : Statement (.cmdUcodePatch a) := Or.inr rfl
theorem cmdUcodeCommit (a) : Statement (.cmdUcodeCommit a) := Or.inr rfl
theorem cmdSecMsg (a) : Statement (.cmdSecMsg a) := Or.inr rfl
theorem cmdBankcopy (a) : Statement (.cmdBankcopy a) := Or.inr rfl
theorem cmdReservedOpcode (a) : Statement (.cmdReservedOpcode a) := Or.inr rfl
theorem ucodeSwitch (a) : Statement (.ucodeSwitch a) := Or.inr rfl
theorem ucodeSelftest (a) (pass) : Statement (.ucodeSelftest a pass) := Or.inr rfl
theorem secUpMessage (a) (msg) : Statement (.secUpMessage a msg) := Or.inr rfl
theorem partFenceAck (a) (p) : Statement (.partFenceAck a p) := Or.inr rfl
theorem fenceAckTimeout (a) (p) : Statement (.fenceAckTimeout a p) := Or.inr rfl
theorem drainWindowEnd (a) (p) : Statement (.drainWindowEnd a p) := Or.inr rfl
theorem partFenceAckLow (a) (p) : Statement (.partFenceAckLow a p) := Or.inr rfl
theorem partRstDone (a) (p) : Statement (.partRstDone a p) := Or.inr rfl
theorem resetLimitExpire (a) (p) : Statement (.resetLimitExpire a p) := Or.inr rfl
theorem katWrite (a) (p) (v) : Statement (.katWrite a p v) := Or.inr rfl
theorem partStateWrite (a) (p) (v) : Statement (.partStateWrite a p v) := Or.inr rfl
theorem partTick (a) (p) : Statement (.partTick a p) := Or.inr rfl
theorem watchdogExpire (a) (p) : Statement (.watchdogExpire a p) := Or.inr rfl
theorem downMessageWrite (a) (v) : Statement (.downMessageWrite a v) := Or.inr rfl
theorem upSend (a) : Statement (.upSend a) := Or.inr rfl
theorem upDataWrite (a) (i) (v) : Statement (.upDataWrite a i v) := Or.inr rfl
theorem mbxClaimRead (a) (ctrl) : Statement (.mbxClaimRead a ctrl) := Or.inr rfl
theorem mbxRelease (a) (ctrl) : Statement (.mbxRelease a ctrl) := Or.inr rfl
theorem mbxRing (a) (ctrl) : Statement (.mbxRing a ctrl) := Or.inr rfl
theorem mbxDone (a) (ctrl) : Statement (.mbxDone a ctrl) := Or.inr rfl
theorem mbxDataWrite (a) (ctrl) (i) (v) : Statement (.mbxDataWrite a ctrl i v) := Or.inr rfl
theorem mbxLeaseExpire (a) : Statement (.mbxLeaseExpire a) := Or.inr rfl
theorem fwBoot (a) : Statement (.fwBoot a) := Or.inr rfl
theorem uciBr (c) : Statement (.uciBr c) := Or.inl rfl
theorem uciCall (c) : Statement (.uciCall c) := Or.inl rfl
theorem uciRet (c) : Statement (.uciRet c) := Or.inl rfl
theorem uciWaitt (c) : Statement (.uciWaitt c) := Or.inl rfl
theorem uciSigt (c) : Statement (.uciSigt c) := Or.inl rfl
theorem uciYield (c) : Statement (.uciYield c) := Or.inl rfl
theorem uciHalt (c) : Statement (.uciHalt c) := Or.inl rfl
theorem uciNop (c) : Statement (.uciNop c) := Or.inl rfl
theorem uciMovi (c) : Statement (.uciMovi c) := Or.inl rfl
theorem uciAdd (c) : Statement (.uciAdd c) := Or.inl rfl
theorem uciAddi (c) : Statement (.uciAddi c) := Or.inl rfl
theorem uciSub (c) : Statement (.uciSub c) := Or.inl rfl
theorem uciAnd (c) : Statement (.uciAnd c) := Or.inl rfl
theorem uciOr (c) : Statement (.uciOr c) := Or.inl rfl
theorem uciXor (c) : Statement (.uciXor c) := Or.inl rfl
theorem uciShl (c) : Statement (.uciShl c) := Or.inl rfl
theorem uciShr (c) : Statement (.uciShr c) := Or.inl rfl
theorem uciCmp (c) : Statement (.uciCmp c) := Or.inl rfl
theorem uciCmpi (c) : Statement (.uciCmpi c) := Or.inl rfl
theorem uciLd (c) : Statement (.uciLd c) := Or.inl rfl
theorem uciSt (c) : Statement (.uciSt c) := Or.inl rfl
theorem uciCopy (c) : Statement (.uciCopy c) := Or.inl rfl
theorem uciRds (c) : Statement (.uciRds c) := Or.inl rfl
theorem uciWrs (c) : Statement (.uciWrs c) := Or.inl rfl
theorem illegalInstruction (c) : Statement (.illegalInstruction c) := Or.inl rfl
theorem contextFault (c) (ecc) : Statement (.contextFault c ecc) := Or.inl rfl
theorem uciProbe (c) : Statement (.uciProbe c) := Or.inl rfl
theorem uciTrain (c) : Statement (.uciTrain c) := Or.inl rfl
theorem uciFence (c) : Statement (.uciFence c) := Or.inl rfl
theorem uciUnfence (c) : Statement (.uciUnfence c) := Or.inl rfl
theorem uciDrain (c) : Statement (.uciDrain c) := Or.inl rfl
theorem uciInstall (c) : Statement (.uciInstall c) := Or.inl rfl
theorem uciSwap (c) : Statement (.uciSwap c) := Or.inl rfl
theorem uciArm (c) : Statement (.uciArm c) := Or.inl rfl
theorem uciPlay (c) : Statement (.uciPlay c) := Or.inl rfl
theorem uciCut (c) : Statement (.uciCut c) := Or.inl rfl
theorem uciClose (c) : Statement (.uciClose c) := Or.inl rfl
theorem uciPreset (c) : Statement (.uciPreset c) := Or.inl rfl
theorem uciFold (c) : Statement (.uciFold c) := Or.inl rfl
theorem uciDraw (c) : Statement (.uciDraw c) := Or.inl rfl
theorem uciBind (c) : Statement (.uciBind c) := Or.inl rfl
theorem uciAdmit (c) : Statement (.uciAdmit c) := Or.inl rfl
theorem uciAcmd (c) : Statement (.uciAcmd c) := Or.inl rfl
theorem uciSnap (c) : Statement (.uciSnap c) := Or.inl rfl
theorem uciGuard (c) : Statement (.uciGuard c) := Or.inl rfl
theorem uciDigest (c) : Statement (.uciDigest c) := Or.inl rfl
theorem uciSeal (c) : Statement (.uciSeal c) := Or.inl rfl
theorem uciDraincp (c) : Statement (.uciDraincp c) := Or.inl rfl
theorem uciLaunch (c) : Statement (.uciLaunch c) := Or.inl rfl
theorem uciJoin (c) : Statement (.uciJoin c) := Or.inl rfl
theorem uciRetire (c) : Statement (.uciRetire c) := Or.inl rfl
theorem uciQpush (c) : Statement (.uciQpush c) := Or.inl rfl
theorem uciQpop (c) : Statement (.uciQpop c) := Or.inl rfl
theorem uciTally (c) : Statement (.uciTally c) := Or.inl rfl
theorem uciSettle (c) : Statement (.uciSettle c) := Or.inl rfl
theorem uciMbx (c) : Statement (.uciMbx c) := Or.inl rfl
theorem uciAttest (c) : Statement (.uciAttest c) := Or.inl rfl
theorem uciKeyload (c) : Statement (.uciKeyload c) := Or.inl rfl
theorem uciKeyerase (c) : Statement (.uciKeyerase c) := Or.inl rfl
theorem uciScrub (c) : Statement (.uciScrub c) := Or.inl rfl
theorem uciLend (c) : Statement (.uciLend c) := Or.inl rfl
theorem uciWave (c) : Statement (.uciWave c) := Or.inl rfl
theorem insnTimeout (c) : Statement (.insnTimeout c) := Or.inl rfl
theorem cmdResponse (f) : Statement (.cmdResponse f) := Or.inl rfl
theorem cmdResend (c) (i) : Statement (.cmdResend c i) := Or.inl rfl
theorem cmdIssue (c) (i) : Statement (.cmdIssue c i) := Or.inl rfl
theorem ctimerExpire (c) : Statement (.ctimerExpire c) := Or.inl rfl
theorem noticeReceive (f) : Statement (.noticeReceive f) := Or.inl rfl
theorem heartbeat : Statement .heartbeat := Or.inl rfl
theorem heartbeatMiss : Statement .heartbeatMiss := Or.inl rfl
theorem startCheckDone (pass) : Statement (.startCheckDone pass) := Or.inl rfl
theorem takeoverDeadline : Statement .takeoverDeadline := Or.inl rfl
theorem journalApply : Statement .journalApply := Or.inl rfl
theorem standbyReloadDone : Statement .standbyReloadDone := Or.inl rfl
theorem pcieLinkUp (b) : Statement (.pcieLinkUp b) := Or.inl rfl
theorem pcieLinkDownExpire (b) : Statement (.pcieLinkDownExpire b) := Or.inl rfl
theorem dtlsHandshake (port) (peer) (cert) : Statement (.dtlsHandshake port peer cert) := Or.inl rfl
theorem dtlsResume (n) (port) : Statement (.dtlsResume n port) := Or.inl rfl
theorem dtlsCloseNotify (n) : Statement (.dtlsCloseNotify n) := Or.inl rfl
theorem sessionLeaseExpire (n) : Statement (.sessionLeaseExpire n) := Or.inl rfl
theorem sessionRead (n) (msg) : Statement (.sessionRead n msg) := Or.inl rfl
theorem sessionWrite (n) (msg) : Statement (.sessionWrite n msg) := Or.inl rfl
theorem sessionHeartbeat (n) (msg) : Statement (.sessionHeartbeat n msg) := Or.inl rfl
theorem mctpMessage (m) : Statement (.mctpMessage m) := Or.inl rfl
theorem mctpTimeout : Statement .mctpTimeout := Or.inl rfl
theorem ownerClaim (n) : Statement (.ownerClaim n) := Or.inl rfl
theorem leaseLeftRead (n) : Statement (.leaseLeftRead n) := Or.inl rfl
theorem grant (n) (v) : Statement (.grant n v) := Or.inl rfl
theorem twinSet (n) (v) : Statement (.twinSet n v) := Or.inl rfl
theorem ownerLeaseExpire : Statement .ownerLeaseExpire := Or.inl rfl
theorem ringConfigWrite (n) (pg) (off) (v) : Statement (.ringConfigWrite n pg off v) := Or.inl rfl
theorem noticeRingConfigWrite (n) (pg) (off) (v) : Statement (.noticeRingConfigWrite n pg off v) := Or.inl rfl
theorem cqDoorbell (n) (pg) (t) : Statement (.cqDoorbell n pg t) := Or.inl rfl
theorem hostCommandStart (n) : Statement (.hostCommandStart n) := Or.inl rfl
theorem loadi (n) : Statement (.loadi n) := Or.inl rfl
theorem dload (n) : Statement (.dload n) := Or.inl rfl
theorem dsave (n) : Statement (.dsave n) := Or.inl rfl
theorem start (n) : Statement (.start n) := Or.inl rfl
theorem stop (n) : Statement (.stop n) := Or.inl rfl
theorem clear (n) : Statement (.clear n) := Or.inl rfl
theorem bindr (n) : Statement (.bindr n) := Or.inl rfl
theorem unbindr (n) : Statement (.unbindr n) := Or.inl rfl
theorem plan (n) : Statement (.plan n) := Or.inl rfl
theorem kitty (n) : Statement (.kitty n) := Or.inl rfl
theorem handover (n) : Statement (.handover n) := Or.inl rfl
theorem solo (n) : Statement (.solo n) := Or.inl rfl
theorem resume (n) : Statement (.resume n) := Or.inl rfl
theorem badOp (n) : Statement (.badOp n) := Or.inl rfl
theorem eventDispatch : Statement .eventDispatch := Or.inl rfl
theorem pendingDispatchStart : Statement .pendingDispatchStart := Or.inl rfl
theorem runLimitExpire (c) : Statement (.runLimitExpire c) := Or.inl rfl
theorem tick : Statement .tick := Or.inl rfl
theorem renewSend : Statement .renewSend := Or.inl rfl
theorem pairRenew (wire) (fr) : Statement (.pairRenew wire fr) := Or.inl rfl
theorem pairAck (wire) (fr) : Statement (.pairAck wire fr) := Or.inl rfl
theorem pairYield (wire) (fr) : Statement (.pairYield wire fr) := Or.inl rfl
theorem pairAbsent (wire) (fr) : Statement (.pairAbsent wire fr) := Or.inl rfl
theorem activeLeaseExpire : Statement .activeLeaseExpire := Or.inl rfl
theorem standbyLeaseExpire : Statement .standbyLeaseExpire := Or.inl rfl
theorem mirrorUpdate (rx) : Statement (.mirrorUpdate rx) := Or.inl rfl
theorem stiStream (e) : Statement (.stiStream e) := Or.inl rfl
theorem stiMode (e) : Statement (.stiMode e) := Or.inl rfl
theorem stiGeom (e) : Statement (.stiGeom e) := Or.inl rfl
theorem stiShcfg (e) : Statement (.stiShcfg e) := Or.inl rfl
theorem stiDivring (e) : Statement (.stiDivring e) := Or.inl rfl
theorem stiOpnd (e) : Statement (.stiOpnd e) := Or.inl rfl
theorem stiObmp (e) : Statement (.stiObmp e) := Or.inl rfl
theorem stiOutd (e) : Statement (.stiOutd e) := Or.inl rfl
theorem stiOaux (e) : Statement (.stiOaux e) := Or.inl rfl
theorem stiMove (e) : Statement (.stiMove e) := Or.inl rfl
theorem stiLds (e) : Statement (.stiLds e) := Or.inl rfl
theorem stiPrefetch (e) : Statement (.stiPrefetch e) := Or.inl rfl
theorem stiModel (e) : Statement (.stiModel e) := Or.inl rfl
theorem stiTile (e) : Statement (.stiTile e) := Or.inl rfl
theorem stiRun (e) : Statement (.stiRun e) := Or.inl rfl
theorem stiBytes (e) : Statement (.stiBytes e) := Or.inl rfl
theorem stiGfcoef (e) : Statement (.stiGfcoef e) := Or.inl rfl
theorem stiLayout (e) : Statement (.stiLayout e) := Or.inl rfl
theorem stiHashcfg (e) : Statement (.stiHashcfg e) := Or.inl rfl
theorem stiTwait (e) : Statement (.stiTwait e) := Or.inl rfl
theorem stiTsig (e) : Statement (.stiTsig e) := Or.inl rfl
theorem stiSeti (e) : Statement (.stiSeti e) := Or.inl rfl
theorem stiAdd (e) : Statement (.stiAdd e) := Or.inl rfl
theorem stiAddi (e) : Statement (.stiAddi e) := Or.inl rfl
theorem stiMuli (e) : Statement (.stiMuli e) := Or.inl rfl
theorem stiLoop (e) : Statement (.stiLoop e) := Or.inl rfl
theorem stiEndl (e) : Statement (.stiEndl e) := Or.inl rfl
theorem stiNop (e) : Statement (.stiNop e) := Or.inl rfl
theorem stiEnd (e) : Statement (.stiEnd e) := Or.inl rfl
theorem tileComplete (e) : Statement (.tileComplete e) := Or.inl rfl
theorem tileTimeout (e) : Statement (.tileTimeout e) := Or.inl rfl
theorem streamFault (e) : Statement (.streamFault e) := Or.inl rfl
theorem scratchEccError (e) (unc) : Statement (.scratchEccError e unc) := Or.inl rfl
theorem depotReadError (e) : Statement (.depotReadError e) := Or.inl rfl
theorem stationHwFail (e) : Statement (.stationHwFail e) := Or.inl rfl
theorem engineScrubDone (e) (ok) : Statement (.engineScrubDone e ok) := Or.inl rfl
theorem katStreamDone (e) (ok) : Statement (.katStreamDone e ok) := Or.inl rfl
theorem waitLimitExpire (e) : Statement (.waitLimitExpire e) := Or.inl rfl
theorem programBroadcast (dies) (img) (ver) : Statement (.programBroadcast dies img ver) := Or.inl rfl
theorem dieSleep (d) : Statement (.dieSleep d) := Or.inl rfl
theorem wakeTokenGrant : Statement .wakeTokenGrant := Or.inl rfl
theorem wakeTokenReturn : Statement .wakeTokenReturn := Or.inl rfl
theorem dieAwake (d) : Statement (.dieAwake d) := Or.inl rfl
theorem verifierJob : Statement .verifierJob := Or.inl rfl
theorem forecastBatch (lib) (policy) (models) : Statement (.forecastBatch lib policy models) := Or.inl rfl
theorem deal (image) (files) (deck) (policy) (place) : Statement (.deal image files deck policy place) := Or.inl rfl
theorem followOnStaging (repair) : Statement (.followOnStaging repair) := Or.inl rfl
theorem unhandedRepair (d) : Statement (.unhandedRepair d) := Or.inl rfl
theorem agentLossTrump (d) : Statement (.agentLossTrump d) := Or.inl rfl
theorem convoySchedule (job) : Statement (.convoySchedule job) := Or.inl rfl
theorem discoveryStart : Statement .discoveryStart := Or.inl rfl
theorem hello (f) : Statement (.hello f) := Or.inl rfl
theorem probeRetry (i) : Statement (.probeRetry i) := Or.inl rfl
theorem untrainedReprobe (id) (p) : Statement (.untrainedReprobe id p) := Or.inl rfl
theorem discoveryCompare : Statement .discoveryCompare := Or.inl rfl
theorem darkPortPass : Statement .darkPortPass := Or.inl rfl
theorem drainLimitExpire (c) : Statement (.drainLimitExpire c) := Or.inl rfl
theorem partNotice : Statement .partNotice := Or.inl rfl
theorem restartTokenRefill (dom) : Statement (.restartTokenRefill dom) := Or.inl rfl
theorem presetHeldSend (dom) : Statement (.presetHeldSend dom) := Or.inl rfl
theorem budgetWrite (n) (dom) (v) : Statement (.budgetWrite n dom v) := Or.inl rfl
theorem returningUnbind (id) : Statement (.returningUnbind id) := Or.inl rfl
theorem tallyAdd (f) : Statement (.tallyAdd f) := Or.inl rfl
theorem tallyRead (f) : Statement (.tallyRead f) := Or.inl rfl
theorem tallyWait (f) : Statement (.tallyWait f) := Or.inl rfl
theorem tallyWaitHoldExpire (src) (seq) : Statement (.tallyWaitHoldExpire src seq) := Or.inl rfl
theorem tallyCountWrite (n) (t) (v) : Statement (.tallyCountWrite n t v) := Or.inl rfl
theorem tallyConfigWrite (n) (t) (v) : Statement (.tallyConfigWrite n t v) := Or.inl rfl
theorem settlementBoundary : Statement .settlementBoundary := Or.inl rfl
theorem settlementCall (k) : Statement (.settlementCall k) := Or.inl rfl
theorem settlementRecall (k) : Statement (.settlementRecall k) := Or.inl rfl
theorem settlementFinalize (k) : Statement (.settlementFinalize k) := Or.inl rfl
theorem report (f) : Statement (.report f) := Or.inl rfl
theorem queueDescriptorWrite (n) (q) (off) (v) : Statement (.queueDescriptorWrite n q off v) := Or.inl rfl
theorem queueHeadWrite (n) (q) (v) : Statement (.queueHeadWrite n q v) := Or.inl rfl
theorem queueTailWrite (n) (q) (v) : Statement (.queueTailWrite n q v) := Or.inl rfl
theorem waitEntryExpire (q) : Statement (.waitEntryExpire q) := Or.inl rfl
theorem ledgerMbxPost (party) (m) : Statement (.ledgerMbxPost party m) := Or.inl rfl
theorem ledgerMbxTake (party) (m) : Statement (.ledgerMbxTake party m) := Or.inl rfl
theorem deviceServerTake (m) : Statement (.deviceServerTake m) := Or.inl rfl
theorem ledgerMbxClaimRead (party) (m) : Statement (.ledgerMbxClaimRead party m) := Or.inl rfl
theorem ledgerMbxRelease (party) (m) : Statement (.ledgerMbxRelease party m) := Or.inl rfl
theorem ledgerMbxRing (party) (m) : Statement (.ledgerMbxRing party m) := Or.inl rfl
theorem ledgerMbxDone (party) (m) : Statement (.ledgerMbxDone party m) := Or.inl rfl
theorem ledgerMbxLeaseExpire (m) : Statement (.ledgerMbxLeaseExpire m) := Or.inl rfl
theorem partyResetAbort (party) : Statement (.partyResetAbort party) := Or.inl rfl
theorem landingFlit (port) (slot) (f) : Statement (.landingFlit port slot f) := Or.inl rfl
theorem landingWindowClose (i) : Statement (.landingWindowClose i) := Or.inl rfl
theorem segmentDelivery (i) : Statement (.segmentDelivery i) := Or.inl rfl
theorem partTenantWrite (n) (p) (v) : Statement (.partTenantWrite n p v) := Or.inl rfl
theorem ledgerDieError (b) : Statement (.ledgerDieError b) := Or.inl rfl
theorem spdmRequest (req) : Statement (.spdmRequest req) := Or.inl rfl
theorem setCertificate (cert) : Statement (.setCertificate cert) := Or.inl rfl
theorem provUnlock (n) : Statement (.provUnlock n) := Or.inl rfl
theorem provUnlockExpire : Statement .provUnlockExpire := Or.inl rfl
theorem rollfwd (n) : Statement (.rollfwd n) := Or.inl rfl
theorem extendGo (n) : Statement (.extendGo n) := Or.inl rfl
theorem setGen (n) : Statement (.setGen n) := Or.inl rfl
theorem xferAllow (n) (v) : Statement (.xferAllow n v) := Or.inl rfl
theorem xferReq (n) (v) : Statement (.xferReq n v) := Or.inl rfl
theorem xferEnd (r) : Statement (.xferEnd r) := Or.inl rfl
theorem releaseKeyExpire (id) : Statement (.releaseKeyExpire id) := Or.inl rfl
theorem mirrorRebuild : Statement .mirrorRebuild := Or.inl rfl
theorem spdmSessionTimeout (k) : Statement (.spdmSessionTimeout k) := Or.inl rfl
theorem depotGrant (n) (i) : Statement (.depotGrant n i) := Or.inl rfl
theorem depotRelease (n) (i) : Statement (.depotRelease n i) := Or.inl rfl
theorem depotTenantWrite (n) (i) (v) : Statement (.depotTenantWrite n i v) := Or.inl rfl
theorem depotScrubDone : Statement .depotScrubDone := Or.inl rfl
theorem tamperAlarm (cell) : Statement (.tamperAlarm cell) := Or.inl rfl
theorem tempAlarm (high) : Statement (.tempAlarm high) := Or.inl rfl
theorem battLost : Statement .battLost := Or.inl rfl
theorem rtcSet (n) (v) : Statement (.rtcSet n v) := Or.inl rfl
theorem monoInc (n) (v) : Statement (.monoInc n v) := Or.inl rfl
theorem heldClear (n) : Statement (.heldClear n) := Or.inl rfl
theorem sysReset : Statement .sysReset := Or.inl rfl
theorem sysResetRelease : Statement .sysResetRelease := Or.inl rfl
theorem por : Statement .por := Or.inl rfl
theorem perst (b) : Statement (.perst b) := Or.inl rfl
theorem dealerWatchdog (b) : Statement (.dealerWatchdog b) := Or.inl rfl
theorem therm : Statement .therm := Or.inl rfl
theorem assayerErrorReset : Statement .assayerErrorReset := Or.inl rfl
theorem rstReq (n) (v) : Statement (.rstReq n v) := Or.inl rfl
theorem peerReset (cepoch) : Statement (.peerReset cepoch) := Or.inl rfl
theorem brownout : Statement .brownout := Or.inl rfl
theorem domainReset (dom) : Statement (.domainReset dom) := Or.inl rfl
theorem pllLockTimeout (dom) : Statement (.pllLockTimeout dom) := Or.inl rfl
theorem blockReset (n) (v) : Statement (.blockReset n v) := Or.inl rfl
theorem blockResetDone (ok) : Statement (.blockResetDone ok) := Or.inl rfl
theorem optionLoading (r) : Statement (.optionLoading r) := Or.inl rfl
theorem assayerBoot (r) : Statement (.assayerBoot r) := Or.inl rfl
theorem dealerBoot (r) : Statement (.dealerBoot r) := Or.inl rfl
theorem depotTraining (ok) : Statement (.depotTraining ok) := Or.inl rfl
theorem laneTraining (ok) : Statement (.laneTraining ok) := Or.inl rfl
theorem stationWaves (failed) : Statement (.stationWaves failed) := Or.inl rfl
theorem ready (ms) : Statement (.ready ms) := Or.inl rfl
theorem phaseOverrun : Statement .phaseOverrun := Or.inl rfl
theorem coldStartWaitExpire : Statement .coldStartWaitExpire := Or.inl rfl
theorem depotRetire (n) (v) : Statement (.depotRetire n v) := Or.inl rfl
theorem depotStackOffline (i) : Statement (.depotStackOffline i) := Or.inl rfl
theorem governorInterval (power) : Statement (.governorInterval power) := Or.inl rfl
theorem pwrLimitWrite (n) (v) : Statement (.pwrLimitWrite n v) := Or.inl rfl
theorem pwrPeakClear (n) (v) : Statement (.pwrPeakClear n v) := Or.inl rfl
theorem tempSample (u) (t) : Statement (.tempSample u t) := Or.inl rfl
theorem lendStart (e) : Statement (.lendStart e) := Or.inl rfl
theorem lendReturn (e) : Statement (.lendReturn e) := Or.inl rfl
theorem laneRetrainStart (who) (lane) (cause) : Statement (.laneRetrainStart who lane cause) := Or.inr rfl
theorem calibrationWindow (who) (lane) (margin) : Statement (.calibrationWindow who lane margin) := Or.inr rfl
theorem retrainChoose (who) (lane) : Statement (.retrainChoose who lane) := Or.inr rfl
theorem retrainAdopt (who) (lane) : Statement (.retrainAdopt who lane) := Or.inr rfl
theorem retrainTimeout (who) (lane) : Statement (.retrainTimeout who lane) := Or.inr rfl
theorem laneAdapt (who) (lane) (margin) : Statement (.laneAdapt who lane margin) := Or.inr rfl
theorem recenterWindow (i) (ch) : Statement (.recenterWindow i ch) := Or.inl rfl
theorem recenterDone (i) (better) : Statement (.recenterDone i better) := Or.inl rfl
theorem railSample (i) (mv) (amps) : Statement (.railSample i mv amps) := Or.inl rfl
theorem powerGood : Statement .powerGood := Or.inl rfl
theorem railSequenceFault : Statement .railSequenceFault := Or.inl rfl
theorem statusCauseClear (n) (alert) (v) : Statement (.statusCauseClear n alert v) := Or.inl rfl
theorem bifWrite (n) (p) (v) : Statement (.bifWrite n p v) := Or.inl rfl
theorem agentPowerOn (a) (b) : Statement (.agentPowerOn a b) := Or.inr rfl
theorem heldAbsent : Statement .heldAbsent := Or.inl rfl
theorem bindIncrementHoldExpire (s) : Statement (.bindIncrementHoldExpire s) := Or.inl rfl

end Sys2Proof.Laws.Party
end

