-- ==== Sys2Proof/Laws/State.lean ====
section
/-! SUPPORT. What each field reads after each named update of the state: one lemma per field and update, all by unfolding. -/

namespace Sys2Proof.Machine

variable (s : State)

@[simp] theorem State.setAgent_pending (a : Nat) (x : Agent) : (s.setAgent a x).pending = s.pending := rfl
@[simp] theorem State.setAgent_us (a : Nat) (x : Agent) : (s.setAgent a x).us = s.us := rfl
@[simp] theorem State.setAgent_fresh (a : Nat) (x : Agent) : (s.setAgent a x).fresh = s.fresh := rfl
@[simp] theorem State.setAgent_agents (a : Nat) (x : Agent) : (s.setAgent a x).agents = SMap.set Agent.dflt s.agents a x := rfl
@[simp] theorem State.setAgent_dealers (a : Nat) (x : Agent) : (s.setAgent a x).dealers = s.dealers := rfl
@[simp] theorem State.setAgent_reflex (a : Nat) (x : Agent) : (s.setAgent a x).reflex = s.reflex := rfl
@[simp] theorem State.setAgent_sess (a : Nat) (x : Agent) : (s.setAgent a x).sess = s.sess := rfl
@[simp] theorem State.setAgent_own (a : Nat) (x : Agent) : (s.setAgent a x).own = s.own := rfl
@[simp] theorem State.setAgent_pair (a : Nat) (x : Agent) : (s.setAgent a x).pair = s.pair := rfl
@[simp] theorem State.setAgent_stat (a : Nat) (x : Agent) : (s.setAgent a x).stat = s.stat := rfl
@[simp] theorem State.setAgent_fab (a : Nat) (x : Agent) : (s.setAgent a x).fab = s.fab := rfl
@[simp] theorem State.setAgent_led (a : Nat) (x : Agent) : (s.setAgent a x).led = s.led := rfl
@[simp] theorem State.setAgent_asy (a : Nat) (x : Agent) : (s.setAgent a x).asy = s.asy := rfl
@[simp] theorem State.setAgent_vbat (a : Nat) (x : Agent) : (s.setAgent a x).vbat = s.vbat := rfl
@[simp] theorem State.setAgent_depot (a : Nat) (x : Agent) : (s.setAgent a x).depot = s.depot := rfl
@[simp] theorem State.setAgent_plat (a : Nat) (x : Agent) : (s.setAgent a x).plat = s.plat := rfl
@[simp] theorem State.setAgent_out (a : Nat) (x : Agent) : (s.setAgent a x).out = s.out := rfl

@[simp] theorem State.modAgent_pending (a : Nat) (f : Agent → Agent) : (s.modAgent a f).pending = s.pending := rfl
@[simp] theorem State.modAgent_us (a : Nat) (f : Agent → Agent) : (s.modAgent a f).us = s.us := rfl
@[simp] theorem State.modAgent_fresh (a : Nat) (f : Agent → Agent) : (s.modAgent a f).fresh = s.fresh := rfl
@[simp] theorem State.modAgent_agents (a : Nat) (f : Agent → Agent) : (s.modAgent a f).agents = SMap.set Agent.dflt s.agents a (f (s.agent a)) := rfl
@[simp] theorem State.modAgent_dealers (a : Nat) (f : Agent → Agent) : (s.modAgent a f).dealers = s.dealers := rfl
@[simp] theorem State.modAgent_reflex (a : Nat) (f : Agent → Agent) : (s.modAgent a f).reflex = s.reflex := rfl
@[simp] theorem State.modAgent_sess (a : Nat) (f : Agent → Agent) : (s.modAgent a f).sess = s.sess := rfl
@[simp] theorem State.modAgent_own (a : Nat) (f : Agent → Agent) : (s.modAgent a f).own = s.own := rfl
@[simp] theorem State.modAgent_pair (a : Nat) (f : Agent → Agent) : (s.modAgent a f).pair = s.pair := rfl
@[simp] theorem State.modAgent_stat (a : Nat) (f : Agent → Agent) : (s.modAgent a f).stat = s.stat := rfl
@[simp] theorem State.modAgent_fab (a : Nat) (f : Agent → Agent) : (s.modAgent a f).fab = s.fab := rfl
@[simp] theorem State.modAgent_led (a : Nat) (f : Agent → Agent) : (s.modAgent a f).led = s.led := rfl
@[simp] theorem State.modAgent_asy (a : Nat) (f : Agent → Agent) : (s.modAgent a f).asy = s.asy := rfl
@[simp] theorem State.modAgent_vbat (a : Nat) (f : Agent → Agent) : (s.modAgent a f).vbat = s.vbat := rfl
@[simp] theorem State.modAgent_depot (a : Nat) (f : Agent → Agent) : (s.modAgent a f).depot = s.depot := rfl
@[simp] theorem State.modAgent_plat (a : Nat) (f : Agent → Agent) : (s.modAgent a f).plat = s.plat := rfl
@[simp] theorem State.modAgent_out (a : Nat) (f : Agent → Agent) : (s.modAgent a f).out = s.out := rfl

@[simp] theorem State.setSession_pending (n : Nat) (x : Session) : (s.setSession n x).pending = s.pending := rfl
@[simp] theorem State.setSession_us (n : Nat) (x : Session) : (s.setSession n x).us = s.us := rfl
@[simp] theorem State.setSession_fresh (n : Nat) (x : Session) : (s.setSession n x).fresh = s.fresh := rfl
@[simp] theorem State.setSession_agents (n : Nat) (x : Session) : (s.setSession n x).agents = s.agents := rfl
@[simp] theorem State.setSession_dealers (n : Nat) (x : Session) : (s.setSession n x).dealers = s.dealers := rfl
@[simp] theorem State.setSession_reflex (n : Nat) (x : Session) : (s.setSession n x).reflex = s.reflex := rfl
@[simp] theorem State.setSession_sess (n : Nat) (x : Session) : (s.setSession n x).sess = SMap.set sessDflt s.sess n x := rfl
@[simp] theorem State.setSession_own (n : Nat) (x : Session) : (s.setSession n x).own = s.own := rfl
@[simp] theorem State.setSession_pair (n : Nat) (x : Session) : (s.setSession n x).pair = s.pair := rfl
@[simp] theorem State.setSession_stat (n : Nat) (x : Session) : (s.setSession n x).stat = s.stat := rfl
@[simp] theorem State.setSession_fab (n : Nat) (x : Session) : (s.setSession n x).fab = s.fab := rfl
@[simp] theorem State.setSession_led (n : Nat) (x : Session) : (s.setSession n x).led = s.led := rfl
@[simp] theorem State.setSession_asy (n : Nat) (x : Session) : (s.setSession n x).asy = s.asy := rfl
@[simp] theorem State.setSession_vbat (n : Nat) (x : Session) : (s.setSession n x).vbat = s.vbat := rfl
@[simp] theorem State.setSession_depot (n : Nat) (x : Session) : (s.setSession n x).depot = s.depot := rfl
@[simp] theorem State.setSession_plat (n : Nat) (x : Session) : (s.setSession n x).plat = s.plat := rfl
@[simp] theorem State.setSession_out (n : Nat) (x : Session) : (s.setSession n x).out = s.out := rfl

@[simp] theorem State.modSession_pending (n : Nat) (f : Session → Session) : (s.modSession n f).pending = s.pending := rfl
@[simp] theorem State.modSession_us (n : Nat) (f : Session → Session) : (s.modSession n f).us = s.us := rfl
@[simp] theorem State.modSession_fresh (n : Nat) (f : Session → Session) : (s.modSession n f).fresh = s.fresh := rfl
@[simp] theorem State.modSession_agents (n : Nat) (f : Session → Session) : (s.modSession n f).agents = s.agents := rfl
@[simp] theorem State.modSession_dealers (n : Nat) (f : Session → Session) : (s.modSession n f).dealers = s.dealers := rfl
@[simp] theorem State.modSession_reflex (n : Nat) (f : Session → Session) : (s.modSession n f).reflex = s.reflex := rfl
@[simp] theorem State.modSession_sess (n : Nat) (f : Session → Session) : (s.modSession n f).sess = SMap.set sessDflt s.sess n (f (s.session n)) := rfl
@[simp] theorem State.modSession_own (n : Nat) (f : Session → Session) : (s.modSession n f).own = s.own := rfl
@[simp] theorem State.modSession_pair (n : Nat) (f : Session → Session) : (s.modSession n f).pair = s.pair := rfl
@[simp] theorem State.modSession_stat (n : Nat) (f : Session → Session) : (s.modSession n f).stat = s.stat := rfl
@[simp] theorem State.modSession_fab (n : Nat) (f : Session → Session) : (s.modSession n f).fab = s.fab := rfl
@[simp] theorem State.modSession_led (n : Nat) (f : Session → Session) : (s.modSession n f).led = s.led := rfl
@[simp] theorem State.modSession_asy (n : Nat) (f : Session → Session) : (s.modSession n f).asy = s.asy := rfl
@[simp] theorem State.modSession_vbat (n : Nat) (f : Session → Session) : (s.modSession n f).vbat = s.vbat := rfl
@[simp] theorem State.modSession_depot (n : Nat) (f : Session → Session) : (s.modSession n f).depot = s.depot := rfl
@[simp] theorem State.modSession_plat (n : Nat) (f : Session → Session) : (s.modSession n f).plat = s.plat := rfl
@[simp] theorem State.modSession_out (n : Nat) (f : Session → Session) : (s.modSession n f).out = s.out := rfl

@[simp] theorem State.setCtx_pending (c : Nat) (x : Context) : (s.setCtx c x).pending = s.pending := rfl
@[simp] theorem State.setCtx_us (c : Nat) (x : Context) : (s.setCtx c x).us = s.us := rfl
@[simp] theorem State.setCtx_fresh (c : Nat) (x : Context) : (s.setCtx c x).fresh = s.fresh := rfl
@[simp] theorem State.setCtx_agents (c : Nat) (x : Context) : (s.setCtx c x).agents = s.agents := rfl
@[simp] theorem State.setCtx_dealers (c : Nat) (x : Context) : (s.setCtx c x).dealers = { s.dealers with core := { s.dealers.core with ctx := SMap.set ctxDflt s.dealers.core.ctx c x } } := rfl
@[simp] theorem State.setCtx_reflex (c : Nat) (x : Context) : (s.setCtx c x).reflex = s.reflex := rfl
@[simp] theorem State.setCtx_sess (c : Nat) (x : Context) : (s.setCtx c x).sess = s.sess := rfl
@[simp] theorem State.setCtx_own (c : Nat) (x : Context) : (s.setCtx c x).own = s.own := rfl
@[simp] theorem State.setCtx_pair (c : Nat) (x : Context) : (s.setCtx c x).pair = s.pair := rfl
@[simp] theorem State.setCtx_stat (c : Nat) (x : Context) : (s.setCtx c x).stat = s.stat := rfl
@[simp] theorem State.setCtx_fab (c : Nat) (x : Context) : (s.setCtx c x).fab = s.fab := rfl
@[simp] theorem State.setCtx_led (c : Nat) (x : Context) : (s.setCtx c x).led = s.led := rfl
@[simp] theorem State.setCtx_asy (c : Nat) (x : Context) : (s.setCtx c x).asy = s.asy := rfl
@[simp] theorem State.setCtx_vbat (c : Nat) (x : Context) : (s.setCtx c x).vbat = s.vbat := rfl
@[simp] theorem State.setCtx_depot (c : Nat) (x : Context) : (s.setCtx c x).depot = s.depot := rfl
@[simp] theorem State.setCtx_plat (c : Nat) (x : Context) : (s.setCtx c x).plat = s.plat := rfl
@[simp] theorem State.setCtx_out (c : Nat) (x : Context) : (s.setCtx c x).out = s.out := rfl

@[simp] theorem State.modCtx_pending (c : Nat) (f : Context → Context) : (s.modCtx c f).pending = s.pending := rfl
@[simp] theorem State.modCtx_us (c : Nat) (f : Context → Context) : (s.modCtx c f).us = s.us := rfl
@[simp] theorem State.modCtx_fresh (c : Nat) (f : Context → Context) : (s.modCtx c f).fresh = s.fresh := rfl
@[simp] theorem State.modCtx_agents (c : Nat) (f : Context → Context) : (s.modCtx c f).agents = s.agents := rfl
@[simp] theorem State.modCtx_dealers (c : Nat) (f : Context → Context) : (s.modCtx c f).dealers = { s.dealers with core := { s.dealers.core with ctx := SMap.set ctxDflt s.dealers.core.ctx c (f (s.ctx c)) } } := rfl
@[simp] theorem State.modCtx_reflex (c : Nat) (f : Context → Context) : (s.modCtx c f).reflex = s.reflex := rfl
@[simp] theorem State.modCtx_sess (c : Nat) (f : Context → Context) : (s.modCtx c f).sess = s.sess := rfl
@[simp] theorem State.modCtx_own (c : Nat) (f : Context → Context) : (s.modCtx c f).own = s.own := rfl
@[simp] theorem State.modCtx_pair (c : Nat) (f : Context → Context) : (s.modCtx c f).pair = s.pair := rfl
@[simp] theorem State.modCtx_stat (c : Nat) (f : Context → Context) : (s.modCtx c f).stat = s.stat := rfl
@[simp] theorem State.modCtx_fab (c : Nat) (f : Context → Context) : (s.modCtx c f).fab = s.fab := rfl
@[simp] theorem State.modCtx_led (c : Nat) (f : Context → Context) : (s.modCtx c f).led = s.led := rfl
@[simp] theorem State.modCtx_asy (c : Nat) (f : Context → Context) : (s.modCtx c f).asy = s.asy := rfl
@[simp] theorem State.modCtx_vbat (c : Nat) (f : Context → Context) : (s.modCtx c f).vbat = s.vbat := rfl
@[simp] theorem State.modCtx_depot (c : Nat) (f : Context → Context) : (s.modCtx c f).depot = s.depot := rfl
@[simp] theorem State.modCtx_plat (c : Nat) (f : Context → Context) : (s.modCtx c f).plat = s.plat := rfl
@[simp] theorem State.modCtx_out (c : Nat) (f : Context → Context) : (s.modCtx c f).out = s.out := rfl

@[simp] theorem State.setDie_pending (d : Nat) (x : Die) : (s.setDie d x).pending = s.pending := rfl
@[simp] theorem State.setDie_us (d : Nat) (x : Die) : (s.setDie d x).us = s.us := rfl
@[simp] theorem State.setDie_fresh (d : Nat) (x : Die) : (s.setDie d x).fresh = s.fresh := rfl
@[simp] theorem State.setDie_agents (d : Nat) (x : Die) : (s.setDie d x).agents = s.agents := rfl
@[simp] theorem State.setDie_dealers (d : Nat) (x : Die) : (s.setDie d x).dealers = s.dealers := rfl
@[simp] theorem State.setDie_reflex (d : Nat) (x : Die) : (s.setDie d x).reflex = s.reflex := rfl
@[simp] theorem State.setDie_sess (d : Nat) (x : Die) : (s.setDie d x).sess = s.sess := rfl
@[simp] theorem State.setDie_own (d : Nat) (x : Die) : (s.setDie d x).own = s.own := rfl
@[simp] theorem State.setDie_pair (d : Nat) (x : Die) : (s.setDie d x).pair = s.pair := rfl
@[simp] theorem State.setDie_stat (d : Nat) (x : Die) : (s.setDie d x).stat = { s.stat with dies := SMap.set dieDflt s.stat.dies d x } := rfl
@[simp] theorem State.setDie_fab (d : Nat) (x : Die) : (s.setDie d x).fab = s.fab := rfl
@[simp] theorem State.setDie_led (d : Nat) (x : Die) : (s.setDie d x).led = s.led := rfl
@[simp] theorem State.setDie_asy (d : Nat) (x : Die) : (s.setDie d x).asy = s.asy := rfl
@[simp] theorem State.setDie_vbat (d : Nat) (x : Die) : (s.setDie d x).vbat = s.vbat := rfl
@[simp] theorem State.setDie_depot (d : Nat) (x : Die) : (s.setDie d x).depot = s.depot := rfl
@[simp] theorem State.setDie_plat (d : Nat) (x : Die) : (s.setDie d x).plat = s.plat := rfl
@[simp] theorem State.setDie_out (d : Nat) (x : Die) : (s.setDie d x).out = s.out := rfl

@[simp] theorem State.modDie_pending (d : Nat) (f : Die → Die) : (s.modDie d f).pending = s.pending := rfl
@[simp] theorem State.modDie_us (d : Nat) (f : Die → Die) : (s.modDie d f).us = s.us := rfl
@[simp] theorem State.modDie_fresh (d : Nat) (f : Die → Die) : (s.modDie d f).fresh = s.fresh := rfl
@[simp] theorem State.modDie_agents (d : Nat) (f : Die → Die) : (s.modDie d f).agents = s.agents := rfl
@[simp] theorem State.modDie_dealers (d : Nat) (f : Die → Die) : (s.modDie d f).dealers = s.dealers := rfl
@[simp] theorem State.modDie_reflex (d : Nat) (f : Die → Die) : (s.modDie d f).reflex = s.reflex := rfl
@[simp] theorem State.modDie_sess (d : Nat) (f : Die → Die) : (s.modDie d f).sess = s.sess := rfl
@[simp] theorem State.modDie_own (d : Nat) (f : Die → Die) : (s.modDie d f).own = s.own := rfl
@[simp] theorem State.modDie_pair (d : Nat) (f : Die → Die) : (s.modDie d f).pair = s.pair := rfl
@[simp] theorem State.modDie_stat (d : Nat) (f : Die → Die) : (s.modDie d f).stat = { s.stat with dies := SMap.set dieDflt s.stat.dies d (f (s.die d)) } := rfl
@[simp] theorem State.modDie_fab (d : Nat) (f : Die → Die) : (s.modDie d f).fab = s.fab := rfl
@[simp] theorem State.modDie_led (d : Nat) (f : Die → Die) : (s.modDie d f).led = s.led := rfl
@[simp] theorem State.modDie_asy (d : Nat) (f : Die → Die) : (s.modDie d f).asy = s.asy := rfl
@[simp] theorem State.modDie_vbat (d : Nat) (f : Die → Die) : (s.modDie d f).vbat = s.vbat := rfl
@[simp] theorem State.modDie_depot (d : Nat) (f : Die → Die) : (s.modDie d f).depot = s.depot := rfl
@[simp] theorem State.modDie_plat (d : Nat) (f : Die → Die) : (s.modDie d f).plat = s.plat := rfl
@[simp] theorem State.modDie_out (d : Nat) (f : Die → Die) : (s.modDie d f).out = s.out := rfl

@[simp] theorem State.setEng_pending (e : Nat) (x : Engine) : (s.setEng e x).pending = s.pending := rfl
@[simp] theorem State.setEng_us (e : Nat) (x : Engine) : (s.setEng e x).us = s.us := rfl
@[simp] theorem State.setEng_fresh (e : Nat) (x : Engine) : (s.setEng e x).fresh = s.fresh := rfl
@[simp] theorem State.setEng_agents (e : Nat) (x : Engine) : (s.setEng e x).agents = s.agents := rfl
@[simp] theorem State.setEng_dealers (e : Nat) (x : Engine) : (s.setEng e x).dealers = s.dealers := rfl
@[simp] theorem State.setEng_reflex (e : Nat) (x : Engine) : (s.setEng e x).reflex = s.reflex := rfl
@[simp] theorem State.setEng_sess (e : Nat) (x : Engine) : (s.setEng e x).sess = s.sess := rfl
@[simp] theorem State.setEng_own (e : Nat) (x : Engine) : (s.setEng e x).own = s.own := rfl
@[simp] theorem State.setEng_pair (e : Nat) (x : Engine) : (s.setEng e x).pair = s.pair := rfl
@[simp] theorem State.setEng_stat (e : Nat) (x : Engine) : (s.setEng e x).stat = { s.stat with eng := SMap.set engDflt s.stat.eng e x } := rfl
@[simp] theorem State.setEng_fab (e : Nat) (x : Engine) : (s.setEng e x).fab = s.fab := rfl
@[simp] theorem State.setEng_led (e : Nat) (x : Engine) : (s.setEng e x).led = s.led := rfl
@[simp] theorem State.setEng_asy (e : Nat) (x : Engine) : (s.setEng e x).asy = s.asy := rfl
@[simp] theorem State.setEng_vbat (e : Nat) (x : Engine) : (s.setEng e x).vbat = s.vbat := rfl
@[simp] theorem State.setEng_depot (e : Nat) (x : Engine) : (s.setEng e x).depot = s.depot := rfl
@[simp] theorem State.setEng_plat (e : Nat) (x : Engine) : (s.setEng e x).plat = s.plat := rfl
@[simp] theorem State.setEng_out (e : Nat) (x : Engine) : (s.setEng e x).out = s.out := rfl

@[simp] theorem State.modEng_pending (e : Nat) (f : Engine → Engine) : (s.modEng e f).pending = s.pending := rfl
@[simp] theorem State.modEng_us (e : Nat) (f : Engine → Engine) : (s.modEng e f).us = s.us := rfl
@[simp] theorem State.modEng_fresh (e : Nat) (f : Engine → Engine) : (s.modEng e f).fresh = s.fresh := rfl
@[simp] theorem State.modEng_agents (e : Nat) (f : Engine → Engine) : (s.modEng e f).agents = s.agents := rfl
@[simp] theorem State.modEng_dealers (e : Nat) (f : Engine → Engine) : (s.modEng e f).dealers = s.dealers := rfl
@[simp] theorem State.modEng_reflex (e : Nat) (f : Engine → Engine) : (s.modEng e f).reflex = s.reflex := rfl
@[simp] theorem State.modEng_sess (e : Nat) (f : Engine → Engine) : (s.modEng e f).sess = s.sess := rfl
@[simp] theorem State.modEng_own (e : Nat) (f : Engine → Engine) : (s.modEng e f).own = s.own := rfl
@[simp] theorem State.modEng_pair (e : Nat) (f : Engine → Engine) : (s.modEng e f).pair = s.pair := rfl
@[simp] theorem State.modEng_stat (e : Nat) (f : Engine → Engine) : (s.modEng e f).stat = { s.stat with eng := SMap.set engDflt s.stat.eng e (f (s.eng e)) } := rfl
@[simp] theorem State.modEng_fab (e : Nat) (f : Engine → Engine) : (s.modEng e f).fab = s.fab := rfl
@[simp] theorem State.modEng_led (e : Nat) (f : Engine → Engine) : (s.modEng e f).led = s.led := rfl
@[simp] theorem State.modEng_asy (e : Nat) (f : Engine → Engine) : (s.modEng e f).asy = s.asy := rfl
@[simp] theorem State.modEng_vbat (e : Nat) (f : Engine → Engine) : (s.modEng e f).vbat = s.vbat := rfl
@[simp] theorem State.modEng_depot (e : Nat) (f : Engine → Engine) : (s.modEng e f).depot = s.depot := rfl
@[simp] theorem State.modEng_plat (e : Nat) (f : Engine → Engine) : (s.modEng e f).plat = s.plat := rfl
@[simp] theorem State.modEng_out (e : Nat) (f : Engine → Engine) : (s.modEng e f).out = s.out := rfl

@[simp] theorem State.modLPart_pending (p : Nat) (f : LPart → LPart) : (s.modLPart p f).pending = s.pending := rfl
@[simp] theorem State.modLPart_us (p : Nat) (f : LPart → LPart) : (s.modLPart p f).us = s.us := rfl
@[simp] theorem State.modLPart_fresh (p : Nat) (f : LPart → LPart) : (s.modLPart p f).fresh = s.fresh := rfl
@[simp] theorem State.modLPart_agents (p : Nat) (f : LPart → LPart) : (s.modLPart p f).agents = s.agents := rfl
@[simp] theorem State.modLPart_dealers (p : Nat) (f : LPart → LPart) : (s.modLPart p f).dealers = s.dealers := rfl
@[simp] theorem State.modLPart_reflex (p : Nat) (f : LPart → LPart) : (s.modLPart p f).reflex = s.reflex := rfl
@[simp] theorem State.modLPart_sess (p : Nat) (f : LPart → LPart) : (s.modLPart p f).sess = s.sess := rfl
@[simp] theorem State.modLPart_own (p : Nat) (f : LPart → LPart) : (s.modLPart p f).own = s.own := rfl
@[simp] theorem State.modLPart_pair (p : Nat) (f : LPart → LPart) : (s.modLPart p f).pair = s.pair := rfl
@[simp] theorem State.modLPart_stat (p : Nat) (f : LPart → LPart) : (s.modLPart p f).stat = s.stat := rfl
@[simp] theorem State.modLPart_fab (p : Nat) (f : LPart → LPart) : (s.modLPart p f).fab = s.fab := rfl
@[simp] theorem State.modLPart_led (p : Nat) (f : LPart → LPart) : (s.modLPart p f).led = { s.led with parts := SMap.modify lpartDflt s.led.parts p f } := rfl
@[simp] theorem State.modLPart_asy (p : Nat) (f : LPart → LPart) : (s.modLPart p f).asy = s.asy := rfl
@[simp] theorem State.modLPart_vbat (p : Nat) (f : LPart → LPart) : (s.modLPart p f).vbat = s.vbat := rfl
@[simp] theorem State.modLPart_depot (p : Nat) (f : LPart → LPart) : (s.modLPart p f).depot = s.depot := rfl
@[simp] theorem State.modLPart_plat (p : Nat) (f : LPart → LPart) : (s.modLPart p f).plat = s.plat := rfl
@[simp] theorem State.modLPart_out (p : Nat) (f : LPart → LPart) : (s.modLPart p f).out = s.out := rfl

@[simp] theorem State.modSlice_pending (i : Nat) (f : SliceEnt → SliceEnt) : (s.modSlice i f).pending = s.pending := rfl
@[simp] theorem State.modSlice_us (i : Nat) (f : SliceEnt → SliceEnt) : (s.modSlice i f).us = s.us := rfl
@[simp] theorem State.modSlice_fresh (i : Nat) (f : SliceEnt → SliceEnt) : (s.modSlice i f).fresh = s.fresh := rfl
@[simp] theorem State.modSlice_agents (i : Nat) (f : SliceEnt → SliceEnt) : (s.modSlice i f).agents = s.agents := rfl
@[simp] theorem State.modSlice_dealers (i : Nat) (f : SliceEnt → SliceEnt) : (s.modSlice i f).dealers = s.dealers := rfl
@[simp] theorem State.modSlice_reflex (i : Nat) (f : SliceEnt → SliceEnt) : (s.modSlice i f).reflex = s.reflex := rfl
@[simp] theorem State.modSlice_sess (i : Nat) (f : SliceEnt → SliceEnt) : (s.modSlice i f).sess = s.sess := rfl
@[simp] theorem State.modSlice_own (i : Nat) (f : SliceEnt → SliceEnt) : (s.modSlice i f).own = s.own := rfl
@[simp] theorem State.modSlice_pair (i : Nat) (f : SliceEnt → SliceEnt) : (s.modSlice i f).pair = s.pair := rfl
@[simp] theorem State.modSlice_stat (i : Nat) (f : SliceEnt → SliceEnt) : (s.modSlice i f).stat = s.stat := rfl
@[simp] theorem State.modSlice_fab (i : Nat) (f : SliceEnt → SliceEnt) : (s.modSlice i f).fab = s.fab := rfl
@[simp] theorem State.modSlice_led (i : Nat) (f : SliceEnt → SliceEnt) : (s.modSlice i f).led = { s.led with slices := SMap.modify sliceDflt s.led.slices i f } := rfl
@[simp] theorem State.modSlice_asy (i : Nat) (f : SliceEnt → SliceEnt) : (s.modSlice i f).asy = s.asy := rfl
@[simp] theorem State.modSlice_vbat (i : Nat) (f : SliceEnt → SliceEnt) : (s.modSlice i f).vbat = s.vbat := rfl
@[simp] theorem State.modSlice_depot (i : Nat) (f : SliceEnt → SliceEnt) : (s.modSlice i f).depot = s.depot := rfl
@[simp] theorem State.modSlice_plat (i : Nat) (f : SliceEnt → SliceEnt) : (s.modSlice i f).plat = s.plat := rfl
@[simp] theorem State.modSlice_out (i : Nat) (f : SliceEnt → SliceEnt) : (s.modSlice i f).out = s.out := rfl

@[simp] theorem State.modTally_pending (t : Nat) (f : Tally → Tally) : (s.modTally t f).pending = s.pending := rfl
@[simp] theorem State.modTally_us (t : Nat) (f : Tally → Tally) : (s.modTally t f).us = s.us := rfl
@[simp] theorem State.modTally_fresh (t : Nat) (f : Tally → Tally) : (s.modTally t f).fresh = s.fresh := rfl
@[simp] theorem State.modTally_agents (t : Nat) (f : Tally → Tally) : (s.modTally t f).agents = s.agents := rfl
@[simp] theorem State.modTally_dealers (t : Nat) (f : Tally → Tally) : (s.modTally t f).dealers = s.dealers := rfl
@[simp] theorem State.modTally_reflex (t : Nat) (f : Tally → Tally) : (s.modTally t f).reflex = s.reflex := rfl
@[simp] theorem State.modTally_sess (t : Nat) (f : Tally → Tally) : (s.modTally t f).sess = s.sess := rfl
@[simp] theorem State.modTally_own (t : Nat) (f : Tally → Tally) : (s.modTally t f).own = s.own := rfl
@[simp] theorem State.modTally_pair (t : Nat) (f : Tally → Tally) : (s.modTally t f).pair = s.pair := rfl
@[simp] theorem State.modTally_stat (t : Nat) (f : Tally → Tally) : (s.modTally t f).stat = s.stat := rfl
@[simp] theorem State.modTally_fab (t : Nat) (f : Tally → Tally) : (s.modTally t f).fab = s.fab := rfl
@[simp] theorem State.modTally_led (t : Nat) (f : Tally → Tally) : (s.modTally t f).led = { s.led with tallies := SMap.modify tallyDflt s.led.tallies t f } := rfl
@[simp] theorem State.modTally_asy (t : Nat) (f : Tally → Tally) : (s.modTally t f).asy = s.asy := rfl
@[simp] theorem State.modTally_vbat (t : Nat) (f : Tally → Tally) : (s.modTally t f).vbat = s.vbat := rfl
@[simp] theorem State.modTally_depot (t : Nat) (f : Tally → Tally) : (s.modTally t f).depot = s.depot := rfl
@[simp] theorem State.modTally_plat (t : Nat) (f : Tally → Tally) : (s.modTally t f).plat = s.plat := rfl
@[simp] theorem State.modTally_out (t : Nat) (f : Tally → Tally) : (s.modTally t f).out = s.out := rfl

@[simp] theorem State.modQueue_pending (q : Nat) (f : Queue → Queue) : (s.modQueue q f).pending = s.pending := rfl
@[simp] theorem State.modQueue_us (q : Nat) (f : Queue → Queue) : (s.modQueue q f).us = s.us := rfl
@[simp] theorem State.modQueue_fresh (q : Nat) (f : Queue → Queue) : (s.modQueue q f).fresh = s.fresh := rfl
@[simp] theorem State.modQueue_agents (q : Nat) (f : Queue → Queue) : (s.modQueue q f).agents = s.agents := rfl
@[simp] theorem State.modQueue_dealers (q : Nat) (f : Queue → Queue) : (s.modQueue q f).dealers = s.dealers := rfl
@[simp] theorem State.modQueue_reflex (q : Nat) (f : Queue → Queue) : (s.modQueue q f).reflex = s.reflex := rfl
@[simp] theorem State.modQueue_sess (q : Nat) (f : Queue → Queue) : (s.modQueue q f).sess = s.sess := rfl
@[simp] theorem State.modQueue_own (q : Nat) (f : Queue → Queue) : (s.modQueue q f).own = s.own := rfl
@[simp] theorem State.modQueue_pair (q : Nat) (f : Queue → Queue) : (s.modQueue q f).pair = s.pair := rfl
@[simp] theorem State.modQueue_stat (q : Nat) (f : Queue → Queue) : (s.modQueue q f).stat = s.stat := rfl
@[simp] theorem State.modQueue_fab (q : Nat) (f : Queue → Queue) : (s.modQueue q f).fab = s.fab := rfl
@[simp] theorem State.modQueue_led (q : Nat) (f : Queue → Queue) : (s.modQueue q f).led = { s.led with queues := SMap.modify queueDescDflt s.led.queues q f } := rfl
@[simp] theorem State.modQueue_asy (q : Nat) (f : Queue → Queue) : (s.modQueue q f).asy = s.asy := rfl
@[simp] theorem State.modQueue_vbat (q : Nat) (f : Queue → Queue) : (s.modQueue q f).vbat = s.vbat := rfl
@[simp] theorem State.modQueue_depot (q : Nat) (f : Queue → Queue) : (s.modQueue q f).depot = s.depot := rfl
@[simp] theorem State.modQueue_plat (q : Nat) (f : Queue → Queue) : (s.modQueue q f).plat = s.plat := rfl
@[simp] theorem State.modQueue_out (q : Nat) (f : Queue → Queue) : (s.modQueue q f).out = s.out := rfl

@[simp] theorem State.modMbx_pending (m : Nat) (f : LMbx → LMbx) : (s.modMbx m f).pending = s.pending := rfl
@[simp] theorem State.modMbx_us (m : Nat) (f : LMbx → LMbx) : (s.modMbx m f).us = s.us := rfl
@[simp] theorem State.modMbx_fresh (m : Nat) (f : LMbx → LMbx) : (s.modMbx m f).fresh = s.fresh := rfl
@[simp] theorem State.modMbx_agents (m : Nat) (f : LMbx → LMbx) : (s.modMbx m f).agents = s.agents := rfl
@[simp] theorem State.modMbx_dealers (m : Nat) (f : LMbx → LMbx) : (s.modMbx m f).dealers = s.dealers := rfl
@[simp] theorem State.modMbx_reflex (m : Nat) (f : LMbx → LMbx) : (s.modMbx m f).reflex = s.reflex := rfl
@[simp] theorem State.modMbx_sess (m : Nat) (f : LMbx → LMbx) : (s.modMbx m f).sess = s.sess := rfl
@[simp] theorem State.modMbx_own (m : Nat) (f : LMbx → LMbx) : (s.modMbx m f).own = s.own := rfl
@[simp] theorem State.modMbx_pair (m : Nat) (f : LMbx → LMbx) : (s.modMbx m f).pair = s.pair := rfl
@[simp] theorem State.modMbx_stat (m : Nat) (f : LMbx → LMbx) : (s.modMbx m f).stat = s.stat := rfl
@[simp] theorem State.modMbx_fab (m : Nat) (f : LMbx → LMbx) : (s.modMbx m f).fab = s.fab := rfl
@[simp] theorem State.modMbx_led (m : Nat) (f : LMbx → LMbx) : (s.modMbx m f).led = { s.led with mbx := SMap.modify lmbxDflt s.led.mbx m f } := rfl
@[simp] theorem State.modMbx_asy (m : Nat) (f : LMbx → LMbx) : (s.modMbx m f).asy = s.asy := rfl
@[simp] theorem State.modMbx_vbat (m : Nat) (f : LMbx → LMbx) : (s.modMbx m f).vbat = s.vbat := rfl
@[simp] theorem State.modMbx_depot (m : Nat) (f : LMbx → LMbx) : (s.modMbx m f).depot = s.depot := rfl
@[simp] theorem State.modMbx_plat (m : Nat) (f : LMbx → LMbx) : (s.modMbx m f).plat = s.plat := rfl
@[simp] theorem State.modMbx_out (m : Nat) (f : LMbx → LMbx) : (s.modMbx m f).out = s.out := rfl

@[simp] theorem State.modLane_pending (l : Nat) (f : Lane → Lane) : (s.modLane l f).pending = s.pending := rfl
@[simp] theorem State.modLane_us (l : Nat) (f : Lane → Lane) : (s.modLane l f).us = s.us := rfl
@[simp] theorem State.modLane_fresh (l : Nat) (f : Lane → Lane) : (s.modLane l f).fresh = s.fresh := rfl
@[simp] theorem State.modLane_agents (l : Nat) (f : Lane → Lane) : (s.modLane l f).agents = s.agents := rfl
@[simp] theorem State.modLane_dealers (l : Nat) (f : Lane → Lane) : (s.modLane l f).dealers = s.dealers := rfl
@[simp] theorem State.modLane_reflex (l : Nat) (f : Lane → Lane) : (s.modLane l f).reflex = s.reflex := rfl
@[simp] theorem State.modLane_sess (l : Nat) (f : Lane → Lane) : (s.modLane l f).sess = s.sess := rfl
@[simp] theorem State.modLane_own (l : Nat) (f : Lane → Lane) : (s.modLane l f).own = s.own := rfl
@[simp] theorem State.modLane_pair (l : Nat) (f : Lane → Lane) : (s.modLane l f).pair = s.pair := rfl
@[simp] theorem State.modLane_stat (l : Nat) (f : Lane → Lane) : (s.modLane l f).stat = s.stat := rfl
@[simp] theorem State.modLane_fab (l : Nat) (f : Lane → Lane) : (s.modLane l f).fab = s.fab := rfl
@[simp] theorem State.modLane_led (l : Nat) (f : Lane → Lane) : (s.modLane l f).led = s.led := rfl
@[simp] theorem State.modLane_asy (l : Nat) (f : Lane → Lane) : (s.modLane l f).asy = s.asy := rfl
@[simp] theorem State.modLane_vbat (l : Nat) (f : Lane → Lane) : (s.modLane l f).vbat = s.vbat := rfl
@[simp] theorem State.modLane_depot (l : Nat) (f : Lane → Lane) : (s.modLane l f).depot = s.depot := rfl
@[simp] theorem State.modLane_plat (l : Nat) (f : Lane → Lane) : (s.modLane l f).plat = { s.plat with lanes := SMap.modify laneDflt s.plat.lanes l f } := rfl
@[simp] theorem State.modLane_out (l : Nat) (f : Lane → Lane) : (s.modLane l f).out = s.out := rfl

@[simp] theorem State.modGPort_pending (p : Nat) (f : GPort → GPort) : (s.modGPort p f).pending = s.pending := rfl
@[simp] theorem State.modGPort_us (p : Nat) (f : GPort → GPort) : (s.modGPort p f).us = s.us := rfl
@[simp] theorem State.modGPort_fresh (p : Nat) (f : GPort → GPort) : (s.modGPort p f).fresh = s.fresh := rfl
@[simp] theorem State.modGPort_agents (p : Nat) (f : GPort → GPort) : (s.modGPort p f).agents = s.agents := rfl
@[simp] theorem State.modGPort_dealers (p : Nat) (f : GPort → GPort) : (s.modGPort p f).dealers = s.dealers := rfl
@[simp] theorem State.modGPort_reflex (p : Nat) (f : GPort → GPort) : (s.modGPort p f).reflex = s.reflex := rfl
@[simp] theorem State.modGPort_sess (p : Nat) (f : GPort → GPort) : (s.modGPort p f).sess = s.sess := rfl
@[simp] theorem State.modGPort_own (p : Nat) (f : GPort → GPort) : (s.modGPort p f).own = s.own := rfl
@[simp] theorem State.modGPort_pair (p : Nat) (f : GPort → GPort) : (s.modGPort p f).pair = s.pair := rfl
@[simp] theorem State.modGPort_stat (p : Nat) (f : GPort → GPort) : (s.modGPort p f).stat = s.stat := rfl
@[simp] theorem State.modGPort_fab (p : Nat) (f : GPort → GPort) : (s.modGPort p f).fab = s.fab := rfl
@[simp] theorem State.modGPort_led (p : Nat) (f : GPort → GPort) : (s.modGPort p f).led = s.led := rfl
@[simp] theorem State.modGPort_asy (p : Nat) (f : GPort → GPort) : (s.modGPort p f).asy = s.asy := rfl
@[simp] theorem State.modGPort_vbat (p : Nat) (f : GPort → GPort) : (s.modGPort p f).vbat = s.vbat := rfl
@[simp] theorem State.modGPort_depot (p : Nat) (f : GPort → GPort) : (s.modGPort p f).depot = s.depot := rfl
@[simp] theorem State.modGPort_plat (p : Nat) (f : GPort → GPort) : (s.modGPort p f).plat = { s.plat with gports := SMap.modify gportDflt s.plat.gports p f } := rfl
@[simp] theorem State.modGPort_out (p : Nat) (f : GPort → GPort) : (s.modGPort p f).out = s.out := rfl

@[simp] theorem State.modSub_pending (p : Nat) (f : Port → Port) : (s.modSub p f).pending = s.pending := rfl
@[simp] theorem State.modSub_us (p : Nat) (f : Port → Port) : (s.modSub p f).us = s.us := rfl
@[simp] theorem State.modSub_fresh (p : Nat) (f : Port → Port) : (s.modSub p f).fresh = s.fresh := rfl
@[simp] theorem State.modSub_agents (p : Nat) (f : Port → Port) : (s.modSub p f).agents = s.agents := rfl
@[simp] theorem State.modSub_dealers (p : Nat) (f : Port → Port) : (s.modSub p f).dealers = s.dealers := rfl
@[simp] theorem State.modSub_reflex (p : Nat) (f : Port → Port) : (s.modSub p f).reflex = s.reflex := rfl
@[simp] theorem State.modSub_sess (p : Nat) (f : Port → Port) : (s.modSub p f).sess = s.sess := rfl
@[simp] theorem State.modSub_own (p : Nat) (f : Port → Port) : (s.modSub p f).own = s.own := rfl
@[simp] theorem State.modSub_pair (p : Nat) (f : Port → Port) : (s.modSub p f).pair = s.pair := rfl
@[simp] theorem State.modSub_stat (p : Nat) (f : Port → Port) : (s.modSub p f).stat = s.stat := rfl
@[simp] theorem State.modSub_fab (p : Nat) (f : Port → Port) : (s.modSub p f).fab = { s.fab with ports := SMap.modify portDflt s.fab.ports p f } := rfl
@[simp] theorem State.modSub_led (p : Nat) (f : Port → Port) : (s.modSub p f).led = s.led := rfl
@[simp] theorem State.modSub_asy (p : Nat) (f : Port → Port) : (s.modSub p f).asy = s.asy := rfl
@[simp] theorem State.modSub_vbat (p : Nat) (f : Port → Port) : (s.modSub p f).vbat = s.vbat := rfl
@[simp] theorem State.modSub_depot (p : Nat) (f : Port → Port) : (s.modSub p f).depot = s.depot := rfl
@[simp] theorem State.modSub_plat (p : Nat) (f : Port → Port) : (s.modSub p f).plat = s.plat := rfl
@[simp] theorem State.modSub_out (p : Nat) (f : Port → Port) : (s.modSub p f).out = s.out := rfl

@[simp] theorem State.modAlloc_pending (i : Nat) (f : Alloc → Alloc) : (s.modAlloc i f).pending = s.pending := rfl
@[simp] theorem State.modAlloc_us (i : Nat) (f : Alloc → Alloc) : (s.modAlloc i f).us = s.us := rfl
@[simp] theorem State.modAlloc_fresh (i : Nat) (f : Alloc → Alloc) : (s.modAlloc i f).fresh = s.fresh := rfl
@[simp] theorem State.modAlloc_agents (i : Nat) (f : Alloc → Alloc) : (s.modAlloc i f).agents = s.agents := rfl
@[simp] theorem State.modAlloc_dealers (i : Nat) (f : Alloc → Alloc) : (s.modAlloc i f).dealers = s.dealers := rfl
@[simp] theorem State.modAlloc_reflex (i : Nat) (f : Alloc → Alloc) : (s.modAlloc i f).reflex = s.reflex := rfl
@[simp] theorem State.modAlloc_sess (i : Nat) (f : Alloc → Alloc) : (s.modAlloc i f).sess = s.sess := rfl
@[simp] theorem State.modAlloc_own (i : Nat) (f : Alloc → Alloc) : (s.modAlloc i f).own = s.own := rfl
@[simp] theorem State.modAlloc_pair (i : Nat) (f : Alloc → Alloc) : (s.modAlloc i f).pair = s.pair := rfl
@[simp] theorem State.modAlloc_stat (i : Nat) (f : Alloc → Alloc) : (s.modAlloc i f).stat = s.stat := rfl
@[simp] theorem State.modAlloc_fab (i : Nat) (f : Alloc → Alloc) : (s.modAlloc i f).fab = s.fab := rfl
@[simp] theorem State.modAlloc_led (i : Nat) (f : Alloc → Alloc) : (s.modAlloc i f).led = s.led := rfl
@[simp] theorem State.modAlloc_asy (i : Nat) (f : Alloc → Alloc) : (s.modAlloc i f).asy = s.asy := rfl
@[simp] theorem State.modAlloc_vbat (i : Nat) (f : Alloc → Alloc) : (s.modAlloc i f).vbat = s.vbat := rfl
@[simp] theorem State.modAlloc_depot (i : Nat) (f : Alloc → Alloc) : (s.modAlloc i f).depot = { s.depot with allocs := SMap.modify allocDflt s.depot.allocs i f } := rfl
@[simp] theorem State.modAlloc_plat (i : Nat) (f : Alloc → Alloc) : (s.modAlloc i f).plat = s.plat := rfl
@[simp] theorem State.modAlloc_out (i : Nat) (f : Alloc → Alloc) : (s.modAlloc i f).out = s.out := rfl

@[simp] theorem State.modChan_pending (i : Nat) (f : Channel → Channel) : (s.modChan i f).pending = s.pending := rfl
@[simp] theorem State.modChan_us (i : Nat) (f : Channel → Channel) : (s.modChan i f).us = s.us := rfl
@[simp] theorem State.modChan_fresh (i : Nat) (f : Channel → Channel) : (s.modChan i f).fresh = s.fresh := rfl
@[simp] theorem State.modChan_agents (i : Nat) (f : Channel → Channel) : (s.modChan i f).agents = s.agents := rfl
@[simp] theorem State.modChan_dealers (i : Nat) (f : Channel → Channel) : (s.modChan i f).dealers = s.dealers := rfl
@[simp] theorem State.modChan_reflex (i : Nat) (f : Channel → Channel) : (s.modChan i f).reflex = s.reflex := rfl
@[simp] theorem State.modChan_sess (i : Nat) (f : Channel → Channel) : (s.modChan i f).sess = s.sess := rfl
@[simp] theorem State.modChan_own (i : Nat) (f : Channel → Channel) : (s.modChan i f).own = s.own := rfl
@[simp] theorem State.modChan_pair (i : Nat) (f : Channel → Channel) : (s.modChan i f).pair = s.pair := rfl
@[simp] theorem State.modChan_stat (i : Nat) (f : Channel → Channel) : (s.modChan i f).stat = s.stat := rfl
@[simp] theorem State.modChan_fab (i : Nat) (f : Channel → Channel) : (s.modChan i f).fab = s.fab := rfl
@[simp] theorem State.modChan_led (i : Nat) (f : Channel → Channel) : (s.modChan i f).led = s.led := rfl
@[simp] theorem State.modChan_asy (i : Nat) (f : Channel → Channel) : (s.modChan i f).asy = s.asy := rfl
@[simp] theorem State.modChan_vbat (i : Nat) (f : Channel → Channel) : (s.modChan i f).vbat = s.vbat := rfl
@[simp] theorem State.modChan_depot (i : Nat) (f : Channel → Channel) : (s.modChan i f).depot = s.depot := rfl
@[simp] theorem State.modChan_plat (i : Nat) (f : Channel → Channel) : (s.modChan i f).plat = { s.plat with chans := SMap.modify chanDflt s.plat.chans i f } := rfl
@[simp] theorem State.modChan_out (i : Nat) (f : Channel → Channel) : (s.modChan i f).out = s.out := rfl

@[simp] theorem State.emit_pending (o : Out) : (s.emit o).pending = s.pending := rfl
@[simp] theorem State.emit_us (o : Out) : (s.emit o).us = s.us := rfl
@[simp] theorem State.emit_fresh (o : Out) : (s.emit o).fresh = s.fresh := rfl
@[simp] theorem State.emit_agents (o : Out) : (s.emit o).agents = s.agents := rfl
@[simp] theorem State.emit_dealers (o : Out) : (s.emit o).dealers = s.dealers := rfl
@[simp] theorem State.emit_reflex (o : Out) : (s.emit o).reflex = s.reflex := rfl
@[simp] theorem State.emit_sess (o : Out) : (s.emit o).sess = s.sess := rfl
@[simp] theorem State.emit_own (o : Out) : (s.emit o).own = s.own := rfl
@[simp] theorem State.emit_pair (o : Out) : (s.emit o).pair = s.pair := rfl
@[simp] theorem State.emit_stat (o : Out) : (s.emit o).stat = s.stat := rfl
@[simp] theorem State.emit_fab (o : Out) : (s.emit o).fab = s.fab := rfl
@[simp] theorem State.emit_led (o : Out) : (s.emit o).led = s.led := rfl
@[simp] theorem State.emit_asy (o : Out) : (s.emit o).asy = s.asy := rfl
@[simp] theorem State.emit_vbat (o : Out) : (s.emit o).vbat = s.vbat := rfl
@[simp] theorem State.emit_depot (o : Out) : (s.emit o).depot = s.depot := rfl
@[simp] theorem State.emit_plat (o : Out) : (s.emit o).plat = s.plat := rfl
@[simp] theorem State.emit_out (o : Out) : (s.emit o).out = s.out ++ [o] := rfl

@[simp] theorem State.setPwr_pending (f : Power → Power) : (s.setPwr f).pending = s.pending := rfl
@[simp] theorem State.setPwr_us (f : Power → Power) : (s.setPwr f).us = s.us := rfl
@[simp] theorem State.setPwr_fresh (f : Power → Power) : (s.setPwr f).fresh = s.fresh := rfl
@[simp] theorem State.setPwr_agents (f : Power → Power) : (s.setPwr f).agents = s.agents := rfl
@[simp] theorem State.setPwr_dealers (f : Power → Power) : (s.setPwr f).dealers = s.dealers := rfl
@[simp] theorem State.setPwr_reflex (f : Power → Power) : (s.setPwr f).reflex = s.reflex := rfl
@[simp] theorem State.setPwr_sess (f : Power → Power) : (s.setPwr f).sess = s.sess := rfl
@[simp] theorem State.setPwr_own (f : Power → Power) : (s.setPwr f).own = s.own := rfl
@[simp] theorem State.setPwr_pair (f : Power → Power) : (s.setPwr f).pair = s.pair := rfl
@[simp] theorem State.setPwr_stat (f : Power → Power) : (s.setPwr f).stat = s.stat := rfl
@[simp] theorem State.setPwr_fab (f : Power → Power) : (s.setPwr f).fab = s.fab := rfl
@[simp] theorem State.setPwr_led (f : Power → Power) : (s.setPwr f).led = s.led := rfl
@[simp] theorem State.setPwr_asy (f : Power → Power) : (s.setPwr f).asy = s.asy := rfl
@[simp] theorem State.setPwr_vbat (f : Power → Power) : (s.setPwr f).vbat = s.vbat := rfl
@[simp] theorem State.setPwr_depot (f : Power → Power) : (s.setPwr f).depot = s.depot := rfl
@[simp] theorem State.setPwr_plat (f : Power → Power) : (s.setPwr f).plat = { s.plat with pwr := f s.plat.pwr } := rfl
@[simp] theorem State.setPwr_out (f : Power → Power) : (s.setPwr f).out = s.out := rfl

@[simp] theorem State.setBring_pending (f : Bring → Bring) : (s.setBring f).pending = s.pending := rfl
@[simp] theorem State.setBring_us (f : Bring → Bring) : (s.setBring f).us = s.us := rfl
@[simp] theorem State.setBring_fresh (f : Bring → Bring) : (s.setBring f).fresh = s.fresh := rfl
@[simp] theorem State.setBring_agents (f : Bring → Bring) : (s.setBring f).agents = s.agents := rfl
@[simp] theorem State.setBring_dealers (f : Bring → Bring) : (s.setBring f).dealers = s.dealers := rfl
@[simp] theorem State.setBring_reflex (f : Bring → Bring) : (s.setBring f).reflex = s.reflex := rfl
@[simp] theorem State.setBring_sess (f : Bring → Bring) : (s.setBring f).sess = s.sess := rfl
@[simp] theorem State.setBring_own (f : Bring → Bring) : (s.setBring f).own = s.own := rfl
@[simp] theorem State.setBring_pair (f : Bring → Bring) : (s.setBring f).pair = s.pair := rfl
@[simp] theorem State.setBring_stat (f : Bring → Bring) : (s.setBring f).stat = s.stat := rfl
@[simp] theorem State.setBring_fab (f : Bring → Bring) : (s.setBring f).fab = s.fab := rfl
@[simp] theorem State.setBring_led (f : Bring → Bring) : (s.setBring f).led = s.led := rfl
@[simp] theorem State.setBring_asy (f : Bring → Bring) : (s.setBring f).asy = s.asy := rfl
@[simp] theorem State.setBring_vbat (f : Bring → Bring) : (s.setBring f).vbat = s.vbat := rfl
@[simp] theorem State.setBring_depot (f : Bring → Bring) : (s.setBring f).depot = s.depot := rfl
@[simp] theorem State.setBring_plat (f : Bring → Bring) : (s.setBring f).plat = { s.plat with bring := f s.plat.bring } := rfl
@[simp] theorem State.setBring_out (f : Bring → Bring) : (s.setBring f).out = s.out := rfl

@[simp] theorem State.setRst_pending (f : ResetBlk → ResetBlk) : (s.setRst f).pending = s.pending := rfl
@[simp] theorem State.setRst_us (f : ResetBlk → ResetBlk) : (s.setRst f).us = s.us := rfl
@[simp] theorem State.setRst_fresh (f : ResetBlk → ResetBlk) : (s.setRst f).fresh = s.fresh := rfl
@[simp] theorem State.setRst_agents (f : ResetBlk → ResetBlk) : (s.setRst f).agents = s.agents := rfl
@[simp] theorem State.setRst_dealers (f : ResetBlk → ResetBlk) : (s.setRst f).dealers = s.dealers := rfl
@[simp] theorem State.setRst_reflex (f : ResetBlk → ResetBlk) : (s.setRst f).reflex = s.reflex := rfl
@[simp] theorem State.setRst_sess (f : ResetBlk → ResetBlk) : (s.setRst f).sess = s.sess := rfl
@[simp] theorem State.setRst_own (f : ResetBlk → ResetBlk) : (s.setRst f).own = s.own := rfl
@[simp] theorem State.setRst_pair (f : ResetBlk → ResetBlk) : (s.setRst f).pair = s.pair := rfl
@[simp] theorem State.setRst_stat (f : ResetBlk → ResetBlk) : (s.setRst f).stat = s.stat := rfl
@[simp] theorem State.setRst_fab (f : ResetBlk → ResetBlk) : (s.setRst f).fab = s.fab := rfl
@[simp] theorem State.setRst_led (f : ResetBlk → ResetBlk) : (s.setRst f).led = s.led := rfl
@[simp] theorem State.setRst_asy (f : ResetBlk → ResetBlk) : (s.setRst f).asy = s.asy := rfl
@[simp] theorem State.setRst_vbat (f : ResetBlk → ResetBlk) : (s.setRst f).vbat = s.vbat := rfl
@[simp] theorem State.setRst_depot (f : ResetBlk → ResetBlk) : (s.setRst f).depot = s.depot := rfl
@[simp] theorem State.setRst_plat (f : ResetBlk → ResetBlk) : (s.setRst f).plat = { s.plat with rst := f s.plat.rst } := rfl
@[simp] theorem State.setRst_out (f : ResetBlk → ResetBlk) : (s.setRst f).out = s.out := rfl

@[simp] theorem State.setPins_pending (f : Pins → Pins) : (s.setPins f).pending = s.pending := rfl
@[simp] theorem State.setPins_us (f : Pins → Pins) : (s.setPins f).us = s.us := rfl
@[simp] theorem State.setPins_fresh (f : Pins → Pins) : (s.setPins f).fresh = s.fresh := rfl
@[simp] theorem State.setPins_agents (f : Pins → Pins) : (s.setPins f).agents = s.agents := rfl
@[simp] theorem State.setPins_dealers (f : Pins → Pins) : (s.setPins f).dealers = s.dealers := rfl
@[simp] theorem State.setPins_reflex (f : Pins → Pins) : (s.setPins f).reflex = s.reflex := rfl
@[simp] theorem State.setPins_sess (f : Pins → Pins) : (s.setPins f).sess = s.sess := rfl
@[simp] theorem State.setPins_own (f : Pins → Pins) : (s.setPins f).own = s.own := rfl
@[simp] theorem State.setPins_pair (f : Pins → Pins) : (s.setPins f).pair = s.pair := rfl
@[simp] theorem State.setPins_stat (f : Pins → Pins) : (s.setPins f).stat = s.stat := rfl
@[simp] theorem State.setPins_fab (f : Pins → Pins) : (s.setPins f).fab = s.fab := rfl
@[simp] theorem State.setPins_led (f : Pins → Pins) : (s.setPins f).led = s.led := rfl
@[simp] theorem State.setPins_asy (f : Pins → Pins) : (s.setPins f).asy = s.asy := rfl
@[simp] theorem State.setPins_vbat (f : Pins → Pins) : (s.setPins f).vbat = s.vbat := rfl
@[simp] theorem State.setPins_depot (f : Pins → Pins) : (s.setPins f).depot = s.depot := rfl
@[simp] theorem State.setPins_plat (f : Pins → Pins) : (s.setPins f).plat = { s.plat with pins := f s.plat.pins } := rfl
@[simp] theorem State.setPins_out (f : Pins → Pins) : (s.setPins f).out = s.out := rfl

@[simp] theorem State.setPair_pending (f : Pair → Pair) : (s.setPair f).pending = s.pending := rfl
@[simp] theorem State.setPair_us (f : Pair → Pair) : (s.setPair f).us = s.us := rfl
@[simp] theorem State.setPair_fresh (f : Pair → Pair) : (s.setPair f).fresh = s.fresh := rfl
@[simp] theorem State.setPair_agents (f : Pair → Pair) : (s.setPair f).agents = s.agents := rfl
@[simp] theorem State.setPair_dealers (f : Pair → Pair) : (s.setPair f).dealers = s.dealers := rfl
@[simp] theorem State.setPair_reflex (f : Pair → Pair) : (s.setPair f).reflex = s.reflex := rfl
@[simp] theorem State.setPair_sess (f : Pair → Pair) : (s.setPair f).sess = s.sess := rfl
@[simp] theorem State.setPair_own (f : Pair → Pair) : (s.setPair f).own = s.own := rfl
@[simp] theorem State.setPair_pair (f : Pair → Pair) : (s.setPair f).pair = f s.pair := rfl
@[simp] theorem State.setPair_stat (f : Pair → Pair) : (s.setPair f).stat = s.stat := rfl
@[simp] theorem State.setPair_fab (f : Pair → Pair) : (s.setPair f).fab = s.fab := rfl
@[simp] theorem State.setPair_led (f : Pair → Pair) : (s.setPair f).led = s.led := rfl
@[simp] theorem State.setPair_asy (f : Pair → Pair) : (s.setPair f).asy = s.asy := rfl
@[simp] theorem State.setPair_vbat (f : Pair → Pair) : (s.setPair f).vbat = s.vbat := rfl
@[simp] theorem State.setPair_depot (f : Pair → Pair) : (s.setPair f).depot = s.depot := rfl
@[simp] theorem State.setPair_plat (f : Pair → Pair) : (s.setPair f).plat = s.plat := rfl
@[simp] theorem State.setPair_out (f : Pair → Pair) : (s.setPair f).out = s.out := rfl

@[simp] theorem State.setDeck_pending (f : Deck → Deck) : (s.setDeck f).pending = s.pending := rfl
@[simp] theorem State.setDeck_us (f : Deck → Deck) : (s.setDeck f).us = s.us := rfl
@[simp] theorem State.setDeck_fresh (f : Deck → Deck) : (s.setDeck f).fresh = s.fresh := rfl
@[simp] theorem State.setDeck_agents (f : Deck → Deck) : (s.setDeck f).agents = s.agents := rfl
@[simp] theorem State.setDeck_dealers (f : Deck → Deck) : (s.setDeck f).dealers = s.dealers := rfl
@[simp] theorem State.setDeck_reflex (f : Deck → Deck) : (s.setDeck f).reflex = s.reflex := rfl
@[simp] theorem State.setDeck_sess (f : Deck → Deck) : (s.setDeck f).sess = s.sess := rfl
@[simp] theorem State.setDeck_own (f : Deck → Deck) : (s.setDeck f).own = s.own := rfl
@[simp] theorem State.setDeck_pair (f : Deck → Deck) : (s.setDeck f).pair = s.pair := rfl
@[simp] theorem State.setDeck_stat (f : Deck → Deck) : (s.setDeck f).stat = s.stat := rfl
@[simp] theorem State.setDeck_fab (f : Deck → Deck) : (s.setDeck f).fab = { s.fab with deck := f s.fab.deck } := rfl
@[simp] theorem State.setDeck_led (f : Deck → Deck) : (s.setDeck f).led = s.led := rfl
@[simp] theorem State.setDeck_asy (f : Deck → Deck) : (s.setDeck f).asy = s.asy := rfl
@[simp] theorem State.setDeck_vbat (f : Deck → Deck) : (s.setDeck f).vbat = s.vbat := rfl
@[simp] theorem State.setDeck_depot (f : Deck → Deck) : (s.setDeck f).depot = s.depot := rfl
@[simp] theorem State.setDeck_plat (f : Deck → Deck) : (s.setDeck f).plat = s.plat := rfl
@[simp] theorem State.setDeck_out (f : Deck → Deck) : (s.setDeck f).out = s.out := rfl

@[simp] theorem State.setFold_pending (f : Fold → Fold) : (s.setFold f).pending = s.pending := rfl
@[simp] theorem State.setFold_us (f : Fold → Fold) : (s.setFold f).us = s.us := rfl
@[simp] theorem State.setFold_fresh (f : Fold → Fold) : (s.setFold f).fresh = s.fresh := rfl
@[simp] theorem State.setFold_agents (f : Fold → Fold) : (s.setFold f).agents = s.agents := rfl
@[simp] theorem State.setFold_dealers (f : Fold → Fold) : (s.setFold f).dealers = s.dealers := rfl
@[simp] theorem State.setFold_reflex (f : Fold → Fold) : (s.setFold f).reflex = s.reflex := rfl
@[simp] theorem State.setFold_sess (f : Fold → Fold) : (s.setFold f).sess = s.sess := rfl
@[simp] theorem State.setFold_own (f : Fold → Fold) : (s.setFold f).own = s.own := rfl
@[simp] theorem State.setFold_pair (f : Fold → Fold) : (s.setFold f).pair = s.pair := rfl
@[simp] theorem State.setFold_stat (f : Fold → Fold) : (s.setFold f).stat = s.stat := rfl
@[simp] theorem State.setFold_fab (f : Fold → Fold) : (s.setFold f).fab = { s.fab with fold := f s.fab.fold } := rfl
@[simp] theorem State.setFold_led (f : Fold → Fold) : (s.setFold f).led = s.led := rfl
@[simp] theorem State.setFold_asy (f : Fold → Fold) : (s.setFold f).asy = s.asy := rfl
@[simp] theorem State.setFold_vbat (f : Fold → Fold) : (s.setFold f).vbat = s.vbat := rfl
@[simp] theorem State.setFold_depot (f : Fold → Fold) : (s.setFold f).depot = s.depot := rfl
@[simp] theorem State.setFold_plat (f : Fold → Fold) : (s.setFold f).plat = s.plat := rfl
@[simp] theorem State.setFold_out (f : Fold → Fold) : (s.setFold f).out = s.out := rfl

@[simp] theorem State.setDisc_pending (f : Discovery → Discovery) : (s.setDisc f).pending = s.pending := rfl
@[simp] theorem State.setDisc_us (f : Discovery → Discovery) : (s.setDisc f).us = s.us := rfl
@[simp] theorem State.setDisc_fresh (f : Discovery → Discovery) : (s.setDisc f).fresh = s.fresh := rfl
@[simp] theorem State.setDisc_agents (f : Discovery → Discovery) : (s.setDisc f).agents = s.agents := rfl
@[simp] theorem State.setDisc_dealers (f : Discovery → Discovery) : (s.setDisc f).dealers = s.dealers := rfl
@[simp] theorem State.setDisc_reflex (f : Discovery → Discovery) : (s.setDisc f).reflex = s.reflex := rfl
@[simp] theorem State.setDisc_sess (f : Discovery → Discovery) : (s.setDisc f).sess = s.sess := rfl
@[simp] theorem State.setDisc_own (f : Discovery → Discovery) : (s.setDisc f).own = s.own := rfl
@[simp] theorem State.setDisc_pair (f : Discovery → Discovery) : (s.setDisc f).pair = s.pair := rfl
@[simp] theorem State.setDisc_stat (f : Discovery → Discovery) : (s.setDisc f).stat = s.stat := rfl
@[simp] theorem State.setDisc_fab (f : Discovery → Discovery) : (s.setDisc f).fab = { s.fab with disc := f s.fab.disc } := rfl
@[simp] theorem State.setDisc_led (f : Discovery → Discovery) : (s.setDisc f).led = s.led := rfl
@[simp] theorem State.setDisc_asy (f : Discovery → Discovery) : (s.setDisc f).asy = s.asy := rfl
@[simp] theorem State.setDisc_vbat (f : Discovery → Discovery) : (s.setDisc f).vbat = s.vbat := rfl
@[simp] theorem State.setDisc_depot (f : Discovery → Discovery) : (s.setDisc f).depot = s.depot := rfl
@[simp] theorem State.setDisc_plat (f : Discovery → Discovery) : (s.setDisc f).plat = s.plat := rfl
@[simp] theorem State.setDisc_out (f : Discovery → Discovery) : (s.setDisc f).out = s.out := rfl

@[simp] theorem State.setCong_pending (f : Congestion → Congestion) : (s.setCong f).pending = s.pending := rfl
@[simp] theorem State.setCong_us (f : Congestion → Congestion) : (s.setCong f).us = s.us := rfl
@[simp] theorem State.setCong_fresh (f : Congestion → Congestion) : (s.setCong f).fresh = s.fresh := rfl
@[simp] theorem State.setCong_agents (f : Congestion → Congestion) : (s.setCong f).agents = s.agents := rfl
@[simp] theorem State.setCong_dealers (f : Congestion → Congestion) : (s.setCong f).dealers = s.dealers := rfl
@[simp] theorem State.setCong_reflex (f : Congestion → Congestion) : (s.setCong f).reflex = s.reflex := rfl
@[simp] theorem State.setCong_sess (f : Congestion → Congestion) : (s.setCong f).sess = s.sess := rfl
@[simp] theorem State.setCong_own (f : Congestion → Congestion) : (s.setCong f).own = s.own := rfl
@[simp] theorem State.setCong_pair (f : Congestion → Congestion) : (s.setCong f).pair = s.pair := rfl
@[simp] theorem State.setCong_stat (f : Congestion → Congestion) : (s.setCong f).stat = s.stat := rfl
@[simp] theorem State.setCong_fab (f : Congestion → Congestion) : (s.setCong f).fab = { s.fab with cong := f s.fab.cong } := rfl
@[simp] theorem State.setCong_led (f : Congestion → Congestion) : (s.setCong f).led = s.led := rfl
@[simp] theorem State.setCong_asy (f : Congestion → Congestion) : (s.setCong f).asy = s.asy := rfl
@[simp] theorem State.setCong_vbat (f : Congestion → Congestion) : (s.setCong f).vbat = s.vbat := rfl
@[simp] theorem State.setCong_depot (f : Congestion → Congestion) : (s.setCong f).depot = s.depot := rfl
@[simp] theorem State.setCong_plat (f : Congestion → Congestion) : (s.setCong f).plat = s.plat := rfl
@[simp] theorem State.setCong_out (f : Congestion → Congestion) : (s.setCong f).out = s.out := rfl

@[simp] theorem State.setReb_pending (f : Rebuild → Rebuild) : (s.setReb f).pending = s.pending := rfl
@[simp] theorem State.setReb_us (f : Rebuild → Rebuild) : (s.setReb f).us = s.us := rfl
@[simp] theorem State.setReb_fresh (f : Rebuild → Rebuild) : (s.setReb f).fresh = s.fresh := rfl
@[simp] theorem State.setReb_agents (f : Rebuild → Rebuild) : (s.setReb f).agents = s.agents := rfl
@[simp] theorem State.setReb_dealers (f : Rebuild → Rebuild) : (s.setReb f).dealers = s.dealers := rfl
@[simp] theorem State.setReb_reflex (f : Rebuild → Rebuild) : (s.setReb f).reflex = s.reflex := rfl
@[simp] theorem State.setReb_sess (f : Rebuild → Rebuild) : (s.setReb f).sess = s.sess := rfl
@[simp] theorem State.setReb_own (f : Rebuild → Rebuild) : (s.setReb f).own = s.own := rfl
@[simp] theorem State.setReb_pair (f : Rebuild → Rebuild) : (s.setReb f).pair = s.pair := rfl
@[simp] theorem State.setReb_stat (f : Rebuild → Rebuild) : (s.setReb f).stat = s.stat := rfl
@[simp] theorem State.setReb_fab (f : Rebuild → Rebuild) : (s.setReb f).fab = { s.fab with reb := f s.fab.reb } := rfl
@[simp] theorem State.setReb_led (f : Rebuild → Rebuild) : (s.setReb f).led = s.led := rfl
@[simp] theorem State.setReb_asy (f : Rebuild → Rebuild) : (s.setReb f).asy = s.asy := rfl
@[simp] theorem State.setReb_vbat (f : Rebuild → Rebuild) : (s.setReb f).vbat = s.vbat := rfl
@[simp] theorem State.setReb_depot (f : Rebuild → Rebuild) : (s.setReb f).depot = s.depot := rfl
@[simp] theorem State.setReb_plat (f : Rebuild → Rebuild) : (s.setReb f).plat = s.plat := rfl
@[simp] theorem State.setReb_out (f : Rebuild → Rebuild) : (s.setReb f).out = s.out := rfl

@[simp] theorem State.setSettle_pending (f : Settle → Settle) : (s.setSettle f).pending = s.pending := rfl
@[simp] theorem State.setSettle_us (f : Settle → Settle) : (s.setSettle f).us = s.us := rfl
@[simp] theorem State.setSettle_fresh (f : Settle → Settle) : (s.setSettle f).fresh = s.fresh := rfl
@[simp] theorem State.setSettle_agents (f : Settle → Settle) : (s.setSettle f).agents = s.agents := rfl
@[simp] theorem State.setSettle_dealers (f : Settle → Settle) : (s.setSettle f).dealers = s.dealers := rfl
@[simp] theorem State.setSettle_reflex (f : Settle → Settle) : (s.setSettle f).reflex = s.reflex := rfl
@[simp] theorem State.setSettle_sess (f : Settle → Settle) : (s.setSettle f).sess = s.sess := rfl
@[simp] theorem State.setSettle_own (f : Settle → Settle) : (s.setSettle f).own = s.own := rfl
@[simp] theorem State.setSettle_pair (f : Settle → Settle) : (s.setSettle f).pair = s.pair := rfl
@[simp] theorem State.setSettle_stat (f : Settle → Settle) : (s.setSettle f).stat = s.stat := rfl
@[simp] theorem State.setSettle_fab (f : Settle → Settle) : (s.setSettle f).fab = s.fab := rfl
@[simp] theorem State.setSettle_led (f : Settle → Settle) : (s.setSettle f).led = { s.led with settle := f s.led.settle } := rfl
@[simp] theorem State.setSettle_asy (f : Settle → Settle) : (s.setSettle f).asy = s.asy := rfl
@[simp] theorem State.setSettle_vbat (f : Settle → Settle) : (s.setSettle f).vbat = s.vbat := rfl
@[simp] theorem State.setSettle_depot (f : Settle → Settle) : (s.setSettle f).depot = s.depot := rfl
@[simp] theorem State.setSettle_plat (f : Settle → Settle) : (s.setSettle f).plat = s.plat := rfl
@[simp] theorem State.setSettle_out (f : Settle → Settle) : (s.setSettle f).out = s.out := rfl

@[simp] theorem State.ignore_pending : (s.ignore).pending = s.pending := rfl
@[simp] theorem State.ignore_us : (s.ignore).us = s.us := rfl
@[simp] theorem State.ignore_fresh : (s.ignore).fresh = s.fresh := rfl
@[simp] theorem State.ignore_agents : (s.ignore).agents = s.agents := rfl
@[simp] theorem State.ignore_dealers : (s.ignore).dealers = s.dealers := rfl
@[simp] theorem State.ignore_reflex : (s.ignore).reflex = s.reflex := rfl
@[simp] theorem State.ignore_sess : (s.ignore).sess = s.sess := rfl
@[simp] theorem State.ignore_own : (s.ignore).own = { s.own with ignored := satInc s.own.ignored } := rfl
@[simp] theorem State.ignore_pair : (s.ignore).pair = s.pair := rfl
@[simp] theorem State.ignore_stat : (s.ignore).stat = s.stat := rfl
@[simp] theorem State.ignore_fab : (s.ignore).fab = s.fab := rfl
@[simp] theorem State.ignore_led : (s.ignore).led = s.led := rfl
@[simp] theorem State.ignore_asy : (s.ignore).asy = s.asy := rfl
@[simp] theorem State.ignore_vbat : (s.ignore).vbat = s.vbat := rfl
@[simp] theorem State.ignore_depot : (s.ignore).depot = s.depot := rfl
@[simp] theorem State.ignore_plat : (s.ignore).plat = s.plat := rfl
@[simp] theorem State.ignore_out : (s.ignore).out = s.out := rfl

@[simp] theorem State.faultBit_pending (i : Nat) : (s.faultBit i).pending = s.pending := rfl
@[simp] theorem State.faultBit_us (i : Nat) : (s.faultBit i).us = s.us := rfl
@[simp] theorem State.faultBit_fresh (i : Nat) : (s.faultBit i).fresh = s.fresh := rfl
@[simp] theorem State.faultBit_agents (i : Nat) : (s.faultBit i).agents = s.agents := rfl
@[simp] theorem State.faultBit_dealers (i : Nat) : (s.faultBit i).dealers = s.dealers := rfl
@[simp] theorem State.faultBit_reflex (i : Nat) : (s.faultBit i).reflex = s.reflex := rfl
@[simp] theorem State.faultBit_sess (i : Nat) : (s.faultBit i).sess = s.sess := rfl
@[simp] theorem State.faultBit_own (i : Nat) : (s.faultBit i).own = s.own := rfl
@[simp] theorem State.faultBit_pair (i : Nat) : (s.faultBit i).pair = s.pair := rfl
@[simp] theorem State.faultBit_stat (i : Nat) : (s.faultBit i).stat = s.stat := rfl
@[simp] theorem State.faultBit_fab (i : Nat) : (s.faultBit i).fab = s.fab := rfl
@[simp] theorem State.faultBit_led (i : Nat) : (s.faultBit i).led = s.led := rfl
@[simp] theorem State.faultBit_asy (i : Nat) : (s.faultBit i).asy = s.asy := rfl
@[simp] theorem State.faultBit_vbat (i : Nat) : (s.faultBit i).vbat = s.vbat := rfl
@[simp] theorem State.faultBit_depot (i : Nat) : (s.faultBit i).depot = s.depot := rfl
@[simp] theorem State.faultBit_plat (i : Nat) : (s.faultBit i).plat = { s.plat with pins := { s.plat.pins with faultCause := putBit s.plat.pins.faultCause i true } } := rfl
@[simp] theorem State.faultBit_out (i : Nat) : (s.faultBit i).out = s.out := rfl

@[simp] theorem State.alertBit_pending (i : Nat) : (s.alertBit i).pending = s.pending := rfl
@[simp] theorem State.alertBit_us (i : Nat) : (s.alertBit i).us = s.us := rfl
@[simp] theorem State.alertBit_fresh (i : Nat) : (s.alertBit i).fresh = s.fresh := rfl
@[simp] theorem State.alertBit_agents (i : Nat) : (s.alertBit i).agents = s.agents := rfl
@[simp] theorem State.alertBit_dealers (i : Nat) : (s.alertBit i).dealers = s.dealers := rfl
@[simp] theorem State.alertBit_reflex (i : Nat) : (s.alertBit i).reflex = s.reflex := rfl
@[simp] theorem State.alertBit_sess (i : Nat) : (s.alertBit i).sess = s.sess := rfl
@[simp] theorem State.alertBit_own (i : Nat) : (s.alertBit i).own = s.own := rfl
@[simp] theorem State.alertBit_pair (i : Nat) : (s.alertBit i).pair = s.pair := rfl
@[simp] theorem State.alertBit_stat (i : Nat) : (s.alertBit i).stat = s.stat := rfl
@[simp] theorem State.alertBit_fab (i : Nat) : (s.alertBit i).fab = s.fab := rfl
@[simp] theorem State.alertBit_led (i : Nat) : (s.alertBit i).led = s.led := rfl
@[simp] theorem State.alertBit_asy (i : Nat) : (s.alertBit i).asy = s.asy := rfl
@[simp] theorem State.alertBit_vbat (i : Nat) : (s.alertBit i).vbat = s.vbat := rfl
@[simp] theorem State.alertBit_depot (i : Nat) : (s.alertBit i).depot = s.depot := rfl
@[simp] theorem State.alertBit_plat (i : Nat) : (s.alertBit i).plat = { s.plat with pins := { s.plat.pins with alertCause := putBit s.plat.pins.alertCause i true } } := rfl
@[simp] theorem State.alertBit_out (i : Nat) : (s.alertBit i).out = s.out := rfl

@[simp] theorem State.post_pending (c : Byte) (j : W16) (a : BitVec 128) : (s.post c j a).pending = s.pending := rfl
@[simp] theorem State.post_us (c : Byte) (j : W16) (a : BitVec 128) : (s.post c j a).us = s.us := rfl
@[simp] theorem State.post_fresh (c : Byte) (j : W16) (a : BitVec 128) : (s.post c j a).fresh = s.fresh := rfl
@[simp] theorem State.post_agents (c : Byte) (j : W16) (a : BitVec 128) : (s.post c j a).agents = s.agents := rfl
@[simp] theorem State.post_dealers (c : Byte) (j : W16) (a : BitVec 128) : (s.post c j a).dealers = s.dealers := rfl
@[simp] theorem State.post_reflex (c : Byte) (j : W16) (a : BitVec 128) : (s.post c j a).reflex = { s.reflex with events := s.reflex.events ++ [({ code := c, subject := j, arg := a, frame := s.fab.frame, fepoch := s.dealers.fepoch } : Event)] } := rfl
@[simp] theorem State.post_sess (c : Byte) (j : W16) (a : BitVec 128) : (s.post c j a).sess = s.sess := rfl
@[simp] theorem State.post_own (c : Byte) (j : W16) (a : BitVec 128) : (s.post c j a).own = s.own := rfl
@[simp] theorem State.post_pair (c : Byte) (j : W16) (a : BitVec 128) : (s.post c j a).pair = s.pair := rfl
@[simp] theorem State.post_stat (c : Byte) (j : W16) (a : BitVec 128) : (s.post c j a).stat = s.stat := rfl
@[simp] theorem State.post_fab (c : Byte) (j : W16) (a : BitVec 128) : (s.post c j a).fab = s.fab := rfl
@[simp] theorem State.post_led (c : Byte) (j : W16) (a : BitVec 128) : (s.post c j a).led = s.led := rfl
@[simp] theorem State.post_asy (c : Byte) (j : W16) (a : BitVec 128) : (s.post c j a).asy = s.asy := rfl
@[simp] theorem State.post_vbat (c : Byte) (j : W16) (a : BitVec 128) : (s.post c j a).vbat = s.vbat := rfl
@[simp] theorem State.post_depot (c : Byte) (j : W16) (a : BitVec 128) : (s.post c j a).depot = s.depot := rfl
@[simp] theorem State.post_plat (c : Byte) (j : W16) (a : BitVec 128) : (s.post c j a).plat = s.plat := rfl
@[simp] theorem State.post_out (c : Byte) (j : W16) (a : BitVec 128) : (s.post c j a).out = s.out := rfl

theorem State.extend_eq (i : Nat) (d : List Byte) : ∃ m, s.extend i d = { s with asy := { s.asy with meas := m } } := ⟨_, rfl⟩
@[simp] theorem State.extend_pending (i : Nat) (d : List Byte) : (s.extend i d).pending = s.pending := by obtain ⟨m, h⟩ := State.extend_eq s i d; rw [h]
@[simp] theorem State.extend_us (i : Nat) (d : List Byte) : (s.extend i d).us = s.us := by obtain ⟨m, h⟩ := State.extend_eq s i d; rw [h]
@[simp] theorem State.extend_fresh (i : Nat) (d : List Byte) : (s.extend i d).fresh = s.fresh := by obtain ⟨m, h⟩ := State.extend_eq s i d; rw [h]
@[simp] theorem State.extend_agents (i : Nat) (d : List Byte) : (s.extend i d).agents = s.agents := by obtain ⟨m, h⟩ := State.extend_eq s i d; rw [h]
@[simp] theorem State.extend_dealers (i : Nat) (d : List Byte) : (s.extend i d).dealers = s.dealers := by obtain ⟨m, h⟩ := State.extend_eq s i d; rw [h]
@[simp] theorem State.extend_reflex (i : Nat) (d : List Byte) : (s.extend i d).reflex = s.reflex := by obtain ⟨m, h⟩ := State.extend_eq s i d; rw [h]
@[simp] theorem State.extend_sess (i : Nat) (d : List Byte) : (s.extend i d).sess = s.sess := by obtain ⟨m, h⟩ := State.extend_eq s i d; rw [h]
@[simp] theorem State.extend_own (i : Nat) (d : List Byte) : (s.extend i d).own = s.own := by obtain ⟨m, h⟩ := State.extend_eq s i d; rw [h]
@[simp] theorem State.extend_pair (i : Nat) (d : List Byte) : (s.extend i d).pair = s.pair := by obtain ⟨m, h⟩ := State.extend_eq s i d; rw [h]
@[simp] theorem State.extend_stat (i : Nat) (d : List Byte) : (s.extend i d).stat = s.stat := by obtain ⟨m, h⟩ := State.extend_eq s i d; rw [h]
@[simp] theorem State.extend_fab (i : Nat) (d : List Byte) : (s.extend i d).fab = s.fab := by obtain ⟨m, h⟩ := State.extend_eq s i d; rw [h]
@[simp] theorem State.extend_led (i : Nat) (d : List Byte) : (s.extend i d).led = s.led := by obtain ⟨m, h⟩ := State.extend_eq s i d; rw [h]
@[simp] theorem State.extend_vbat (i : Nat) (d : List Byte) : (s.extend i d).vbat = s.vbat := by obtain ⟨m, h⟩ := State.extend_eq s i d; rw [h]
@[simp] theorem State.extend_depot (i : Nat) (d : List Byte) : (s.extend i d).depot = s.depot := by obtain ⟨m, h⟩ := State.extend_eq s i d; rw [h]
@[simp] theorem State.extend_plat (i : Nat) (d : List Byte) : (s.extend i d).plat = s.plat := by obtain ⟨m, h⟩ := State.extend_eq s i d; rw [h]
@[simp] theorem State.extend_out (i : Nat) (d : List Byte) : (s.extend i d).out = s.out := by obtain ⟨m, h⟩ := State.extend_eq s i d; rw [h]

@[simp] theorem State.vlog_pending (c d : Byte) (x : W32) : (s.vlog c d x).pending = s.pending := rfl
@[simp] theorem State.vlog_us (c d : Byte) (x : W32) : (s.vlog c d x).us = s.us := rfl
@[simp] theorem State.vlog_fresh (c d : Byte) (x : W32) : (s.vlog c d x).fresh = s.fresh := rfl
@[simp] theorem State.vlog_agents (c d : Byte) (x : W32) : (s.vlog c d x).agents = s.agents := rfl
@[simp] theorem State.vlog_dealers (c d : Byte) (x : W32) : (s.vlog c d x).dealers = s.dealers := rfl
@[simp] theorem State.vlog_reflex (c d : Byte) (x : W32) : (s.vlog c d x).reflex = s.reflex := rfl
@[simp] theorem State.vlog_sess (c d : Byte) (x : W32) : (s.vlog c d x).sess = s.sess := rfl
@[simp] theorem State.vlog_own (c d : Byte) (x : W32) : (s.vlog c d x).own = s.own := rfl
@[simp] theorem State.vlog_pair (c d : Byte) (x : W32) : (s.vlog c d x).pair = s.pair := rfl
@[simp] theorem State.vlog_stat (c d : Byte) (x : W32) : (s.vlog c d x).stat = s.stat := rfl
@[simp] theorem State.vlog_fab (c d : Byte) (x : W32) : (s.vlog c d x).fab = s.fab := rfl
@[simp] theorem State.vlog_led (c d : Byte) (x : W32) : (s.vlog c d x).led = s.led := rfl
@[simp] theorem State.vlog_asy (c d : Byte) (x : W32) : (s.vlog c d x).asy = s.asy := rfl
@[simp] theorem State.vlog_depot (c d : Byte) (x : W32) : (s.vlog c d x).depot = s.depot := rfl
@[simp] theorem State.vlog_plat (c d : Byte) (x : W32) : (s.vlog c d x).plat = s.plat := rfl
@[simp] theorem State.vlog_out (c d : Byte) (x : W32) : (s.vlog c d x).out = s.out := rfl

end Sys2Proof.Machine
end

