-- ==== Sys2Proof/Tests/Slice0.lean ====
section
/-! SUPPORT. Tests: what WellFormed refuses, single steps with results worked out from the spec, and for each statement of
Obligations.lean states and operands that meet the hypotheses of every clause. -/

namespace Sys2Proof.Tests

open Sys2Proof.Machine

set_option Elab.async false

/-! ## Small states -/

/-- A pod whose place 0 holds x. -/
def at0 (x : Agent) : State := { agents := [(0, x)] }

/-- A bound endpoint of place 0 whose port 0 leads to region 2. -/
def endp : Agent := { Agent.dflt 0 with
  id := { id := 0x0040, quar := false, bound := true }
  ports := [(0, { up := true, cut := false, peerq := false })]
  tbl := { region := [(2, { cand := 1 })], masks := [(0, 1)] } }

/-- A command to an agent, table-routed. -/
def cmd (op : Byte) (gen : W16) (arg : W32) (ws : List W32) : Cmd :=
  { src := 0xFFC0, seq := 1, path := false, port := 0, op := op, cnt := ws.length, piece := 0, more := false, cep := 0,
    dep := 0, gen := gen, fep := 0, arg := arg, words := ws }

/-- The agent with a command taken. -/
def tk (x : Agent) (c : Cmd) : Agent := { x with cu := { x.cu with cur := some c } }

/-- A flit of class cls to dest, with its CRC. -/
def flit (cls : BitVec 4) (dest : W16) (pay : Payload) : Flit := ({ cls := cls, dest := dest, src := 0x0081, pay := pay } : Flit).seal

/-- The agent with its partition 0 enabled, as f makes it. -/
def part0 (f : Part → Part) : Agent := endp.setPart 0 (f { en := true })

/-- A loaded card with one trigger, of kind 1. -/
def armSlot : HandSlot :=
  let h : HandSlot := { state := 1, trig := putBits (putBits (0 : BitVec 512) 60 (1 : BitVec 4)) 124 (0xF : BitVec 4) }
  { h with crc := h.crcOf }

/-! ## A package at work -/

/-- The n low bytes of a number, lowest first. -/
def le (n v : Nat) : List Byte := toBytes n (BitVec.ofNat 64 v)

/-- A table image at depot address 0: one agent, one slice entry. -/
def imgBytes : List Byte :=
  le 8 0 ++ le 8 1 ++ le 8 48 ++ le 8 64 ++ le 8 80 ++ le 8 80 ++ le 8 1 ++ le 8 0x40 ++ le 8 3 ++ le 4 48 ++ le 4 48
def imgEntry : ImgSlice := ⟨3, false, [0x40], [0x40]⟩
def imgOf : Image := ⟨0, [0x40], [imgEntry], []⟩

/-- An active package with all stacks in service, owned by session 0, which knows agent 0x0040 through its port 0. -/
def pkg : State :=
  { State.reset with
    dealers := { role := true }
    own := { owner := 1 }
    sess := [(0, { isOpen := true, linkUp := true })]
    depot := { mem := Mem.writeL [] 0 imgBytes }
    fab := { paths := [{ id := 0x40, hello := 0, paths := [[0]], quar := false }], kitty := [0x40], deck := { verified := [(0, sha384 imgBytes)] } }
    plat := { bring := { online := 0x3F }, opt := { gateEn := 0xFF } } }

/-- A dealer instruction word: opcode, rd, ra, rb, mod, imm24. -/
def uw (op rd ra rb md imm : Nat) : W64 :=
  BitVec.ofNat 64 (op * 2 ^ 56 + rd * 2 ^ 47 + ra * 2 ^ 42 + rb * 2 ^ 37 + md * 2 ^ 24 + imm)

/-- The package with context 0 running at the word w, as f leaves it, and bytes at 0x100 of the data store. -/
def uS (w : W64) (f : Context → Context) (ds : List Byte) : State :=
  { pkg with dealers := { pkg.dealers with core := {
      istore := [(0, w)], dstore := Mem.writeL [] 0x100 ds, ctx := [(0, { f {} with run := .running })] } } }

/-- Registers g1 to g3. -/
def rg (a b c : W64) (x : Context) : Context := { x with g := [(1, a), (2, b), (3, c)] }

/-- The package with a table change open on the image, owned by context 0. -/
def uChange (s : State) (sw : BitVec 512) : State :=
  { s with dealers := { s.dealers with change := { isOpen := true, owner := some 0, image := 0, swapped := sw } } }

def agList : List Byte := le 8 1 ++ le 8 0x40

/-- A station instruction: opcode, mod, x, y, imm32, imm64. -/
def sw (op md x y i32 i64 : Nat) : BitVec 128 :=
  BitVec.ofNat 128 (op * 2 ^ 120 + md * 2 ^ 112 + x * 2 ^ 108 + y * 2 ^ 104 + i32 * 2 ^ 64 + i64)

/-- The package with engine 0 running a stream at the word w, as f leaves it. -/
def sS (w : BitVec 128) (f : Stream → Stream) : State :=
  { pkg with stat := { dies := [(0, { st := 4, store := [(0, w)] })], eng := [(0, { st := 1, str := f {} })] } }

/-- Stream registers s1 and s2. -/
def sr (a b : W64) (x : Stream) : Stream := { x with s := [(1, a), (2, b)] }

def opSlot0 : OpSlot := ⟨0, 0, 0, 0, false, 0, []⟩
/-- A stream whose operand slot 0 is set. -/
def slotted (x : Stream) : Stream := { x with conf := { x.conf with slots := [(0, some opSlot0)] } }

/-- The package with an engine 0 and a die 0, no program. -/
def eS (y : Engine) (d : Die) : State := { pkg with us := 1000, stat := { dies := [(0, d)], eng := [(0, y)] } }

/-- The package with its ledger as f makes it. -/
def ledS (s : State) (f : Ledger → Ledger) : State := { s with led := f s.led }

/-- The package with its stations as f makes them. -/
def staS (s : State) (f : Stations → Stations) : State := { s with stat := f s.stat }

/-- Queue 32 in the ring SRAM, of 16-byte entries, with its head and tail. -/
def q32 (h t : BitVec 15) : Ledger → Ledger := fun l => { l with queues := [(32, { en := true, loc := true, order := 2, head := h, tail := t })] }

/-- A byte stream that moves nothing. -/
def program : SMap (BitVec 128) := [(0, sw 1 1 0 0 0x401 0), (1, sw 0x2B 0 1 0 0 0), (2, sw 0x3F 0 0 0 0 0)]

/-- A running context 0 in a long instruction at the word w, as f leaves it. -/
def lg (w : W64) (f : Running → Running) : State :=
  { pkg with dealers := { pkg.dealers with core := { ctx := [(0, { run := .waiting, long := some (f { word := w, ra := 0x100, rb := 0x400, rd := 0x800 }) })] } } }

/-- A target whose first step is a read. -/
def tgt (q : Option W16) : Target := { agent := 0x40, idx := 0, steps := [.cmd (agRead 0x20 1)], seq := q }

/-- A flit of class cls to the package. -/
def toMe (cls : BitVec 4) (src : W16) (pay : Payload) : Flit := ({ cls := cls, dest := 0xFFC0, src := src, seq := 3, pay := pay } : Flit).seal

/-- A pair frame of a type, sound. -/
def pf (typ : Byte) (number : W32) : PairFrame :=
  let f : PairFrame := { typ := typ, rsv1 := 0, sender := 0xFFC1, cepoch := 7, rsv2 := 0, number := number, crc := 0 }
  { f with crc := frameCrc f }

/-- A standby package, ready. -/
def stby : State := { pkg with dealers := { pkg.dealers with role := false }, plat := { pkg.plat with bring := { ready := true } } }

/-- A descriptor: op, then fields of n bytes at a byte offset. -/
def desc (op : Byte) (fs : List (Nat × Nat × Nat)) : BitVec 512 :=
  fs.foldl (fun d f => d ||| (BitVec.ofNat 512 f.2.2 <<< (8 * f.1))) (op.setWidth 512)

/-- Session 0 at work on a host command. -/
def hc (s : State) (d : BitVec 512) : State := { s with sess := [(0, { isOpen := true, linkUp := true, cur := some (0, d) })] }

/-- Session 2 open over Ethernet. -/
def net2 : State := { pkg with sess := [(2, { isOpen := true, path := 2, peer := 5 })] }

/-- The bytes of a plan of no agents, with its CRC. -/
def planBytes : List Byte := le 8 0 ++ le 4 3 ++ toBytes 4 (crc32c (le 8 0 ++ le 4 3))

/-- A package whose ledger serves tally 0x405 in slice 0. -/
def talS (n : W32) : State := ledS pkg (fun l => { l with tallies := [(0x405, { count := n, en := true })], slices := [(0, { valid := true })] })

/-- A tally request. -/
def t8 (pay : Payload) : Flit := toMe 8 0x40 pay

/-- A deck at 0x10000: the verified repair of the loss of agent 0x40, with the one card 7 of that agent. -/
def deckBs : List Byte :=
  le 8 0 ++ le 4 1 ++ le 4 1 ++ le 8 64 ++ le 8 0 ++ le 8 96 ++ List.replicate 24 0 ++ [2, 1] ++ le 2 1 ++ le 4 0 ++
    le 8 (agentKey 0x40).toNat ++ le 8 0 ++ le 8 0 ++ le 8 104 ++ le 2 0x40 ++ le 2 1 ++ le 4 7

/-- A package with that deck in force, and the loss of agent 0x40 in hand. -/
def deckS : State := { pkg with
  depot := { mem := Mem.writeL [] 0x10000 deckBs }
  fab := { pkg.fab with deck := {
    addr := some 0x10000, index := [(agentKey 0x40, 0, 0)], unhanded := [⟨agentKey 0x40, 0⟩] } } }

/-- The same with the card in slot 1 of agent 0x40, in a state. -/
def deckArmed (st : Nat) : State :=
  { deckS with fab := { deckS.fab with deck := { deckS.fab.deck with hands := [(0x101, some ⟨7, 0, agentKey 0x40, st⟩)] } } }

/-- The card of that deck. -/
def deckCand : Cand :=
  { agent := 0x40, card := 0x10068, id := 7, repair := 0, fault := agentKey 0x40, follow := false, pinned := false, value := 0 }

/-- A convoy schedule: one train out of agent 0x40's port 0 that lands at sub-port 0. -/
def convoyC : Schedule := ⟨[⟨2, 1, [⟨0x40, 0, 0x80, [2], none⟩]⟩], [⟨0, 3, 9⟩]⟩

/-- A package with that schedule passed, at 0x20000, and its tables being written as l says. -/
def convoyS (l : Option ConvoyLoad) : State := { pkg with
  depot := { mem := Mem.writeL [] 0x20000 (schedBytes convoyC 0 true) }
  fab := { pkg.fab with deck := { schedules := [(0x20000, sha384 (schedBytes convoyC 0 true))], convoy := l } } }

/-- An engine whose byte stream was to write 64 bytes to the depot when it faulted. -/
def cutS : State := eS { st := 1, str := ({ pre := { isByte := true, route := 0x400 }, ending := some 3, jobs :=
  [⟨{ slots := [(0, some { opSlot0 with key := 15 })], out := some (0x1000, 0, 15) },
    .bytes 64 0 none none (List.replicate 4 ([], 0)) 0⟩] } : Stream) } {}

/-- A package that knows agent 0x40 and its link to it. -/
def linkS : State := { pkg with fab := { pkg.fab with
  paths := [{ id := 0x40, hello := 0, paths := [[0]], quar := false, table := true }]
  links := [{ a := 0x40, ap := 0, b := 0xFFC0, bp := 0 }], ports := [(0, { up := true, trained := true })] } }

/-- A landing window with its last flit. -/
def landW : Landing := { convoy := 9, input := 0, row := 0, vbase := 0, ring := 0, span := 0, size := 64, tenant := 0 }

def bootImg : BootImage := ⟨false, 0, 0, []⟩

/-- An endpoint of controller epoch 5 with a READ of controller epoch e in its sink. -/
def sunk (e : Payload) : Agent := { endp with
  sw := { endp.sw with sink := [⟨flit 4 0x0040 (1 + e <<< 16), 0⟩] }
  id := { endp.id with cepoch := 5 } }

/-- The same endpoint with a command taken, and the pieces before it held. -/
def piecing (c : Cmd) : Agent := { endp with
  cu := { endp.cu with cur := some c, pieces := [⟨0xFFC0, 1, 0, 1, []⟩] }
  id := { endp.id with cepoch := 5 } }

def piece (e : W16) (k : Nat) (m : Bool) : Cmd := { cmd 1 0 0 [] with path := true, piece := k, more := m, cep := e }

/-! ## What is not well formed -/

/-- A place beyond 16-bit agent IDs. -/
theorem test_no_such_place : WellFormed (.cmdProbe 65536) = false := by decide
/-- A party beyond 16-bit agent IDs. -/
theorem test_no_such_party : WellFormed (.frameStart (some 65536)) = false := by decide
/-- A port beyond an agent's 128. -/
theorem test_no_such_port : WellFormed (.flitArrival 0 128 (flit 0 0 0)) = false := by decide
/-- An arrival port beyond 128. -/
theorem test_no_such_arrival_port : WellFormed (.trumpReceive none (some 128) (flit 7 0 0)) = false := by decide
/-- A register offset that is not a word's. -/
theorem test_no_such_word : WellFormed (.ringConfigWrite 0 0 0x1A 0) = false := by decide
/-- A gate lane beyond 160, and an agent lane beyond 256. -/
theorem test_no_such_lane :
    WellFormed (.laneAdapt none 160 0) = false ∧ WellFormed (.laneAdapt (some 0) 256 0) = false ∧
      WellFormed (.laneAdapt (some 0) 160 0) = true := by decide
/-- No row of the opcode table gives bits. -/
theorem test_no_words : decodeTableWord 32 0x10 = none ∧ State.reset.withFetchWord 32 0x10 = State.reset := ⟨rfl, rfl⟩

/-! ## The spec's worked examples -/

/-- 01, after R21: agent 0x06A9's neighbours by ports ap0 to ap5 under P6/6, and the wrap steps of members 7, 30 and 57. -/
theorem test_cube_neighbours :
    (List.range 6).map (neighbour 0 41) = [some 42, some 40, some 45, some 37, some 57, some 25] ∧
      neighbour 0 7 0 = some 8 ∧ neighbour 0 30 2 = some 34 ∧ neighbour 0 57 4 = some 11 := by decide +kernel

/-- 02, after R64: F3, F2 and F1 of the example, with output p5 held by a convoy flit from p9 and ports 0 to 3 free. -/
def allocSwitch : Agent :=
  let f (cls : BitVec 4) (region : Nat) (age : BitVec 6) (vc : Bool) : Option Flit :=
    some { cls := cls, dest := BitVec.ofNat 16 (64 * region), src := 0x0081, age := age, vc := vc }
  { Agent.dflt 0x8134 with
    id := { id := 0x8134, quar := false }
    ports := [0, 1, 2, 3, 4, 5, 7, 9].map (fun p => (p, { up := true, cut := false, peerq := false }))
    tbl := { region := [(1, { cand := 0x10 }), (2, { cand := 0x10 }), (3, { cand := 0x30 })], masks := [(0, 1)] }
    sw := { staged := [(0, f 0 2 9 true), (2, f 0 3 9 false), (7, f 0 1 12 false), (9, f 2 1 0 false)], slots := [(64 * 5, 0x4090)] } }
theorem test_allocation_example :
    allocSwitch.allocate.tx.filterMap (fun o => match o with
      | .flit p f => if f.cls = 2 then none else some (p, f.dest.toNat / 64, f.age.toNat, f.hops.toNat, f.defl)
      | _ => none) = [(4, 1, 13, 1, false), (1, 2, 11, 1, true), (0, 3, 11, 1, true)] := by decide +kernel

/-- 03 and 08: 0x06A9's port ap0, to 0x06AA's port ap1, loses UP; its trump is 0x1000_6A90_6AA0_1000 and its port is fenced. -/
theorem test_trump_example :
    (match exec (.laneSignalLoss (some 0) 0) (at0 { endp with
        id := { endp.id with id := 0x06A9 }
        ports := [(0, { up := true, trained := true, cut := false, peerq := false, peerId := 0x06AA, peerPort := 1 }),
          (6, { up := true, trained := true, cut := false, peerq := false, arm := true })] }) with
      | .next t => some (((t.agent 0).port 0).tfence, (t.agent 0).tx.filterMap (fun o => match o with
          | .flit p f => if f.cls = 7 then some (p, (byteField f.pay 0 64 : W64)) else none
          | _ => none))
      | _ => none) = some (true, [(6, 0x10006A906AA01000)]) := by decide +kernel

/-- 05, the failed takeover: on YIELD the standby package with kept controller epoch 3 takes the pod under epoch 4. -/
theorem test_yield_example :
    (match exec (.pairYield false (pf 3 4)) { stby with vbat := { cepoch := 3 }, dealers := { stby.dealers with cepoch := 3 } } with
      | .next t => (t.isActive, t.dealers.cepoch) | _ => (false, 0)) = (true, 4) := by decide +kernel

/-- 06, R209: byte 0xC8 holds the trits +1, −1, 0, 0, +1. -/
theorem test_trits_example : trits 0xC8 = [1, -1, 0, 0, 1] := by decide +kernel

/-- 06, R212 and 10, after R356: products in GF(2^8). -/
theorem test_gf8_examples : gfMul 0x02 0x87 = 0x13 ∧ gfMul 0x03 0x87 = 0x94 ∧ gfMul 0x47 0xCC = 0x33 := by decide +kernel

/-- 06, the MXFP4 block: FP32 cells 21.0, −3.3, 10.0, 0.9 and zeros pack to bytes 0xA7, 0x04 and scale 0x81, with UNDERFLOW. -/
theorem test_mxfp4_example :
    (fun r : List Byte × Byte × PFlags × W32 => (r.1.take 3, r.2.1, r.2.2.1))
      (packBlock 0 false 0 ([0x41A80000, 0xC0533333, 0x41200000, 0x3F666666].map fp32.decode ++ List.replicate 28 Machine.Num.zero)) =
      ([0xA7, 0x04, 0x00], 0x81, { under := true }) := by decide +kernel

/-- 06, the min-plus step: 14 + 9, 13 + 6 in SAT8, the lower kept, and 19 packed to SAT4 is unresolved. -/
theorem test_minplus_example :
    costAdd 254 (some 14) (some 9) = (some 23, false) ∧ costMin (some 23) (some 19) = some 19 ∧
      packCost 4 (some 19) = (none, true) ∧ packCost 4 (some 12) = (some 12, false) := by decide +kernel

/-- 07: the words of `tile s1, s2` and `addi s15, s15, 1`. -/
theorem test_station_words :
    sw 0x20 0 1 2 0 0 = 0x20001200000000000000000000000000#128 ∧ sw 0x3A 0 15 15 1 0 = 0x3A00FF00000000010000000000000000#128 := by
  decide +kernel

/-- 13, R444: fuse copies of 4, 60 and 55 kΩ are accepted as 1, and of 6, 7 and 0.2 kΩ are marginal. -/
theorem test_fuse_examples :
    OptionReads.word ⟨[], 0, [(0, 1, 1)], [(1, 1, 1)]⟩ 0 = some 1 ∧
      OptionReads.word ⟨[], 0, [(0, 0, 0)], [(1, 1, 0)]⟩ 0 = none := by decide +kernel

/-- 14, the limit that binds: a limit of 255 W makes a ceiling of 245 W. -/
theorem test_ceiling_example : ({ limitNow := 255 } : Power).ceiling = 245 * 8000 := by decide

/-! ## Checks of the arithmetic the rules name -/

/-- The check value of CRC-32C over the digits 1 to 9. -/
theorem test_crc32c : crc32c [0x31, 0x32, 0x33, 0x34, 0x35, 0x36, 0x37, 0x38, 0x39] = 0xE3069283 := by decide +kernel

/-- The SHA-384 of no bytes, as FIPS 180-4's test data gives it. -/
theorem test_sha384 :
    sha384 [] = ofBytes 384 ((toBytes 48
      0x38b060a751ac96384cd9327eb1b1e36a21fdb71114be07434c0cc7bf63f6e1da274edebfe76f65fbd51ad2f14898b95b#384).reverse) := by
  decide +kernel

/-- R7: serial order by the half range, for a 16-bit counter that has wrapped. -/
theorem test_serial_order : newer (0x0002 : W16) 0xFFF0 = true ∧ newer (0xFFF0 : W16) 0x0002 = false := by decide

/-! ## Single steps -/

/-- R15, R4: a write by a session that does not own the device counts in both counters. -/
theorem test_observer_write :
    (match step { pkg with pending := [.regWrite 1 0x20C 500] } with
      | .next t => (t.own.leaseMs, t.own.ignored, (t.session 1).ignored, t.pending) | _ => (0, 0, 0, [])) = (2000, 1, 1, []) := by
  decide +kernel

/-- R141: ADD wraps at 64 bits. -/
theorem test_add_wraps :
    (match exec (.uciAdd 0) (uS (uw 0x11 3 1 2 0 0) (rg 0xFFFFFFFFFFFFFFFF 2 0) []) with
      | .next t => ((t.ctx 0).reg 3, (t.ctx 0).pc) | _ => (0, 0)) = (1, 1) := by decide +kernel

/-- R89: a SWAP seen again answers OK and leaves the slice on the shadow bank. -/
theorem test_swap_again :
    (match exec (.cmdSwap 0) (at0 (tk { endp with tbl := { endp.tbl with bankSel := 0x20000 } } (cmd 7 1 17 []))) with
      | .next t => ((t.agent 0).tbl.bankSel.getLsbD 17) | _ => false) = true := by decide +kernel

/-- R191: a lease that expires with SOLO off fences the package. -/
theorem test_fence_self :
    (match exec .activeLeaseExpire pkg with | .next t => (t.pair.fenced, t.isActive) | _ => (false, true)) = (true, false) := by
  decide +kernel

/-! ## Every clause of every statement can act: states and operands that meet its hypotheses -/

theorem test_flit_commands_can_act :
    (∃ (s : State) (a : Nat) (x : Agent) (p : Nat) (f : Flit), Safety.Place s a x ∧ x.isDown p = false ∧ f.crc = f.crcOf ∧ isDataClass f.cls = true ∧ f.cls ≠ 2 ∧ f.path = false ∧ f.pret = false ∧ x.id.quar = false ∧ f.dest ≠ x.id.id) ∧
    (∃ (s : State) (a : Nat) (x : Agent) (p : Nat) (o : Nat) (f : Flit), Safety.Place s a x ∧ x.sw.staged = [(p, some f)] ∧ x.sw.trumpHeld = [] ∧ x.inj.convoyQ = [] ∧ f.cls ≠ 2 ∧ f.path = false ∧ f.pret = false ∧ f.dest ≠ x.id.id ∧ x.quarDrops f = false ∧ x.maskOk (x.bankFor f) (x.entryFor (x.bankFor f) f.dest) f = true ∧ (x.entryFor (x.bankFor f) f.dest).cand ≠ 0 ∧ firstFrom (x.productive (x.entryFor (x.bankFor f) f.dest) f) x.sw.spread = some o ∧ f.hops < 62) ∧
    (∃ (s : State) (a : Nat) (x : Agent) (f : Flit), Safety.Place s a x ∧ x.build.endpoint = true ∧ isDataClass f.cls = true ∧ f.cls ≠ 2 ∧ x.id.bound = true ∧ x.id.quar = false) ∧
    (∃ (s : State) (a : Nat) (x : Agent) (f : Flit) (o : Nat), Safety.Place s a x ∧ x.sw.admitted = false ∧ x.inj.own = [] ∧ x.inj.outst = [] ∧ x.inj.offers = [f] ∧ x.id.bound = true ∧ x.id.quar = false ∧ x.held (x.stamp f) = false ∧ x.admitFate (x.stamp f) = .go o) ∧
    (∃ (s : State) (a : Nat) (x : Agent) (f : Flit) (fs : List Flit), Safety.Place s a x ∧ x.sw.eb0 = f :: fs) ∧
    (∃ (s : State) (a : Nat) (x : Agent) (f : Flit) (fs : List Flit), Safety.Place s a x ∧ x.sw.eb1 = f :: fs) ∧
    (∃ (s : State) (a : Nat) (x : Agent) (b : Bool), Safety.Place s a x ∧ 128 ≤ (if b then x.sw.eb1 else x.sw.eb0).length) ∧
    (∃ (s : State) (a : Nat) (x : Agent) (src : W16) (seq : W16) (l : Latch), Safety.Place s a x ∧ x.sw.latch.find? (fun l => l.src = src && l.seq = seq) = some l) :=
  ⟨⟨at0 endp, 0, endp, 0, (flit 0 0x0082 0), ⟨by decide +kernel, rfl⟩, by decide +kernel, by decide +kernel, by decide +kernel, by decide +kernel, by decide +kernel, by decide +kernel, by decide +kernel, by decide +kernel⟩,
    ⟨at0 { endp with sw := { endp.sw with staged := [(0, some (flit 0 0x0082 0))] } }, 0, { endp with sw := { endp.sw with staged := [(0, some (flit 0 0x0082 0))] } }, 0, 0, (flit 0 0x0082 0), ⟨by decide +kernel, rfl⟩, by decide +kernel, by decide +kernel, by decide +kernel, by decide +kernel, by decide +kernel, by decide +kernel, by decide +kernel, by decide +kernel, by decide +kernel, by decide +kernel, by decide +kernel, by decide +kernel⟩,
    ⟨at0 endp, 0, endp, (flit 0 0x0082 0), ⟨by decide +kernel, rfl⟩, by decide +kernel, by decide +kernel, by decide +kernel, by decide +kernel, by decide +kernel⟩,
    ⟨at0 { endp with inj := { endp.inj with offers := [(flit 0 0x0082 0)] } }, 0, { endp with inj := { endp.inj with offers := [(flit 0 0x0082 0)] } }, (flit 0 0x0082 0), 0, ⟨by decide +kernel, rfl⟩, by decide +kernel, by decide +kernel, by decide +kernel, by decide +kernel, by decide +kernel, by decide +kernel, by decide +kernel, by decide +kernel⟩,
    ⟨at0 { endp with sw := { endp.sw with eb0 := [(flit 0 0x0082 0)] } }, 0, { endp with sw := { endp.sw with eb0 := [(flit 0 0x0082 0)] } }, (flit 0 0x0082 0), [], ⟨by decide +kernel, rfl⟩, by decide +kernel⟩,
    ⟨at0 { endp with sw := { endp.sw with eb1 := [(flit 0 0x0082 0)] } }, 0, { endp with sw := { endp.sw with eb1 := [(flit 0 0x0082 0)] } }, (flit 0 0x0082 0), [], ⟨by decide +kernel, rfl⟩, by decide +kernel⟩,
    ⟨at0 { endp with sw := { endp.sw with eb0 := List.replicate 128 (flit 0 0x0082 0) } }, 0, { endp with sw := { endp.sw with eb0 := List.replicate 128 (flit 0 0x0082 0) } }, false, ⟨by decide +kernel, rfl⟩, by decide +kernel⟩,
    ⟨at0 { endp with sw := { endp.sw with latch := [⟨1, 2, 3⟩] } }, 0, { endp with sw := { endp.sw with latch := [⟨1, 2, 3⟩] } }, 1, 2, ⟨1, 2, 3⟩, ⟨by decide +kernel, rfl⟩, by decide +kernel⟩⟩

theorem test_request_and_frame_commands_can_act :
    (∃ (s : State) (a : Nat) (x : Agent) (d : W16) (q : W16) (o : Outst), Safety.Place s a x ∧ x.outst? d q = some o ∧ o.queued = false ∧ o.sends < x.inj.retryMax.toNat) ∧
    (∃ (s : State) (a : Nat) (x : Agent) (d : W16) (q : W16) (o : Outst), Safety.Place s a x ∧ x.outst? d q = some o ∧ o.queued = false ∧ x.inj.retryMax.toNat ≤ o.sends) ∧
    (∃ (s : State) (a : Nat) (x : Agent) (i : SinkItem) (is : List SinkItem) (c : Cmd), Safety.Place s a x ∧ x.sw.sink = i :: is ∧ i.flit.cls = 4 ∧ x.cu.plays = [] ∧ x.cu.cur = none ∧ c = Cmd.ofFlit i.flit i.port ∧ i.flit.path = false ∧ badFormat i.flit = false ∧ c.piece = 0 ∧ c.more = false ∧ reservedOp c.op = false ∧ c.cep = x.id.cepoch ∧ c.dep = x.id.depoch ∧ newer c.fep x.id.fepoch = false) ∧
    (∃ (s : State) (a : Nat) (x : Agent) (d : W16) (q : W16) (o : Outst), Safety.Place s a x ∧ x.outst? d q = some o ∧ o.queued = false ∧ o.sends < x.inj.retryMax.toNat) ∧
    (∃ (s : State) (a : Nat) (x : Agent), Safety.Place s a x ∧ x.sw.slotPend = true ∧ newer x.sw.slotF x.sw.slotAt = true ∧ newer x.sw.slotF x.id.frame = false) ∧
    (∃ (s : State) (a : Nat) (x : Agent) (q : Fin 16), Safety.Place s a x ∧ x.build.endpoint = true ∧ x.id.bound = true ∧ x.id.quar = false ∧ (SMap.get queueDflt x.inj.convoyQ q).length < 16) ∧
    (∃ (s : State) (a : Nat) (x : Agent), Safety.Place s a x ∧ x.inj.drainNote ≠ 0 ∧ x.inFlight = 0) :=
  ⟨⟨at0 { endp with inj := { endp.inj with outst := [⟨0x0082, 5, (flit 0 0x0082 0), 1, false⟩] } }, 0, { endp with inj := { endp.inj with outst := [⟨0x0082, 5, (flit 0 0x0082 0), 1, false⟩] } }, 0x0082, 5, ⟨0x0082, 5, (flit 0 0x0082 0), 1, false⟩, ⟨by decide +kernel, rfl⟩, by decide +kernel, by decide +kernel, by decide +kernel⟩,
    ⟨at0 { endp with inj := { endp.inj with outst := [⟨0x0082, 5, (flit 0 0x0082 0), 7, false⟩] } }, 0, { endp with inj := { endp.inj with outst := [⟨0x0082, 5, (flit 0 0x0082 0), 7, false⟩] } }, 0x0082, 5, ⟨0x0082, 5, (flit 0 0x0082 0), 7, false⟩, ⟨by decide +kernel, rfl⟩, by decide +kernel, by decide +kernel, by decide +kernel⟩,
    ⟨at0 { endp with sw := { endp.sw with sink := [⟨flit 4 0x0040 1, 3⟩] } }, 0, { endp with sw := { endp.sw with sink := [⟨flit 4 0x0040 1, 3⟩] } }, ⟨flit 4 0x0040 1, 3⟩, [], _, ⟨by decide +kernel, rfl⟩, by decide +kernel, by decide +kernel, by decide +kernel, by decide +kernel, rfl, by decide +kernel, by decide +kernel, by decide +kernel, by decide +kernel, by decide +kernel, by decide +kernel, by decide +kernel, by decide +kernel⟩,
    ⟨at0 { endp with inj := { endp.inj with outst := [⟨0x0082, 5, (flit 0 0x0082 0), 1, false⟩] } }, 0, { endp with inj := { endp.inj with outst := [⟨0x0082, 5, (flit 0 0x0082 0), 1, false⟩] } }, 0x0082, 5, ⟨0x0082, 5, (flit 0 0x0082 0), 1, false⟩, ⟨by decide +kernel, rfl⟩, by decide +kernel, by decide +kernel, by decide +kernel⟩,
    ⟨at0 { endp with sw := { endp.sw with slotPend := true, slotF := 5, slotAt := 4 }, id := { endp.id with frame := 5 } }, 0, { endp with sw := { endp.sw with slotPend := true, slotF := 5, slotAt := 4 }, id := { endp.id with frame := 5 } }, ⟨by decide +kernel, rfl⟩, by decide +kernel, by decide +kernel, by decide +kernel⟩,
    ⟨at0 endp, 0, endp, 0, ⟨by decide +kernel, rfl⟩, by decide +kernel, by decide +kernel, by decide +kernel, by decide +kernel⟩,
    ⟨at0 { endp with inj := { endp.inj with drainNote := 1 } }, 0, { endp with inj := { endp.inj with drainNote := 1 } }, ⟨by decide +kernel, rfl⟩, by decide +kernel, by decide +kernel⟩⟩

theorem test_agent_register_commands_can_act :
    (∃ (s : State) (a : Nat) (x : Agent) (k : Nat), Safety.Place s a x ∧ k < 20) ∧
    (∃ (s : State) (a : Nat) (x : Agent) (off : Nat) (v : W32), Safety.Place s a x ∧ off % 4 = 0 ∧ x.checkWrite false off v = 0) ∧
    (∃ (s : State) (a : Nat) (x : Agent) (k : Nat), Safety.Place s a x ∧ k < 20) ∧
    (∃ (s : State) (a : Nat) (x : Agent), Safety.Place s a x ∧ x.restOk (!x.sw.slotBank) = true) ∧
    (∃ (s : State) (a : Nat) (x : Agent) (k : Nat) (d : Desc), Safety.Place s a x ∧ x.cu.plays = [(k, d)] ∧ (x.slot k).state = 2 ∧ (x.slot k).count = 0) ∧
    (∃ (s : State) (a : Nat) (x : Agent) (c : Cmd), Safety.Place s a x ∧ x.cu.cur = some c ∧ c.path = true ∧ c.piece = 0 ∧ c.more = true ∧ reservedOp c.op = false ∧ x.cu.pieces = [] ∧ x.cu.plays = [] ∧ x.pairOrder c = 1 ∧ newer c.fep x.id.fepoch = false) :=
  ⟨⟨at0 endp, 0, endp, 19, ⟨by decide +kernel, rfl⟩, by decide +kernel⟩,
    ⟨at0 endp, 0, endp, 0x34, 1250, ⟨by decide +kernel, rfl⟩, by decide +kernel, by decide +kernel⟩,
    ⟨at0 endp, 0, endp, 19, ⟨by decide +kernel, rfl⟩, by decide +kernel⟩,
    ⟨at0 endp, 0, endp, ⟨by decide +kernel, rfl⟩, by decide +kernel⟩,
    ⟨at0 { endp with cu := { endp.cu with plays := [(1, 0)] }, hand := [(1, { state := 2 })] }, 0, { endp with cu := { endp.cu with plays := [(1, 0)] }, hand := [(1, { state := 2 })] }, 1, 0, ⟨by decide +kernel, rfl⟩, by decide +kernel, by decide +kernel, by decide +kernel⟩,
    ⟨at0 (tk endp { cmd 8 0 0 [1] with path := true, more := true }), 0, tk endp { cmd 8 0 0 [1] with path := true, more := true }, { cmd 8 0 0 [1] with path := true, more := true }, ⟨by decide +kernel, rfl⟩, by decide +kernel, by decide +kernel, by decide +kernel, by decide +kernel, by decide +kernel, by decide +kernel, by decide +kernel, by decide +kernel, by decide +kernel⟩⟩

theorem test_read_write_and_table_commands_can_act :
    (∃ (s : State) (a : Nat) (x : Agent) (c : Cmd), Safety.Taken s a x c 0x01) ∧
    (∃ (s : State) (a : Nat) (x : Agent) (c : Cmd), Safety.Taken s a x c 0x02 ∧ oneBlock c.arg.toNat c.cnt = true) ∧
    (∃ (s : State) (a : Nat) (x : Agent) (c : Cmd), Safety.Taken s a x c 0x03 ∧ oneBlock c.arg.toNat c.words.length = true ∧ x.checkWords c.arg.toNat c.words = 0) ∧
    (∃ (s : State) (a : Nat) (x : Agent) (c : Cmd), Safety.Taken s a x c 0x04 ∧ x.build.endpoint = true ∧ c.gen = x.id.tgen + 1 ∧ 0 < x.inFlight) ∧
    (∃ (s : State) (a : Nat) (x : Agent) (c : Cmd), Safety.Taken s a x c 0x05 ∧ x.build.endpoint = true ∧ c.gen = x.id.tgen + 1) ∧
    (∃ (s : State) (a : Nat) (x : Agent) (c : Cmd), Safety.Taken s a x c 0x06 ∧ c.gen = x.id.tgen + 1) ∧
    (∃ (s : State) (a : Nat) (x : Agent) (c : Cmd), Safety.Taken s a x c 0x07 ∧ c.gen = x.id.tgen + 1) :=
  ⟨⟨at0 (tk endp (cmd 1 0 0 [])), 0, (tk endp (cmd 1 0 0 [])), (cmd 1 0 0 []), ⟨by decide +kernel, rfl, rfl, rfl, rfl, rfl, rfl⟩⟩,
    ⟨at0 (tk endp (cmd 2 0 0x20 [0])), 0, (tk endp (cmd 2 0 0x20 [0])), (cmd 2 0 0x20 [0]), ⟨by decide +kernel, rfl, rfl, rfl, rfl, rfl, rfl⟩, by decide +kernel⟩,
    ⟨at0 (tk endp (cmd 3 0 0x20 [0xFFC0])), 0, (tk endp (cmd 3 0 0x20 [0xFFC0])), (cmd 3 0 0x20 [0xFFC0]), ⟨by decide +kernel, rfl, rfl, rfl, rfl, rfl, rfl⟩, by decide +kernel, by decide +kernel⟩,
    ⟨at0 (tk { endp with inj := { endp.inj with issued := 1 } } (cmd 4 1 0 [])), 0, (tk { endp with inj := { endp.inj with issued := 1 } } (cmd 4 1 0 [])), (cmd 4 1 0 []), ⟨by decide +kernel, rfl, rfl, rfl, rfl, rfl, rfl⟩, by decide +kernel, by decide +kernel, by decide +kernel⟩,
    ⟨at0 (tk endp (cmd 5 1 0 [])), 0, (tk endp (cmd 5 1 0 [])), (cmd 5 1 0 []), ⟨by decide +kernel, rfl, rfl, rfl, rfl, rfl, rfl⟩, by decide +kernel, by decide +kernel⟩,
    ⟨at0 (tk endp (cmd 6 1 0 [])), 0, (tk endp (cmd 6 1 0 [])), (cmd 6 1 0 []), ⟨by decide +kernel, rfl, rfl, rfl, rfl, rfl, rfl⟩, by decide +kernel⟩,
    ⟨at0 (tk endp (cmd 7 1 0 [])), 0, (tk endp (cmd 7 1 0 [])), (cmd 7 1 0 []), ⟨by decide +kernel, rfl, rfl, rfl, rfl, rfl, rfl⟩, by decide +kernel⟩⟩

theorem test_hand_and_bind_commands_can_act :
    (∃ (s : State) (a : Nat) (x : Agent) (c : Cmd), Safety.Taken s a x c 0x08) ∧
    (∃ (s : State) (a : Nat) (x : Agent) (c : Cmd), Safety.Taken s a x c 0x09 ∧ (x.slot c.slot).state = 1 ∧ (x.slot c.slot).armable = true) ∧
    (∃ (s : State) (a : Nat) (x : Agent) (c : Cmd), Safety.Taken s a x c 0x0A) ∧
    (∃ (s : State) (a : Nat) (x : Agent) (c : Cmd), Safety.Taken s a x c 0x0B ∧ (bitsAt c.arg 0 8).toNat < x.build.ports) ∧
    (∃ (s : State) (a : Nat) (x : Agent) (c : Cmd), Safety.Taken s a x c 0x0C ∧ x.id.tblValid = true ∧ x.id.handOk = true ∧ c.fep = x.id.fepoch ∧ (∀ k, (x.slot k).state ≠ 2)) ∧
    (∃ (s : State) (a : Nat) (x : Agent) (c : Cmd), Safety.Taken s a x c 0x0D) ∧
    (∃ (s : State) (a : Nat) (x : Agent) (c : Cmd) (w : _) (ws : _), Safety.Taken s a x c 0x0E ∧ x.build.endpoint = true ∧ c.arg.getLsbD 31 = false ∧ c.words = w :: ws ∧ newer (bitsAt w 0 16) x.id.sepoch = false) :=
  ⟨⟨at0 (tk endp (cmd 8 0 0 [])), 0, (tk endp (cmd 8 0 0 [])), (cmd 8 0 0 []), ⟨by decide +kernel, rfl, rfl, rfl, rfl, rfl, rfl⟩⟩,
    ⟨at0 (tk { endp with hand := [(0, armSlot)] } (cmd 9 0 0 [])), 0, (tk { endp with hand := [(0, armSlot)] } (cmd 9 0 0 [])), (cmd 9 0 0 []), ⟨by decide +kernel, rfl, rfl, rfl, rfl, rfl, rfl⟩, by decide +kernel, by decide +kernel⟩,
    ⟨at0 (tk endp (cmd 0xA 0 0 [])), 0, (tk endp (cmd 0xA 0 0 [])), (cmd 0xA 0 0 []), ⟨by decide +kernel, rfl, rfl, rfl, rfl, rfl, rfl⟩⟩,
    ⟨at0 (tk endp (cmd 0xB 0 11 [])), 0, (tk endp (cmd 0xB 0 11 [])), (cmd 0xB 0 11 []), ⟨by decide +kernel, rfl, rfl, rfl, rfl, rfl, rfl⟩, by decide +kernel⟩,
    ⟨at0 (tk { endp with id := { endp.id with tblValid := true, handOk := true } } (cmd 0xC 0 0 [])), 0, (tk { endp with id := { endp.id with tblValid := true, handOk := true } } (cmd 0xC 0 0 [])), (cmd 0xC 0 0 []), ⟨by decide +kernel, rfl, rfl, rfl, rfl, rfl, rfl⟩, by decide +kernel, by decide +kernel, by decide +kernel, fun _ => by simp [Agent.slot, SMap.get, slotHandDflt, tk, endp, Agent.dflt, Agent.powerOn]⟩,
    ⟨at0 (tk endp (cmd 0xD 0 0 [])), 0, (tk endp (cmd 0xD 0 0 [])), (cmd 0xD 0 0 []), ⟨by decide +kernel, rfl, rfl, rfl, rfl, rfl, rfl⟩⟩,
    ⟨at0 (tk endp (cmd 0xE 0 1 [0])), 0, (tk endp (cmd 0xE 0 1 [0])), (cmd 0xE 0 1 [0]), 0, [], ⟨by decide +kernel, rfl, rfl, rfl, rfl, rfl, rfl⟩, by decide +kernel, by decide +kernel, by decide +kernel, by decide +kernel⟩⟩

theorem test_partition_and_microcode_commands_can_act :
    (∃ (s : State) (a : Nat) (x : Agent) (c : Cmd), Safety.Taken s a x c 0x10 ∧ x.hasPart c.part = true ∧ (x.part c.part).state = 0) ∧
    (∃ (s : State) (a : Nat) (x : Agent) (c : Cmd), Safety.Taken s a x c 0x11 ∧ x.hasPart c.part = true ∧ (x.part c.part).state = 1 ∧ (x.part c.part).fenceReq = true ∧ (x.part c.part).fenceAck = true ∧ (x.part c.part).unfencing = false) ∧
    (∃ (s : State) (a : Nat) (x : Agent) (c : Cmd), Safety.Taken s a x c 0x12 ∧ x.hasPart c.part = true ∧ (x.part c.part).state = 1 ∧ (x.part c.part).kat ≠ 2 ∧ (x.part c.part).rstReq = false) ∧
    (∃ (s : State) (a : Nat) (x : Agent) (c : Cmd) (v : _) (vs : _), Safety.Taken s a x c 0x14 ∧ c.words = v :: vs ∧ c.arg ≠ 0 ∧ c.arg.toNat ≤ 262144 ∧ (x.uc.len ≠ c.arg ∨ x.uc.ver ≠ v)) ∧
    (∃ (s : State) (a : Nat) (x : Agent) (c : Cmd) (v : _) (vs : _), Safety.Taken s a x c 0x14 ∧ c.words = v :: vs ∧ c.arg ≠ 0 ∧ c.arg.toNat ≤ 262144 ∧ x.uc.len = c.arg ∧ x.uc.ver = v) ∧
    (∃ (s : State) (a : Nat) (x : Agent) (c : Cmd), Safety.Taken s a x c 0x15 ∧ c.words.length = 6 ∧ c.arg.toNat < x.uc.chunkCount ∧ c.arg.toNat < 65536 ∧ x.uc.rx = true ∧ x.uc.commit = none ∧ x.uc.testing = false) ∧
    (∃ (s : State) (a : Nat) (x : Agent) (c : Cmd), Safety.Taken s a x c 0x16 ∧ x.uc.rx = true ∧ x.uc.commit = none ∧ x.uc.testing = false ∧ x.uc.ready = true ∧ sha384 x.uc.imageBytes = x.uc.digest) ∧
    (∃ (s : State) (a : Nat) (x : Agent) (c : Cmd), Safety.Taken s a x c 0x17 ∧ (bitsAt c.arg 0 8).toNat < 8 ∧ c.arg.getLsbD 8 = false) ∧
    (∃ (s : State) (a : Nat) (x : Agent) (c : Cmd), Safety.Taken s a x c 0x18 ∧ x.tbl.act = false ∧ x.tbl.mgmtSel = false ∧ x.tbl.bankSel = 0) ∧
    (∃ (s : State) (a : Nat) (x : Agent) (c : Cmd) (op : _), Safety.Taken s a x c op ∧ reservedOp op = true) :=
  ⟨⟨at0 (tk (part0 (fun p => { p with state := 0 })) (cmd 0x10 0 0 [])), 0, (tk (part0 (fun p => { p with state := 0 })) (cmd 0x10 0 0 [])), (cmd 0x10 0 0 []), ⟨by decide +kernel, rfl, rfl, rfl, rfl, rfl, rfl⟩, by decide +kernel, by decide +kernel⟩,
    ⟨at0 (tk (part0 (fun p => { p with state := 1, fenceReq := true, fenceAck := true })) (cmd 0x11 0 0 [])), 0, (tk (part0 (fun p => { p with state := 1, fenceReq := true, fenceAck := true })) (cmd 0x11 0 0 [])), (cmd 0x11 0 0 []), ⟨by decide +kernel, rfl, rfl, rfl, rfl, rfl, rfl⟩, by decide +kernel, by decide +kernel, by decide +kernel, by decide +kernel, by decide +kernel⟩,
    ⟨at0 (tk (part0 (fun p => { p with state := 1, kat := 1 })) (cmd 0x12 0 0 [])), 0, (tk (part0 (fun p => { p with state := 1, kat := 1 })) (cmd 0x12 0 0 [])), (cmd 0x12 0 0 []), ⟨by decide +kernel, rfl, rfl, rfl, rfl, rfl, rfl⟩, by decide +kernel, by decide +kernel, by decide +kernel, by decide +kernel⟩,
    ⟨at0 (tk endp (cmd 0x14 0 64 [7])), 0, (tk endp (cmd 0x14 0 64 [7])), (cmd 0x14 0 64 [7]), 7, [], ⟨by decide +kernel, rfl, rfl, rfl, rfl, rfl, rfl⟩, by decide +kernel, by decide +kernel, by decide +kernel, Or.inl (by decide +kernel)⟩,
    ⟨at0 (tk { endp with uc := { endp.uc with len := 64, ver := 7 } } (cmd 0x14 0 64 [7])), 0, (tk { endp with uc := { endp.uc with len := 64, ver := 7 } } (cmd 0x14 0 64 [7])), (cmd 0x14 0 64 [7]), 7, [], ⟨by decide +kernel, rfl, rfl, rfl, rfl, rfl, rfl⟩, by decide +kernel, by decide +kernel, by decide +kernel, by decide +kernel, by decide +kernel⟩,
    ⟨at0 (tk { endp with uc := { endp.uc with rx := true, len := 64 } } (cmd 0x15 0 0 [1, 2, 3, 4, 5, 6])), 0, (tk { endp with uc := { endp.uc with rx := true, len := 64 } } (cmd 0x15 0 0 [1, 2, 3, 4, 5, 6])), (cmd 0x15 0 0 [1, 2, 3, 4, 5, 6]), ⟨by decide +kernel, rfl, rfl, rfl, rfl, rfl, rfl⟩, by decide +kernel, by decide +kernel, by decide +kernel, by decide +kernel, by decide +kernel, by decide +kernel⟩,
    ⟨at0 (tk { endp with uc := { endp.uc with rx := true, len := 48, got := [(0, 3)], digest := sha384 (List.replicate 48 0) } } (cmd 0x16 0 0 [])), 0, (tk { endp with uc := { endp.uc with rx := true, len := 48, got := [(0, 3)], digest := sha384 (List.replicate 48 0) } } (cmd 0x16 0 0 [])), (cmd 0x16 0 0 []), ⟨by decide +kernel, rfl, rfl, rfl, rfl, rfl, rfl⟩, by decide +kernel, by decide +kernel, by decide +kernel, by decide +kernel, by decide +kernel⟩,
    ⟨at0 (tk endp (cmd 0x17 0 7 [])), 0, (tk endp (cmd 0x17 0 7 [])), (cmd 0x17 0 7 []), ⟨by decide +kernel, rfl, rfl, rfl, rfl, rfl, rfl⟩, by decide +kernel, by decide +kernel⟩,
    ⟨at0 (tk endp (cmd 0x18 0 0 [])), 0, (tk endp (cmd 0x18 0 0 [])), (cmd 0x18 0 0 []), ⟨by decide +kernel, rfl, rfl, rfl, rfl, rfl, rfl⟩, by decide +kernel, by decide +kernel, by decide +kernel⟩,
    ⟨at0 (tk endp (cmd 0x13 0 0 [])), 0, (tk endp (cmd 0x13 0 0 [])), (cmd 0x13 0 0 []), 0x13, ⟨by decide +kernel, rfl, rfl, rfl, rfl, rfl, rfl⟩, by decide +kernel⟩⟩

theorem test_partition_events_can_act :
    (∃ (s : State) (a : Nat) (x : Agent) (p : Fin 16), Safety.Place s a x ∧ x.hasPart p = true ∧ (x.part p).fenceReq = true ∧ (x.part p).state = 2 ∧ (x.part p).unfencing = false) ∧
    (∃ (s : State) (a : Nat) (x : Agent) (p : Fin 16), Safety.Place s a x ∧ x.hasPart p = true ∧ (x.part p).fenceReq = true ∧ (x.part p).fenceAck = false ∧ (x.part p).toSent = false ∧ (x.part p).state = 2) ∧
    (∃ (s : State) (a : Nat) (x : Agent) (p : Fin 16), Safety.Place s a x ∧ x.hasPart p = true ∧ (x.part p).window = true ∧ (x.part p).state = 2) ∧
    (∃ (s : State) (a : Nat) (x : Agent) (p : Fin 16), Safety.Place s a x ∧ x.hasPart p = true ∧ (x.part p).unfencing = true) ∧
    (∃ (s : State) (a : Nat) (x : Agent) (p : Fin 16), Safety.Place s a x ∧ x.hasPart p = true ∧ (x.part p).rstReq = true ∧ (x.part p).state = 3) ∧
    (∃ (s : State) (a : Nat) (x : Agent) (p : Fin 16), Safety.Place s a x ∧ x.hasPart p = true ∧ (x.part p).limitOn = true) ∧
    (∃ (s : State) (a : Nat) (x : Agent) (p : Fin 16) (v : BitVec 2), Safety.Place s a x ∧ x.hasPart p = true ∧ (v = 1 ∨ v = 2) ∧ (x.part p).state = 4) ∧
    (∃ (s : State) (a : Nat) (x : Agent) (p : Fin 16), Safety.Place s a x ∧ x.hasPart p = true) ∧
    (∃ (s : State) (a : Nat) (x : Agent) (p : Fin 16), Safety.Place s a x ∧ x.hasPart p = true ∧ (x.part p).state = 0 ∧ (x.part p).unfencing = false ∧ (x.part p).wdMs ≠ 0 ∧ (x.part p).progress = (x.part p).wdBase) :=
  ⟨⟨at0 (part0 (fun p => { p with fenceReq := true, state := 2 })), 0, (part0 (fun p => { p with fenceReq := true, state := 2 })), 0, ⟨by decide +kernel, rfl⟩, by decide +kernel, by decide +kernel, by decide +kernel, by decide +kernel⟩,
    ⟨at0 (part0 (fun p => { p with fenceReq := true, state := 2 })), 0, (part0 (fun p => { p with fenceReq := true, state := 2 })), 0, ⟨by decide +kernel, rfl⟩, by decide +kernel, by decide +kernel, by decide +kernel, by decide +kernel, by decide +kernel⟩,
    ⟨at0 (part0 (fun p => { p with window := true, state := 2 })), 0, (part0 (fun p => { p with window := true, state := 2 })), 0, ⟨by decide +kernel, rfl⟩, by decide +kernel, by decide +kernel, by decide +kernel⟩,
    ⟨at0 (part0 (fun p => { p with unfencing := true })), 0, (part0 (fun p => { p with unfencing := true })), 0, ⟨by decide +kernel, rfl⟩, by decide +kernel, by decide +kernel⟩,
    ⟨at0 (part0 (fun p => { p with rstReq := true, state := 3 })), 0, (part0 (fun p => { p with rstReq := true, state := 3 })), 0, ⟨by decide +kernel, rfl⟩, by decide +kernel, by decide +kernel, by decide +kernel⟩,
    ⟨at0 (part0 (fun p => { p with limitOn := true })), 0, (part0 (fun p => { p with limitOn := true })), 0, ⟨by decide +kernel, rfl⟩, by decide +kernel, by decide +kernel⟩,
    ⟨at0 (part0 (fun p => { p with state := 4 })), 0, (part0 (fun p => { p with state := 4 })), 0, 2, ⟨by decide +kernel, rfl⟩, by decide +kernel, Or.inr rfl, by decide +kernel⟩,
    ⟨at0 (part0 (fun p => { p with state := 0 })), 0, (part0 (fun p => { p with state := 0 })), 0, ⟨by decide +kernel, rfl⟩, by decide +kernel⟩,
    ⟨at0 (part0 (fun p => { p with state := 0 })), 0, (part0 (fun p => { p with state := 0 })), 0, ⟨by decide +kernel, rfl⟩, by decide +kernel, by decide +kernel, by decide +kernel, by decide +kernel, by decide +kernel⟩⟩

theorem test_agent_mailbox_and_boot_events_can_act :
    (∃ (s : State) (a : Nat) (x : Agent), Safety.Place s a x ∧ x.mbx.downFull = false) ∧
    (∃ (s : State) (a : Nat) (x : Agent), Safety.Place s a x ∧ x.mbx.upSend = false) ∧
    (∃ (s : State) (a : Nat) (x : Agent), Safety.Place s a x ∧ x.mbx.upSend = false) ∧
    (∃ (s : State) (a : Nat) (x : Agent), Safety.Place s a x ∧ x.mbx.claim = 0) ∧
    (∃ (s : State) (a : Nat) (x : Agent) (ctrl : Bool), Safety.Place s a x ∧ x.mbx.claim = partyNo ctrl) ∧
    (∃ (s : State) (a : Nat) (x : Agent), Safety.Place s a x ∧ x.mbx.claim = 2 ∧ x.mbx.ring = false) ∧
    (∃ (s : State) (a : Nat) (x : Agent), Safety.Place s a x ∧ x.mbx.claim = 1 ∧ x.mbx.ring = true ∧ x.mbx.done = false) ∧
    (∃ (s : State) (a : Nat) (x : Agent) (ctrl : Bool), Safety.Place s a x ∧ x.mbx.claim = partyNo ctrl ∧ x.mbx.ring = false) ∧
    (∃ (s : State) (a : Nat) (x : Agent), Safety.Place s a x ∧ x.mbx.claim ≠ 0) ∧
    (∃ (s : State) (a : Nat) (x : Agent), Safety.Place s a x ∧ x.mbx.claim ≠ 2) ∧
    (∃ (s : State) (a : Nat) (x : Agent) (msg : List Byte), Safety.Place s a x ∧ 0 < msg.length ∧ msg.length ≤ 32) ∧
    (∃ (s : State) (a : Nat) (x : Agent) (f : W32) (t : W32), Safety.Place s a x ∧ x.uc.commit = some (f, t) ∧ frameDue f t x.id.frame = true) ∧
    (∃ (s : State) (a : Nat) (x : Agent), Safety.Place s a x ∧ x.uc.testing = true) ∧
    (∃ (s : State) (a : Nat) (x : Agent), Safety.Place s a x) :=
  ⟨⟨at0 endp, 0, endp, ⟨by decide +kernel, rfl⟩, by decide +kernel⟩,
    ⟨at0 endp, 0, endp, ⟨by decide +kernel, rfl⟩, by decide +kernel⟩,
    ⟨at0 endp, 0, endp, ⟨by decide +kernel, rfl⟩, by decide +kernel⟩,
    ⟨at0 endp, 0, endp, ⟨by decide +kernel, rfl⟩, by decide +kernel⟩,
    ⟨at0 { endp with mbx := { endp.mbx with claim := 2 } }, 0, { endp with mbx := { endp.mbx with claim := 2 } }, true, ⟨by decide +kernel, rfl⟩, by decide +kernel⟩,
    ⟨at0 { endp with mbx := { endp.mbx with claim := 2 } }, 0, { endp with mbx := { endp.mbx with claim := 2 } }, ⟨by decide +kernel, rfl⟩, by decide +kernel, by decide +kernel⟩,
    ⟨at0 { endp with mbx := { endp.mbx with claim := 1, ring := true } }, 0, { endp with mbx := { endp.mbx with claim := 1, ring := true } }, ⟨by decide +kernel, rfl⟩, by decide +kernel, by decide +kernel, by decide +kernel⟩,
    ⟨at0 { endp with mbx := { endp.mbx with claim := 1 } }, 0, { endp with mbx := { endp.mbx with claim := 1 } }, false, ⟨by decide +kernel, rfl⟩, by decide +kernel, by decide +kernel⟩,
    ⟨at0 { endp with mbx := { endp.mbx with claim := 1 } }, 0, { endp with mbx := { endp.mbx with claim := 1 } }, ⟨by decide +kernel, rfl⟩, by decide +kernel⟩,
    ⟨at0 { endp with mbx := { endp.mbx with claim := 1 } }, 0, { endp with mbx := { endp.mbx with claim := 1 } }, ⟨by decide +kernel, rfl⟩, by decide +kernel⟩,
    ⟨at0 endp, 0, endp, (List.replicate 32 0), ⟨by decide +kernel, rfl⟩, by decide +kernel, by decide +kernel⟩,
    ⟨at0 { endp with uc := { endp.uc with commit := some (5, 4) }, id := { endp.id with frame := 5 } }, 0, { endp with uc := { endp.uc with commit := some (5, 4) }, id := { endp.id with frame := 5 } }, 5, 4, ⟨by decide +kernel, rfl⟩, by decide +kernel, by decide +kernel⟩,
    ⟨at0 { endp with uc := { endp.uc with testing := true } }, 0, { endp with uc := { endp.uc with testing := true } }, ⟨by decide +kernel, rfl⟩, by decide +kernel⟩,
    ⟨at0 endp, 0, endp, ⟨by decide +kernel, rfl⟩⟩⟩

theorem test_register_instructions_can_act :
    (∃ (s : State) (c : Fin 16) (w : W64) (x : Context), Safety.Issue s c 0x10 w x) ∧
    (∃ (s : State) (c : Fin 16) (w : W64) (x : Context), Safety.Issue s c 0x11 w x) ∧
    (∃ (s : State) (c : Fin 16) (w : W64) (x : Context), Safety.Issue s c 0x12 w x) ∧
    (∃ (s : State) (c : Fin 16) (w : W64) (x : Context), Safety.Issue s c 0x13 w x) ∧
    (∃ (s : State) (c : Fin 16) (w : W64) (x : Context), Safety.Issue s c 0x14 w x) ∧
    (∃ (s : State) (c : Fin 16) (w : W64) (x : Context), Safety.Issue s c 0x15 w x) ∧
    (∃ (s : State) (c : Fin 16) (w : W64) (x : Context), Safety.Issue s c 0x16 w x) ∧
    (∃ (s : State) (c : Fin 16) (w : W64) (x : Context), Safety.Issue s c 0x17 w x) ∧
    (∃ (s : State) (c : Fin 16) (w : W64) (x : Context), Safety.Issue s c 0x18 w x ∧ uMod w = 0) ∧
    (∃ (s : State) (c : Fin 16) (w : W64) (x : Context), Safety.Issue s c 0x18 w x ∧ uMod w = 1) ∧
    (∃ (s : State) (c : Fin 16) (w : W64) (x : Context), Safety.Issue s c 0x19 w x) ∧
    (∃ (s : State) (c : Fin 16) (w : W64) (x : Context), Safety.Issue s c 0x1A w x) :=
  ⟨⟨(uS (uw 0x10 3 0 0 0 5) (rg 0x100 0x400 0x800) []), 0, _, _, ⟨by decide +kernel, rfl, by decide +kernel, by decide +kernel, rfl, by decide +kernel⟩⟩,
    ⟨(uS (uw 0x11 3 1 2 0 0) (rg 0x100 0x400 0x800) []), 0, _, _, ⟨by decide +kernel, rfl, by decide +kernel, by decide +kernel, rfl, by decide +kernel⟩⟩,
    ⟨(uS (uw 0x12 3 1 0 0 7) (rg 0x100 0x400 0x800) []), 0, _, _, ⟨by decide +kernel, rfl, by decide +kernel, by decide +kernel, rfl, by decide +kernel⟩⟩,
    ⟨(uS (uw 0x13 3 1 2 0 0) (rg 0x100 0x400 0x800) []), 0, _, _, ⟨by decide +kernel, rfl, by decide +kernel, by decide +kernel, rfl, by decide +kernel⟩⟩,
    ⟨(uS (uw 0x14 3 1 2 0 0) (rg 0x100 0x400 0x800) []), 0, _, _, ⟨by decide +kernel, rfl, by decide +kernel, by decide +kernel, rfl, by decide +kernel⟩⟩,
    ⟨(uS (uw 0x15 3 1 2 0 0) (rg 0x100 0x400 0x800) []), 0, _, _, ⟨by decide +kernel, rfl, by decide +kernel, by decide +kernel, rfl, by decide +kernel⟩⟩,
    ⟨(uS (uw 0x16 3 1 2 0 0) (rg 0x100 0x400 0x800) []), 0, _, _, ⟨by decide +kernel, rfl, by decide +kernel, by decide +kernel, rfl, by decide +kernel⟩⟩,
    ⟨(uS (uw 0x17 3 1 2 0 0) (rg 0x100 0x400 0x800) []), 0, _, _, ⟨by decide +kernel, rfl, by decide +kernel, by decide +kernel, rfl, by decide +kernel⟩⟩,
    ⟨(uS (uw 0x18 3 1 2 0 0) (rg 0x100 0x400 0x800) []), 0, _, _, ⟨by decide +kernel, rfl, by decide +kernel, by decide +kernel, rfl, by decide +kernel⟩, by decide +kernel⟩,
    ⟨(uS (uw 0x18 3 1 2 1 0) (rg 0x100 0x400 0x800) []), 0, _, _, ⟨by decide +kernel, rfl, by decide +kernel, by decide +kernel, rfl, by decide +kernel⟩, by decide +kernel⟩,
    ⟨(uS (uw 0x19 7 1 2 5 0) (rg 0x100 0x400 0x800) []), 0, _, _, ⟨by decide +kernel, rfl, by decide +kernel, by decide +kernel, rfl, by decide +kernel⟩⟩,
    ⟨(uS (uw 0x1A 1 1 0 7 9) (rg 0x100 0x400 0x800) []), 0, _, _, ⟨by decide +kernel, rfl, by decide +kernel, by decide +kernel, rfl, by decide +kernel⟩⟩⟩

theorem test_control_instructions_can_act :
    (∃ (s : State) (c : Fin 16) (w : W64) (x : Context), Safety.Issue s c 0x01 w x ∧ badTarget (x.target w) = false) ∧
    (∃ (s : State) (c : Fin 16) (w : W64) (x : Context), Safety.Issue s c 0x02 w x ∧ badTarget (x.target w) = false ∧ x.stack.length < 16) ∧
    (∃ (s : State) (c : Fin 16) (w : W64) (x : Context) (p : Nat) (ps : List Nat), Safety.Issue s c 0x03 w x ∧ x.stack = p :: ps) ∧
    (∃ (s : State) (c : Fin 16) (w : W64) (x : Context), Safety.Issue s c 0x04 w x ∧ cmpHolds (uMod w) (s.tally (bitsAt (x.reg (uRa w)) 0 16).toNat).count.toNat (x.reg (uRb w)).toNat = true) ∧
    (∃ (s : State) (c : Fin 16) (w : W64) (x : Context), Safety.Issue s c 0x04 w x ∧ cmpHolds (uMod w) (s.tally (bitsAt (x.reg (uRa w)) 0 16).toNat).count.toNat (x.reg (uRb w)).toNat = false) ∧
    (∃ (s : State) (c : Fin 16) (w : W64) (x : Context) (s1 : _), Safety.Issue s c 0x05 w x ∧ (Safety.issued s c).tallyAdd (bitsAt (x.reg (uRa w)) 0 16).toNat (uImm w).toInt true = some s1) ∧
    (∃ (s : State) (c : Fin 16) (w : W64) (x : Context), Safety.Issue s c 0x06 w x ∧ uMod w = 0) ∧
    (∃ (s : State) (c : Fin 16) (w : W64) (x : Context), Safety.Issue s c 0x06 w x ∧ uMod w = 1 ∧ x.ctimer ≠ 0) ∧
    (∃ (s : State) (c : Fin 16) (w : W64) (x : Context), Safety.Issue s c 0x07 w x) ∧
    (∃ (s : State) (c : Fin 16) (w : W64) (x : Context), Safety.Issue s c 0x08 w x) ∧
    (∃ (s : State) (c : Fin 16), s.mayIssue c = true ∧ uLegal (s.fetch c) = false) ∧
    (∃ (s : State) (c : Fin 16), s.mayIssue c = true) ∧
    (∃ (s : State) (c : Fin 16) (w : W64) (x : Context) (op : _), Safety.Issue s c op w x ∧ x.faultOf w ≠ 0) ∧
    (∃ (s : State) (c : Fin 16) (x : Context), s.ctx c = x ∧ x.asleep = true) :=
  ⟨⟨(uS (uw 1 0 0 0 0 1) (rg 0x100 0x400 0x800) []), 0, _, _, ⟨by decide +kernel, rfl, by decide +kernel, by decide +kernel, rfl, by decide +kernel⟩, by decide +kernel⟩,
    ⟨(uS (uw 2 0 0 0 0 1) (rg 0x100 0x400 0x800) []), 0, _, _, ⟨by decide +kernel, rfl, by decide +kernel, by decide +kernel, rfl, by decide +kernel⟩, by decide +kernel, by decide +kernel⟩,
    ⟨(uS (uw 3 0 0 0 0 0) (fun x => { x with stack := [7] }) []), 0, _, _, 7, [], ⟨by decide +kernel, rfl, by decide +kernel, by decide +kernel, rfl, by decide +kernel⟩, by decide +kernel⟩,
    ⟨(uS (uw 4 0 1 2 0 0) (rg 5 0 0) []), 0, _, _, ⟨by decide +kernel, rfl, by decide +kernel, by decide +kernel, rfl, by decide +kernel⟩, by decide +kernel⟩,
    ⟨(uS (uw 4 0 1 2 0 0) (rg 5 1 0) []), 0, _, _, ⟨by decide +kernel, rfl, by decide +kernel, by decide +kernel, rfl, by decide +kernel⟩, by decide +kernel⟩,
    ⟨(uS (uw 5 0 1 0 0 1) (rg 5 0 0) []), 0, _, _, _, ⟨by decide +kernel, rfl, by decide +kernel, by decide +kernel, rfl, by decide +kernel⟩, rfl⟩,
    ⟨(uS (uw 6 0 0 0 0 0) (rg 0x100 0x400 0x800) []), 0, _, _, ⟨by decide +kernel, rfl, by decide +kernel, by decide +kernel, rfl, by decide +kernel⟩, by decide +kernel⟩,
    ⟨(uS (uw 6 0 0 0 1 0) (fun x => { x with ctimer := 3 }) []), 0, _, _, ⟨by decide +kernel, rfl, by decide +kernel, by decide +kernel, rfl, by decide +kernel⟩, by decide +kernel, by decide +kernel⟩,
    ⟨(uS (uw 7 0 0 0 0 1) (rg 0x100 0x400 0x800) []), 0, _, _, ⟨by decide +kernel, rfl, by decide +kernel, by decide +kernel, rfl, by decide +kernel⟩⟩,
    ⟨(uS (uw 8 0 0 0 0 0) (rg 0x100 0x400 0x800) []), 0, _, _, ⟨by decide +kernel, rfl, by decide +kernel, by decide +kernel, rfl, by decide +kernel⟩⟩,
    ⟨(uS (uw 0 0 0 0 0 0) (rg 0x100 0x400 0x800) []), 0, by decide +kernel, by decide +kernel⟩,
    ⟨(uS (uw 8 0 0 0 0 0) (rg 0x100 0x400 0x800) []), 0, by decide +kernel⟩,
    ⟨(uS (uw 3 0 0 0 0 0) id []), 0, _, _, 3, ⟨by decide +kernel, rfl, by decide +kernel, by decide +kernel, rfl, by decide +kernel⟩, by decide +kernel⟩,
    ⟨(uS (uw 8 0 0 0 0 0) (fun x => { x with asleep := true }) []), 0, _, rfl, by decide +kernel⟩⟩

theorem test_data_instructions_can_act :
    (∃ (s : State) (c : Fin 16) (w : W64) (x : Context), Safety.Issue s c 0x1B w x ∧ x.ldst w + 2 ^ uMod w ≤ 0x400000 ∧ x.ldst w % 2 ^ uMod w = 0) ∧
    (∃ (s : State) (c : Fin 16) (w : W64) (x : Context), Safety.Issue s c 0x1C w x ∧ x.ldst w + 2 ^ uMod w ≤ 0x400000 ∧ x.ldst w % 2 ^ uMod w = 0) ∧
    (∃ (s : State) (c : Fin 16) (w : W64) (x : Context), Safety.Issue s c 0x1D w x ∧ x.copyDs w + 64 * (uImm w).toNat ≤ 0x400000 ∧ s.inDepot (x.copyDep w) (64 * (uImm w).toNat) = true ∧ 2 * (uImm w).toNat ≤ tmoNs w) ∧
    (∃ (s : State) (c : Fin 16) (w : W64) (x : Context), Safety.Issue s c 0x1E w x ∧ (uImm w).toNat ≠ 8) ∧
    (∃ (s : State) (c : Fin 16) (w : W64) (x : Context), Safety.Issue s c 0x1F w x ∧ s.wrsOk (uImm w).toNat (x.reg (uRa w)) = true) ∧
    (∃ (s : State) (c : Fin 16) (w : W64) (x : Context), Safety.Issue s c 0x1F w x ∧ s.wrsOk (uImm w).toNat (x.reg (uRa w)) = false) :=
  ⟨⟨(uS (uw 0x1B 3 1 0 3 0) (rg 0x100 0x400 0x800) []), 0, _, _, ⟨by decide +kernel, rfl, by decide +kernel, by decide +kernel, rfl, by decide +kernel⟩, by decide +kernel, by decide +kernel⟩,
    ⟨(uS (uw 0x1C 0 1 2 3 0) (rg 0x100 0x400 0x800) []), 0, _, _, ⟨by decide +kernel, rfl, by decide +kernel, by decide +kernel, rfl, by decide +kernel⟩, by decide +kernel, by decide +kernel⟩,
    ⟨(uS (uw 0x1D 0 1 2 0 1) (rg 0x100 0x40 0) []), 0, _, _, ⟨by decide +kernel, rfl, by decide +kernel, by decide +kernel, rfl, by decide +kernel⟩, by decide +kernel, by decide +kernel, by decide +kernel⟩,
    ⟨(uS (uw 0x1E 3 0 0 0 0) (rg 0x100 0x400 0x800) []), 0, _, _, ⟨by decide +kernel, rfl, by decide +kernel, by decide +kernel, rfl, by decide +kernel⟩, by decide +kernel⟩,
    ⟨(uS (uw 0x1F 0 1 0 0 12) (rg 8 0 0) []), 0, _, _, ⟨by decide +kernel, rfl, by decide +kernel, by decide +kernel, rfl, by decide +kernel⟩, by decide +kernel⟩,
    ⟨(uS (uw 0x1F 0 1 0 0 12) (rg 1 0 0) []), 0, _, _, ⟨by decide +kernel, rfl, by decide +kernel, by decide +kernel, rfl, by decide +kernel⟩, by decide +kernel⟩⟩

theorem test_agent_list_instructions_can_act :
    (∃ (s : State) (c : Fin 16) (w : W64) (x : Context) (ps : _), Safety.FabricIssue s c 0x20 w x ∧ s.probeList (x.reg (uRa w)).toNat = some ps ∧ (x.reg (uRb w)).toNat + 64 * ps.length ≤ 0x400000) ∧
    (∃ (s : State) (c : Fin 16) (w : W64) (x : Context) (fp : Nat) (sub : Nat), Safety.FabricIssue s c 0x21 w x ∧ uMod w = 2 ∧ fp = (bitsAt (x.reg (uRa w)) 0 8).toNat ∧ sub = (bitsAt (x.reg (uRa w)) 8 2).toNat ∧ fp < 40 ∧ sub < 2 ∧ s.subTrains (2 * fp + sub) = true) ∧
    (∃ (s : State) (c : Fin 16) (w : W64) (x : Context), Safety.FabricIssue s c 0x22 w x) ∧
    (∃ (s : State) (c : Fin 16) (w : W64) (x : Context), Safety.FabricIssue s c 0x23 w x ∧ uMod w = 0) ∧
    (∃ (s : State) (c : Fin 16) (w : W64) (x : Context), Safety.FabricIssue s c 0x23 w x ∧ uMod w = 1) ∧
    (∃ (s : State) (c : Fin 16) (w : W64) (x : Context), Safety.FabricIssue s c 0x2B w x ∧ x.long = none) ∧
    (∃ (s : State) (c : Fin 16) (w : W64) (x : Context), Safety.FabricIssue s c 0x2C w x ∧ uMod w = 0) ∧
    (∃ (s : State) (c : Fin 16) (w : W64) (x : Context), Safety.FabricIssue s c 0x2C w x ∧ uMod w = 1) ∧
    (∃ (s : State) (c : Fin 16) (w : W64) (x : Context) (ids : _), Safety.FabricIssue s c 0x2E w x ∧ uMod w < 2 ∧ s.agentList (x.reg (uRa w)).toNat = some ids) ∧
    (∃ (s : State) (c : Fin 16) (w : W64) (x : Context) (ids : _), Safety.FabricIssue s c 0x2F w x ∧ uMod w = 1 ∧ s.agentList (x.reg (uRa w)).toNat = some ids) ∧
    (∃ (s : State) (c : Fin 16) (w : W64) (x : Context) (ids : _), Safety.FabricIssue s c 0x2F w x ∧ uMod w = 0 ∧ s.agentList (x.reg (uRa w)).toNat = some ids ∧ (∀ id ∈ ids, s.releaseHeld id = false)) ∧
    (∃ (s : State) (c : Fin 16) (w : W64) (x : Context) (ids : _) (k : _), Safety.FabricIssue s c 0x30 w x ∧ s.agentList (x.reg (uRa w)).toNat = some ids ∧ (x.reg (uRb w)).toNat + 48 ≤ 0x400000 ∧ (x.reg (uRd w)).toNat + 48 * ids.length ≤ 0x400000 ∧ acmdSpec (s.dsRead (x.reg (uRb w)).toNat 48) = some k) :=
  ⟨⟨(uS (uw 0x20 0 1 2 0 0) (rg 0x100 0x400 0x800) (le 8 1 ++ [1, 5] ++ le 8 0 ++ le 8 0 ++ le 6 0)), 0, _, _, [[5]], ⟨⟨by decide +kernel, rfl, by decide +kernel, by decide +kernel, rfl, by decide +kernel⟩, by decide +kernel, fun _ => by decide +kernel⟩, by decide +kernel, by decide +kernel⟩,
    ⟨(uS (uw 0x21 0 1 0 2 0) (rg 0 0 0) []), 0, _, _, 0, 0, ⟨⟨by decide +kernel, rfl, by decide +kernel, by decide +kernel, rfl, by decide +kernel⟩, by decide +kernel, fun _ => by decide +kernel⟩, by decide +kernel, by decide +kernel, by decide +kernel, by decide +kernel, by decide +kernel, by decide +kernel⟩,
    ⟨(uS (uw 0x22 0 1 2 0 0) (rg 0 0 0) []), 0, _, _, ⟨⟨by decide +kernel, rfl, by decide +kernel, by decide +kernel, rfl, by decide +kernel⟩, by decide +kernel, fun _ => by decide +kernel⟩⟩,
    ⟨(uS (uw 0x23 0 1 2 0 0) (rg 0 0 0) []), 0, _, _, ⟨⟨by decide +kernel, rfl, by decide +kernel, by decide +kernel, rfl, by decide +kernel⟩, by decide +kernel, fun _ => by decide +kernel⟩, by decide +kernel⟩,
    ⟨(uS (uw 0x23 0 1 2 1 0) (rg 0 0 0) []), 0, _, _, ⟨⟨by decide +kernel, rfl, by decide +kernel, by decide +kernel, rfl, by decide +kernel⟩, by decide +kernel, fun _ => by decide +kernel⟩, by decide +kernel⟩,
    ⟨(uS (uw 0x2B 0 1 2 0 0) (rg 0x100 0x400 0x800) []), 0, _, _, ⟨⟨by decide +kernel, rfl, by decide +kernel, by decide +kernel, rfl, by decide +kernel⟩, by decide +kernel, fun _ => by decide +kernel⟩, by decide +kernel⟩,
    ⟨(uS (uw 0x2C 0 1 2 0 0) (rg 0x100 0x400 0x800) []), 0, _, _, ⟨⟨by decide +kernel, rfl, by decide +kernel, by decide +kernel, rfl, by decide +kernel⟩, by decide +kernel, fun _ => by decide +kernel⟩, by decide +kernel⟩,
    ⟨(uS (uw 0x2C 0 1 2 1 0) (rg 0x40 0 0x800) []), 0, _, _, ⟨⟨by decide +kernel, rfl, by decide +kernel, by decide +kernel, rfl, by decide +kernel⟩, by decide +kernel, fun _ => by decide +kernel⟩, by decide +kernel⟩,
    ⟨(uS (uw 0x2E 0 1 2 1 0) (rg 0x100 0x400 0x800) agList), 0, _, _, [0x40], ⟨⟨by decide +kernel, rfl, by decide +kernel, by decide +kernel, rfl, by decide +kernel⟩, by decide +kernel, fun _ => by decide +kernel⟩, by decide +kernel, by decide +kernel⟩,
    ⟨(uS (uw 0x2F 0 1 0 1 0) (rg 0x100 0x400 0x800) agList), 0, _, _, [0x40], ⟨⟨by decide +kernel, rfl, by decide +kernel, by decide +kernel, rfl, by decide +kernel⟩, by decide +kernel, fun _ => by decide +kernel⟩, by decide +kernel, by decide +kernel⟩,
    ⟨(uS (uw 0x2F 0 1 0 0 0) (rg 0x100 0x400 0x800) (le 8 1 ++ le 8 0x41)), 0, _, _, [0x41], ⟨⟨by decide +kernel, rfl, by decide +kernel, by decide +kernel, rfl, by decide +kernel⟩, by decide +kernel, fun _ => by decide +kernel⟩, by decide +kernel, by decide +kernel, by simp only [List.mem_singleton, forall_eq]; decide +kernel⟩,
    ⟨(uS (uw 0x30 3 1 2 0 0) (rg 0x100 0x400 0x800) agList), 0, _, _, [0x40], ⟨0, 0, 0, []⟩, ⟨⟨by decide +kernel, rfl, by decide +kernel, by decide +kernel, rfl, by decide +kernel⟩, by decide +kernel, fun _ => by decide +kernel⟩, by decide +kernel, by decide +kernel, by decide +kernel, by decide +kernel⟩⟩

theorem test_table_change_instructions_can_act :
    (∃ (s : State) (c : Fin 16) (w : W64) (x : Context) (im : _) (e : _), Safety.FabricIssue s c 0x24 w x ∧ s.dealers.change.isOpen = true ∧ s.dealers.change.owner = some c.val ∧ s.dealers.change.image = (x.reg (uRa w)).toNat ∧ s.image (x.reg (uRa w)).toNat = some im ∧ im.slices.find? (fun e => e.slice = (x.reg (uRb w)).toNat) = some e) ∧
    (∃ (s : State) (c : Fin 16) (w : W64) (x : Context) (im : _), Safety.FabricIssue s c 0x25 w x ∧ s.image (x.reg (uRa w)).toNat = some im ∧ im.fromEpoch = x.epoch ∧ s.dealers.change.isOpen = false ∧ s.imageVerified (x.reg (uRa w)).toNat = true) ∧
    (∃ (s : State) (c : Fin 16) (w : W64) (x : Context) (im : _) (e : _), Safety.FabricIssue s c 0x26 w x ∧ uMod w = 0 ∧ s.dealers.change.isOpen = true ∧ s.dealers.change.owner = some c.val ∧ s.dealers.change.image = (x.reg (uRa w)).toNat ∧ s.image (x.reg (uRa w)).toNat = some im ∧ im.slices.find? (fun e => e.slice = (x.reg (uRb w)).toNat) = some e) ∧
    (∃ (s : State) (c : Fin 16) (w : W64) (x : Context) (im : _), Safety.FabricIssue s c 0x26 w x ∧ uMod w = 1 ∧ s.dealers.change.isOpen = true ∧ s.dealers.change.owner = some c.val ∧ s.dealers.change.image = (x.reg (uRa w)).toNat ∧ s.image (x.reg (uRa w)).toNat = some im ∧ (∀ e ∈ im.slices, s.dealers.change.swapped.getLsbD e.slice = true)) ∧
    (∃ (s : State) (c : Fin 16) (w : W64) (x : Context) (es : _), Safety.FabricIssue s c 0x27 w x ∧ uMod w = 1 ∧ s.cardList (x.reg (uRa w)).toNat = some es) ∧
    (∃ (s : State) (c : Fin 16) (w : W64) (x : Context) (es : _), Safety.FabricIssue s c 0x27 w x ∧ uMod w = 0 ∧ s.cardList (x.reg (uRa w)).toNat = some es ∧ es.all s.cardOk = true ∧ (∀ e ∈ es, BitVec.ofNat 32 (s.depLE (e.2.2 + 8) 4) = x.epoch)) ∧
    (∃ (s : State) (c : Fin 16) (w : W64) (x : Context), Safety.Issue s c 0x28 w x ∧ s.isActive = true ∧ descOk (x.reg (uRa w)) = true) ∧
    (∃ (s : State) (c : Fin 16) (w : W64) (x : Context), Safety.FabricIssue s c 0x29 w x ∧ uMod w = 0 ∧ s.dealers.change.isOpen = false ∧ descOk (x.reg (uRa w)) = true) ∧
    (∃ (s : State) (c : Fin 16) (w : W64) (x : Context), Safety.FabricIssue s c 0x29 w x ∧ uMod w = 1 ∧ s.dealers.change.isOpen = false ∧ descOk (x.reg (uRa w)) = true) ∧
    (∃ (s : State) (c : Fin 16) (w : W64) (x : Context) (cs : _), Safety.Issue s c 0x2A w x ∧ s.isActive = true ∧ descOk (x.reg (uRa w)) = true ∧ cs = (Safety.issued s c).closures (x.reg (uRa w)) ∧ (x.reg (uRb w)).toNat + 16 * cs.length ≤ 0x400000) ∧
    (∃ (s : State) (c : Fin 16) (w : W64) (x : Context) (id : _), Safety.Issue s c 0x2D w x ∧ s.isActive = true ∧ s.drawSpare (bitsAt (x.reg (uRa w)) 0 16) = some id) :=
  ⟨⟨(uChange (uS (uw 0x24 0 1 2 0 0) (rg 0 3 0) []) 0), 0, _, _, imgOf, imgEntry, ⟨⟨by decide +kernel, rfl, by decide +kernel, by decide +kernel, rfl, by decide +kernel⟩, by decide +kernel, fun _ => by decide +kernel⟩, by decide +kernel, by decide +kernel, by decide +kernel, by decide +kernel, by decide +kernel⟩,
    ⟨(uS (uw 0x25 0 1 0 0 0) (rg 0 0 0) []), 0, _, _, imgOf, ⟨⟨by decide +kernel, rfl, by decide +kernel, by decide +kernel, rfl, by decide +kernel⟩, by decide +kernel, fun _ => by decide +kernel⟩, by decide +kernel, by decide +kernel, by decide +kernel, by decide +kernel⟩,
    ⟨(uChange (uS (uw 0x26 0 1 2 0 0) (rg 0 3 0) []) 0), 0, _, _, imgOf, imgEntry, ⟨⟨by decide +kernel, rfl, by decide +kernel, by decide +kernel, rfl, by decide +kernel⟩, by decide +kernel, fun _ => by decide +kernel⟩, by decide +kernel, by decide +kernel, by decide +kernel, by decide +kernel, by decide +kernel, by decide +kernel⟩,
    ⟨(uChange (uS (uw 0x26 0 1 2 1 0) (rg 0 0 0) []) 8), 0, _, _, imgOf, ⟨⟨by decide +kernel, rfl, by decide +kernel, by decide +kernel, rfl, by decide +kernel⟩, by decide +kernel, fun _ => by decide +kernel⟩, by decide +kernel, by decide +kernel, by decide +kernel, by decide +kernel, by decide +kernel, by decide +kernel⟩,
    ⟨(uS (uw 0x27 0 1 0 1 0) (rg 0x100 0x400 0x800) (le 8 1 ++ le 8 0x40 ++ le 8 0x1000)), 0, _, _, [(0x40, 0, 0x1000)], ⟨⟨by decide +kernel, rfl, by decide +kernel, by decide +kernel, rfl, by decide +kernel⟩, by decide +kernel, fun _ => by decide +kernel⟩, by decide +kernel, by decide +kernel⟩,
    ⟨{ (uS (uw 0x27 0 1 0 0 0) (rg 0x100 0x400 0x800) (le 8 1 ++ le 8 0x40 ++ le 8 0x1000)) with depot := { mem := Mem.writeL [] 0x1000 (le 2 0x40 ++ le 2 1) } }, 0, _, _, [(0x40, 0, 0x1000)], ⟨⟨by decide +kernel, rfl, by decide +kernel, by decide +kernel, rfl, by decide +kernel⟩, by decide +kernel, fun _ => by decide +kernel⟩, by decide +kernel, by decide +kernel, by decide +kernel, by decide +kernel⟩,
    ⟨(uS (uw 0x28 0 1 0 0 0) (rg (1 <<< 60) 0 0) []), 0, _, _, ⟨by decide +kernel, rfl, by decide +kernel, by decide +kernel, rfl, by decide +kernel⟩, by decide +kernel, by decide +kernel⟩,
    ⟨(uS (uw 0x29 0 1 0 0 0) (rg (1 <<< 60) 0 0) []), 0, _, _, ⟨⟨by decide +kernel, rfl, by decide +kernel, by decide +kernel, rfl, by decide +kernel⟩, by decide +kernel, fun _ => by decide +kernel⟩, by decide +kernel, by decide +kernel, by decide +kernel⟩,
    ⟨(uS (uw 0x29 0 1 0 1 0) (rg (1 <<< 60) 0 0) []), 0, _, _, ⟨⟨by decide +kernel, rfl, by decide +kernel, by decide +kernel, rfl, by decide +kernel⟩, by decide +kernel, fun _ => by decide +kernel⟩, by decide +kernel, by decide +kernel, by decide +kernel⟩,
    ⟨(uS (uw 0x2A 0 1 2 0 0) (rg (1 <<< 60) 0x400 0) []), 0, _, _, _, ⟨by decide +kernel, rfl, by decide +kernel, by decide +kernel, rfl, by decide +kernel⟩, by decide +kernel, by decide +kernel, rfl, by decide +kernel⟩,
    ⟨(uS (uw 0x2D 3 1 0 0 0) (rg 1 0 0) []), 0, _, _, 0x40, ⟨by decide +kernel, rfl, by decide +kernel, by decide +kernel, rfl, by decide +kernel⟩, by decide +kernel, by decide +kernel⟩⟩

theorem test_checkpoint_instructions_can_act :
    (∃ (s : State) (c : Fin 16) (w : W64) (x : Context) (ids : List W16), Safety.FabricIssue s c 0x40 w x ∧ s.agentList (x.reg (uRa w)).toNat = some ids ∧ (x.reg (uRb w)).toNat + 40 ≤ 0x400000) ∧
    (∃ (s : State) (c : Fin 16) (w : W64) (x : Context) (ids : List W16), Safety.FabricIssue s c 0x41 w x ∧ s.agentList (x.reg (uRa w)).toNat = some ids ∧ (x.reg (uRb w)).toNat + 40 ≤ 0x400000) ∧
    (∃ (s : State) (c : Fin 16) (w : W64) (x : Context) (ids : List W16), Safety.FabricIssue s c 0x44 w x ∧ s.agentList (x.reg (uRa w)).toNat = some ids ∧ (x.reg (uRb w)).toNat + 40 ≤ 0x400000) ∧
    (∃ (s : State) (c : Fin 16) (w : W64) (x : Context), Safety.FabricIssue s c 0x42 w x ∧ uMod w = 0 ∧ 0 < (x.reg (uRb w)).toNat ∧ (x.reg (uRb w)).toNat ≤ 1048576 ∧ (x.reg (uRd w)).toNat + 48 ≤ 0x400000 ∧ (x.reg (uRa w)).toNat + 48 * (x.reg (uRb w)).toNat ≤ 0x400000) ∧
    (∃ (s : State) (c : Fin 16) (w : W64) (x : Context) (d : Digest), Safety.FabricIssue s c 0x43 w x ∧ 128 ≤ (x.reg (uRb w)).toNat ∧ s.inDepot (x.reg (uRa w)).toNat (x.reg (uRb w)).toNat = true ∧ d = sealOf (s.depRead (x.reg (uRa w)).toNat (x.reg (uRb w)).toNat) ∧ s.lastSeal (s.depLE ((x.reg (uRa w)).toNat + 4) 4) = none) :=
  ⟨⟨(uS (uw 0x40 0 1 2 0 0) (rg 0x100 0x400 0x800) agList), 0, _, _, [0x40], ⟨⟨by decide +kernel, rfl, by decide +kernel, by decide +kernel, rfl, by decide +kernel⟩, by decide +kernel, fun _ => by decide +kernel⟩, by decide +kernel, by decide +kernel⟩,
    ⟨(uS (uw 0x41 0 1 2 0 0) (rg 0x100 0x400 0x800) agList), 0, _, _, [0x40], ⟨⟨by decide +kernel, rfl, by decide +kernel, by decide +kernel, rfl, by decide +kernel⟩, by decide +kernel, fun _ => by decide +kernel⟩, by decide +kernel, by decide +kernel⟩,
    ⟨(uS (uw 0x44 0 1 2 0 0) (rg 0x100 0x400 0x800) agList), 0, _, _, [0x40], ⟨⟨by decide +kernel, rfl, by decide +kernel, by decide +kernel, rfl, by decide +kernel⟩, by decide +kernel, fun _ => by decide +kernel⟩, by decide +kernel, by decide +kernel⟩,
    ⟨(uS (uw 0x42 3 1 2 0 0) (rg 0x100 1 0x800) []), 0, _, _, ⟨⟨by decide +kernel, rfl, by decide +kernel, by decide +kernel, rfl, by decide +kernel⟩, by decide +kernel, fun _ => by decide +kernel⟩, by decide +kernel, by decide +kernel, by decide +kernel, by decide +kernel, by decide +kernel⟩,
    ⟨(uS (uw 0x43 3 1 2 0 0) (rg 0 128 0) []), 0, _, _, _, ⟨⟨by decide +kernel, rfl, by decide +kernel, by decide +kernel, rfl, by decide +kernel⟩, by decide +kernel, fun _ => by decide +kernel⟩, by decide +kernel, by decide +kernel, rfl, by decide +kernel⟩⟩

theorem test_station_scalar_instructions_can_act :
    (∃ (s : State) (e : Fin 320) (w : BitVec 128) (x : Stream), Safety.Tile s e 0x01 w x) ∧
    (∃ (s : State) (e : Fin 320) (w : BitVec 128) (x : Stream), Safety.Tile s e 0x02 w x) ∧
    (∃ (s : State) (e : Fin 320) (w : BitVec 128) (x : Stream), Safety.Tile s e 0x03 w x) ∧
    (∃ (s : State) (e : Fin 320) (w : BitVec 128) (x : Stream), Safety.Tile s e 0x04 w x) ∧
    (∃ (s : State) (e : Fin 320) (w : BitVec 128) (x : Stream), Safety.Tile s e 0x05 w x) ∧
    (∃ (s : State) (e : Fin 320) (w : BitVec 128) (x : Stream), Safety.Tile s e 0x38 w x) ∧
    (∃ (s : State) (e : Fin 320) (w : BitVec 128) (x : Stream), Safety.Tile s e 0x39 w x) ∧
    (∃ (s : State) (e : Fin 320) (w : BitVec 128) (x : Stream), Safety.Tile s e 0x3A w x) ∧
    (∃ (s : State) (e : Fin 320) (w : BitVec 128) (x : Stream), Safety.Tile s e 0x3B w x) ∧
    (∃ (s : State) (e : Fin 320) (w : BitVec 128) (x : Stream) (n : W32), Safety.Tile s e 0x3C w x ∧ n = (if sMod w = 0 then sImm32 w else bitsAt (x.reg (sY w)) 0 32) ∧ n ≠ 0) ∧
    (∃ (s : State) (e : Fin 320) (w : BitVec 128) (x : Stream), Safety.Tile s e 0x3C w x ∧ (if sMod w = 0 then sImm32 w else bitsAt (x.reg (sY w)) 0 32) = 0) ∧
    (∃ (s : State) (e : Fin 320) (w : BitVec 128) (x : Stream) (i : _), Safety.Tile s e 0x3D w x ∧ SMap.get noneOf x.loops (sX w) = some (1, i)) ∧
    (∃ (s : State) (e : Fin 320) (w : BitVec 128) (x : Stream) (n : W32) (i : Nat), Safety.Tile s e 0x3D w x ∧ SMap.get noneOf x.loops (sX w) = some (n, i) ∧ n ≠ 1) ∧
    (∃ (s : State) (e : Fin 320) (w : BitVec 128) (x : Stream), Safety.Tile s e 0x3E w x) :=
  ⟨⟨(sS (sw 1 0 0 0 0 0) id), 0, _, _, ⟨by decide +kernel, rfl, by decide +kernel, rfl, by decide +kernel⟩⟩,
    ⟨(sS (sw 2 0 0 0 0 0) id), 0, _, _, ⟨by decide +kernel, rfl, by decide +kernel, rfl, by decide +kernel⟩⟩,
    ⟨(sS (sw 3 0 0 0 0 0) id), 0, _, _, ⟨by decide +kernel, rfl, by decide +kernel, rfl, by decide +kernel⟩⟩,
    ⟨(sS (sw 4 0 0 0 0 0) id), 0, _, _, ⟨by decide +kernel, rfl, by decide +kernel, rfl, by decide +kernel⟩⟩,
    ⟨(sS (sw 5 0 0 0 0 0) id), 0, _, _, ⟨by decide +kernel, rfl, by decide +kernel, rfl, by decide +kernel⟩⟩,
    ⟨(sS (sw 0x38 0 0 0 0 0) id), 0, _, _, ⟨by decide +kernel, rfl, by decide +kernel, rfl, by decide +kernel⟩⟩,
    ⟨(sS (sw 0x39 0 0 0 0 0) id), 0, _, _, ⟨by decide +kernel, rfl, by decide +kernel, rfl, by decide +kernel⟩⟩,
    ⟨(sS (sw 0x3A 0 0 0 0 0) id), 0, _, _, ⟨by decide +kernel, rfl, by decide +kernel, rfl, by decide +kernel⟩⟩,
    ⟨(sS (sw 0x3B 0 0 0 0 0) id), 0, _, _, ⟨by decide +kernel, rfl, by decide +kernel, rfl, by decide +kernel⟩⟩,
    ⟨(sS (sw 0x3C 0 0 0 3 0) id), 0, _, _, _, ⟨by decide +kernel, rfl, by decide +kernel, rfl, by decide +kernel⟩, rfl, by decide +kernel⟩,
    ⟨(sS (sw 0x3C 0 0 0 0 0) id), 0, _, _, ⟨by decide +kernel, rfl, by decide +kernel, rfl, by decide +kernel⟩, by decide +kernel⟩,
    ⟨(sS (sw 0x3D 0 0 0 0 0) (fun x => { x with loops := [(0, some (1, 0))] })), 0, _, _, 0, ⟨by decide +kernel, rfl, by decide +kernel, rfl, by decide +kernel⟩, by decide +kernel⟩,
    ⟨(sS (sw 0x3D 0 0 0 0 0) (fun x => { x with loops := [(0, some (2, 0))] })), 0, _, _, 2, 0, ⟨by decide +kernel, rfl, by decide +kernel, rfl, by decide +kernel⟩, by decide +kernel, by decide +kernel⟩,
    ⟨(sS (sw 0x3E 0 0 0 0 0) id), 0, _, _, ⟨by decide +kernel, rfl, by decide +kernel, rfl, by decide +kernel⟩⟩⟩

theorem test_station_configuration_instructions_can_act :
    (∃ (s : State) (e : Fin 320) (w : BitVec 128) (x : Stream) (k : Conf) (o : OpSlot), Safety.TileConf s e 0x08 w x k ∧ o.fmt = (bitsAt (sImm32 w) 0 4).toNat ∧ o.addr = x.reg (sY w) + sImm64 w ∧ o.exp = bitsAt (sImm32 w) 4 8 ∧ o.key = (bitsAt (sImm32 w) 12 4).toNat ∧ o.withBmp = (sImm32 w).getLsbD 16 ∧ o.pre = [] ∧ o.bmp = (match SMap.get noneOf x.conf.slots (sX w) with | some q => q.bmp | none => SMap.get z64 x.conf.early (sX w)) ∧ k = { x.conf with slots := SMap.set noneOf x.conf.slots (sX w) (some o) }) ∧
    (∃ (s : State) (e : Fin 320) (w : BitVec 128) (x : Stream) (k : Conf) (o : OpSlot), Safety.TileConf s e 0x09 w x k ∧ SMap.get noneOf x.conf.slots (sX w) = some o ∧ k = { x.conf with slots := SMap.set noneOf x.conf.slots (sX w) (some { o with bmp := x.reg (sY w) + sImm64 w }) }) ∧
    (∃ (s : State) (e : Fin 320) (w : BitVec 128) (x : Stream) (k : Conf), Safety.TileConf s e 0x09 w x k ∧ SMap.get noneOf x.conf.slots (sX w) = none ∧ k = { x.conf with early := SMap.set z64 x.conf.early (sX w) (x.reg (sY w) + sImm64 w) }) ∧
    (∃ (s : State) (e : Fin 320) (w : BitVec 128) (x : Stream) (k : Conf), Safety.TileConf s e 0x0A w x k ∧ k = { x.conf with out := some (x.reg (sY w) + sImm64 w, (bitsAt (sImm32 w) 0 4).toNat, (bitsAt (sImm32 w) 12 4).toNat) }) ∧
    (∃ (s : State) (e : Fin 320) (w : BitVec 128) (x : Stream) (k : Conf) (a : Option W64), Safety.TileConf s e 0x0B w x k ∧ a = (if (sImm32 w).getLsbD 0 then some (x.reg (sY w) + sImm64 w) else none) ∧ k = (if sMod w = 0 then { x.conf with flagsAt := a } else if sMod w = 1 then { x.conf with bmpAt := a } else { x.conf with witAt := a })) ∧
    (∃ (s : State) (e : Fin 320) (w : BitVec 128) (x : Stream) (k : Conf) (o : OpSlot), Safety.TileConf s e 0x13 w x k ∧ SMap.get noneOf x.conf.slots (sX w) = some o ∧ x.prefetch = none ∧ k = { x.conf with slots := SMap.set noneOf x.conf.slots (sX w) (some { o with addr := x.reg (sY w) + sImm64 w, exp := bitsAt (sImm32 w) 4 8, key := (bitsAt (sImm32 w) 12 4).toNat, pre := [] }) }) ∧
    (∃ (s : State) (e : Fin 320) (w : BitVec 128) (x : Stream) (k : Conf), Safety.TileConf s e 0x28 w x k ∧ k = { x.conf with gf := some (x.reg (sX w), (sImm32 w).toNat) }) ∧
    (∃ (s : State) (e : Fin 320) (w : BitVec 128) (x : Stream) (k : Conf), Safety.TileConf s e 0x29 w x k ∧ sMod w = 0 ∧ k = { x.conf with layIn := some (x.reg (sX w), (sImm32 w).toNat) }) ∧
    (∃ (s : State) (e : Fin 320) (w : BitVec 128) (x : Stream) (k : Conf), Safety.TileConf s e 0x29 w x k ∧ sMod w = 1 ∧ k = { x.conf with layOut := some (x.reg (sX w), (sImm32 w).toNat) }) ∧
    (∃ (s : State) (e : Fin 320) (w : BitVec 128) (x : Stream) (k : Conf), Safety.TileConf s e 0x2A w x k ∧ (x.pre.isByte = true ∨ x.jobs = []) ∧ k = { x.conf with hash := some (sMod w, x.reg (sY w) + sImm64 w, (sImm32 w).toNat) }) :=
  ⟨⟨(sS (sw 8 0 0 0 0 0) (fun x => { x with conf := { x.conf with early := [(0, 64)] } })), 0, _, _, _, { opSlot0 with bmp := 64 }, ⟨⟨by decide +kernel, rfl, by decide +kernel, rfl, by decide +kernel⟩, by decide +kernel⟩, by decide +kernel, by decide +kernel, by decide +kernel, by decide +kernel, by decide +kernel, by decide +kernel, by decide +kernel, rfl⟩,
    ⟨(sS (sw 9 0 0 0 0 0) slotted), 0, _, _, _, opSlot0, ⟨⟨by decide +kernel, rfl, by decide +kernel, rfl, by decide +kernel⟩, by decide +kernel⟩, by decide +kernel, rfl⟩,
    ⟨(sS (sw 9 0 0 0 0 64) id), 0, _, _, _, ⟨⟨by decide +kernel, rfl, by decide +kernel, rfl, by decide +kernel⟩, by decide +kernel⟩, by decide +kernel, rfl⟩,
    ⟨(sS (sw 0xA 0 0 0 0 0) id), 0, _, _, _, ⟨⟨by decide +kernel, rfl, by decide +kernel, rfl, by decide +kernel⟩, by decide +kernel⟩, rfl⟩,
    ⟨(sS (sw 0xB 0 0 0 0 0) id), 0, _, _, _, _, ⟨⟨by decide +kernel, rfl, by decide +kernel, rfl, by decide +kernel⟩, by decide +kernel⟩, rfl, rfl⟩,
    ⟨(sS (sw 0x13 0 0 0 0 0) slotted), 0, _, _, _, opSlot0, ⟨⟨by decide +kernel, rfl, by decide +kernel, rfl, by decide +kernel⟩, by decide +kernel⟩, by decide +kernel, by decide +kernel, rfl⟩,
    ⟨(sS (sw 0x28 0 0 0 0 0) id), 0, _, _, _, ⟨⟨by decide +kernel, rfl, by decide +kernel, rfl, by decide +kernel⟩, by decide +kernel⟩, rfl⟩,
    ⟨(sS (sw 0x29 0 0 0 0 0) id), 0, _, _, _, ⟨⟨by decide +kernel, rfl, by decide +kernel, rfl, by decide +kernel⟩, by decide +kernel⟩, by decide +kernel, rfl⟩,
    ⟨(sS (sw 0x29 1 0 0 0 0) id), 0, _, _, _, ⟨⟨by decide +kernel, rfl, by decide +kernel, rfl, by decide +kernel⟩, by decide +kernel⟩, by decide +kernel, rfl⟩,
    ⟨(sS (sw 0x2A 0 0 0 0 0) id), 0, _, _, _, ⟨⟨by decide +kernel, rfl, by decide +kernel, rfl, by decide +kernel⟩, by decide +kernel⟩, Or.inr (by decide +kernel), rfl⟩⟩

theorem test_station_work_instructions_can_act :
    (∃ (s : State) (e : Fin 320) (w : BitVec 128) (x : Stream) (s1 : _), Safety.Tile s e 0x10 w x ∧ x.jobs = [] ∧ s1 = s.moveLines e (x.reg (sX w)) (x.reg (sY w)) (sMod w % 16) (sMod w / 16) x.moved ((sImm32 w).toNat - x.moved) ∧ s1.runs e = true ∧ (s1.str e).moved = (sImm32 w).toNat) ∧
    (∃ (s : State) (e : Fin 320) (w : BitVec 128) (x : Stream) (a : W64) (o : Nat), Safety.Tile s e 0x11 w x ∧ a = x.reg (sY w) + (sImm32 w).signExtend 64 ∧ bitsAt a 0 3 = (0 : BitVec 3) ∧ s.place e a 8 = some (.scratch o)) ∧
    (∃ (s : State) (e : Fin 320) (w : BitVec 128) (x : Stream) (o : OpSlot) (n : Nat) (bs : List Byte) (s1 : State), Safety.Tile s e 0x12 w x ∧ SMap.get noneOf x.conf.slots (sX w) = some o ∧ n = tileBytes o.fmt * min (sImm32 w).toNat (65536 / tileBytes o.fmt) ∧ s.load e (x.reg (sY w) + sImm64 w) n 15 = .ok bs s1) ∧
    (∃ (s : State) (e : Fin 320) (w : BitVec 128) (x : Stream), Safety.Tile s e 0x20 w x ∧ x.jobs.length < 3 ∧ (x.reg (sX w)).toNat < x.pre.mt ∧ (x.reg (sY w)).toNat < x.pre.nt) ∧
    (∃ (s : State) (e : Fin 320) (w : BitVec 128) (x : Stream), Safety.Tile s e 0x21 w x ∧ x.jobs.length < 3) ∧
    (∃ (s : State) (e : Fin 320) (w : BitVec 128) (x : Stream) (n : Nat), Safety.Tile s e 0x2B w x ∧ x.jobs.length < 3 ∧ n = (x.reg (sX w)).toNat ∧ 0 < n ∧ n % 64 = 0 ∧ x.pre.route.getLsbD 6 = false ∧ x.pre.route.getLsbD 8 = false ∧ x.pre.route.getLsbD 9 = false ∧ x.conf.hash = none) ∧
    (∃ (s : State) (e : Fin 320) (w : BitVec 128) (x : Stream) (t : Nat), Safety.Tile s e 0x30 w x ∧ t = (bitsAt (x.reg (sX w)) 0 16 : W16).toNat ∧ s.streamTally (s.eng e).tenant t = true ∧ cmpHolds (sMod w) ((s.dirty (s.tallyPart t)).tally t).count.toNat (x.reg (sY w)).toNat = true) ∧
    (∃ (s : State) (e : Fin 320) (w : BitVec 128) (x : Stream) (t : W16), Safety.Tile s e 0x30 w x ∧ t = bitsAt (x.reg (sX w)) 0 16 ∧ s.streamTally (s.eng e).tenant t.toNat = true ∧ cmpHolds (sMod w) ((s.dirty (s.tallyPart t.toNat)).tally t.toNat).count.toNat (x.reg (sY w)).toNat = false) ∧
    (∃ (s : State) (e : Fin 320) (w : BitVec 128) (x : Stream) (t : Nat) (s1 : State), Safety.Tile s e 0x31 w x ∧ x.jobs = [] ∧ x.enc = [] ∧ s.dealers.takeover = .none ∧ t = (bitsAt (x.reg (sX w)) 0 16 : W16).toNat ∧ s.streamTally (s.eng e).tenant t = true ∧ s.tallyAdd t (sImm32 w).toInt true = some s1 ∧ (s1.wakeTally t).runs e = true) ∧
    (∃ (s : State) (e : Fin 320) (w : BitVec 128) (x : Stream), Safety.Tile s e 0x3F w x ∧ x.jobs = []) :=
  ⟨⟨(sS (sw 0x10 255 1 2 1 0) (sr (1 <<< 63) ((1 <<< 63) + 64))), 0, _, _, _, ⟨by decide +kernel, rfl, by decide +kernel, rfl, by decide +kernel⟩, by decide +kernel, rfl, by decide +kernel, by decide +kernel⟩,
    ⟨(sS (sw 0x11 0 0 1 0 0) (sr (1 <<< 63) 0)), 0, _, _, _, 0, ⟨by decide +kernel, rfl, by decide +kernel, rfl, by decide +kernel⟩, rfl, by decide +kernel, by decide +kernel⟩,
    ⟨(sS (sw 0x12 0 0 0 0 0) slotted), 0, _, _, opSlot0, _, _, _, ⟨by decide +kernel, rfl, by decide +kernel, rfl, by decide +kernel⟩, by decide +kernel, rfl, rfl⟩,
    ⟨(sS (sw 0x20 0 0 0 0 0) (fun x => { x with pre := { x.pre with mt := 1, nt := 1 } })), 0, _, _, ⟨by decide +kernel, rfl, by decide +kernel, rfl, by decide +kernel⟩, by decide +kernel, by decide +kernel, by decide +kernel⟩,
    ⟨(sS (sw 0x21 0 0 0 0 0) id), 0, _, _, ⟨by decide +kernel, rfl, by decide +kernel, rfl, by decide +kernel⟩, by decide +kernel⟩,
    ⟨(sS (sw 0x2B 0 1 0 0 0) (sr 64 0)), 0, _, _, _, ⟨by decide +kernel, rfl, by decide +kernel, rfl, by decide +kernel⟩, by decide +kernel, rfl, by decide +kernel, by decide +kernel, by decide +kernel, by decide +kernel, by decide +kernel, by decide +kernel⟩,
    ⟨(sS (sw 0x30 0 1 0 0 0) (sr 5 0)), 0, _, _, _, ⟨by decide +kernel, rfl, by decide +kernel, rfl, by decide +kernel⟩, rfl, by decide +kernel, by decide +kernel⟩,
    ⟨(sS (sw 0x30 0 1 2 0 0) (sr 5 1)), 0, _, _, _, ⟨by decide +kernel, rfl, by decide +kernel, rfl, by decide +kernel⟩, rfl, by decide +kernel, by decide +kernel⟩,
    ⟨(sS (sw 0x31 0 1 0 1 0) (sr 5 0)), 0, _, _, _, _, ⟨by decide +kernel, rfl, by decide +kernel, rfl, by decide +kernel⟩, by decide +kernel, by decide +kernel, by decide +kernel, rfl, by decide +kernel, rfl, by decide +kernel⟩,
    ⟨(sS (sw 0x3F 0 0 0 0 0) id), 0, _, _, ⟨by decide +kernel, rfl, by decide +kernel, rfl, by decide +kernel⟩, by decide +kernel⟩⟩

theorem test_station_events_can_act :
    (∃ (s : State) (e : Fin 320) (j : _) (rest : _), s.runs e = true ∧ (s.str e).jobs = j :: rest) ∧
    (∃ (s : State) (e : Fin 320), s.runs e = true ∧ (s.str e).twait = none) ∧
    (∃ (s : State) (e : Fin 320) (f : _), (s.eng e).st = 1 ∧ (s.str e).ending = some f ∧ f ≠ 6 ∧ s.inHand e = none) ∧
    (∃ (s : State) (e : Fin 320) (f : Byte) (bs : List Byte) (at_ : List (W64 × Nat)) (k : Nat) (s1 : State), (s.eng e).st = 1 ∧ (s.str e).ending = some f ∧ f ≠ 6 ∧ s.inHand e = some (bs, at_) ∧ k = (Config.free 16 s.fresh).toNat % (bs.length / 64 + 1) ∧ s1 = ({ s with fresh := s.fresh + 1 } : State).putFront e (bs.take (64 * k)) at_) ∧
    (∃ (s : State) (e : Fin 320), (s.eng e).st = 1 ∧ (s.str e).ending = some 6 ∧ s.inHand e = none) ∧
    (∃ (s : State) (e : Fin 320) (j : _) (rest : _), s.runs e = true ∧ (s.str e).jobs = j :: rest) ∧
    (∃ (s : State) (e : Fin 320), ((s.eng e).st = 2 ∨ (s.eng e).st = 3)) ∧
    (∃ (s : State) (e : Fin 320), s.runs e = true ∧ (s.str e).twait.isSome = true) ∧
    (∃ (s : State) (e : Fin 320), (s.eng e).st = 2 ∧ s.blkDie (e / 8) = false ∧ (s.eng e).after = .nothing) ∧
    (∃ (s : State) (e : Fin 320), (s.eng e).st = 3 ∧ s.blkDie (e / 8) = false) ∧
    (∃ (s : State) (e : Fin 320) (j : _) (rest : _), s.runs e = true ∧ (s.str e).jobs = j :: rest) ∧
    (∃ (s : State) (d : Fin 40), (s.die d).st = 4 ∧ s.dieIdle d = true ∧ s.plat.pwr.idleSleep ≠ 0 ∧ (s.die d).idleAt + s.plat.pwr.idleSleep.toNat ≤ s.us ∧ (s.die d).katLeft = 0) ∧
    (∃ (s : State) (k : _) (cls : _) (r : _) (s1 : _), s.plat.pwr.wakeQ = (k, cls) :: r ∧ s.plat.pwr.tokens ≠ 0 ∧ s.plat.pwr.tokensHeld = false ∧ s1 = (s.wakeFor k cls).shed cls (s.plat.pwr.ceiling - wakeCost) ∧ s1.plat.pwr.proj + wakeCost ≤ s1.plat.pwr.ceiling) ∧
    (∃ (s : State) (d : Fin 40), (s.die d).st = 3 ∧ s.blkDie d = false) :=
  ⟨⟨(eS { st := 1, str := ({ jobs := [⟨{}, .tiles 0 0 false⟩] } : Stream) } { }), 0, _, _, by decide +kernel, rfl⟩,
    ⟨(eS { st := 1 } { }), 0, by decide +kernel, by decide +kernel⟩,
    ⟨(eS { st := 1, str := ({ ending := some 3 } : Stream) } {  }), 0, 3, by decide +kernel, by decide +kernel, by decide +kernel, by decide +kernel⟩,
    match Option.isSome_iff_exists.mp (show (cutS.inHand 0).isSome = true by decide +kernel) with
      | ⟨(bs, at_), h⟩ => ⟨cutS, 0, 3, bs, at_, _, _, by decide +kernel, by decide +kernel, by decide +kernel, h, rfl, rfl⟩,
    ⟨(eS { st := 1, str := ({ ending := some 6 } : Stream) } {  }), 0, by decide +kernel, by decide +kernel, by decide +kernel⟩,
    ⟨(eS { st := 1, str := ({ jobs := [⟨{}, .tiles 0 0 false⟩] } : Stream) } { }), 0, _, _, by decide +kernel, rfl⟩,
    ⟨(eS { st := 3 } {  }), 0, Or.inr (by decide +kernel)⟩,
    ⟨(eS { st := 1, str := ({ twait := some (5, 0, 1, 0) } : Stream) } { }), 0, by decide +kernel, by decide +kernel⟩,
    ⟨(eS { st := 2 } { }), 0, by decide +kernel, by decide +kernel, by decide +kernel⟩,
    ⟨(eS { st := 3 } { }), 0, by decide +kernel, by decide +kernel⟩,
    ⟨(eS { st := 1, str := ({ jobs := [⟨{}, .tiles 0 0 false⟩] } : Stream) } { }), 0, _, _, by decide +kernel, rfl⟩,
    ⟨(eS { } { st := 4 }), 0, by decide +kernel, by decide +kernel, by decide +kernel, by decide +kernel, by decide +kernel⟩,
    ⟨{ (eS { } { }) with plat := { pkg.plat with pwr := { wakeQ := [(0, 0)] } } }, _, _, _, _, rfl, by decide +kernel, by decide +kernel, rfl, by decide +kernel⟩,
    ⟨(eS { } { st := 3 }), 0, by decide +kernel, by decide +kernel⟩⟩

theorem test_ledger_instructions_can_act :
    (∃ (s : State) (c : Fin 16) (w : W64) (x : Context) (r : Running) (q : Nat) (t : State), r = Running.ofWord x w ∧ Safety.Issue s c 0x60 w x ∧ q = (bitsAt (x.reg (uRa w)) 0 15 : BitVec 15).toNat ∧ s.qUsable q = true ∧ (x.reg (uRb w)).toNat + (s.queue q).entry ≤ 0x400000 ∧ t = (Safety.issued s c).wait c r ∧ t.qWait q = none ∧ (t.queue q).isEmpty = true ∧ (t.queue q).isFull = false ∧ (t.qWaiters 0x60 q).head? = some c.val ∧ (t.ctx c).long = some r) ∧
    (∃ (s : State) (c : Fin 16) (w : W64) (x : Context) (r : Running) (q : Nat) (t : State), r = Running.ofWord x w ∧ Safety.Issue s c 0x61 w x ∧ q = (bitsAt (x.reg (uRa w)) 0 15 : BitVec 15).toNat ∧ s.qUsable q = true ∧ (x.reg (uRb w)).toNat + (s.queue q).entry ≤ 0x400000 ∧ t = (Safety.issued s c).wait c r ∧ t.qWait q = none ∧ (t.queue q).isEmpty = false ∧ (t.qWaiters 0x61 q).head? = some c.val ∧ (t.ctx c).long = some r) ∧
    (∃ (s : State) (c : Fin 16) (w : W64) (x : Context) (r : Running) (t : Nat) (s1 : State), r = Running.ofWord x w ∧ Safety.Issue s c 0x62 w x ∧ t = (bitsAt (x.reg (uRa w)) 0 16 : W16).toNat ∧ uMod w = 0 ∧ s1 = (Safety.issued s c).dirty (s.tallyPart t)) ∧
    (∃ (s : State) (c : Fin 16) (w : W64) (x : Context) (r : Running) (t : Nat) (s1 : State), r = Running.ofWord x w ∧ Safety.Issue s c 0x62 w x ∧ t = (bitsAt (x.reg (uRa w)) 0 16 : W16).toNat ∧ uMod w = 1 ∧ (x.reg (uRb w)).toNat < 0x100000000 ∧ s1 = (Safety.issued s c).tallySet t (bitsAt (x.reg (uRb w)) 0 32)) ∧
    (∃ (s : State) (c : Fin 16) (w : W64) (x : Context) (r : Running) (t : Nat) (s1 : State), r = Running.ofWord x w ∧ Safety.Issue s c 0x62 w x ∧ t = (bitsAt (x.reg (uRa w)) 0 16 : W16).toNat ∧ uMod w = 2 ∧ (Safety.issued s c).tallyAdd t (x.reg (uRb w)).toInt true = some s1) ∧
    (∃ (s : State) (c : Fin 16) (w : W64) (x : Context) (r : Running), r = Running.ofWord x w ∧ Safety.Issue s c 0x63 w x ∧ s.led.settle.open_ = []) ∧
    (∃ (s : State) (c : Fin 16) (w : W64) (x : Context) (r : Running) (k : _), r = Running.ofWord x w ∧ Safety.Issue s c 0x63 w x ∧ s.led.settle.open_.getLast? = some k) ∧
    (∃ (s : State) (c : Fin 16) (w : W64) (x : Context) (r : Running), r = Running.ofWord x w ∧ Safety.Issue s c 0x64 w x ∧ uMod w = 0 ∧ (x.reg (uRb w)).toNat + 32 ≤ 0x400000) ∧
    (∃ (s : State) (c : Fin 16) (w : W64) (x : Context) (r : Running), r = Running.ofWord x w ∧ Safety.Issue s c 0x64 w x ∧ uMod w = 1 ∧ (x.reg (uRb w)).toNat + 40 ≤ 0x400000 ∧ (x.reg (uRd w)).toNat + 40 ≤ 0x400000) ∧
    (∃ (s : State) (c : Fin 16) (w : W64) (x : Context) (r : Running) (m : Nat), r = Running.ofWord x w ∧ Safety.Issue s c 0x64 w x ∧ uMod w = 3 ∧ m = (bitsAt (x.reg (uRa w)) 0 12 : BitVec 12).toNat ∧ (s.mbx m).en = true ∧ (s.mbx m).server = 9 ∧ (x.reg (uRd w)).toNat + 40 ≤ 0x400000) :=
  ⟨⟨(ledS (uS (uw 0x60 0 1 2 0 0) (rg 32 0x100 0) []) (q32 0 0)), 0, _, _, _, 32, _, rfl, ⟨by decide +kernel, rfl, by decide +kernel, by decide +kernel, rfl, by decide +kernel⟩, by decide +kernel, by decide +kernel, by decide +kernel, rfl, by decide +kernel, by decide +kernel, by decide +kernel, by decide +kernel, by decide +kernel⟩,
    ⟨(ledS (uS (uw 0x61 0 1 2 0 0) (rg 32 0x100 0) []) (q32 0 1)), 0, _, _, _, 32, _, rfl, ⟨by decide +kernel, rfl, by decide +kernel, by decide +kernel, rfl, by decide +kernel⟩, by decide +kernel, by decide +kernel, by decide +kernel, rfl, by decide +kernel, by decide +kernel, by decide +kernel, by decide +kernel⟩,
    ⟨(uS (uw 0x62 3 1 2 0 0) (rg 5 0 0) []), 0, _, _, _, _, _, rfl, ⟨by decide +kernel, rfl, by decide +kernel, by decide +kernel, rfl, by decide +kernel⟩, rfl, by decide +kernel, rfl⟩,
    ⟨(uS (uw 0x62 3 1 2 1 0) (rg 0x400 9 0) []), 0, _, _, _, _, _, rfl, ⟨by decide +kernel, rfl, by decide +kernel, by decide +kernel, rfl, by decide +kernel⟩, rfl, by decide +kernel, by decide +kernel, rfl⟩,
    ⟨(uS (uw 0x62 3 1 2 2 0) (rg 0x400 9 0) []), 0, _, _, _, _, _, rfl, ⟨by decide +kernel, rfl, by decide +kernel, by decide +kernel, rfl, by decide +kernel⟩, rfl, by decide +kernel, rfl⟩,
    ⟨(uS (uw 0x63 0 0 0 0 0) (rg 0x100 0x400 0x800) []), 0, _, _, _, rfl, ⟨by decide +kernel, rfl, by decide +kernel, by decide +kernel, rfl, by decide +kernel⟩, by decide +kernel⟩,
    ⟨(ledS (uS (uw 0x63 0 0 0 0 0) (rg 0x100 0x400 0x800) []) (fun l => { l with settle := { l.settle with open_ := [{ stamp := 4 }] } })), 0, _, _, _, { stamp := 4 }, rfl, ⟨by decide +kernel, rfl, by decide +kernel, by decide +kernel, rfl, by decide +kernel⟩, by decide +kernel⟩,
    ⟨(uS (uw 0x64 0 1 2 0 0) (rg 0x40 0x100 0) []), 0, _, _, _, rfl, ⟨by decide +kernel, rfl, by decide +kernel, by decide +kernel, rfl, by decide +kernel⟩, by decide +kernel, by decide +kernel⟩,
    ⟨(uS (uw 0x64 3 1 2 1 0) (rg 0x40 0x100 0x200) []), 0, _, _, _, rfl, ⟨by decide +kernel, rfl, by decide +kernel, by decide +kernel, rfl, by decide +kernel⟩, by decide +kernel, by decide +kernel, by decide +kernel⟩,
    ⟨(ledS (uS (uw 0x64 3 1 2 3 0) (rg 5 0 0x200) []) (fun l => { l with mbx := [(5, { en := true, server := 9 })] })), 0, _, _, _, _, rfl, ⟨by decide +kernel, rfl, by decide +kernel, by decide +kernel, rfl, by decide +kernel⟩, by decide +kernel, rfl, by decide +kernel, by decide +kernel, by decide +kernel⟩⟩

theorem test_device_instructions_can_act :
    (∃ (s : State) (c : Fin 16) (w : W64) (x : Context) (r : Running) (a : Nat) (want : Nat) (h : Nat) (e : Nat) (d : Nat) (b : List Byte) (q : Running) (t : State) (u : State), r = Running.ofWord x w ∧ Safety.Issue s c 0x50 w x ∧ a = (x.reg (uRa w)).toNat ∧ want = (x.reg (uRb w)).toNat ∧ a + 128 ≤ 0x400000 ∧ a % 64 = 0 ∧ b = s.dsRead a 128 ∧ (want < 320 ∧ (s.die (want / 8)).st ≠ 0 ∧ (s.die (want / 8)).psver.toNat = lb b 4 4 ∨ want = 0xFFFF) ∧ s.checkDie want (lb b 4 4) = some d ∧ (Safety.issued s c).launchOk d b = true ∧ h = (Safety.issued s c).nextHandle s.stat.lastHandle.toNat 65536 ∧ q = { r with arg := h, data := (List.range 16).map (fun i => BitVec.ofNat 64 (lb b (8 * i) 8)) } ∧ t = ({ Safety.issued s c with stat := { s.stat with lastHandle := BitVec.ofNat 16 h } } : State).waitJ c q ∧ t.pickEngine want (lb q.block 4 4) = some e ∧ (t.die (e / 8)).st = 4 ∧ (t.die (e / 8)).psver.toNat = lb q.block 4 4 ∧ t.launchOk (e / 8) q.block = true ∧ u = t.setPwr (fun p => { p with engClass := SMap.set zNat p.engClass e (t.ctxClass c) }) ∧ (u.eng e).tenant.toNat = lb q.block 0 2 ∧ (u.eng e).dirty = false) ∧
    (∃ (s : State) (c : Fin 16) (w : W64) (x : Context) (r : Running) (z : Ended) (t : State), r = Running.ofWord x w ∧ Safety.Issue s c 0x51 w x ∧ (x.reg (uRb w)).toNat + 128 ≤ 0x400000 ∧ t = (Safety.issued s c).waitJ c r ∧ t.stat.ended.find? (fun y => y.handle.toNat = (x.reg (uRa w)).toNat) = some z ∧ z.st = 1) ∧
    (∃ (s : State) (c : Fin 16) (w : W64) (x : Context) (r : Running) (e : Nat) (t : State), r = Running.ofWord x w ∧ Safety.Issue s c 0x52 w x ∧ uMod w = 0 ∧ t = (Safety.issued s c).waitJ c r ∧ t.liveOn (x.reg (uRa w)).toNat = some e ∧ (t.eng e).st = 1) ∧
    (∃ (s : State) (c : Fin 16) (w : W64) (x : Context) (r : Running) (n : Nat) (d : Nat) (t : State), r = Running.ofWord x w ∧ Safety.Issue s c 0x52 w x ∧ uMod w = 1 ∧ t = (Safety.issued s c).waitJ c r ∧ n = (x.reg (uRa w)).toNat ∧ n < 40 ∧ (t.die n).st = 4 ∧ (List.range 40).find? (fun d => (t.die d).st = 1) = some d) ∧
    (∃ (s : State) (c : Fin 16) (w : W64) (x : Context) (r : Running) (t : State), r = Running.ofWord x w ∧ Safety.Issue s c 0x70 w x ∧ uMod w = 0 ∧ (x.reg (uRb w)).toNat + 32 ≤ 0x400000 ∧ (x.reg (uRd w)).toNat + 1024 ≤ 0x400000 ∧ t = (Safety.issued s c).waitJ c r) ∧
    (∃ (s : State) (c : Fin 16) (w : W64) (x : Context) (r : Running) (k : Nat) (t : State), r = Running.ofWord x w ∧ Safety.Issue s c 0x70 w x ∧ uMod w = 1 ∧ (x.reg (uRb w)).toNat + 32 ≤ 0x400000 ∧ (x.reg (uRd w)).toNat + 96 ≤ 0x400000 ∧ t = (Safety.issued s c).waitJ c r ∧ (List.range 64).find? (fun k => !t.spdmLive k) = some k) ∧
    (∃ (s : State) (c : Fin 16) (w : W64) (x : Context) (r : Running) (n : Nat) (b : List Byte) (q : Running) (t : State), r = Running.ofWord x w ∧ Safety.Issue s c 0x71 w x ∧ n = (x.reg (uRa w)).toNat ∧ n < 64 ∧ (x.reg (uRb w)).toNat + 208 ≤ 0x400000 ∧ q = { r with data := (List.range 26).map (fun i => BitVec.ofNat 64 (((Safety.issued s c).waitJ c r).dsLE ((x.reg (uRb w)).toNat + 8 * i) 8)) } ∧ t = ((Safety.issued s c).waitJ c r).putRun c q ∧ b = q.data.flatMap (fun v => toBytes 8 v) ∧ (t.keySlot n).st ≠ 2 ∧ t.holdOld n = 0) ∧
    (∃ (s : State) (c : Fin 16) (w : W64) (x : Context) (r : Running) (n : Nat) (t : State), r = Running.ofWord x w ∧ Safety.Issue s c 0x72 w x ∧ n = (x.reg (uRa w)).toNat ∧ n < 64 ∧ t = (Safety.issued s c).waitJ c r) ∧
    (∃ (s : State) (c : Fin 16) (w : W64) (x : Context) (r : Running) (n : Nat) (t : State), r = Running.ofWord x w ∧ Safety.Issue s c 0x73 w x ∧ uMod w = 0 ∧ n = (x.reg (uRa w)).toNat ∧ n < 320 ∧ t = (Safety.issued s c).waitJ c r ∧ (t.die (n / 8)).st ≠ 0 ∧ (t.eng n).st = 0) ∧
    (∃ (s : State) (c : Fin 16) (w : W64) (x : Context) (r : Running) (n : Nat) (t : State), r = Running.ofWord x w ∧ Safety.Issue s c 0x73 w x ∧ uMod w = 2 ∧ n = (x.reg (uRa w)).toNat ∧ n < 64 ∧ t = (Safety.issued s c).waitJ c r ∧ t.partBusy n = false) ∧
    (∃ (s : State) (c : Fin 16) (w : W64) (x : Context) (r : Running) (n : Nat) (m : Nat) (t : State), r = Running.ofWord x w ∧ Safety.Issue s c 0x73 w x ∧ uMod w = 3 ∧ n = (x.reg (uRa w)).toNat ∧ m = (x.reg (uRb w)).toNat ∧ 0 < m ∧ m ≤ 0x40000000 ∧ t = (Safety.issued s c).waitJ c r ∧ t.inDepot n m = true ∧ t.rangeBusy n m = false) ∧
    (∃ (s : State) (c : Fin 16) (w : W64) (x : Context) (r : Running), r = Running.ofWord x w ∧ Safety.Issue s c 0x80 w x ∧ uMod w = 0 ∧ 20 ≤ (x.reg (uRa w)).toNat ∧ (x.reg (uRa w)).toNat ≤ 10000) ∧
    (∃ (s : State) (c : Fin 16) (w : W64) (x : Context) (r : Running), r = Running.ofWord x w ∧ Safety.Issue s c 0x80 w x ∧ uMod w = 1) ∧
    (∃ (s : State) (c : Fin 16) (w : W64) (x : Context) (r : Running) (t : State), r = Running.ofWord x w ∧ Safety.Issue s c 0x81 w x ∧ uMod w = 0 ∧ (x.reg (uRa w)).toNat < 2 ^ 40 ∧ t = (Safety.issued s c).waitJ c r ∧ (∀ d ∈ maskDies (x.reg (uRa w)), (t.die d).st ≠ 0)) :=
  ⟨⟨(staS (uS (uw 0x50 0 1 2 0 0) (rg 0x100 0xFFFF 0) []) (fun y => { y with dies := [(0, { st := 4, store := program })] })), 0, _, _, _, _, _, _, 0, 0, _, _, _, _, rfl, ⟨by decide +kernel, rfl, by decide +kernel, by decide +kernel, rfl, by decide +kernel⟩, rfl, rfl, by decide +kernel, by decide +kernel, rfl, Or.inr (by decide +kernel), by decide +kernel, by decide +kernel, rfl, rfl, rfl, by decide +kernel, by decide +kernel, by decide +kernel, by decide +kernel, rfl, by decide +kernel, by decide +kernel⟩,
    ⟨(staS (uS (uw 0x51 0 1 2 0 0) (rg 7 0x100 0) []) (fun y => { y with ended := [⟨7, 1, []⟩] })), 0, _, _, _, ⟨7, 1, []⟩, _, rfl, ⟨by decide +kernel, rfl, by decide +kernel, by decide +kernel, rfl, by decide +kernel⟩, by decide +kernel, rfl, by decide +kernel, by decide +kernel⟩,
    ⟨(staS (uS (uw 0x52 0 1 0 0 0) (rg 7 0 0) []) (fun y => { y with eng := [(3, { st := 1, handle := 7 })] })), 0, _, _, _, 3, _, rfl, ⟨by decide +kernel, rfl, by decide +kernel, by decide +kernel, rfl, by decide +kernel⟩, by decide +kernel, rfl, by decide +kernel, by decide +kernel⟩,
    ⟨(staS (uS (uw 0x52 0 1 0 1 0) (rg 3 0 0) []) (fun y => { y with dies := [(3, { st := 4 }), (7, { st := 1 })] })), 0, _, _, _, _, 7, _, rfl, ⟨by decide +kernel, rfl, by decide +kernel, by decide +kernel, rfl, by decide +kernel⟩, by decide +kernel, rfl, rfl, by decide +kernel, by decide +kernel, by decide +kernel⟩,
    ⟨(uS (uw 0x70 3 1 2 0 0) (rg 0 0x100 0x400) []), 0, _, _, _, _, rfl, ⟨by decide +kernel, rfl, by decide +kernel, by decide +kernel, rfl, by decide +kernel⟩, by decide +kernel, by decide +kernel, by decide +kernel, rfl⟩,
    ⟨(uS (uw 0x70 3 1 2 1 0) (rg 0 0x100 0x400) []), 0, _, _, _, 0, _, rfl, ⟨by decide +kernel, rfl, by decide +kernel, by decide +kernel, rfl, by decide +kernel⟩, by decide +kernel, by decide +kernel, by decide +kernel, rfl, by decide +kernel⟩,
    ⟨(uS (uw 0x71 0 1 2 0 0) (rg 3 0x100 0) []), 0, _, _, _, _, _, _, _, rfl, ⟨by decide +kernel, rfl, by decide +kernel, by decide +kernel, rfl, by decide +kernel⟩, rfl, by decide +kernel, by decide +kernel, rfl, rfl, rfl, by decide +kernel, by decide +kernel⟩,
    ⟨(uS (uw 0x72 0 1 0 0 0) (rg 3 0 0) []), 0, _, _, _, _, _, rfl, ⟨by decide +kernel, rfl, by decide +kernel, by decide +kernel, rfl, by decide +kernel⟩, rfl, by decide +kernel, rfl⟩,
    ⟨(staS (uS (uw 0x73 0 1 2 0 0) (rg 3 0 0) []) (fun y => { y with dies := [(0, { st := 4 })] })), 0, _, _, _, _, _, rfl, ⟨by decide +kernel, rfl, by decide +kernel, by decide +kernel, rfl, by decide +kernel⟩, by decide +kernel, rfl, by decide +kernel, rfl, by decide +kernel, by decide +kernel⟩,
    ⟨(uS (uw 0x73 0 1 2 2 0) (rg 3 0 0) []), 0, _, _, _, _, _, rfl, ⟨by decide +kernel, rfl, by decide +kernel, by decide +kernel, rfl, by decide +kernel⟩, by decide +kernel, rfl, by decide +kernel, rfl, by decide +kernel⟩,
    ⟨(uS (uw 0x73 0 1 2 3 0) (rg 0 0x1000 0) []), 0, _, _, _, _, _, _, rfl, ⟨by decide +kernel, rfl, by decide +kernel, by decide +kernel, rfl, by decide +kernel⟩, by decide +kernel, rfl, rfl, by decide +kernel, by decide +kernel, rfl, by decide +kernel, by decide +kernel⟩,
    ⟨(uS (uw 0x80 0 1 0 0 0) (rg 20 0 0) []), 0, _, _, _, rfl, ⟨by decide +kernel, rfl, by decide +kernel, by decide +kernel, rfl, by decide +kernel⟩, by decide +kernel, by decide +kernel, by decide +kernel⟩,
    ⟨(uS (uw 0x80 0 0 0 1 0) (rg 0x100 0x400 0x800) []), 0, _, _, _, rfl, ⟨by decide +kernel, rfl, by decide +kernel, by decide +kernel, rfl, by decide +kernel⟩, by decide +kernel⟩,
    ⟨(staS (uS (uw 0x81 0 1 0 0 0) (rg 1 0 0) []) (fun y => { y with dies := [(0, { st := 4 })] })), 0, _, _, _, _, rfl, ⟨by decide +kernel, rfl, by decide +kernel, by decide +kernel, rfl, by decide +kernel⟩, by decide +kernel, by decide +kernel, rfl, by decide +kernel⟩⟩

theorem test_command_engine_events_can_act :
    (∃ (s : State) (c : Fin 16) (r : Running) (i : Nat) (t : Target) (k : CmdSpec), (s.ctx c).long = some r ∧ s.dealers.takeover = .none ∧ r.targets[i]? = some t ∧ t.cmdOf = some k ∧ s.sendable c i r t = true ∧ s.engineTurn = some c.val) ∧
    (∃ (s : State) (c : Fin 16) (r : Running) (i : Nat) (t : Target) (k : CmdSpec) (q : W16), (s.ctx c).long = some r ∧ s.dealers.takeover = .none ∧ uOp r.word ≠ 0x64 ∧ r.targets[i]? = some t ∧ t.cmdOf = some k ∧ t.seq = some q ∧ t.state = 0 ∧ epochChecked r.word = false ∧ uOp r.word ≠ 0x20 ∧ uOp r.word ≠ 0x29) ∧
    (∃ (s : State) (c : Fin 16) (r : Running) (f : Flit) (i : Nat), (s.ctx c).long = some r ∧ s.dealers.takeover = .none ∧ f.cls = 5 ∧ f.crc = f.crcOf ∧ f.dest = s.myId ∧ s.awaited f = some (c.val, i)) ∧
    (∃ (s : State) (c : Fin 16) (r : Running), (s.ctx c).long = some r ∧ s.dealers.takeover = .none ∧ r.first = 0 ∧ r.notVerified = false ∧ uOp r.word ≠ 0x1D ∧ uOp r.word ≠ 0x81) ∧
    (∃ (s : State) (c : Fin 16) (r : Running), (s.ctx c).long = some r ∧ s.dealers.takeover = .none ∧ r.first ≠ 0 ∧ r.notVerified = false) ∧
    (∃ (s : State) (c : Fin 16) (r : Running), (s.ctx c).long = some r ∧ s.dealers.takeover = .none ∧ r.first = 0 ∧ r.notVerified = true) ∧
    (∃ (s : State) (c : Fin 16) (r : Running), (s.ctx c).long = some r ∧ s.dealers.takeover = .none ∧ uOp r.word = 0x24 ∧ r.first = 0) ∧
    (∃ (s : State) (c : Fin 16) (r : Running) (i : Nat) (t : Target) (k : CmdSpec), (s.ctx c).long = some r ∧ s.dealers.takeover = .none ∧ r.targets[i]? = some t ∧ t.cmdOf = some k ∧ r.ready i t = true) ∧
    (∃ (s : State) (c : Fin 16) (r : Running) (dom : Fin 32) (x : Nat × Nat × Nat) (t : State) (q : Running) (u : Target) (k : CmdSpec), (s.ctx c).long = some r ∧ s.dealers.takeover = .none ∧ s.fab.fold.waiting.find? (fun x => x.1 = dom.val) = some x ∧ s.tokensOf dom ≠ 0 ∧ t = s.setFold (fun f => { f with waiting := dropFirst f.waiting x }) ∧ t.heldCmd x = some (q, u, k)) ∧
    (∃ (s : State) (c : Fin 16) (r : Running) (sl : BitVec 9), (s.ctx c).long = some r ∧ s.dealers.takeover = .none ∧ s.incHeld sl.toNat = false ∧ uOp r.word = 0x2E ∧ r.phase = 9 ∧ bitsAt r.rb 0 9 = sl ∧ (∀ k : Nat, k < c.val → ∀ q, (s.ctx k).long = some q → uOp q.word ≠ 0x2E)) :=
  ⟨⟨(lg (uw 0x22 0 1 2 0 0) (fun r => { r with targets := [tgt none] })), 0, _, 0, tgt none, _, rfl, by decide +kernel, by decide +kernel, rfl, by decide +kernel, by decide +kernel⟩,
    ⟨(lg (uw 0x22 0 1 2 0 0) (fun r => { r with targets := [tgt (some 3)] })), 0, _, 0, tgt (some 3), _, 3, rfl, by decide +kernel, by decide +kernel, by decide +kernel, rfl, rfl, by decide +kernel, by decide +kernel, by decide +kernel, by decide +kernel⟩,
    ⟨(lg (uw 0x22 0 1 2 0 0) (fun r => { r with targets := [tgt (some 3)] })), 0, _, (toMe 5 0x40 0), 0, rfl, by decide +kernel, by decide +kernel, by decide +kernel, by decide +kernel, by decide +kernel⟩,
    ⟨(lg (uw 0x22 0 1 2 0 0) (id)), 0, _, rfl, by decide +kernel, by decide +kernel, by decide +kernel, by decide +kernel, by decide +kernel⟩,
    ⟨(lg (uw 0x22 0 1 2 0 0) (fun r => { r with first := 2 })), 0, _, rfl, by decide +kernel, by decide +kernel, by decide +kernel⟩,
    ⟨(lg (uw 0x25 0 1 2 0 0) (fun r => { r with arg := 1 })), 0, _, rfl, by decide +kernel, by decide +kernel, by decide +kernel⟩,
    ⟨(lg (uw 0x24 0 1 2 0 0) (id)), 0, _, rfl, by decide +kernel, by decide +kernel, by decide +kernel⟩,
    ⟨(lg (uw 0x22 0 1 2 0 0) (fun r => { r with targets := [tgt none] })), 0, _, 0, tgt none, _, rfl, by decide +kernel, by decide +kernel, rfl, by decide +kernel⟩,
    ⟨{ (lg (uw 0x2B 0 1 2 0 0) (fun r => { r with targets := [{ tgt none with steps := [.cmd (agCmd 0x11 0)] }] })) with fab := { pkg.fab with fold := { waiting := [(3, 0, 0)], budget := [(3, 4)] } } }, 0, _, 3, (3, 0, 0), _, _, _, _, rfl, by decide +kernel, by decide +kernel, by decide +kernel, rfl, rfl⟩,
    ⟨(lg (uw 0x2E 0 1 2 0 0) (fun r => { r with phase := 9 })), 0, _, _, rfl, by decide +kernel, by decide +kernel, by decide +kernel, by decide +kernel, rfl, fun k h => absurd h (by simp)⟩⟩

theorem test_notice_events_can_act :
    (∃ (s : State) (f : Flit) (code : Nat), f.cls = 6 ∧ f.crc = f.crcOf ∧ f.dest = s.myId ∧ f.seq ≠ 0xFFFF ∧ code = (byteField f.pay 0 8 : Byte).toNat) ∧
    (∃ (s : State) (f : Flit), f.cls = 4 ∧ f.crc = f.crcOf ∧ f.dest = s.myId) ∧
    (∃ (s : State) (f : Flit) (fs : List Flit) (p : Fin 16) (t : State) (u : State), s.fab.fold.notices = f :: fs ∧ (byteField f.pay 1 8 : Byte).toNat = p.val ∧ s.isActive = true ∧ s.dealers.takeover = .none ∧ t = s.setFold (fun b => { b with notices := fs }) ∧ u = t.foldAct f.src p (byteField f.pay 2 8)) ∧
    (∃ (s : State) (id : W16), (s.foldAcc id).unbindPending = true) ∧
    (∃ (s : State) (n : Fin 8) (v : W32), s.isOwner n = true ∧ 1 ≤ v.toNat ∧ v.toNat ≤ 65535) :=
  ⟨⟨pkg, (toMe 6 0x40 2), _, by decide +kernel, by decide +kernel, by decide +kernel, by decide +kernel, rfl⟩,
    ⟨pkg, (toMe 4 0x40 2), by decide +kernel, by decide +kernel, by decide +kernel⟩,
    ⟨{ pkg with fab := { pkg.fab with fold := { notices := [toMe 6 0x40 0x000200] } } }, _, [], 2, _, _, rfl, by decide +kernel, by decide +kernel, by decide +kernel, rfl, rfl⟩,
    ⟨{ pkg with fab := { pkg.fab with fold := { accs := [(0x40, { unbindPending := true })] } } }, 0x40, by decide +kernel⟩,
    ⟨pkg, 0, 5, by decide +kernel, by decide +kernel, by decide +kernel⟩⟩

theorem test_link_events_can_act :
    (∃ (s : State) (t : State) (p : Nat), p < 80 ∧ (s.sub p).up = true ∧ (s.sub p).tfence = false ∧ t = ((s.modSub p (fun q => { q with up := false, trained := false, tDown := true, retrain := false })).lanesTo p 0)) ∧
    (∃ (s : State) (a : Nat) (p : Nat) (x : Agent) (y : Agent), Safety.Place s a x ∧ p < x.build.ports ∧ (x.port p).up = true ∧ (x.port p).tfence = false ∧ x.cal = none ∧ y = x.modPort p (fun q => { q with up := false, trained := false, tDown := true, retrain := false })) ∧
    (∃ (s : State) (a : Nat) (p : Nat) (x : Agent), Safety.Place s a x ∧ x.mayTrain = true ∧ p < x.build.ports) ∧
    (∃ (s : State) (p : Nat), s.subEnabled p = true ∧ (s.gport (p / 2)).takenDown.getLsbD (p % 2) = false) :=
  ⟨⟨{ pkg with fab := { pkg.fab with ports := [(0, { up := true })] } }, _, 0, by decide +kernel, by decide +kernel, by decide +kernel, rfl⟩,
    ⟨at0 endp, 0, 0, endp, _, ⟨by decide +kernel, rfl⟩, by decide +kernel, by decide +kernel, by decide +kernel, by decide +kernel, rfl⟩,
    ⟨at0 { endp with id := { endp.id with lock := true, clkMhz := 1000 } }, 0, 0, { endp with id := { endp.id with lock := true, clkMhz := 1000 } }, ⟨by decide +kernel, rfl⟩, by decide +kernel, by decide +kernel⟩,
    ⟨{ pkg with plat := { pkg.plat with opt := { gateEn := 0xFF } } }, 1, by decide +kernel, by decide +kernel⟩⟩

theorem test_frame_and_trump_events_can_act :
    (∃ (s : State) (a : Nat) (x : Agent), Safety.Place s a x) ∧
    (∃ (s : State) (a : Nat) (x : Agent), Safety.Place s a x) ∧
    (∃ (s : State), s.dealers.role = false ∧ s.synced = true) ∧
    (∃ (s : State) (a : Nat) (x : Agent), Safety.Place s a x ∧ x.id.syncEn = true ∧ (x.port x.id.syncPort.toNat).up = true) ∧
    (∃ (s : State) (p : Nat) (f : Flit) (d : Desc), f.cls = 7 ∧ s.subDown p = false ∧ f.crc = f.crcOf ∧ d = byteField f.pay 0 64 ∧ d ∉ s.fab.filter ∧ s.fab.disc.active = false ∧ descKind d ≠ 1) ∧
    (∃ (s : State) (a : Nat) (x : Agent) (f : Flit) (d : Desc), Safety.Place s a x ∧ f.cls = 7 ∧ d = byteField f.pay 0 64) :=
  ⟨⟨at0 endp, 0, endp, ⟨by decide +kernel, rfl⟩⟩,
    ⟨at0 endp, 0, endp, ⟨by decide +kernel, rfl⟩⟩,
    ⟨{ linkS with dealers := { linkS.dealers with role := false }, pair := { syncParent := some 0x8000 }, fab := { linkS.fab with plan := some { links := [⟨0x8000, 1, 1, 0xFFC0, 0⟩] } } }, by decide +kernel, by decide +kernel⟩,
    ⟨at0 { endp with id := { endp.id with syncEn := true } }, 0, { endp with id := { endp.id with syncEn := true } }, ⟨by decide +kernel, rfl⟩, by decide +kernel, by decide +kernel⟩,
    ⟨{ pkg with fab := { pkg.fab with ports := [(0, { up := true })] } }, 0, (flit 7 0xFFFF 5), _, by decide +kernel, by decide +kernel, by decide +kernel, rfl, by decide +kernel, by decide +kernel, by decide +kernel⟩,
    ⟨at0 endp, 0, endp, (flit 7 0xFFFF 5), _, ⟨by decide +kernel, rfl⟩, by decide +kernel, rfl⟩⟩

theorem test_lane_commands_can_act :
    (∃ (s : State) (l : Nat) (x : Lane) (c : RetrainCause), l < 160 ∧ s.lane l = x ∧ s.retrainDue l c = true ∧ x.st = 2 ∧ s.laneRoom l = true) ∧
    (∃ (s : State) (l : Nat) (x : Lane), l < 160 ∧ s.lane l = x ∧ x.st = 3) ∧
    (∃ (s : State) (l : Nat) (x : Lane), l < 160 ∧ s.lane l = x ∧ x.st = 3 ∧ 4096 ≤ x.windows.toNat ∧ x.adopt = none ∧ x.margin.toNat < x.best.toNat) ∧
    (∃ (s : State) (l : Nat) (x : Lane) (f : W32), l < 160 ∧ s.lane l = x ∧ x.adopt = some f ∧ newer f s.fab.frame = false) ∧
    (∃ (s : State) (l : Nat) (x : Lane) (f : W32), l < 160 ∧ s.lane l = x ∧ x.start = some f ∧ x.windows.toNat < 4096 ∧ 5000 ≤ (s.fab.frame - f).toNat) ∧
    (∃ (s : State) (l : Nat) (x : Lane), l < 160 ∧ s.lane l = x ∧ x.st = 2) :=
  ⟨⟨{ pkg with plat := { pkg.plat with lanes := [(0, { st := 2, tempTrain := 0x20 })] }, fab := { pkg.fab with frame := 6000 } }, 0, _, .peer, by decide +kernel, rfl, by decide +kernel, by decide +kernel, by decide +kernel⟩,
    ⟨{ pkg with plat := { pkg.plat with lanes := [(0, { st := 3 })] }, fab := { pkg.fab with frame := 6000 } }, 0, _, by decide +kernel, rfl, by decide +kernel⟩,
    ⟨{ pkg with plat := { pkg.plat with lanes := [(0, { st := 3, windows := 4096, best := 5 })] }, fab := { pkg.fab with frame := 6000 } }, 0, _, by decide +kernel, rfl, by decide +kernel, by decide +kernel, by decide +kernel, by decide +kernel⟩,
    ⟨{ pkg with plat := { pkg.plat with lanes := [(0, { st := 3, adopt := some 7 })] }, fab := { pkg.fab with frame := 6000 } }, 0, _, 7, by decide +kernel, rfl, by decide +kernel, by decide +kernel⟩,
    ⟨{ pkg with plat := { pkg.plat with lanes := [(0, { st := 3, start := some 7 })] }, fab := { pkg.fab with frame := 6000 } }, 0, _, 7, by decide +kernel, rfl, by decide +kernel, by decide +kernel, by decide +kernel⟩,
    ⟨{ pkg with plat := { pkg.plat with lanes := [(0, { st := 2 })] }, fab := { pkg.fab with frame := 6000 } }, 0, _, by decide +kernel, rfl, by decide +kernel⟩⟩

theorem test_agent_lane_and_recentre_commands_can_act :
    (∃ (s : State) (a : Nat) (l : Nat) (x : Agent) (c : RetrainCause), Safety.Place s a x ∧ x.cal = none ∧ (x.port (l / 2)).up = true ∧ (c = .margin ∨ c = .peer)) ∧
    (∃ (s : State) (a : Nat) (l : Nat) (x : Agent) (k : Cal), Safety.Place s a x ∧ x.cal = some k ∧ k.lane = l ∧ x.inRest (l / 2) = true) ∧
    (∃ (s : State) (a : Nat) (l : Nat) (x : Agent) (k : Cal), Safety.Place s a x ∧ x.cal = some k ∧ k.lane = l ∧ 4096 ≤ k.windows ∧ k.adopt = none ∧ (x.laneMargin l).toNat < k.best.toNat) ∧
    (∃ (s : State) (a : Nat) (l : Nat) (x : Agent) (k : Cal) (f : _), Safety.Place s a x ∧ x.cal = some k ∧ k.lane = l ∧ k.adopt = some f ∧ newer f x.id.frame = false) ∧
    (∃ (s : State) (a : Nat) (l : Nat) (x : Agent) (k : Cal), Safety.Place s a x ∧ x.cal = some k ∧ k.lane = l ∧ k.windows < 4096 ∧ 5000 ≤ (x.id.frame - k.start).toNat) ∧
    (∃ (s : State) (a : Nat) (l : Nat) (x : Agent), Safety.Place s a x ∧ (x.port (l / 2)).up = true) ∧
    (∃ (s : State) (i : Fin 6) (c : Fin 16), s.plat.bring.online.getLsbD i = true ∧ s.plat.bring.retiring.getLsbD i = false ∧ (s.chan (16 * i + c)).lastAt + 1000 * s.plat.pwr.recenterMs.toNat ≤ s.us ∧ (∀ y ∈ s.stackChans i, y.inWin = false ∧ y.lastAt + 10 ≤ s.us)) ∧
    (∃ (s : State) (i : Fin 6) (c : Nat), (List.range 16).find? (fun c => (s.chan (16 * i + c)).inWin) = some c) :=
  ⟨⟨at0 endp, 0, 0, endp, .margin, ⟨by decide +kernel, rfl⟩, by decide +kernel, by decide +kernel, Or.inl rfl⟩,
    ⟨at0 { endp with cal := some ⟨0, 0, 0, 0, none⟩, id := { endp.id with frame := 6000 } , sw := { endp.sw with ft := 358 } }, 0, 0, { endp with cal := some ⟨0, 0, 0, 0, none⟩, id := { endp.id with frame := 6000 } , sw := { endp.sw with ft := 358 } }, _, ⟨by decide +kernel, rfl⟩, rfl, by decide +kernel, by decide +kernel⟩,
    ⟨at0 { endp with cal := some ⟨0, 0, 4096, 5, none⟩, id := { endp.id with frame := 6000 } }, 0, 0, { endp with cal := some ⟨0, 0, 4096, 5, none⟩, id := { endp.id with frame := 6000 } }, _, ⟨by decide +kernel, rfl⟩, rfl, by decide +kernel, by decide +kernel, by decide +kernel, by decide +kernel⟩,
    ⟨at0 { endp with cal := some ⟨0, 0, 0, 0, (some 7)⟩, id := { endp.id with frame := 6000 } }, 0, 0, { endp with cal := some ⟨0, 0, 0, 0, (some 7)⟩, id := { endp.id with frame := 6000 } }, _, 7, ⟨by decide +kernel, rfl⟩, rfl, by decide +kernel, by decide +kernel, by decide +kernel⟩,
    ⟨at0 { endp with cal := some ⟨0, 0, 5, 0, none⟩, id := { endp.id with frame := 6000 } }, 0, 0, { endp with cal := some ⟨0, 0, 5, 0, none⟩, id := { endp.id with frame := 6000 } }, _, ⟨by decide +kernel, rfl⟩, rfl, by decide +kernel, by decide +kernel, by decide +kernel⟩,
    ⟨at0 endp, 0, 0, endp, ⟨by decide +kernel, rfl⟩, by decide +kernel⟩,
    ⟨{ pkg with us := 1000000, plat := { pkg.plat with bring := { online := 0x3F } } }, 0, 0, by decide +kernel, by decide +kernel, by decide +kernel, by decide +kernel⟩,
    ⟨{ pkg with plat := { pkg.plat with chans := [(3, { inWin := true })] } }, 0, 3, by decide +kernel⟩⟩

theorem test_dealer_pair_events_can_act :
    (∃ (s : State), s.dealers.takeover = .none ∧ s.dealers.hbStop = false ∧ s.handoverReady = false) ∧
    (∃ (s : State), s.dealers.hbStop = true) ∧
    (∃ (s : State) (t : State), s.dealers.takeover = .none ∧ s.dealers.standby = true ∧ t = s.setFold (fun f => { f with waiting := [] })) ∧
    (∃ (s : State), s.dealers.takeover = .none ∧ s.dealers.standby = false) ∧
    (∃ (s : State) (k : Core) (t : State), s.dealers.takeover = .checking ∧ k = s.dealers.journal.foldl JRec.apply s.dealers.shadow ∧ t = ({ s.measureUpdate with dealers := { s.dealers with core := k, shadow := k, journal := [], active := !s.dealers.active, standby := false, reload := s.dealers.handover, handover := false, takeover := .none, beats := 0 } } : State)) ∧
    (∃ (s : State) (k : Core) (t : State), s.dealers.takeover = .checking ∧ k = s.dealers.journal.foldl JRec.apply s.dealers.shadow ∧ t = ({ s.measureUpdate with dealers := { s.dealers with core := k, shadow := k, journal := [], active := !s.dealers.active, standby := false, reload := s.dealers.handover, handover := false, takeover := .none, beats := 0 } } : State)) ∧
    (∃ (s : State) (r : JRec) (rs : List JRec), s.dealers.journal = r :: rs ∧ s.dealers.handover = false) ∧
    (∃ (s : State) (r : JRec), s.dealers.journal = [r] ∧ s.dealers.handover = true ∧ s.dealers.takeover = .none ∧ s.dealers.standby = true ∧ (∀ c < 16, (s.ctx c).long = none)) ∧
    (∃ (s : State), s.dealers.reload = true) :=
  ⟨⟨pkg, by decide +kernel, by decide +kernel, by decide +kernel⟩,
    ⟨{ pkg with dealers := { pkg.dealers with hbStop := true } }, by decide +kernel⟩,
    ⟨pkg, _, by decide +kernel, by decide +kernel, rfl⟩,
    ⟨{ pkg with dealers := { pkg.dealers with standby := false } }, by decide +kernel, by decide +kernel⟩,
    ⟨{ pkg with dealers := { pkg.dealers with takeover := .checking } }, _, _, by decide +kernel, rfl, rfl⟩,
    ⟨{ pkg with dealers := { pkg.dealers with takeover := .checking } }, _, _, by decide +kernel, rfl, rfl⟩,
    ⟨{ pkg with dealers := { pkg.dealers with journal := [.istore 3 7] } }, _, _, rfl, by decide +kernel⟩,
    ⟨{ pkg with dealers := { pkg.dealers with journal := [.istore 3 7], handover := true } }, _, rfl, by decide +kernel, by decide +kernel, by decide +kernel, by decide +kernel⟩,
    ⟨{ pkg with dealers := { pkg.dealers with reload := true } }, by decide +kernel⟩⟩

theorem test_package_pair_events_can_act :
    (∃ (s : State) (t : State), s.isActive = true ∧ s.pair.stopped = false ∧ t = s.setPair (fun p => { p with number := p.number + 1, sentAt := s.us })) ∧
    (∃ (s : State) (f : PairFrame) (t : State), frameGood f 1 = true ∧ s.vbat.held = false ∧ s.pair.fenced = false ∧ s.dealers.role = false ∧ t = s.setPair (fun p => { p with renewAt := some s.us, renewEpoch := f.cepoch })) ∧
    (∃ (s : State) (f : PairFrame), frameGood f 2 = true ∧ s.dealers.role = true ∧ f.number = s.pair.number ∧ s.us ≤ s.pair.sentAt + 40) ∧
    (∃ (s : State) (f : PairFrame), frameGood f 3 = true ∧ s.isStandby = true) ∧
    (∃ (s : State) (f : PairFrame), frameGood f 3 = true ∧ s.isStandby = false ∧ s.isActive = true) ∧
    (∃ (s : State) (f : PairFrame), frameGood f 4 = true ∧ s.isStandby = true) ∧
    (∃ (s : State), s.isActive = true ∧ s.pair.solo = .off) ∧
    (∃ (s : State), s.isActive = true ∧ s.pair.solo ≠ .off) ∧
    (∃ (s : State), s.isStandby = true ∧ s.pair.renewed = true) ∧
    (∃ (s : State), (s.vbat.held = true ∨ s.plat.bring.dealersFailed = true)) ∧
    (∃ (s : State), s.isActive = true) ∧
    (∃ (s : State), s.dealers.role = false) :=
  ⟨⟨pkg, _, by decide +kernel, by decide +kernel, rfl⟩,
    ⟨stby, (pf 1 4), _, by decide +kernel, by decide +kernel, by decide +kernel, by decide +kernel, rfl⟩,
    ⟨{ pkg with pair := { pkg.pair with number := 4 } }, (pf 2 4), by decide +kernel, by decide +kernel, by decide +kernel, by decide +kernel⟩,
    ⟨stby, (pf 3 4), by decide +kernel, by decide +kernel⟩,
    ⟨pkg, (pf 3 4), by decide +kernel, by decide +kernel, by decide +kernel⟩,
    ⟨stby, (pf 4 4), by decide +kernel, by decide +kernel⟩,
    ⟨pkg, by decide +kernel, by decide +kernel⟩,
    ⟨{ pkg with pair := { pkg.pair with solo := .cmd } }, by decide +kernel, by decide +kernel⟩,
    ⟨{ stby with pair := { stby.pair with renewed := true } }, by decide +kernel, by decide +kernel⟩,
    ⟨{ pkg with vbat := { held := true } }, Or.inl rfl⟩,
    ⟨pkg, by decide +kernel⟩,
    ⟨stby, by decide +kernel⟩⟩

theorem test_reflex_events_can_act :
    (∃ (s : State) (e : Event) (es : List Event) (t : State), s.reflex.events = e :: es ∧ s.dealers.takeover = .none ∧ t = ({ s with reflex := { s.reflex with events := es } } : State).toOwner e) ∧
    (∃ (s : State) (d : Dispatch) (c : Nat), s.dealers.takeover = .none ∧ s.nextPending = some d ∧ s.freeCtx (s.binding d.slot).mask = some c) ∧
    (∃ (s : State) (c : Fin 16) (x : Context), s.ctx c = x ∧ x.runLimit ≠ 0 ∧ x.run = .running ∧ x.long = none ∧ x.asleep = false ∧ s.dealers.takeover = .none) ∧
    (∃ (s : State), s.own.tickUs ≠ 0) :=
  ⟨⟨{ pkg with reflex := { events := [⟨1, 0, 0, false, 0, 0⟩] } }, _, _, _, rfl, by decide +kernel, rfl⟩,
    ⟨{ pkg with reflex := { bind := [(3, desc 1 [(2, 2, 1)] |>.setWidth 128)], pend := [⟨3, ⟨1, 0, 0, false, 0, 0⟩, 1, false, false⟩] } }, ⟨3, ⟨1, 0, 0, false, 0, 0⟩, 1, false, false⟩, 0, by decide +kernel, by decide +kernel, by decide +kernel⟩,
    ⟨(uS 0 (fun y => { y with runLimit := 5 }) []), 0, _, rfl, by decide +kernel, by decide +kernel, by decide +kernel, by decide +kernel, by decide +kernel⟩,
    ⟨{ pkg with own := { tickUs := 1000 } }, by decide +kernel⟩⟩

theorem test_session_events_can_act :
    (∃ (s : State) (b : Bool) (n : Nat) (t : State), n = (if b then 1 else 0) ∧ (s.session n).isOpen = false ∧ t = s.modSession n (fun x => { x with linkUp := true })) ∧
    (∃ (s : State) (b : Bool) (n : Nat) (t : State), n = (if b then 1 else 0) ∧ (s.session n).isOpen = false ∧ t = s.modSession n (fun x => { x with linkUp := true })) ∧
    (∃ (s : State) (peer : Nat) (cert : List Byte) (n : Nat), s.dealers.takeover = .none ∧ s.vbat.rootSet = true ∧ sha384 (Config.rootOf cert) = s.vbat.rootHash ∧ (∀ k ∈ [2, 3, 4, 5, 6, 7], (s.session k).isOpen = true → (s.session k).peer ≠ peer) ∧ [2, 3, 4, 5, 6, 7].find? (fun n => !(s.session n).isOpen) = some n) ∧
    (∃ (s : State) (peer : Nat) (cert : List Byte), s.dealers.takeover = .none ∧ s.vbat.rootSet = true ∧ sha384 (Config.rootOf cert) = s.vbat.rootHash ∧ (∀ k ∈ [2, 3, 4, 5, 6, 7], (s.session k).isOpen = true → (s.session k).peer ≠ peer) ∧ (∀ k ∈ [2, 3, 4, 5, 6, 7], (s.session k).isOpen = true)) ∧
    (∃ (s : State) (n : Fin 8), 2 ≤ n.val ∧ (s.session n).isOpen = true ∧ s.dealers.takeover = .none) ∧
    (∃ (s : State) (n : Fin 8), 2 ≤ n.val ∧ (s.session n).isOpen = true ∧ s.dealers.takeover = .none) ∧
    (∃ (s : State) (n : Fin 8) (bs : List Byte) (m : Datagram) (k : W32) (r : Datagram), 2 ≤ n.val ∧ (s.session n).isOpen = true ∧ s.dealers.takeover = .none ∧ 20 ≤ bs.length ∧ m = { typ := bs.getD 0 0, status := bs.getD 1 0, req := ofBytes 32 ((bs.drop 4).take 4), off := leNat ((bs.drop 8).take 8), len := leNat ((bs.drop 16).take 2), data := bs.drop 20 } ∧ (s.session n).seen.find? (fun x => x.1 = m.req) = some (k, r)) ∧
    (∃ (s : State) (n : Fin 8) (bs : List Byte) (m : Datagram) (w : Bool × State) (q : List Byte × State), 2 ≤ n.val ∧ (s.session n).isOpen = true ∧ s.dealers.takeover = .none ∧ 20 ≤ bs.length ∧ m = { typ := bs.getD 0 0, status := bs.getD 1 0, req := ofBytes 32 ((bs.drop 4).take 4), off := leNat ((bs.drop 8).take 8), len := leNat ((bs.drop 16).take 2), data := bs.drop 20 } ∧ (s.session n).seen.find? (fun x => x.1 = m.req) = none ∧ Datagram.good m = true ∧ q = s.readWords n m.off (m.len / 4) ∧ w = s.writeWords n m.off m.data (m.len / 4) ∧ m.typ = 1) ∧
    (∃ (s : State) (n : Fin 8) (bs : List Byte) (m : Datagram) (w : Bool × State) (q : List Byte × State), 2 ≤ n.val ∧ (s.session n).isOpen = true ∧ s.dealers.takeover = .none ∧ 20 ≤ bs.length ∧ m = { typ := bs.getD 0 0, status := bs.getD 1 0, req := ofBytes 32 ((bs.drop 4).take 4), off := leNat ((bs.drop 8).take 8), len := leNat ((bs.drop 16).take 2), data := bs.drop 20 } ∧ (s.session n).seen.find? (fun x => x.1 = m.req) = none ∧ Datagram.good m = true ∧ q = s.readWords n m.off (m.len / 4) ∧ w = s.writeWords n m.off m.data (m.len / 4) ∧ m.typ = 2) ∧
    (∃ (s : State) (n : Fin 8) (bs : List Byte) (m : Datagram) (w : Bool × State) (q : List Byte × State), 2 ≤ n.val ∧ (s.session n).isOpen = true ∧ s.dealers.takeover = .none ∧ 20 ≤ bs.length ∧ m = { typ := bs.getD 0 0, status := bs.getD 1 0, req := ofBytes 32 ((bs.drop 4).take 4), off := leNat ((bs.drop 8).take 8), len := leNat ((bs.drop 16).take 2), data := bs.drop 20 } ∧ (s.session n).seen.find? (fun x => x.1 = m.req) = none ∧ Datagram.good m = true ∧ q = s.readWords n m.off (m.len / 4) ∧ w = s.writeWords n m.off m.data (m.len / 4) ∧ m.typ = 4) ∧
    (∃ (off : Nat), off < 0x100000) ∧
    (∃ (s : State) (b : Bool) (n : Nat) (t : State), n = (if b then 1 else 0) ∧ (s.session n).isOpen = false ∧ t = s.modSession n (fun x => { x with linkUp := true })) :=
  ⟨⟨State.reset, false, _, _, rfl, by decide +kernel, rfl⟩,
    ⟨State.reset, false, _, _, rfl, by decide +kernel, rfl⟩,
    ⟨{ pkg with vbat := { rootSet := true, rootHash := sha384 (Config.rootOf []) } }, 0, [], 2, by decide +kernel, by decide +kernel, rfl, by decide +kernel, by decide +kernel⟩,
    ⟨{ pkg with vbat := { rootSet := true, rootHash := sha384 (Config.rootOf []) }, sess := [2, 3, 4, 5, 6, 7].map (fun k => (k, { isOpen := true, path := 2, peer := 5 })) }, 0, [], by decide +kernel, by decide +kernel, rfl, by decide +kernel, by decide +kernel⟩,
    ⟨net2, 2, by decide +kernel, by decide +kernel, by decide +kernel⟩,
    ⟨net2, 2, by decide +kernel, by decide +kernel, by decide +kernel⟩,
    ⟨{ pkg with sess := [(2, { isOpen := true, path := 2, peer := 5, seen := [(9, { typ := 3, status := 0, req := 9, off := 0, len := 4, data := [] })] })] }, 2, (le 8 (1 + 9 * 2 ^ 32) ++ le 8 0 ++ le 2 4 ++ le 2 0), { typ := 1, status := 0, req := 9, off := 0, len := 4, data := [] }, 9, { typ := 3, status := 0, req := 9, off := 0, len := 4, data := [] }, by decide +kernel, by decide +kernel, by decide +kernel, by decide +kernel, rfl, by decide +kernel⟩,
    ⟨net2, 2, (le 8 (1 + 9 * 2 ^ 32) ++ le 8 0 ++ le 2 4 ++ le 2 0), { typ := 1, status := 0, req := 9, off := 0, len := 4, data := [] }, _, _, by decide +kernel, by decide +kernel, by decide +kernel, by decide +kernel, rfl, by decide +kernel, by decide +kernel, rfl, rfl, by decide +kernel⟩,
    ⟨net2, 2, (le 8 (2 + 9 * 2 ^ 32) ++ le 8 0 ++ le 2 4 ++ le 2 0 ++ le 4 5), { typ := 2, status := 0, req := 9, off := 0, len := 4, data := le 4 5 }, _, _, by decide +kernel, by decide +kernel, by decide +kernel, by decide +kernel, rfl, by decide +kernel, by decide +kernel, rfl, rfl, by decide +kernel⟩,
    ⟨net2, 2, (le 8 (4 + 9 * 2 ^ 32) ++ le 8 0 ++ le 2 4 ++ le 2 0), { typ := 4, status := 0, req := 9, off := 0, len := 4, data := [] }, _, _, by decide +kernel, by decide +kernel, by decide +kernel, by decide +kernel, rfl, by decide +kernel, by decide +kernel, rfl, rfl, by decide +kernel⟩,
    ⟨0, by decide +kernel⟩,
    ⟨State.reset, false, _, _, rfl, by decide +kernel, rfl⟩⟩

theorem test_ownership_and_ring_commands_can_act :
    (∃ (s : State) (n : Fin 8), s.own.owner = 0 ∧ (s.session n).isOpen = true) ∧
    (∃ (s : State) (n : Fin 8), s.isOwner n = true) ∧
    (∃ (s : State) (n : Fin 8) (v : BitVec 4), s.isOwner n = true ∧ 1 ≤ v.toNat ∧ v.toNat ≤ 8 ∧ v.toNat ≠ n + 1 ∧ (s.session (v.toNat - 1)).isOpen = true) ∧
    (∃ (s : State), s.own.owner ≠ 0 ∧ s.own.twin = 0) ∧
    (∃ (s : State), s.own.owner ≠ 0 ∧ s.own.twin ≠ 0 ∧ (s.session (s.own.twin - 1)).isOpen = true) ∧
    (∃ (s : State) (n : Fin 8) (pg : Fin 8) (v : W32), s.isOwner n = true ∧ (s.session pg).cqDone = (s.session pg).cqCommit ∧ v.toNat ≤ 11) ∧
    (∃ (s : State) (n : Fin 8) (v : W32), s.isOwner n = true ∧ v.toNat % 32 = 0) ∧
    (∃ (s : State) (n : Fin 8) (pg : Fin 8) (t : W16) (x : Session) (k : Nat) (r : List RingItem × Nat), s.isOwner n = true ∧ s.session pg = x ∧ x.cqBase ≠ 0 ∧ t.toNat < ringSize x.cqOrder ∧ x.cqDone = x.cqCommit ∧ k = (t.toNat + ringSize x.cqOrder - x.cqCommit.toNat) % ringSize x.cqOrder ∧ r = s.takeDescs x t.toNat ((List.range k).map (fun i => (x.cqCommit.toNat + i) % ringSize x.cqOrder))) :=
  ⟨⟨{ pkg with own := {} }, 0, by decide +kernel, by decide +kernel⟩,
    ⟨pkg, 0, by decide +kernel⟩,
    ⟨{ pkg with sess := [(2, { isOpen := true })] }, 0, 3, by decide +kernel, by decide +kernel, by decide +kernel, by decide +kernel, by decide +kernel⟩,
    ⟨pkg, by decide +kernel, by decide +kernel⟩,
    ⟨{ pkg with own := { owner := 1, twin := 3 }, sess := [(2, { isOpen := true })] }, by decide +kernel, by decide +kernel, by decide +kernel⟩,
    ⟨pkg, 0, 0, 5, by decide +kernel, by decide +kernel, by decide +kernel⟩,
    ⟨pkg, 0, 64, by decide +kernel, by decide +kernel⟩,
    ⟨{ pkg with sess := [(0, { isOpen := true, linkUp := true, cqBase := 0x1000, cqOrder := 2 })] }, 0, 0, 1, _, _, _, by decide +kernel, rfl, by decide +kernel, by decide +kernel, by decide +kernel, rfl, rfl⟩⟩

theorem test_register_writes_can_act :
    (∃ (s : State) (t : State) (n : Fin 8) (off : Nat) (v : W32), s.isOwner n = true ∧ s.hostWrite n off v = some t) ∧
    (∃ (s : State) (n : Fin 8) (v : W32), s.isOwner n = true ∧ 100 ≤ v.toNat ∧ v.toNat ≤ 60000) ∧
    (∃ (s : State) (n : Fin 8) (v : W32), s.isOwner n = true ∧ (v.toNat < 100 ∨ 60000 < v.toNat)) ∧
    (∃ (s : State) (n : Fin 8) (v : W32), s.isOwner n = true ∧ 1 ≤ v.toNat ∧ v.toNat ≤ 60) ∧
    (∃ (s : State) (n : Fin 8) (v : W32), s.isOwner n = true ∧ 1 ≤ v.toNat ∧ v.toNat ≤ 15) ∧
    (∃ (s : State) (n : Fin 8) (v : W32), s.isOwner n = true ∧ 10 ≤ v.toNat ∧ v.toNat ≤ 86400) ∧
    (∃ (s : State) (n : Fin 8) (v : W32), s.isOwner n = true ∧ within v 0x1F1F1F1F = true) ∧
    (∃ (s : State) (n : Fin 8) (v : W32), s.isOwner n = true ∧ within v 0x1FFF = true) ∧
    (∃ (s : State) (n : Fin 8) (v : W32), s.isOwner n = true ∧ within v 0xFFFF = true) ∧
    (∃ (s : State) (n : Fin 8) (k : Nat), s.isOwner n = true ∧ k < 0x200000) ∧
    (∃ (s : State) (n : Fin 8) (off : Nat), s.isOwner n = true ∧ 0x800 ≤ off ∧ off < 0x8000 ∧ off % 4 = 0) ∧
    (∃ (s : State) (n : Fin 8) (off : Nat), s.isOwner n = true ∧ off % 4 = 0) ∧
    (∃ (s : State) (n : Fin 8) (off : Nat), s.isOwner n = true ∧ off % 4 ≠ 0) ∧
    (∃ (s : State) (n : Fin 8) (v : W32), s.isOwner n = true ∧ v.toNat = 1) ∧
    (∃ (s : State) (n : Fin 8) (v : W32), s.isOwner n = true ∧ v.toNat = 0) ∧
    (∃ (s : State) (n : Fin 8) (v : W32), s.isOwner n = true ∧ 2 ≤ v.toNat) ∧
    (∃ (s : State) (n : Fin 8) (x : Nat) (bs : List Byte), s.isOwner n = true ∧ 0 < bs.length ∧ x + bs.length ≤ 2 ^ 30 ∧ s.inDepot (s.own.aperture.toNat * 2 ^ 30 + x) bs.length = true ∧ (∀ y ∈ s.depot.scrubs, y.addr + y.len ≤ s.own.aperture.toNat * 2 ^ 30 + x ∨ s.own.aperture.toNat * 2 ^ 30 + x + bs.length ≤ y.addr)) ∧
    (∃ (s : State) (n : Fin 8), s.isOwner n = false) ∧
    (∃ (s : State) (x : Nat) (k : Nat), x + k ≤ 2 ^ 30 ∧ s.inDepot (s.own.aperture.toNat * 2 ^ 30 + x) k = true ∧ (∀ y ∈ s.depot.scrubs, y.addr + y.len ≤ s.own.aperture.toNat * 2 ^ 30 + x ∨ s.own.aperture.toNat * 2 ^ 30 + x + k ≤ y.addr)) ∧
    (∃ (x : Nat), 2 ^ 30 ≤ x) :=
  ⟨⟨pkg, _, 0, 0x20C, 500, by decide +kernel, rfl⟩,
    ⟨pkg, 0, 60000, by decide +kernel, by decide +kernel, by decide +kernel⟩,
    ⟨pkg, 0, 99, by decide +kernel, Or.inl (by decide +kernel)⟩,
    ⟨pkg, 0, 60, by decide +kernel, by decide +kernel, by decide +kernel⟩,
    ⟨pkg, 0, 15, by decide +kernel, by decide +kernel, by decide +kernel⟩,
    ⟨pkg, 0, 86400, by decide +kernel, by decide +kernel, by decide +kernel⟩,
    ⟨pkg, 0, 0x1F000102, by decide +kernel, by decide +kernel⟩,
    ⟨pkg, 0, 0x1001, by decide +kernel, by decide +kernel⟩,
    ⟨pkg, 0, 0xFFFF, by decide +kernel, by decide +kernel⟩,
    ⟨pkg, 0, 0x1FFFFF, by decide +kernel, by decide +kernel⟩,
    ⟨pkg, 0, 0x7FFC, by decide +kernel, by decide +kernel, by decide +kernel, by decide +kernel⟩,
    ⟨pkg, 0, 0x20, by decide +kernel, by decide +kernel⟩,
    ⟨pkg, 0, 0x3FFFFFFE, by decide +kernel, by decide +kernel⟩,
    ⟨pkg, 0, 1, by decide +kernel, by decide +kernel⟩,
    ⟨pkg, 0, 0, by decide +kernel, by decide +kernel⟩,
    ⟨pkg, 0, 2, by decide +kernel, by decide +kernel⟩,
    ⟨pkg, 0, 0x3FFFFFC0, List.replicate 64 1, by decide +kernel, by decide +kernel, by decide +kernel, by decide +kernel, fun y h => absurd h (by simp [pkg, State.reset])⟩,
    ⟨State.reset, 0, by decide +kernel⟩,
    ⟨pkg, 0x3FFFFFC0, 64, by decide +kernel, by decide +kernel, fun y h => absurd h (by simp [pkg, State.reset])⟩,
    ⟨2 ^ 30, by decide +kernel⟩⟩

theorem test_host_store_commands_can_act :
    (∃ (s : State) (n : Fin 8) (i : Nat) (d : BitVec 512) (rest : List RingItem), s.dealers.takeover = .none ∧ (s.session n).cur = none ∧ (s.session n).owed = none ∧ (s.session n).cplFull = false ∧ (s.session n).taken = .cmd i d :: rest) ∧
    (∃ (s : State) (n : Fin 8) (i : Nat) (rest : List RingItem) (k : Nat), s.dealers.takeover = .none ∧ (s.session n).cur = none ∧ (s.session n).owed = none ∧ (s.session n).cplFull = false ∧ (s.session n).taken = .bad i k :: rest) ∧
    (∃ (s : State) (n : Fin 8) (i : Nat) (d : BitVec 512) (a : Nat) (first : Nat) (count : Nat), Safety.HostCommand s n i d 0x01 ∧ a = descNat d 8 8 ∧ first = descNat d 16 4 ∧ count = descNat d 20 4 ∧ count ≠ 0 ∧ first + count ≤ istoreSize ∧ s.inDepot a (8 * count) = true ∧ s.badLine a (8 * count) = false ∧ s.rangeFree first count = true) ∧
    (∃ (s : State) (n : Fin 8) (i : Nat) (d : BitVec 512) (a : Nat) (t : Nat) (k : Nat), Safety.HostCommand s n i d 0x02 ∧ s.copyRange d = some (a, t, k) ∧ s.badLine a k = false) ∧
    (∃ (s : State) (n : Fin 8) (i : Nat) (d : BitVec 512) (a : Nat) (t : Nat) (k : Nat), Safety.HostCommand s n i d 0x03 ∧ s.copyRange d = some (a, t, k)) ∧
    (∃ (s : State) (n : Fin 8) (i : Nat) (d : BitVec 512) (c : Nat) (p : Nat) (e : Nat), Safety.HostCommand s n i d 0x04 ∧ c = descNat d 8 1 ∧ p = descNat d 9 1 ∧ e = descNat d 12 4 ∧ c < 16 ∧ p < 4 ∧ e < istoreSize ∧ ((s.ctx c).run = .idle ∨ (s.ctx c).run = .halted)) ∧
    (∃ (s : State) (n : Fin 8) (i : Nat) (d : BitVec 512) (c : Nat), Safety.HostCommand s n i d 0x05 ∧ c = descNat d 8 1 ∧ c < 16) ∧
    (∃ (s : State) (n : Fin 8) (i : Nat) (d : BitVec 512) (c : Nat), Safety.HostCommand s n i d 0x06 ∧ c = descNat d 8 1 ∧ c < 16 ∧ (s.ctx c).run = .halted) :=
  ⟨⟨{ pkg with sess := [(0, { isOpen := true, linkUp := true, cplOrder := 2, cqOrder := 2, taken := [.cmd 0 7] })] }, 0, _, 7, _, by decide +kernel, by decide +kernel, by decide +kernel, by decide +kernel, rfl⟩,
    ⟨{ pkg with sess := [(0, { isOpen := true, linkUp := true, cplOrder := 2, cqOrder := 2, taken := [.bad 0 1] })] }, 0, _, _, _, by decide +kernel, by decide +kernel, by decide +kernel, by decide +kernel, rfl⟩,
    ⟨(hc (pkg) (desc 1 [(20, 4, 2)])), 0, 0, (desc 1 [(20, 4, 2)]), _, _, _, ⟨by decide +kernel, by decide +kernel, by decide +kernel, by decide +kernel⟩, rfl, rfl, rfl, by decide +kernel, by decide +kernel, by decide +kernel, by decide +kernel, by decide +kernel⟩,
    ⟨(hc (pkg) (desc 2 [(20, 4, 64)])), 0, 0, (desc 2 [(20, 4, 64)]), 0, 0, 64, ⟨by decide +kernel, by decide +kernel, by decide +kernel, by decide +kernel⟩, by decide +kernel, by decide +kernel⟩,
    ⟨(hc (pkg) (desc 3 [(20, 4, 64)])), 0, 0, (desc 3 [(20, 4, 64)]), 0, 0, 64, ⟨by decide +kernel, by decide +kernel, by decide +kernel, by decide +kernel⟩, by decide +kernel⟩,
    ⟨(hc (pkg) (desc 4 [(8, 1, 3)])), 0, 0, (desc 4 [(8, 1, 3)]), _, _, _, ⟨by decide +kernel, by decide +kernel, by decide +kernel, by decide +kernel⟩, rfl, rfl, rfl, by decide +kernel, by decide +kernel, by decide +kernel, Or.inl rfl⟩,
    ⟨(hc (pkg) (desc 5 [(8, 1, 3)])), 0, 0, (desc 5 [(8, 1, 3)]), _, ⟨by decide +kernel, by decide +kernel, by decide +kernel, by decide +kernel⟩, rfl, by decide +kernel⟩,
    ⟨(hc ({ pkg with dealers := { pkg.dealers with core := { ctx := [(3, { run := .halted })] } } }) (desc 6 [(8, 1, 3)])), 0, 0, (desc 6 [(8, 1, 3)]), _, ⟨by decide +kernel, by decide +kernel, by decide +kernel, by decide +kernel⟩, rfl, by decide +kernel, by decide +kernel⟩⟩

theorem test_host_pod_commands_can_act :
    (∃ (s : State) (n : Fin 8) (i : Nat) (d : BitVec 512) (k : Nat) (b : Binding), Safety.HostCommand s n i d 0x07 ∧ k = descNat d 8 1 ∧ b = byteField d 16 128 ∧ Binding.good b = true) ∧
    (∃ (s : State) (n : Fin 8) (i : Nat) (d : BitVec 512) (k : Nat), Safety.HostCommand s n i d 0x08 ∧ k = descNat d 8 1 ∧ (∀ x ∈ s.reflex.pend, x.slot ≠ k)) ∧
    (∃ (s : State) (n : Fin 8) (i : Nat) (d : BitVec 512) (a : Nat) (k : Nat) (p : Plan), Safety.HostCommand s n i d 0x09 ∧ a = descNat d 8 8 ∧ k = descNat d 16 4 ∧ s.isActive = true ∧ s.inDepot a k = true ∧ s.badLine a k = false ∧ s.checkPlan (s.depRead a k) = .ok p) ∧
    (∃ (s : State) (n : Fin 8) (i : Nat) (d : BitVec 512) (a : Nat) (k : Nat) (j : Nat) (st : Byte), Safety.HostCommand s n i d 0x09 ∧ a = descNat d 8 8 ∧ k = descNat d 16 4 ∧ s.isActive = true ∧ s.inDepot a k = true ∧ s.badLine a k = false ∧ s.checkPlan (s.depRead a k) = .bad st j) ∧
    (∃ (s : State) (n : Fin 8) (i : Nat) (d : BitVec 512) (a : Nat) (ids : List W16) (l : List W16), Safety.HostCommand s n i d 0x0A ∧ a = descNat d 8 8 ∧ s.isActive = true ∧ s.depotList a = some ids ∧ s.badLine a 8 = false ∧ s.badLine a (8 * (1 + (ids.length + 3) / 4)) = false ∧ l = ids.foldl (fun m x => insertId x m) []) ∧
    (∃ (s : State) (n : Fin 8) (i : Nat) (d : BitVec 512), Safety.HostCommand s n i d 0x0B ∧ s.dealers.standby = true ∧ s.dealers.handover = false) ∧
    (∃ (s : State) (n : Fin 8) (i : Nat) (d : BitVec 512) (x : Solo), Safety.HostCommand s n i d 0x0C ∧ s.isActive = true ∧ (descNat d 8 1 = 0 ∧ x = .off ∨ descNat d 8 1 = 1 ∧ x = .cmd)) ∧
    (∃ (s : State) (n : Fin 8) (i : Nat) (d : BitVec 512), Safety.HostCommand s n i d 0x0D ∧ s.pair.fenced = true ∧ s.pair.renewAt = none) ∧
    (∃ (s : State) (n : Fin 8) (i : Nat) (d : BitVec 512) (op : Byte), Safety.HostCommand s n i d op ∧ opReserved op = true) :=
  ⟨⟨(hc (pkg) (desc 7 [(8, 1, 3), (16, 16, 0x10001)])), 0, 0, (desc 7 [(8, 1, 3), (16, 16, 0x10001)]), _, _, ⟨by decide +kernel, by decide +kernel, by decide +kernel, by decide +kernel⟩, rfl, rfl, by decide +kernel⟩,
    ⟨(hc (pkg) (desc 8 [(8, 1, 3)])), 0, 0, (desc 8 [(8, 1, 3)]), _, ⟨by decide +kernel, by decide +kernel, by decide +kernel, by decide +kernel⟩, rfl, fun x h => absurd h (by simp [hc, pkg, State.reset])⟩,
    ⟨(hc ({ pkg with depot := { mem := Mem.writeL [] 0 planBytes } }) (desc 9 [(16, 4, 16)])), 0, 0, (desc 9 [(16, 4, 16)]), _, _, { number := 3 }, ⟨by decide +kernel, by decide +kernel, by decide +kernel, by decide +kernel⟩, rfl, rfl, by decide +kernel, by decide +kernel, by decide +kernel, by decide +kernel⟩,
    ⟨(hc (pkg) (desc 9 [(16, 4, 24)])), 0, 0, (desc 9 [(16, 4, 24)]), _, _, 0, planInvalid, ⟨by decide +kernel, by decide +kernel, by decide +kernel, by decide +kernel⟩, rfl, rfl, by decide +kernel, by decide +kernel, by decide +kernel, by decide +kernel⟩,
    ⟨(hc ({ pkg with depot := { mem := Mem.writeL [] 0 (le 8 1 ++ le 8 7) } }) (desc 0xA [])), 0, 0, (desc 0xA []), _, [7], _, ⟨by decide +kernel, by decide +kernel, by decide +kernel, by decide +kernel⟩, rfl, by decide +kernel, by decide +kernel, by decide +kernel, by decide +kernel, rfl⟩,
    ⟨(hc (pkg) (desc 0xB [])), 0, 0, (desc 0xB []), ⟨by decide +kernel, by decide +kernel, by decide +kernel, by decide +kernel⟩, by decide +kernel, by decide +kernel⟩,
    ⟨(hc (pkg) (desc 0xC [])), 0, 0, (desc 0xC []), .off, ⟨by decide +kernel, by decide +kernel, by decide +kernel, by decide +kernel⟩, by decide +kernel, Or.inl (by decide +kernel)⟩,
    ⟨(hc ({ pkg with pair := { pkg.pair with fenced := true } }) (desc 0xD [])), 0, 0, (desc 0xD []), ⟨by decide +kernel, by decide +kernel, by decide +kernel, by decide +kernel⟩, by decide +kernel, by decide +kernel⟩,
    ⟨(hc (pkg) (desc 0xE [])), 0, 0, (desc 0xE []), 0xE, ⟨by decide +kernel, by decide +kernel, by decide +kernel, by decide +kernel⟩, by decide +kernel⟩⟩

theorem test_tally_commands_can_act :
    (∃ (s : State) (f : Flit) (fl : Flit) (t : Nat) (s1 : State) (s2 : State), Safety.TallyRequest s f ∧ t8Op f = 1 ∧ s.filterHit f = none ∧ s.filterRoom = true ∧ t = (t8Tally f).toNat ∧ s.tallyAdd t (t8Val f).toInt false = some s1 ∧ s2 = s1.setSettle (fun x => { x with cur := x.cur.adder f.src (s.slice f.slice.toNat).part }) ∧ fl = s2.completionOf f.src f.seq f.slice (t8Tally f) 1 0 (s2.tally t).count s2.stamp) ∧
    (∃ (s : State) (f : Flit) (x : Tally), Safety.TallyRequest s f ∧ t8Op f = 2 ∧ x = s.tally (t8Tally f).toNat) ∧
    (∃ (s : State) (f : Flit) (x : Tally), Safety.TallyRequest s f ∧ t8Op f = 3 ∧ x = s.tally (t8Tally f).toNat ∧ cmpHolds (t8Cmp f).toNat x.count.toNat (t8Val f).toNat = true) ∧
    (∃ (s : State) (f : Flit) (x : Tally) (t : State), Safety.TallyRequest s f ∧ t8Op f = 3 ∧ x = s.tally (t8Tally f).toNat ∧ cmpHolds (t8Cmp f).toNat x.count.toNat (t8Val f).toNat = false ∧ s.led.holds.length < 4096 ∧ t = s.dirty x.part.toNat) ∧
    (∃ (s : State) (src : W16) (seq : W16) (h : WaitHold), s.led.holds.find? (fun h => decide (h.src = src) && decide (h.seq = seq)) = some h) ∧
    (∃ (s : State) (n : Fin 8), s.isOwner n = true) ∧
    (∃ (s : State) (n : Fin 8) (t : W16) (v : W32) (p : BitVec 6), s.isOwner n = true ∧ tallyStrict t.toNat = false ∧ s.waiters t.toNat = 0 ∧ within v 0xF3BF = true ∧ p = bitsAt v 0 6 ∧ v.getLsbD 7 = true ∧ s.tallyUsed p.toNat < (s.lpart p.toNat).tallyQuota.toNat) ∧
    (∃ (s : State) (n : Fin 8) (t : W16) (v : W32) (p : BitVec 6), s.isOwner n = true ∧ tallyStrict t.toNat = false ∧ s.waiters t.toNat = 0 ∧ within v 0xF3BF = true ∧ p = bitsAt v 0 6 ∧ v.getLsbD 7 = false) :=
  ⟨⟨(talS 7), (t8 0x0000000500010405), _, 0x405, ((talS 7).tallyAdd 0x405 5 false).getD pkg, _, ⟨by decide +kernel, by decide +kernel, by decide +kernel, by decide +kernel, by decide +kernel, by decide +kernel, by decide +kernel, by decide +kernel⟩, by decide +kernel, by decide +kernel, by decide +kernel, by decide +kernel, by decide +kernel, rfl, rfl⟩,
    ⟨(talS 7), (t8 0x00020405), _, ⟨by decide +kernel, by decide +kernel, by decide +kernel, by decide +kernel, by decide +kernel, by decide +kernel, by decide +kernel, by decide +kernel⟩, by decide +kernel, rfl⟩,
    ⟨(talS 7), (t8 0x010000000500030405), _, ⟨by decide +kernel, by decide +kernel, by decide +kernel, by decide +kernel, by decide +kernel, by decide +kernel, by decide +kernel, by decide +kernel⟩, by decide +kernel, rfl, by decide +kernel⟩,
    ⟨(talS 3), (t8 0x010000000500030405), _, _, ⟨by decide +kernel, by decide +kernel, by decide +kernel, by decide +kernel, by decide +kernel, by decide +kernel, by decide +kernel, by decide +kernel⟩, by decide +kernel, rfl, by decide +kernel, by decide +kernel, rfl⟩,
    ⟨(ledS pkg (fun l => { l with holds := [⟨1, 2, 0, 0x405, 0, 9⟩] })), 1, 2, ⟨1, 2, 0, 0x405, 0, 9⟩, by decide +kernel⟩,
    ⟨pkg, 0, by decide +kernel⟩,
    ⟨pkg, 0, 0x405, 0x80, _, by decide +kernel, by decide +kernel, by decide +kernel, by decide +kernel, rfl, by decide +kernel, by decide +kernel⟩,
    ⟨pkg, 0, 0x405, 0, _, by decide +kernel, by decide +kernel, by decide +kernel, by decide +kernel, rfl, by decide +kernel⟩⟩

theorem test_settlement_commands_can_act :
    (∃ (s : State) (k : Stamp), (s.led.settle.asked = true ∨ s.fab.frame.toNat % s.led.settle.period.toNat = 0) ∧ k = { s.led.settle.cur with touched := s.led.settle.cur.touched.map (fun x => (x.1, (s.tally x.1.toNat).count)) }) ∧
    (∃ (s : State) (k : W32) (x : Stamp), s.stampOf k = some x ∧ x.stamp = k ∧ s.dealers.takeover = .none ∧ x.missing ≠ []) ∧
    (∃ (s : State) (k : W32) (x : Stamp), s.stampOf k = some x ∧ x.stamp = k ∧ s.dealers.takeover = .none ∧ x.missing ≠ [] ∧ x.called = true) ∧
    (∃ (s : State) (k : W32) (x : Stamp), s.stampOf k = some x ∧ s.dealers.takeover = .none) ∧
    (∃ (s : State) (k : W32) (x : Stamp), s.stampOf k = some x ∧ s.dealers.takeover = .none ∧ x.missing = []) ∧
    (∃ (s : State) (f : Flit) (k : Stamp) (x : Stamp) (t : State), f.cls = 9 ∧ f.crc = f.crcOf ∧ f.dest = s.myId ∧ byteField f.pay 0 8 = (2 : Byte) ∧ (byteField f.pay 2 8 : Byte).toNat ≤ 6 ∧ s.reportStamp f = some k ∧ t = s.modStamp k.stamp (fun x => x.take f) ∧ t.stampOf k.stamp = some x ∧ x.missing ≠ []) :=
  ⟨⟨(ledS pkg (fun l => { l with settle := { l.settle with asked := true } })), _, Or.inl rfl, rfl⟩,
    ⟨(ledS pkg (fun l => { l with settle := { l.settle with open_ := [{ stamp := 4, agents := [{ agent := 0x40, part := 0 }], called := true }] } })), 4, { stamp := 4, agents := [{ agent := 0x40, part := 0 }], called := true }, by decide +kernel, by decide +kernel, by decide +kernel, by decide +kernel⟩,
    ⟨(ledS pkg (fun l => { l with settle := { l.settle with open_ := [{ stamp := 4, agents := [{ agent := 0x40, part := 0 }], called := true }] } })), 4, { stamp := 4, agents := [{ agent := 0x40, part := 0 }], called := true }, by decide +kernel, by decide +kernel, by decide +kernel, by decide +kernel, by decide +kernel⟩,
    ⟨(ledS pkg (fun l => { l with settle := { l.settle with open_ := [{ stamp := 4, agents := [{ agent := 0x40, part := 0 }], called := true }] } })), 4, { stamp := 4, agents := [{ agent := 0x40, part := 0 }], called := true }, by decide +kernel, by decide +kernel⟩,
    ⟨(ledS pkg (fun l => { l with settle := { l.settle with open_ := [{ stamp := 4 }] } })), 4, { stamp := 4 }, by decide +kernel, by decide +kernel, by decide +kernel⟩,
    ⟨(ledS pkg (fun l => { l with settle := { l.settle with open_ := [{ stamp := 4, agents := [{ agent := 0x40, part := 0 }], called := true }] } })), (toMe 9 0x40 0x0000000400000002), { stamp := 4, agents := [{ agent := 0x40, part := 0 }], called := true }, ({ stamp := 4, agents := [{ agent := 0x40, part := 0 }], called := true } : Stamp).take (toMe 9 0x40 0x0000000400000002), _, by decide +kernel, by decide +kernel, by decide +kernel, by decide +kernel, by decide +kernel, by decide +kernel, rfl, by decide +kernel, by decide +kernel⟩⟩

theorem test_queue_and_partition_commands_can_act :
    (∃ (s : State) (n : Fin 8) (q : BitVec 15) (v : W32) (y : Queue), s.isOwner n = true ∧ ownerQueue q.toNat = true ∧ (s.queue q.toNat).en = false ∧ within v 0x3F7FFF = true ∧ v.getLsbD 14 = true ∧ y = (s.queue q.toNat).setCfg (deviceQueue q.toNat) v ∧ y.codesOk = true ∧ s.queueFits y = true) ∧
    (∃ (s : State) (n : Fin 8) (q : BitVec 15) (v : W32) (x : Queue), s.isOwner n = true ∧ ownerQueue q.toNat = true ∧ x = s.queue q.toNat ∧ x.en = true ∧ x.consHost = true ∧ v.toNat < x.size ∧ (v.toNat + x.size - x.head.toNat) % x.size ≤ x.count) ∧
    (∃ (s : State) (n : Fin 8) (q : BitVec 15) (v : W32) (x : Queue) (k : Nat) (t : State), s.isOwner n = true ∧ ownerQueue q.toNat = true ∧ x = s.queue q.toNat ∧ x.en = true ∧ x.prodHost = true ∧ v.toNat < x.size ∧ k = (v.toNat + x.size - x.tail.toNat) % x.size ∧ x.count + k < x.size ∧ t = (s.modQueue q.toNat (fun x => { x with tail := bitsAt v 0 15, pushes := satAdd x.pushes k })).dirty x.part.toNat) ∧
    (∃ (s : State) (q : BitVec 15), s.qStalled q.toNat = true) ∧
    (∃ (s : State) (n : Fin 8) (p : Fin 64) (v : W32), s.isOwner n = true ∧ within v 0x8000FFFF = true ∧ (s.lpart p).clean = true ∧ (s.lpart p).tenant ≠ bitsAt v 0 16) :=
  ⟨⟨pkg, 0, 32, 0x4080, _, by decide +kernel, by decide +kernel, by decide +kernel, by decide +kernel, by decide +kernel, rfl, by decide +kernel, by decide +kernel⟩,
    ⟨(ledS pkg (fun l => { l with queues := [(32, { en := true, loc := true, order := 2, consHost := true, tail := 3 })] })), 0, 32, 2, _, by decide +kernel, by decide +kernel, rfl, by decide +kernel, by decide +kernel, by decide +kernel, by decide +kernel⟩,
    ⟨(ledS pkg (fun l => { l with queues := [(32, { en := true, loc := true, order := 2, prodHost := true, tail := 3 })] })), 0, 32, 5, _, _, _, by decide +kernel, by decide +kernel, rfl, by decide +kernel, by decide +kernel, by decide +kernel, rfl, by decide +kernel, rfl⟩,
    ⟨(ledS pkg (fun l => { l with queues := [(32, { en := true, loc := true, order := 2, gated := true, tail := 1 })], sram := [(0, 1), (2, 5), (4, 9)] })), 32, by decide +kernel⟩,
    ⟨pkg, 0, 3, 7, by decide +kernel, by decide +kernel, by decide +kernel, by decide +kernel⟩⟩

theorem test_ledger_mailbox_commands_can_act :
    (∃ (s : State) (p : Byte) (m : BitVec 12) (x : LMbx), s.mbx m.toNat = x ∧ x.en = true ∧ s.partyActs p = true ∧ x.cmd = false ∧ x.serves p = false) ∧
    (∃ (s : State) (p : Byte) (m : BitVec 12) (x : LMbx), s.mbx m.toNat = x ∧ x.en = true ∧ s.partyActs p = true ∧ x.cmd = false ∧ x.serves p = true) ∧
    (∃ (s : State) (p : Byte) (m : BitVec 12) (x : LMbx), s.mbx m.toNat = x ∧ x.en = true ∧ s.partyActs p = true ∧ isHost p = false ∧ x.cmd = true ∧ x.claim = 0 ∧ x.serves p = false) ∧
    (∃ (s : State) (p : Byte) (m : BitVec 12) (x : LMbx), s.mbx m.toNat = x ∧ x.en = true ∧ s.partyActs p = true ∧ x.cmd = true ∧ x.claim = p) ∧
    (∃ (s : State) (p : Byte) (m : BitVec 12) (x : LMbx), s.mbx m.toNat = x ∧ x.en = true ∧ s.partyActs p = true ∧ x.cmd = true ∧ x.serves p = true ∧ x.claim ≠ 0 ∧ x.ring = true) ∧
    (∃ (s : State) (m : BitVec 12) (x : LMbx), s.mbx m.toNat = x ∧ x.en = true ∧ x.claim ≠ 0) ∧
    (∃ (s : State) (m : BitVec 12) (x : LMbx), s.mbx m.toNat = x ∧ x.en = true ∧ x.server = 33 ∧ x.cmd = false ∧ x.full = true ∧ m ≠ 0) ∧
    (∃ (s : State) (m : BitVec 12) (x : LMbx), s.mbx m.toNat = x ∧ x.en = true ∧ x.server = 33 ∧ x.cmd = false ∧ x.full = true ∧ m = 0) ∧
    (∃ (s : State) (p : Byte) (m : BitVec 12) (x : LMbx) (t : State), s.mbx m.toNat = x ∧ x.en = true ∧ (0 :: s.led.mbx.map (·.1)).eraseDups = [m.toNat] ∧ x.hitBy p = true ∧ t = s.modMbx m.toNat (fun y => y.abortBy p)) :=
  ⟨⟨(ledS pkg (fun l => { l with mbx := [(5, { en := true, server := 10 })] })), 16, 5, _, rfl, by decide +kernel, by decide +kernel, by decide +kernel, by decide +kernel⟩,
    ⟨(ledS pkg (fun l => { l with mbx := [(5, { en := true, server := 16 })] })), 16, 5, _, rfl, by decide +kernel, by decide +kernel, by decide +kernel, by decide +kernel⟩,
    ⟨(ledS pkg (fun l => { l with mbx := [(5, { en := true, cmd := true })] })), 16, 5, _, rfl, by decide +kernel, by decide +kernel, by decide +kernel, by decide +kernel, by decide +kernel, by decide +kernel⟩,
    ⟨(ledS pkg (fun l => { l with mbx := [(5, { en := true, cmd := true, claim := 16 })] })), 16, 5, _, rfl, by decide +kernel, by decide +kernel, by decide +kernel, by decide +kernel⟩,
    ⟨(ledS pkg (fun l => { l with mbx := [(5, { en := true, cmd := true, claim := 1, server := 16, ring := true })] })), 16, 5, _, rfl, by decide +kernel, by decide +kernel, by decide +kernel, by decide +kernel, by decide +kernel, by decide +kernel⟩,
    ⟨(ledS pkg (fun l => { l with mbx := [(5, { en := true, cmd := true, claim := 1 })] })), 5, _, rfl, by decide +kernel, by decide +kernel⟩,
    ⟨(ledS pkg (fun l => { l with mbx := [(5, { en := true, server := 33, full := true })] })), 5, _, rfl, by decide +kernel, by decide +kernel, by decide +kernel, by decide +kernel, by decide +kernel⟩,
    ⟨(ledS pkg (fun l => { l with mbx := [(0, { en := true, server := 33, full := true })] })), 0, _, rfl, by decide +kernel, by decide +kernel, by decide +kernel, by decide +kernel, by decide +kernel⟩,
    ⟨(ledS pkg (fun l => { l with mbx := [(0, { en := true, server := 16 })] })), 16, 0, _, _, rfl, by decide +kernel, by decide +kernel, by decide +kernel, rfl⟩⟩

theorem test_rebuild_commands_can_act :
    (∃ (s : State) (p : Nat) (l : Fin 64) (f : Flit) (k : W32) (w : Landing), f.cls = 2 ∧ s.subDown p = false ∧ f.crc = f.crcOf ∧ SMap.get noneOf s.fab.reb.sched (64 * p + l) = some k ∧ s.fab.reb.windows.find? (fun w => decide (w.convoy = k) && s.isOpen w && !w.last) = some w) ∧
    (∃ (s : State) (p : Nat) (l : Fin 64) (f : Flit), f.cls = 2 ∧ s.subDown p = false ∧ f.crc = f.crcOf ∧ SMap.get noneOf s.fab.reb.sched (64 * p + l) = none) ∧
    (∃ (s : State) (i : Nat) (w : Landing), s.fab.reb.windows[i]? = some w ∧ w.spent = true) ∧
    (∃ (s : State) (i : Nat) (d : Delivery) (sl : W16) (t : State), s.fab.reb.deliveries[i]? = some d ∧ (s.known d.dest).bind (fun k => k.bound) = some sl ∧ d.sent = false ∧ d.ready = true ∧ s.isActive = true ∧ t = (List.range ((d.len + 47) / 48)).foldl (fun s j => s.sendTo d.dest (s.deliveryFlit d sl ((d.len + 47) / 48) j)) s) :=
  ⟨⟨{ pkg with fab := { pkg.fab with ports := [(0, { up := true })], reb := { windows := [landW], sched := [(0, some 9)] } } }, 0, 0, (flit 2 0 0), 9, landW, by decide +kernel, by decide +kernel, by decide +kernel, by decide +kernel, by decide +kernel⟩,
    ⟨{ pkg with fab := { pkg.fab with ports := [(0, { up := true })], reb := {  } } }, 0, 0, (flit 2 0 0), by decide +kernel, by decide +kernel, by decide +kernel, by decide +kernel⟩,
    ⟨{ pkg with fab := { pkg.fab with ports := [(0, { up := true })], reb := { windows := [landW] } } }, 0, landW, by decide +kernel, by decide +kernel⟩,
    ⟨{ pkg with fab := { pkg.fab with paths := [{ id := 0x40, hello := 0, paths := [[0]], bound := some 3 }], reb := { deliveries := [⟨9, 0x40, 0, 64, 1, true, false⟩] } } }, 0, _, 3, _, rfl, by decide +kernel, by decide +kernel, by decide +kernel, by decide +kernel, rfl⟩⟩

theorem test_telemetry_events_can_act :
    (∃ (s : State) (f : Flit) (w : W32) (p : Nat) (n : Nat) (t : State), f.cls = 6 ∧ f.seq = 0xFFFF ∧ f.crc = f.crcOf ∧ f.dest = s.myId ∧ w = byteField f.pay 0 32 ∧ p = (byteField f.pay 4 8 : Byte).toNat ∧ n = (byteField f.pay 5 8 : Byte).toNat ∧ 1 ≤ n ∧ n ≤ 5 ∧ p + n ≤ 128 ∧ t = s.setCong (fun c => { c with window := if newer w c.window then w else c.window })) ∧
    (∃ (s : State) (id : W16) (w : W32), s.isActive = true ∧ s.lastWindow id = some w ∧ w.toNat + 10 < s.fab.frame.toNat / 100) ∧
    (∃ (s : State) (id : W16) (w : W32), s.isActive = true ∧ s.lastWindow id = some w ∧ s.fab.frame.toNat / 100 ≤ w.toNat + 10) ∧
    (∃ (s : State) (f : Flit) (w : W32) (p : Nat) (n : Nat) (t : State), f.cls = 6 ∧ f.seq = 0xFFFF ∧ f.crc = f.crcOf ∧ f.dest = s.myId ∧ w = byteField f.pay 0 32 ∧ p = (byteField f.pay 4 8 : Byte).toNat ∧ n = (byteField f.pay 5 8 : Byte).toNat ∧ 1 ≤ n ∧ n ≤ 5 ∧ p + n ≤ 128 ∧ t = s.setCong (fun c => { c with window := if newer w c.window then w else c.window })) :=
  ⟨⟨pkg, ({ toMe 6 0x40 0x010000000000 with seq := 0xFFFF } : Flit).seal, _, _, _, _, by decide +kernel, by decide +kernel, by decide +kernel, by decide +kernel, rfl, rfl, rfl, by decide +kernel, by decide +kernel, by decide +kernel, rfl⟩,
    ⟨{ pkg with fab := { pkg.fab with frame := 1600, cong := { ring := [(1280000 * 0x40, some ⟨5, 0, false⟩)] } } }, 0x40, 5, by decide +kernel, by decide +kernel, by decide +kernel⟩,
    ⟨{ pkg with fab := { pkg.fab with frame := 1500, cong := { ring := [(1280000 * 0x40, some ⟨5, 0, false⟩)] } } }, 0x40, 5, by decide +kernel, by decide +kernel, by decide +kernel⟩,
    ⟨pkg, ({ toMe 6 0x40 0x010000000000 with seq := 0xFFFF } : Flit).seal, _, _, _, _, by decide +kernel, by decide +kernel, by decide +kernel, by decide +kernel, rfl, rfl, rfl, by decide +kernel, by decide +kernel, by decide +kernel, rfl⟩⟩

theorem test_discovery_events_can_act :
    (∃ (s : State) (t : State), s.isActive = true ∧ s.fab.disc.active = false ∧ s.fab.nextPlan = none ∧ t = s.setDisc (fun _ => { active := true, cold := s.fab.gens.all (fun g => g.2.isNone) })) ∧
    (∃ (s : State) (f : Flit) (x : ProbeRec) (t : State), f.cls = 5 ∧ f.crc = f.crcOf ∧ f.dest = s.myId ∧ s.isActive = true ∧ s.fab.disc.probes.find? (fun x => x.seq = f.seq) = some x ∧ helloId f.pay ≠ 0xFFFF ∧ t = (s.setDisc (fun d => { d with probes := d.probes.filter (fun y => decide (y ≠ x)), dark := d.dark.filter (fun y => decide (y ≠ x.path)), untrained := d.untrained.filter (fun y => decide (some y ≠ s.untrainedAt x.path)) })).onHello f.pay x.path ∧ t.fab.disc.active = false) ∧
    (∃ (s : State) (f : Flit) (x : ProbeRec) (t : State) (u : State), f.cls = 5 ∧ f.crc = f.crcOf ∧ f.dest = s.myId ∧ s.isActive = true ∧ s.fab.disc.probes.find? (fun x => x.seq = f.seq) = some x ∧ helloId f.pay ≠ 0xFFFF ∧ t = (s.setDisc (fun d => { d with probes := d.probes.filter (fun y => decide (y ≠ x)), dark := d.dark.filter (fun y => decide (y ≠ x.path)), untrained := d.untrained.filter (fun y => decide (some y ≠ s.untrainedAt x.path)) })).onHello f.pay x.path ∧ u = t.setDisc (fun d => { d with found := addNew d.found (helloId f.pay), fresh := addNew d.fresh (helloId f.pay) }) ∧ t.fab.disc.active = true ∧ u.toSpread (helloId f.pay) x.path.length = false) ∧
    (∃ (s : State) (f : Flit) (x : ProbeRec) (t : State) (u : State), f.cls = 5 ∧ f.crc = f.crcOf ∧ f.dest = s.myId ∧ s.isActive = true ∧ s.fab.disc.probes.find? (fun x => x.seq = f.seq) = some x ∧ helloId f.pay ≠ 0xFFFF ∧ t = (s.setDisc (fun d => { d with probes := d.probes.filter (fun y => decide (y ≠ x)), dark := d.dark.filter (fun y => decide (y ≠ x.path)), untrained := d.untrained.filter (fun y => decide (some y ≠ s.untrainedAt x.path)) })).onHello f.pay x.path ∧ u = t.setDisc (fun d => { d with found := addNew d.found (helloId f.pay), fresh := addNew d.fresh (helloId f.pay) }) ∧ t.fab.disc.active = true ∧ u.toSpread (helloId f.pay) x.path.length = true) ∧
    (∃ (s : State) (f : Flit) (x : ProbeRec) (e : Byte) (prev : W16), f.cls = 5 ∧ f.crc = f.crcOf ∧ f.dest = s.myId ∧ s.isActive = true ∧ s.fab.disc.probes.find? (fun x => x.seq = f.seq) = some x ∧ helloId f.pay ≠ 0xFFFF ∧ x.path.getLast? = some e ∧ s.nodeAt x.path.dropLast = some prev ∧ s.isDuplicate f.pay prev e.toNat = false) ∧
    (∃ (s : State) (i : Nat) (x : ProbeRec), s.fab.disc.probes[i]? = some x ∧ x.tries < 2) ∧
    (∃ (s : State) (i : Nat) (x : ProbeRec), s.fab.disc.probes[i]? = some x ∧ x.tries = 2) ∧
    (∃ (s : State) (id : W16) (p : Nat) (u : W16 × Nat × Nat) (path : List Byte), s.fab.disc.untrained.find? (fun u => decide (u.1 = id) && decide (u.2.1 = p)) = some u ∧ s.pathFor id = some path ∧ u.2.2 < 10) ∧
    (∃ (s : State), s.isActive = true ∧ s.fab.disc.active = true ∧ s.fab.disc.probes = [] ∧ s.fab.disc.untrained = []) ∧
    (∃ (s : State), s.isActive = true ∧ s.fab.disc.active = false ∧ s.fab.disc.darkAt + 1000 * s.fab.disc.darkMs ≤ s.us) ∧
    (∃ (s : State) (t : State), s.pair.coldWait = true ∧ s.vbat.held = false ∧ s.dealers.role = false ∧ t = s.takePod (s.vbat.cepoch + 1) 3) :=
  ⟨⟨pkg, _, by decide +kernel, by decide +kernel, by decide +kernel, rfl⟩,
    ⟨{ pkg with fab := { pkg.fab with disc := { probes := [⟨[0], 3, 0⟩], active := false } } }, (toMe 5 0x40 0x40), ⟨[0], 3, 0⟩, _, by decide +kernel, by decide +kernel, by decide +kernel, by decide +kernel, by decide +kernel, by decide +kernel, rfl, by decide +kernel⟩,
    ⟨{ pkg with fab := { pkg.fab with disc := { probes := [⟨[0], 3, 0⟩], active := true, found := [0x40], spread := [(0x40, 1)] } } }, (toMe 5 0x40 0x40), ⟨[0], 3, 0⟩, _, _, by decide +kernel, by decide +kernel, by decide +kernel, by decide +kernel, by decide +kernel, by decide +kernel, rfl, rfl, by decide +kernel, by decide +kernel⟩,
    ⟨{ pkg with fab := { pkg.fab with disc := { probes := [⟨[0], 3, 0⟩], active := true } } }, (toMe 5 0x40 0x40), ⟨[0], 3, 0⟩, _, _, by decide +kernel, by decide +kernel, by decide +kernel, by decide +kernel, by decide +kernel, by decide +kernel, rfl, rfl, by decide +kernel, by decide +kernel⟩,
    ⟨{ pkg with fab := { pkg.fab with disc := { probes := [⟨[0], 3, 0⟩], active := true } } }, (toMe 5 0x40 0x40), ⟨[0], 3, 0⟩, 0, 0xFFC0, by decide +kernel, by decide +kernel, by decide +kernel, by decide +kernel, by decide +kernel, by decide +kernel, by decide +kernel, by decide +kernel, by decide +kernel⟩,
    ⟨{ pkg with fab := { pkg.fab with disc := { probes := [⟨[0], 3, 1⟩] } } }, 0, _, rfl, by decide +kernel⟩,
    ⟨{ pkg with fab := { pkg.fab with disc := { probes := [⟨[0], 3, 2⟩] } } }, 0, _, rfl, by decide +kernel⟩,
    ⟨{ linkS with fab := { linkS.fab with disc := { untrained := [(0x40, 7, 3)] } } }, 0x40, 7, (0x40, 7, 3), [0], by decide +kernel, by decide +kernel, by decide +kernel⟩,
    ⟨{ pkg with fab := { pkg.fab with disc := { active := true } } }, by decide +kernel, by decide +kernel, by decide +kernel, by decide +kernel⟩,
    ⟨{ pkg with us := 100000000 }, by decide +kernel, by decide +kernel, by decide +kernel⟩,
    ⟨{ stby with pair := { coldWait := true } }, _, by decide +kernel, by decide +kernel, by decide +kernel, rfl⟩⟩

theorem test_deck_commands_can_act :
    (∃ (s : State) (e : List Byte) (t : State) (r : Verdict × State), s.dealers.takeover = .none ∧ (s.queue 0x7FF0).en = true ∧ (s.queue 0x7FF0).count ≠ 0 ∧ s.qStalled 0x7FF0 = false ∧ e = s.qHead 0x7FF0 ∧ 1 ≤ (e.headD 0).toNat ∧ (e.headD 0).toNat ≤ 3 ∧ t = (s.qPop 0x7FF0).qRun 0x7FF0 qFuel ∧ r = t.runJob e) ∧
    (∃ (s : State), s.dealers.takeover = .none ∧ s.isActive = true) ∧
    (∃ (s : State), s.dealers.takeover = .none ∧ s.isActive = true ∧ s.dealers.change.isOpen = false ∧ s.fab.deck.dealing = none) ∧
    (∃ (s : State) (d : Deal), s.dealers.takeover = .none ∧ s.isActive = true ∧ s.fab.deck.dealing = some d ∧ d.only = none ∧ s.dealStale d = false ∧ d.todo = [] ∧ d.phase = 0 ∧ s.dealers.fepoch = d.epoch) ∧
    (∃ (s : State) (d : Deal), s.dealers.takeover = .none ∧ s.isActive = true ∧ s.fab.deck.dealing = some d ∧ d.only = none ∧ s.dealStale d = false ∧ d.todo = [] ∧ d.phase = 2 ∧ d.wait = []) ∧
    (∃ (s : State) (b : Nat) (k : Nat), s.dealers.takeover = .none ∧ s.isActive = true ∧ s.fab.deck.addr = some b ∧ k < s.deckRepairs b ∧ s.fab.deck.played.contains (s.repair b k).fault = true) ∧
    (∃ (s : State) (b : Nat) (d : Desc) (cs : List Cand) (t : State), s.dealers.takeover = .none ∧ s.isActive = true ∧ s.fab.deck.addr = some b ∧ descOk d = true ∧ s.installDue b d = true ∧ s.toInstall b (s.keyOf d) = (.cards cs, t) ∧ (∀ c ∈ cs, 2 ≤ t.cardState c)) ∧
    (∃ (s : State) (b : Nat) (d : Desc) (cs : List Cand) (t : State), s.dealers.takeover = .none ∧ s.isActive = true ∧ s.fab.deck.addr = some b ∧ descOk d = true ∧ s.installDue b d = true ∧ s.toInstall b (s.keyOf d) = (.cards cs, t) ∧ (∃ c ∈ cs, t.cardState c = 1)) ∧
    (∃ (s : State) (b : Nat) (d : Desc) (cs : List Cand) (t : State), s.dealers.takeover = .none ∧ s.isActive = true ∧ s.fab.deck.addr = some b ∧ descOk d = true ∧ s.installDue b d = true ∧ s.toInstall b (s.keyOf d) = (.cards cs, t) ∧ (∃ c ∈ cs, t.cardState c = 0) ∧ (∀ c ∈ cs, t.cardState c ≠ 1)) ∧
    (∃ (s : State) (d : Desc), s.dealers.takeover = .none ∧ s.isActive = true ∧ descOk d = true ∧ s.lossDue d = true ∧ s.fab.deck.addr = none ∧ s.fab.filter.contains (putBits (putBits (s.keyOf d) 36 s.myId) 52 (0 : Byte)) = false) ∧
    (∃ (s : State) (a : Nat) (reqs : Nat) (n : Nat) (c : Schedule) (f : DealFiles), s.dealers.takeover = .none ∧ s.isActive = true ∧ s.buildSchedule reqs n = some c ∧ s.inDepot a (schedBytes c s.dealers.fepoch false).length = true ∧ s.fab.deck.files = some f) ∧
    (∃ (s : State) (reqs : Nat) (n : Nat), s.dealers.takeover = .none ∧ s.isActive = true ∧ s.buildSchedule reqs n = none) ∧
    (∃ (s : State) (a : Nat) (c : Schedule), s.dealers.takeover = .none ∧ s.isActive = true ∧ s.schedPassed a = true ∧ s.schedule a = some c ∧ s.fab.deck.convoy = none) ∧
    (∃ (s : State) (a : Nat) (c : Schedule) (l : ConvoyLoad), s.dealers.takeover = .none ∧ s.isActive = true ∧ s.schedPassed a = true ∧ s.schedule a = some c ∧ s.fab.deck.convoy = some l ∧ l.addr = a ∧ (∀ u ∈ schedAgents c, u ∈ l.acked) ∧ s.dealers.bg.any (fun t => t.slots && (schedAgents c).contains t.agent) = false) :=
  ⟨⟨(ledS pkg (fun l => { l with queues := [(0x7FF0, { en := true, loc := true, order := 2, esize := 2, tail := 1 })], sram := [(0, 1)] })), _, _, _, by decide +kernel, by decide +kernel, by decide +kernel, by decide +kernel, rfl, by decide +kernel, by decide +kernel, rfl, rfl⟩,
    ⟨pkg, by decide +kernel, by decide +kernel⟩,
    ⟨pkg, by decide +kernel, by decide +kernel, by decide +kernel, by decide +kernel⟩,
    ⟨{ pkg with fab := { pkg.fab with deck := { dealing := some { files := ⟨0, 0, 0, 0⟩, policy := 0x8000, deck := 0x10000, net := pkg.net (pkg.portCost (pkg.policy 0x8000).cong), epoch := 0, phase := 0 } } } }, { files := ⟨0, 0, 0, 0⟩, policy := 0x8000, deck := 0x10000, net := pkg.net (pkg.portCost (pkg.policy 0x8000).cong), epoch := 0, phase := 0 }, by decide +kernel, by decide +kernel, rfl, by decide +kernel, by decide +kernel, by decide +kernel, by decide +kernel, by decide +kernel⟩,
    ⟨{ pkg with fab := { pkg.fab with deck := { dealing := some { files := ⟨0, 0, 0, 0⟩, policy := 0x8000, deck := 0x10000, net := pkg.net (pkg.portCost (pkg.policy 0x8000).cong), epoch := 0, phase := 2 } } } }, { files := ⟨0, 0, 0, 0⟩, policy := 0x8000, deck := 0x10000, net := pkg.net (pkg.portCost (pkg.policy 0x8000).cong), epoch := 0, phase := 2 }, by decide +kernel, by decide +kernel, rfl, by decide +kernel, by decide +kernel, by decide +kernel, by decide +kernel, by decide +kernel⟩,
    ⟨{ deckS with fab := { deckS.fab with deck := { deckS.fab.deck with played := [agentKey 0x40] } } }, 0x10000, 0, by decide +kernel, by decide +kernel, by decide +kernel, by decide +kernel, by decide +kernel⟩,
    ⟨deckArmed 2, 0x10000, agentKey 0x40, [deckCand], deckArmed 2, by decide +kernel, by decide +kernel, by decide +kernel, by decide +kernel, by decide +kernel, by decide +kernel, by decide +kernel⟩,
    ⟨deckArmed 1, 0x10000, agentKey 0x40, [deckCand], deckArmed 1, by decide +kernel, by decide +kernel, by decide +kernel, by decide +kernel, by decide +kernel, by decide +kernel, by decide +kernel⟩,
    ⟨deckS, 0x10000, agentKey 0x40, [deckCand], deckS, by decide +kernel, by decide +kernel, by decide +kernel, by decide +kernel, by decide +kernel, by decide +kernel, by decide +kernel, by decide +kernel⟩,
    ⟨{ pkg with fab := { pkg.fab with fold := { trumpDue := [0x40] } } }, agentKey 0x40, by decide +kernel, by decide +kernel, by decide +kernel, by decide +kernel, by decide +kernel, by decide +kernel⟩,
    ⟨{ pkg with fab := { pkg.fab with deck := { files := some ⟨0, 0, 0, 0⟩ } } }, 0x20000, 0x1000, 0, _, _, by decide +kernel, by decide +kernel, rfl, by decide +kernel, rfl⟩,
    ⟨pkg, 0, 1, by decide +kernel, by decide +kernel, by decide +kernel⟩,
    ⟨convoyS none, 0x20000, convoyC, by decide +kernel, by decide +kernel, by decide +kernel, by decide +kernel, by decide +kernel⟩,
    ⟨convoyS (some ⟨0x20000, [0x40], 5⟩), 0x20000, convoyC, ⟨0x20000, [0x40], 5⟩, by decide +kernel, by decide +kernel, by decide +kernel, by decide +kernel, by decide +kernel, by decide +kernel, by
      rw [show schedAgents convoyC = [0x40] from by decide +kernel]; simp, by decide +kernel⟩⟩

theorem test_assayer_commands_can_act :
    (∃ (s : State) (cert : List Byte) (t : State) (u : State), (s.vbat.rootSet = false ∨ s.asy.unlock = true) ∧ t = s.spdmAnswer cert ∧ u = t.setVbat (fun v => { v with rootSet := true, rootHash := sha384 (Config.rootOf cert) })) ∧
    (∃ (id : W32) (off : ReleaseKey → ReleaseKey), off = (fun r => if r.id = id then { r with usable := false } else r)) ∧
    (∃ (s : State) (k : Fin 64) (x : SpdmSess), s.spdm k = some x ∧ ((s.setSpdm k none).ctx x.ctx).long = none) ∧
    (∃ (s : State) (k : Fin 64) (x : SpdmSess) (r : Running) (t : State), s.spdm k = some x ∧ t = s.setSpdm k none ∧ (t.ctx x.ctx).long = some r ∧ uOp r.word = 0x70 ∧ r.phase = 1 ∧ r.arg = k.val) ∧
    (∃ (s : State), s.asy.xfer = 1) ∧
    (∃ (s : State), s.asy.xfer = 1) ∧
    (∃ (s : State) (n : Fin 8), s.isOwner n = true ∧ 2 ≤ (s.session n).path.toNat) ∧
    (∃ (s : State) (n : Fin 8), s.isOwner n = true ∧ (s.mono 0).toNat ≤ s.asy.secVer.toNat) ∧
    (∃ (s : State) (n : Fin 8), s.isOwner n = true) ∧
    (∃ (s : State) (n : Fin 8) (t : State), s.isOwner n = true ∧ s.vbat.held = false ∧ s.vbat.setValid = false ∧ s.setMembers.contains Config.identityHash = true ∧ t = { s with fresh := s.fresh + 1 }) ∧
    (∃ (s : State) (n : Fin 8) (v : W32), s.isOwner n = true ∧ s.vbat.held = false ∧ 1 ≤ v.toNat ∧ v.toNat ≤ 8 ∧ v.toNat ≤ s.vbat.setCount.toNat) ∧
    (∃ (s : State) (n : Fin 8) (v : W32), s.isOwner n = true ∧ v.toNat ≤ 0xFFFF) :=
  ⟨⟨pkg, [], _, _, Or.inl rfl, rfl, rfl⟩,
    ⟨0, _, rfl⟩,
    ⟨{ pkg with asy := { sess := [(0, some { agent := 0x40, ctx := 0, step := 0 })] } }, 0, _, rfl, by decide +kernel⟩,
    ⟨{ lg (uw 0x70 0 1 2 1 0) (fun r => { r with phase := 1 }) with asy := { sess := [(0, some { agent := 0x40, ctx := 0, step := 0 })] } }, 0, { agent := 0x40, ctx := 0, step := 0 }, _, _, by decide +kernel, rfl, rfl, by decide +kernel, by decide +kernel, by decide +kernel⟩,
    ⟨{ pkg with asy := { xfer := 1 } }, by decide +kernel⟩,
    ⟨{ pkg with asy := { xfer := 1 } }, by decide +kernel⟩,
    ⟨{ pkg with sess := [(0, { isOpen := true, path := 2 })] }, 0, by decide +kernel, by decide +kernel⟩,
    ⟨pkg, 0, by decide +kernel, by decide +kernel⟩,
    ⟨pkg, 0, by decide +kernel⟩,
    ⟨{ pkg with vbat := { setCount := 1, members := [(0, Config.identityHash)] } }, 0, _, by decide +kernel, rfl, rfl, by simp [State.setMembers, SMap.get], rfl⟩,
    ⟨{ pkg with vbat := { setCount := 2 } }, 0, 2, by decide +kernel, by decide +kernel, by decide +kernel, by decide +kernel, by decide +kernel⟩,
    ⟨pkg, 0, 3, by decide +kernel, by decide +kernel⟩⟩

theorem test_depot_allocation_commands_can_act :
    (∃ (s : State) (n : Fin 8) (i : Fin 256) (a : Alloc), s.isOwner n = true ∧ s.alloc i = a ∧ a.st = 0 ∧ a.size ≠ 0 ∧ s.inDepot a.addr a.len = true ∧ s.retiringAt a.addr a.len = false ∧ s.allocMeets i a.addr a.len = false) ∧
    (∃ (s : State) (n : Fin 8) (i : Fin 256) (a : Alloc), s.isOwner n = true ∧ s.alloc i = a ∧ a.st = 1 ∧ s.rangeBusy a.addr a.len = false) ∧
    (∃ (s : State) (n : Fin 8) (i : Fin 256) (a : Alloc) (v : W32), s.isOwner n = true ∧ s.alloc i = a ∧ v.toNat ≤ 0xFFFF ∧ a.st = 0) ∧
    (∃ (s : State) (n : Fin 8) (i : Fin 256) (a : Alloc) (v : W32), s.isOwner n = true ∧ s.alloc i = a ∧ v.toNat ≤ 0xFFFF ∧ a.st = 1 ∧ a.tenant ≠ v.setWidth 16 ∧ s.rangeBusy a.addr a.len = false) ∧
    (∃ (s : State) (x : Scrub) (xs : List Scrub) (i : Nat) (st : BitVec 2) (t : State), s.depot.scrubs = x :: xs ∧ x.entry = some (i, st) ∧ x.ctx = none ∧ t = { s with depot := { s.depot with mem := s.depot.mem.filter (fun b => decide (b.1 < x.addr) || decide (x.addr + x.len ≤ b.1)), bad := s.depot.bad.filter (fun l => decide (64 * l + 63 < x.addr) || decide (x.addr + x.len ≤ 64 * l)), scrubs := xs } }) :=
  ⟨⟨{ pkg with depot := { allocs := [(3, { size := 2 })] } }, 0, 3, _, by decide +kernel, rfl, by decide +kernel, by decide +kernel, by decide +kernel, by decide +kernel, by decide +kernel⟩,
    ⟨{ pkg with depot := { allocs := [(3, { size := 2, st := 1 })] } }, 0, 3, _, by decide +kernel, rfl, by decide +kernel, by decide +kernel⟩,
    ⟨{ pkg with depot := { allocs := [(3, { size := 2 })] } }, 0, 3, _, 7, by decide +kernel, rfl, by decide +kernel, by decide +kernel⟩,
    ⟨{ pkg with depot := { allocs := [(3, { size := 2, st := 1 })] } }, 0, 3, _, 7, by decide +kernel, rfl, by decide +kernel, by decide +kernel, by decide +kernel, by decide +kernel⟩,
    ⟨{ pkg with depot := { scrubs := [⟨0, 64, some (3, 1), none⟩] } }, _, _, 3, 1, _, rfl, by decide +kernel, by decide +kernel, rfl⟩⟩

theorem test_coin_cell_commands_can_act :
    (∃ (s : State), s.vbat.tamperEn = true) ∧
    (∃ (s : State) (t : State), t = (s.setVbat (fun _ => ({ ok := false, battLost := true, cause := 4, held := true } : Vbat))).vlogFree 4) ∧
    (∃ (s : State) (n : Fin 8), s.isOwner n = true) ∧
    (∃ (s : State) (n : Fin 8) (v : W32), s.isOwner n = true ∧ within v 0xF8 = true) ∧
    (∃ (s : State) (n : Fin 8), s.isOwner n = true ∧ s.vbat.setValid = true ∧ s.vbat.cause.getLsbD 3 = false ∧ s.vbat.cause.getLsbD 4 = false) :=
  ⟨⟨{ pkg with vbat := { tamperEn := true } }, by decide +kernel⟩,
    ⟨pkg, _, rfl⟩,
    ⟨pkg, 0, by decide +kernel⟩,
    ⟨pkg, 0, 8, by decide +kernel, by decide +kernel⟩,
    ⟨{ pkg with vbat := { setValid := true } }, 0, by decide +kernel, by decide +kernel, by decide +kernel, by decide +kernel⟩⟩

theorem test_reset_events_can_act :
    (∃ (s : State), s.plat.rst.pinLow = false) ∧
    (∃ (s : State) (e : W16), s.dealers.role = false ∧ older e s.dealers.cepoch = false) ∧
    (∃ (s : State) (b : Bool) (t : State), t = s.causeBit (if b then 5 else 4) ∧ s.plat.bring.ended.getLsbD 3 = true ∧ b = s.dealers.active) ∧
    (∃ (s : State) (b : Bool) (t : State), t = s.causeBit (if b then 5 else 4) ∧ s.plat.bring.ended.getLsbD 3 = true ∧ b ≠ s.dealers.active ∧ s.dealers.takeover = .none) ∧
    (∃ (s : State) (n : Fin 8), s.isOwner n = true) ∧
    (∃ (s : State) (n : Fin 8), s.isOwner n = true ∧ s.dealers.standby = true) :=
  ⟨⟨pkg, by decide +kernel⟩,
    ⟨stby, 5, by decide +kernel, by decide +kernel⟩,
    ⟨{ pkg with plat := { pkg.plat with bring := { ended := 8 } } }, _, _, rfl, by decide +kernel, rfl⟩,
    ⟨{ pkg with plat := { pkg.plat with bring := { ended := 8 } } }, true, _, rfl, by decide +kernel, by decide +kernel, by decide +kernel⟩,
    ⟨pkg, 0, by decide +kernel⟩,
    ⟨pkg, 0, by decide +kernel, by decide +kernel⟩⟩

theorem test_block_reset_commands_can_act :
    (∃ (s : State) (n : Fin 8) (kind : BitVec 3) (t : Byte) (v : W32), s.isOwner n = true ∧ v = fldW t 0 ||| fldW kind 8 ∧ s.blkExists kind.toNat t.toNat = true ∧ s.blkIdle kind.toNat t.toNat = true) ∧
    (∃ (s : State) (n : Fin 8) (kind : BitVec 3) (t : Byte) (v : W32), s.isOwner n = true ∧ v = fldW t 0 ||| fldW kind 8 ∧ s.blkExists kind.toNat t.toNat = true ∧ s.blkIdle kind.toNat t.toNat = false) ∧
    (∃ (s : State) (ok : Byte) (k : Nat) (d : Nat) (old : Nat) (t : State), s.plat.rst.blk = [(k, d, old)] ∧ t = s.setRst (fun r => { r with blk := [], blkState := if ok = 0 then 3 else 2 }) ∧ k = 1) ∧
    (∃ (s : State) (ok : Byte) (k : Nat) (d : Nat) (old : Nat) (t : State), s.plat.rst.blk = [(k, d, old)] ∧ t = s.setRst (fun r => { r with blk := [], blkState := if ok = 0 then 3 else 2 }) ∧ k ≠ 1) :=
  ⟨⟨pkg, 0, 3, 5, _, by decide +kernel, rfl, by decide +kernel, by decide +kernel⟩,
    ⟨pkg, 0, 1, 5, _, by decide +kernel, rfl, by decide +kernel, by decide +kernel⟩,
    ⟨{ pkg with plat := { pkg.plat with rst := { blk := [(1, 5, 0)] } } }, 0, 1, 5, 0, _, by decide +kernel, rfl, by decide +kernel⟩,
    ⟨{ pkg with plat := { pkg.plat with rst := { blk := [(2, 5, 0)] } } }, 0, 2, 5, 0, _, by decide +kernel, rfl, by decide +kernel⟩⟩

theorem test_bring_up_phases_can_act :
    (∃ (s : State) (r : OptionReads) (m : Nat × State), s.mayRun 1 [0] = true ∧ m = s.medianCode r.codes) ∧
    (∃ (s : State) (r : BootReads) (t : State) (u : State) (p : List Nat × State), s.mayRun 2 [0, 1] = true ∧ t = ((s.setAsy (fun _ => {})).startAssayers (s.imageOf r)).checkReference r.reference ∧ p = t.applyPins.summarize r.reference.isSome ∧ u = (p.2.placeDies p.1).bootCauses (p.2.fuseFault r.reference p.1) (s.imageOf r).isNone) ∧
    (∃ (s : State) (r : DealerBootReads) (ok : Bool → Bool) (b : Bool) (t : State), s.mayRun 3 [0, 1, 2] = true ∧ s.plat.bring.dealersFailed = false ∧ ok = (fun b => (if b then r.okB else r.okA) && !s.plat.rst.domains.contains (.dealer b)) ∧ b = (if ok (s.plat.opt.reg.getLsbD 19) then s.plat.opt.reg.getLsbD 19 else !s.plat.opt.reg.getLsbD 19) ∧ ok b = true ∧ t = ({ s with dealers := { s.dealers with active := b, standby := false, reload := true } } : State).setBring (fun x => { x with fallback := !ok (s.plat.opt.reg.getLsbD 19), ucPodVer := r.ucVersion })) ∧
    (∃ (s : State) (r : DealerBootReads) (ok : Bool → Bool), s.mayRun 3 [0, 1, 2] = true ∧ s.plat.bring.dealersFailed = false ∧ ok = (fun b => (if b then r.okB else r.okA) && !s.plat.rst.domains.contains (.dealer b)) ∧ ok true = false ∧ ok false = false) ∧
    (∃ (s : State) (ok : BitVec 6) (t : State), s.mayRun 4 [0, 1] = true ∧ s.plat.bring.depotFail = false ∧ t = ({ s with depot := { s.depot with mem := [], bad := [] } } : State).setBring (fun b => { b with online := s.stacksUp ok }) ∧ (s.stacksUp ok = s.plat.opt.depotEn ∨ (s.stacksUp ok ≠ 0 ∧ Config.regionsFit (s.stacksUp ok) = true))) ∧
    (∃ (s : State) (ok : BitVec 6) (t : State), s.mayRun 4 [0, 1] = true ∧ s.plat.bring.depotFail = false ∧ t = ({ s with depot := { s.depot with mem := [], bad := [] } } : State).setBring (fun b => { b with online := s.stacksUp ok }) ∧ s.stacksUp ok ≠ s.plat.opt.depotEn ∧ (s.stacksUp ok = 0 ∨ Config.regionsFit (s.stacksUp ok) = false)) ∧
    (∃ (s : State), s.mayRun 5 [0, 1] = true) ∧
    (∃ (s : State), s.mayRun 6 [0, 3, 4] = true) ∧
    (∃ (s : State), s.mayRun 7 [0, 1, 2, 3, 4, 5, 6] = true) ∧
    (∃ (s : State), s.plat.bring.ready = false ∧ s.plat.rst.powerGood = true) ∧
    (∃ (s : State) (n : Fin 8) (v : W32), s.isOwner n = true ∧ within v 0x3F = true) ∧
    (∃ (s : State) (i : Fin 6), s.plat.bring.retiring.getLsbD i = true ∧ s.stackUsed i = false) :=
  ⟨⟨{ State.reset with plat := { rst := { powerGood := true }, bring := { ended := 1 }, opt := {} } }, ⟨[], 0, [], []⟩, _, by decide +kernel, rfl⟩,
    ⟨{ State.reset with plat := { rst := { powerGood := true }, bring := { ended := 3 }, opt := {} } }, ⟨[], bootImg, bootImg, none⟩, _, _, _, by decide +kernel, rfl, rfl, rfl⟩,
    ⟨{ State.reset with plat := { rst := { powerGood := true }, bring := { ended := 7 }, opt := {} } }, ⟨true, true, [], [], 1⟩, _, _, _, by decide +kernel, by decide +kernel, rfl, rfl, by decide +kernel, rfl⟩,
    ⟨{ State.reset with plat := { rst := { powerGood := true }, bring := { ended := 7 }, opt := {} } }, ⟨false, false, [], [], 1⟩, _, by decide +kernel, by decide +kernel, rfl, by decide +kernel, by decide +kernel⟩,
    ⟨{ State.reset with plat := { rst := { powerGood := true }, bring := { ended := 3 }, opt := { depotEn := 0x3F } } }, 0x3F, _, by decide +kernel, by decide +kernel, rfl, Or.inl (by decide +kernel)⟩,
    ⟨{ State.reset with plat := { rst := { powerGood := true }, bring := { ended := 3 }, opt := { depotEn := 0x3F } } }, 0, _, by decide +kernel, by decide +kernel, rfl, by decide +kernel, Or.inl (by decide +kernel)⟩,
    ⟨{ State.reset with plat := { rst := { powerGood := true }, bring := { ended := 3 }, opt := {} } }, by decide +kernel⟩,
    ⟨{ State.reset with plat := { rst := { powerGood := true }, bring := { ended := 0x1B }, opt := {} } }, by decide +kernel⟩,
    ⟨{ State.reset with plat := { rst := { powerGood := true }, bring := { ended := 0x7F }, opt := {} } }, by decide +kernel⟩,
    ⟨{ State.reset with plat := { rst := { powerGood := true }, bring := { ended := 1 }, opt := {} } }, by decide +kernel, by decide +kernel⟩,
    ⟨pkg, 0, 5, by decide +kernel, by decide +kernel⟩,
    ⟨{ pkg with plat := { pkg.plat with bring := { retiring := 4 } } }, 2, by decide +kernel, by decide +kernel⟩⟩

theorem test_power_commands_can_act :
    (∃ (s : State) (w : Nat) (t : State) (u : State), t = s.sample w ∧ t.plat.pwr.ceiling < t.plat.pwr.proj ∧ u = t.shed 0 t.plat.pwr.ceiling ∧ u.plat.pwr.proj ≤ u.plat.pwr.ceiling) ∧
    (∃ (s : State) (w : Nat) (t : State) (u : State), t = s.sample w ∧ t.plat.pwr.ceiling < t.plat.pwr.proj ∧ u = t.shed 0 t.plat.pwr.ceiling ∧ u.plat.pwr.ceiling < u.plat.pwr.proj) ∧
    (∃ (s : State) (w : Nat) (t : State), t = (s.sample w).release ∧ (s.sample w).plat.pwr.proj ≤ (s.sample w).plat.pwr.ceiling ∧ (t.plat.pwr.tokensHeld = true ∨ t.plat.pwr.hold 0 ≠ 0 ∨ t.plat.pwr.hold 1 ≠ 0 ∨ t.plat.pwr.hold 2 ≠ 0)) ∧
    (∃ (s : State) (w : Nat) (t : State), t = (s.sample w).release ∧ (s.sample w).plat.pwr.proj ≤ (s.sample w).plat.pwr.ceiling ∧ t.plat.pwr.tokensHeld = false ∧ t.plat.pwr.hold 0 = 0 ∧ t.plat.pwr.hold 1 = 0 ∧ t.plat.pwr.hold 2 = 0) ∧
    (∃ (s : State) (e : Fin 320) (w : Nat), (s.eng e).st = 1 ∧ (∃ a b c, (s.str e).twait = some (a, b, c, w)) ∧ w + s.plat.pwr.lendUs < s.us) ∧
    (∃ (s : State) (e : Fin 320), (s.eng e).lending = true ∧ ((s.str e).twait = none ∨ (s.eng e).st ≠ 1)) ∧
    (∃ (s : State) (u : Sensor) (c : Int) (t : State) (v : State), t = s.setPwr (fun p => { p with temps := SMap.set zNat p.temps (Sensor.unit u) (storedTemp c), tjMax := satNat 8 ((SMap.set zNat p.temps (Sensor.unit u) (storedTemp c)).foldl (fun a x => max a (x.2 - 128)) 0) }) ∧ v = (match u with | .station d => t.dieTemp d (storedTemp c) | _ => t) ∧ storedTemp c < 233) ∧
    (∃ (s : State) (u : Sensor) (c : Int) (t : State) (v : State), t = s.setPwr (fun p => { p with temps := SMap.set zNat p.temps (Sensor.unit u) (storedTemp c), tjMax := satNat 8 ((SMap.set zNat p.temps (Sensor.unit u) (storedTemp c)).foldl (fun a x => max a (x.2 - 128)) 0) }) ∧ v = (match u with | .station d => t.dieTemp d (storedTemp c) | _ => t) ∧ 233 ≤ storedTemp c) ∧
    (∃ (s : State) (n : Fin 8) (v : W32), s.isOwner n = true ∧ 120 ≤ v.toNat ∧ v.toNat ≤ 350) ∧
    (∃ (s : State) (n : Fin 8) (v : W32), s.isOwner n = true ∧ v ≠ 0 ∧ within v 0xFFFF = true) :=
  ⟨⟨{ pkg with us := 1000, plat := { pkg.plat with pwr := {  } }, stat := { eng := [(0, { st := 1 })] } }, 3401, _, _, rfl, by decide +kernel, rfl, by decide +kernel⟩,
    ⟨{ pkg with us := 1000, plat := { pkg.plat with pwr := {  } } }, 3401, _, _, rfl, by decide +kernel, rfl, by decide +kernel⟩,
    ⟨{ pkg with us := 1000, plat := { pkg.plat with pwr := { tokensHeld := true, hold0 := 2 } } }, 100, _, rfl, by decide +kernel, Or.inr (Or.inl (by decide +kernel))⟩,
    ⟨{ pkg with us := 1000, plat := { pkg.plat with pwr := {  } } }, 100, _, rfl, by decide +kernel, by decide +kernel, by decide +kernel, by decide +kernel, by decide +kernel⟩,
    ⟨{ pkg with us := 1000, plat := { pkg.plat with pwr := {  } }, stat := { eng := [(0, { st := 1, str := ({ twait := some (5, 0, 1, 0) } : Stream) })] } }, 0, 0, by decide +kernel, ⟨5, 0, 1, rfl⟩, by decide +kernel⟩,
    ⟨{ pkg with us := 1000, plat := { pkg.plat with pwr := {  } }, stat := { eng := [(0, { lending := true })] } }, 0, by decide +kernel, Or.inl (by decide +kernel)⟩,
    ⟨pkg, .gate 3, 40, _, _, rfl, rfl, by decide +kernel⟩,
    ⟨pkg, .gate 3, 105, _, _, rfl, rfl, by decide +kernel⟩,
    ⟨pkg, 0, 120, by decide +kernel, by decide +kernel, by decide +kernel⟩,
    ⟨pkg, 0, 1, by decide +kernel, by decide +kernel, by decide +kernel⟩⟩

theorem test_rail_and_pin_commands_can_act :
    (∃ (s : State) (i : Fin 9) (mv : W16) (amps : W16) (low : Bool) (high : Bool) (t : State), low = decide (100 * mv.toNat < (railNominal i).1 * (100 - (railNominal i).2)) ∧ high = decide ((railNominal i).1 * (100 + (railNominal i).2) < 100 * mv.toNat) ∧ t = s.modRail i (fun r => { mv := mv, amps := amps, inRange := !low && !high, low := r.low || low, high := r.high || high }) ∧ low = false ∧ high = false) ∧
    (∃ (s : State) (i : Fin 9) (mv : W16) (amps : W16) (low : Bool) (high : Bool) (t : State), low = decide (100 * mv.toNat < (railNominal i).1 * (100 - (railNominal i).2)) ∧ high = decide ((railNominal i).1 * (100 + (railNominal i).2) < 100 * mv.toNat) ∧ t = s.modRail i (fun r => { mv := mv, amps := amps, inRange := !low && !high, low := r.low || low, high := r.high || high }) ∧ (low = true ∨ high = true)) ∧
    (∃ (s : State), s.plat.rst.seqFault = false ∧ s.plat.rst.powerGood = false) ∧
    (∃ (s : State) (n : Fin 8) (v : W32), s.isOwner n = true ∧ within v 0x1F = true) ∧
    (∃ (s : State) (n : Fin 8) (p : Fin 40) (v : W32), s.isOwner n = true ∧ p.val < s.fabricPorts ∧ within v 0xF13 = true ∧ (bitsAt v 0 2 : BitVec 2) ≠ 3 ∧ (∀ i < 4, (s.lane (laneOfSub (2 * p) + i)).st = 0 ∨ (s.lane (laneOfSub (2 * p) + i)).st = 4)) :=
  ⟨⟨pkg, 0, 650, 0, _, _, _, rfl, rfl, rfl, by decide +kernel, by decide +kernel⟩,
    ⟨pkg, 0, 700, 0, _, _, _, rfl, rfl, rfl, Or.inr (by decide +kernel)⟩,
    ⟨State.reset, by decide +kernel, by decide +kernel⟩,
    ⟨pkg, 0, 3, by decide +kernel, by decide +kernel⟩,
    ⟨pkg, 0, 3, 1, by decide +kernel, by decide +kernel, by decide +kernel, by decide +kernel, by decide +kernel⟩⟩

theorem test_commands_keep_queue_and_outputs_can_act :
    ∃ (c : Instr) (s : State) (t : State), exec c s = .next t :=
  ⟨.tick, pkg, _, rfl⟩

theorem test_step_keeps_canonical_stores_can_act :
    ∃ (s : State) (t : State), Safety.Canonical s ∧ Machine.step s = .next t :=
  ⟨{ pkg with pending := [.tick] }, _, ⟨by decide +kernel, by decide +kernel, by decide +kernel, by decide +kernel, by decide +kernel⟩, rfl⟩

theorem test_every_command_answers_can_act :
    (∃ (c : Instr), (∀ a : Nat, Safety.placeOf c = some a → a < 65536)) ∧
    (∃ (c : Instr) (a : Nat), Safety.placeOf c = some a ∧ 65536 ≤ a) :=
  ⟨⟨.mgmtSinkConsume 5, fun a h => by cases h; decide⟩,
    ⟨.mgmtSinkConsume 70000, 70000, by decide +kernel, by decide +kernel⟩⟩

theorem test_commands_touch_only_their_own_party_can_act :
    (∃ (c : Instr) (s : State) (t : State), Safety.Canonical s ∧ exec c s = .next t ∧ Safety.placeOf c = none) ∧
    (∃ (c : Instr) (s : State) (t : State) (a : Nat), Safety.Canonical s ∧ exec c s = .next t ∧ Safety.placeOf c = some a) :=
  ⟨⟨.tick, pkg, _, ⟨by decide +kernel, by decide +kernel, by decide +kernel, by decide +kernel, by decide +kernel⟩, rfl, by decide +kernel⟩,
    ⟨.mgmtSinkConsume 5, pkg, _, 5, ⟨by decide +kernel, by decide +kernel, by decide +kernel, by decide +kernel, by decide +kernel⟩, rfl, by decide +kernel⟩⟩

theorem test_agents_order_commands_by_epoch_pair_can_act :
    (∃ (s : State) (a : Nat) (x : Agent) (y : Agent) (c : Cmd) (i : SinkItem) (is : List SinkItem), a < 65536 ∧ s.agent a = x ∧ reservedOp c.op = false ∧ x.sw.sink = i :: is ∧ i.flit.cls = 4 ∧ x.cmdBusy = false ∧ c = Cmd.ofFlit i.flit i.port ∧ (i.flit.path = true → x.cu.answered.find? (fun r => r.dest = i.flit.src && r.seq = i.flit.seq) = none) ∧ badFormat i.flit = false ∧ c.piece = 0 ∧ c.more = false ∧ y = (if i.flit.path then ({ x with sw := { x.sw with sink := is } } : Agent).clearPieces c.src else { x with sw := { x.sw with sink := is } }) ∧ Safety.OlderPair x c) ∧
    (∃ (s : State) (a : Nat) (x : Agent) (y : Agent) (c : Cmd) (i : SinkItem) (is : List SinkItem), a < 65536 ∧ s.agent a = x ∧ reservedOp c.op = false ∧ x.sw.sink = i :: is ∧ i.flit.cls = 4 ∧ x.cmdBusy = false ∧ c = Cmd.ofFlit i.flit i.port ∧ (i.flit.path = true → x.cu.answered.find? (fun r => r.dest = i.flit.src && r.seq = i.flit.seq) = none) ∧ badFormat i.flit = false ∧ c.piece = 0 ∧ c.more = false ∧ y = (if i.flit.path then ({ x with sw := { x.sw with sink := is } } : Agent).clearPieces c.src else { x with sw := { x.sw with sink := is } }) ∧ Safety.NewerPair x c) ∧
    (∃ (s : State) (a : Nat) (x : Agent) (y : Agent) (c : Cmd) (i : SinkItem) (is : List SinkItem), a < 65536 ∧ s.agent a = x ∧ reservedOp c.op = false ∧ x.sw.sink = i :: is ∧ i.flit.cls = 4 ∧ x.cmdBusy = false ∧ c = Cmd.ofFlit i.flit i.port ∧ (i.flit.path = true → x.cu.answered.find? (fun r => r.dest = i.flit.src && r.seq = i.flit.seq) = none) ∧ badFormat i.flit = false ∧ c.piece = 0 ∧ c.more = false ∧ y = (if i.flit.path then ({ x with sw := { x.sw with sink := is } } : Agent).clearPieces c.src else { x with sw := { x.sw with sink := is } }) ∧ c.cep = x.id.cepoch ∧ c.dep = x.id.depoch) ∧
    (∃ (s : State) (a : Nat) (x : Agent) (c : Cmd), a < 65536 ∧ s.agent a = x ∧ reservedOp c.op = false ∧ x.cu.cur = some c ∧ x.cu.plays = [] ∧ c.path = true ∧ c.piece = 0 ∧ c.more = true ∧ Safety.OlderPair x c) ∧
    (∃ (s : State) (a : Nat) (x : Agent) (c : Cmd), a < 65536 ∧ s.agent a = x ∧ reservedOp c.op = false ∧ x.cu.cur = some c ∧ x.cu.plays = [] ∧ c.path = true ∧ c.piece = 0 ∧ c.more = true ∧ Safety.NewerPair x c) ∧
    (∃ (s : State) (a : Nat) (x : Agent) (c : Cmd), a < 65536 ∧ s.agent a = x ∧ reservedOp c.op = false ∧ x.cu.cur = some c ∧ x.cu.plays = [] ∧ c.path = true ∧ c.piece = 0 ∧ c.more = true ∧ c.cep = x.id.cepoch ∧ c.dep = x.id.depoch) ∧
    (∃ (s : State) (a : Nat) (x : Agent) (c : Cmd) (p : Pieces), a < 65536 ∧ s.agent a = x ∧ reservedOp c.op = false ∧ x.cu.cur = some c ∧ x.cu.plays = [] ∧ c.path = true ∧ c.piece ≠ 0 ∧ x.cu.pieces.find? (fun p => p.src = c.src) = some p ∧ c.piece = p.next ∧ c.op = p.op ∧ c.arg = p.arg ∧ Safety.OlderPair x c) ∧
    (∃ (s : State) (a : Nat) (x : Agent) (c : Cmd) (p : Pieces), a < 65536 ∧ s.agent a = x ∧ reservedOp c.op = false ∧ x.cu.cur = some c ∧ x.cu.plays = [] ∧ c.path = true ∧ c.piece ≠ 0 ∧ x.cu.pieces.find? (fun p => p.src = c.src) = some p ∧ c.piece = p.next ∧ c.op = p.op ∧ c.arg = p.arg ∧ Safety.NewerPair x c) ∧
    (∃ (s : State) (a : Nat) (x : Agent) (c : Cmd) (p : Pieces), a < 65536 ∧ s.agent a = x ∧ reservedOp c.op = false ∧ x.cu.cur = some c ∧ x.cu.plays = [] ∧ c.path = true ∧ c.piece ≠ 0 ∧ x.cu.pieces.find? (fun p => p.src = c.src) = some p ∧ c.piece = p.next ∧ c.op = p.op ∧ c.arg = p.arg ∧ c.cep = x.id.cepoch ∧ c.dep = x.id.depoch) :=
  ⟨⟨at0 (sunk 3), 0, sunk 3, _, _, ⟨flit 4 0x0040 (1 + (3 : Payload) <<< 16), 0⟩, [], by decide +kernel, by decide +kernel, by decide +kernel, by decide +kernel, by decide +kernel, by decide +kernel, rfl, by decide +kernel, by decide +kernel, by decide +kernel, by decide +kernel, rfl, Or.inl (by decide +kernel)⟩,
    ⟨at0 (sunk 7), 0, sunk 7, _, _, ⟨flit 4 0x0040 (1 + (7 : Payload) <<< 16), 0⟩, [], by decide +kernel, by decide +kernel, by decide +kernel, by decide +kernel, by decide +kernel, by decide +kernel, rfl, by decide +kernel, by decide +kernel, by decide +kernel, by decide +kernel, rfl, Or.inl (by decide +kernel)⟩,
    ⟨at0 (sunk 5), 0, sunk 5, _, _, ⟨flit 4 0x0040 (1 + (5 : Payload) <<< 16), 0⟩, [], by decide +kernel, by decide +kernel, by decide +kernel, by decide +kernel, by decide +kernel, by decide +kernel, rfl, by decide +kernel, by decide +kernel, by decide +kernel, by decide +kernel, rfl, by decide +kernel, by decide +kernel⟩,
    ⟨at0 (piecing (piece 3 0 true)), 0, piecing (piece 3 0 true), piece 3 0 true, by decide +kernel, by decide +kernel, by decide +kernel, by decide +kernel, by decide +kernel, by decide +kernel, by decide +kernel, by decide +kernel, Or.inl (by decide +kernel)⟩,
    ⟨at0 (piecing (piece 7 0 true)), 0, piecing (piece 7 0 true), piece 7 0 true, by decide +kernel, by decide +kernel, by decide +kernel, by decide +kernel, by decide +kernel, by decide +kernel, by decide +kernel, by decide +kernel, Or.inl (by decide +kernel)⟩,
    ⟨at0 (piecing (piece 5 0 true)), 0, piecing (piece 5 0 true), piece 5 0 true, by decide +kernel, by decide +kernel, by decide +kernel, by decide +kernel, by decide +kernel, by decide +kernel, by decide +kernel, by decide +kernel, by decide +kernel, by decide +kernel⟩,
    ⟨at0 (piecing (piece 3 1 false)), 0, piecing (piece 3 1 false), piece 3 1 false, ⟨0xFFC0, 1, 0, 1, []⟩, by decide +kernel, by decide +kernel, by decide +kernel, by decide +kernel, by decide +kernel, by decide +kernel, by decide +kernel, by decide +kernel, by decide +kernel, by decide +kernel, by decide +kernel, Or.inl (by decide +kernel)⟩,
    ⟨at0 (piecing (piece 7 1 false)), 0, piecing (piece 7 1 false), piece 7 1 false, ⟨0xFFC0, 1, 0, 1, []⟩, by decide +kernel, by decide +kernel, by decide +kernel, by decide +kernel, by decide +kernel, by decide +kernel, by decide +kernel, by decide +kernel, by decide +kernel, by decide +kernel, by decide +kernel, Or.inl (by decide +kernel)⟩,
    ⟨at0 (piecing (piece 5 1 false)), 0, piecing (piece 5 1 false), piece 5 1 false, ⟨0xFFC0, 1, 0, 1, []⟩, by decide +kernel, by decide +kernel, by decide +kernel, by decide +kernel, by decide +kernel, by decide +kernel, by decide +kernel, by decide +kernel, by decide +kernel, by decide +kernel, by decide +kernel, by decide +kernel, by decide +kernel⟩⟩

theorem test_observers_write_nothing_can_act :
    (∃ (s : State) (n : Fin 8) (c : Instr), s.isOwner n = false ∧ Safety.writerOf c = some n) ∧
    (∃ (s : State) (n : Fin 8), s.isOwner n = false) :=
  ⟨⟨State.reset, 0, .ignoredClr 0 1, by decide +kernel, by decide +kernel⟩,
    ⟨State.reset, 0, by decide +kernel⟩⟩

theorem test_reserved_ids_are_quarantined_can_act :
    ∃ (s : State) (t : State) (id : W16) (k : Known) (force : Bool), s.known id = some k ∧ t = s.examine id force ∧ (128 ≤ (helloId k.hello).toNat / 64 ∧ (helloId k.hello).toNat / 64 ≤ 511 ∨ helloBuild k.hello = 2 ∧ (helloId k.hello).toNat / 64 ≤ 127 ∨ helloBuild k.hello = 1 ∧ 512 ≤ (helloId k.hello).toNat / 64) :=
  ⟨{ pkg with fab := { pkg.fab with paths := [{ id := 0x40, hello := 0x2000, paths := [[0]], quar := false }] } }, _, 0x40, _, false, rfl, rfl, Or.inl (by decide +kernel)⟩

theorem test_power_domain_is_the_plans_can_act :
    (∃ (s : State) (id : W16) (r : PlanAgent), s.planOf id = some r ∧ r.rackHalf.toNat < 128) ∧
    (∃ (s : State) (id : W16), s.planOf id = none) :=
  ⟨⟨{ pkg with fab := { pkg.fab with plan := some { agents := [⟨0x40, 0, 0, 5, 0⟩] } } }, 0x40, ⟨0x40, 0, 0, 5, 0⟩, by decide +kernel, by decide +kernel⟩,
    ⟨pkg, 0x40, by decide +kernel⟩⟩

end Sys2Proof.Tests
end

section
/-! PROOFS (00). Agents order commands by the pair of epochs (R8), and discovery quarantines an agent whose reported ID its
build may not hold (R5). -/

namespace Sys2Proof.Machine

/-! ## Serial order (R7) -/

@[simp] theorem newer_self {w : Nat} (a : BitVec w) : newer a a = false := by simp [newer]

theorem ne_of_newer {w : Nat} {a b : BitVec w} (h : newer a b = true) : a ≠ b := by
  rintro rfl
  simp at h

theorem older_iff {w : Nat} (a b : BitVec w) : older a b = true ↔ newer a b = false ∧ a ≠ b := by simp [older]

/-! ## The pair of a command against the recorded one (R8)

The conditions of the statements are the three answers of `Agent.pairOrder`. -/

theorem Agent.pairOrder_of_older {x : Agent} {c : Cmd} (h : Safety.OlderPair x c) : x.pairOrder c = 0 := by
  rcases h with hcep | ⟨hcep, hdep⟩
  · obtain ⟨hn, hne⟩ := (older_iff _ _).1 hcep
    simp [Agent.pairOrder, hn, hne]
  · obtain ⟨hn, hne⟩ := (older_iff _ _).1 hdep
    simp [Agent.pairOrder, hcep, hn, hne]

theorem Agent.pairOrder_of_newer {x : Agent} {c : Cmd} (h : Safety.NewerPair x c) : x.pairOrder c = 2 := by
  rcases h with hcep | ⟨hcep, hdep⟩
  · simp [Agent.pairOrder, hcep]
  · simp [Agent.pairOrder, hcep, hdep]

theorem Agent.pairOrder_of_same {x : Agent} {c : Cmd} (hcep : c.cep = x.id.cepoch) (hdep : c.dep = x.id.depoch) :
    x.pairOrder c = 1 := by
  simp [Agent.pairOrder, hcep, hdep]

/-! ## What the steps of taking a command leave of the identity block -/

@[simp] theorem Agent.clearPieces_id (x : Agent) (src : W16) : (x.clearPieces src).id = x.id := rfl

@[simp] theorem Agent.abortCtrl_id (x : Agent) : x.abortCtrl.id = x.id := by
  unfold Agent.abortCtrl
  split_ifs <;> rfl

/-- Every answer but OK is counted, so only OK leaves the identity block as it is (R116). -/
theorem Agent.answer_ok_id (x : Agent) (c : Cmd) (ws : List W32) : (x.answer c 0 ws).id = x.id := by
  simp only [Agent.answer, if_true, Agent.respond]
  split_ifs <;> rfl

theorem Agent.acceptPair_of_newer {x : Agent} {c : Cmd} (h : x.pairOrder c = 2) :
    (x.acceptPair c).id.cepoch = c.cep ∧ (x.acceptPair c).id.depoch = c.dep := by
  simp only [Agent.acceptPair, h, if_true]
  split_ifs <;> simp

theorem Agent.acceptPair_of_not_newer {x : Agent} {c : Cmd} (h : x.pairOrder c ≠ 2) :
    (x.acceptPair c).id.cepoch = x.id.cepoch ∧ (x.acceptPair c).id.depoch = x.id.depoch := by
  simp only [Agent.acceptPair, h, if_false]
  split_ifs <;> simp

/-! ## An unsplit command at the sink (R115) -/

theorem Agent.takeCmd_of_older {x : Agent} {c : Cmd} (hop : reservedOp c.op = false) (h : x.pairOrder c = 0) :
    x.takeCmd c = x.answer c 0x01 [] := by
  simp [Agent.takeCmd, hop, h]

/-- A command whose pair is not older waits for its own checks, its pair accepted. -/
theorem Agent.takeCmd_of_not_older {x : Agent} {c : Cmd} (hop : reservedOp c.op = false) (h : x.pairOrder c ≠ 0) :
    (x.takeCmd c).id = (x.acceptPair c).id ∧ (x.takeCmd c).cu.cur = some c := by
  simp [Agent.takeCmd, hop, h]

/-- The head of the sink's queue is taken as a command: not answered before, its format good, and unsplit. -/
theorem Agent.consumeSink_of_unsplit {x : Agent} {i : SinkItem} {is : List SinkItem} (hsink : x.sw.sink = i :: is)
    (hcls : i.flit.cls = 4) (hbusy : x.cmdBusy = false)
    (hnew : i.flit.path = true →
      x.cu.answered.find? (fun r => r.dest = i.flit.src && r.seq = i.flit.seq) = none)
    (hfmt : badFormat i.flit = false) (hpiece : (Cmd.ofFlit i.flit i.port).piece = 0)
    (hmore : (Cmd.ofFlit i.flit i.port).more = false) :
    x.consumeSink = (if i.flit.path then
        ({ x with sw := { x.sw with sink := is } } : Agent).clearPieces (Cmd.ofFlit i.flit i.port).src
      else { x with sw := { x.sw with sink := is } }).takeCmd (Cmd.ofFlit i.flit i.port) := by
  have hsrc : (Cmd.ofFlit i.flit i.port).src = i.flit.src := rfl
  have hanswered : (if i.flit.path = true then
      x.cu.answered.find? (fun r => r.dest = i.flit.src && r.seq = i.flit.seq) else none) = none := by
    split_ifs with hpath
    · exact hnew hpath
    · rfl
  simp only [Agent.consumeSink, hsink, hcls, hbusy, Agent.consumeCmd, hanswered, hfmt, hpiece, hmore, hsrc]
  simp

/-! ## A piece of a split command (R113–R115) -/

/-- The piece c is the one to come: the first of its command, or the next of the pieces held from its src. -/
def Agent.InSequence (x : Agent) (c : Cmd) : Prop :=
  c.piece = 0 ∨ ∃ p : Pieces, x.cu.pieces.find? (fun p => p.src = c.src) = some p ∧
    c.piece = p.next ∧ c.op = p.op ∧ c.arg = p.arg

/-- The agent x has the piece c of a split command in hand, in sequence, and no play waits before it. -/
structure Agent.PieceInHand (x : Agent) (c : Cmd) : Prop where
  cur : x.cu.cur = some c
  plays : x.cu.plays = []
  path : c.path = true
  split : c.piece ≠ 0 ∨ c.more = true
  op : reservedOp c.op = false
  seq : x.InSequence c

/-- What COMMAND_PIECE does with a piece it neither refuses for its place nor for its pair: the pair is accepted, and the
piece is buffered and answered, or completes its command. -/
def Agent.acceptPiece (x : Agent) (c : Cmd) : Agent :=
  let held := (x.cu.pieces.find? (fun p => p.src = c.src)).map (·.words)
  let ws := (if c.piece = 0 then [] else held.getD []) ++ c.words
  let b := (x.acceptPair c).clearPieces c.src
  if c.more then
    let p : Pieces := { src := c.src, op := c.op, arg := c.arg, next := c.piece + 1, words := ws }
    ({ b with cu := { b.cu with pieces := b.cu.pieces ++ [p] } }).answer c 0 []
  else { b with cu := { b.cu with cur := some { c with piece := 0, more := false, words := ws, cnt := ws.length } } }

theorem Agent.acceptPiece_id (x : Agent) (c : Cmd) : (x.acceptPiece c).id = (x.acceptPair c).id := by
  simp only [Agent.acceptPiece, apply_ite Agent.id, Agent.answer_ok_id, Agent.clearPieces_id, ite_self]

/-- A piece in sequence stands or falls by its pair alone. -/
theorem Agent.PieceInHand.piece_eq {x : Agent} {c : Cmd} (h : x.PieceInHand c) :
    x.piece = if x.pairOrder c = 0 then (x.clearPieces c.src).answer c 0x01 [] else x.acceptPiece c := by
  obtain ⟨hcur, hplays, hpath, hsplit, hop, hseq⟩ := h
  have hunsplit : ¬(c.piece = 0 ∧ c.more = false) := by
    rintro ⟨hp, hm⟩
    simp [hp, hm] at hsplit
  rcases hseq with hfirst | ⟨p, hfind, hnext, hsameOp, hsameArg⟩
  · have hmore : c.more = true := by simpa [hfirst] using hunsplit
    cases hfind : x.cu.pieces.find? (fun p => p.src = c.src) <;>
      simp [Agent.piece, Agent.acceptPiece, hcur, hplays, hpath, hop, hfirst, hmore, hfind]
  · simp [Agent.piece, Agent.acceptPiece, hcur, hplays, hpath, hop, hunsplit, ← hnext, ← hsameOp, ← hsameArg, hfind]

/-! ## The order at a place of the pod -/

theorem State.onAgent_of_lt {s : State} {a : Nat} (ha : a < 65536) (f : Agent → Agent) :
    s.onAgent a f = .next (s.setAgent a (f (s.agent a))) := by
  simp [State.onAgent, State.modAgent, ha]

/-- R8 for the unsplit command c that the agent x at place a takes from its sink, y being x without the flit. -/
theorem mgmtSinkConsume_ordered {s : State} {a : Nat} {x y : Agent} {c : Cmd} (ha : a < 65536) (hx : s.agent a = x)
    (hop : reservedOp c.op = false) (hid : y.id = x.id) (htake : x.consumeSink = y.takeCmd c) :
    (Safety.OlderPair x c → exec (.mgmtSinkConsume a) s = .next (s.setAgent a (y.answer c 0x01 []))) ∧
    (Safety.NewerPair x c → ∃ z : Agent, exec (.mgmtSinkConsume a) s = .next (s.setAgent a z) ∧
      z.id.cepoch = c.cep ∧ z.id.depoch = c.dep ∧ z.cu.cur = some c) ∧
    (c.cep = x.id.cepoch → c.dep = x.id.depoch → ∃ z : Agent, exec (.mgmtSinkConsume a) s = .next (s.setAgent a z) ∧
      z.id.cepoch = x.id.cepoch ∧ z.id.depoch = x.id.depoch ∧ z.cu.cur = some c) := by
  have hexec : exec (.mgmtSinkConsume a) s = .next (s.setAgent a (y.takeCmd c)) := by
    rw [← htake, ← hx]
    exact State.onAgent_of_lt ha _
  have hpair : y.pairOrder c = x.pairOrder c := by simp only [Agent.pairOrder, hid]
  rw [hexec, ← hid]
  refine ⟨fun hold => ?_, fun hnewer => ⟨_, rfl, ?_⟩, fun hcep hdep => ⟨_, rfl, ?_⟩⟩
  · rw [Agent.takeCmd_of_older hop (hpair.trans (Agent.pairOrder_of_older hold))]
  · have horder : y.pairOrder c = 2 := hpair.trans (Agent.pairOrder_of_newer hnewer)
    obtain ⟨htid, htcur⟩ := Agent.takeCmd_of_not_older (x := y) hop (by simp [horder])
    simpa [htid, htcur] using Agent.acceptPair_of_newer horder
  · have horder : y.pairOrder c = 1 := Agent.pairOrder_of_same hcep hdep
    obtain ⟨htid, htcur⟩ := Agent.takeCmd_of_not_older (x := y) hop (by simp [horder])
    simpa [htid, htcur] using Agent.acceptPair_of_not_newer (x := y) (c := c) (by simp [horder])

/-- R8 for the piece c that the agent x at place a has in hand. -/
theorem commandPiece_ordered {s : State} {a : Nat} {x : Agent} {c : Cmd} (ha : a < 65536) (hx : s.agent a = x)
    (h : x.PieceInHand c) :
    (Safety.OlderPair x c → exec (.commandPiece a) s = .next (s.setAgent a ((x.clearPieces c.src).answer c 0x01 []))) ∧
    (Safety.NewerPair x c → ∃ z : Agent, exec (.commandPiece a) s = .next (s.setAgent a z) ∧
      z.id.cepoch = c.cep ∧ z.id.depoch = c.dep) ∧
    (c.cep = x.id.cepoch → c.dep = x.id.depoch → ∃ z : Agent, exec (.commandPiece a) s = .next (s.setAgent a z) ∧
      z.id.cepoch = x.id.cepoch ∧ z.id.depoch = x.id.depoch) := by
  have hexec : exec (.commandPiece a) s = .next (s.setAgent a (if x.pairOrder c = 0 then
      (x.clearPieces c.src).answer c 0x01 [] else x.acceptPiece c)) := by
    rw [← h.piece_eq, ← hx]
    exact State.onAgent_of_lt ha _
  rw [hexec]
  refine ⟨fun hold => ?_, fun hnewer => ⟨_, rfl, ?_⟩, fun hcep hdep => ⟨_, rfl, ?_⟩⟩
  · rw [if_pos (Agent.pairOrder_of_older hold)]
  · have horder := Agent.pairOrder_of_newer hnewer
    rw [if_neg (by simp [horder]), Agent.acceptPiece_id]
    exact Agent.acceptPair_of_newer horder
  · have horder := Agent.pairOrder_of_same hcep hdep
    rw [if_neg (by simp [horder]), Agent.acceptPiece_id]
    exact Agent.acceptPair_of_not_newer (by simp [horder])

/-- Settles O57: at the sink and at COMMAND_PIECE the outcome is decided by the command's pair. -/
theorem agentsOrderCommandsByEpochPair : Obligations.AgentsOrderCommandsByEpochPair := by
  intro s a x y c ha hx hop
  refine ⟨fun i is hsink hcls hbusy hc hnew hfmt hpiece hmore hy => ?_,
    fun hcur hplays hpath hpiece hmore =>
      commandPiece_ordered ha hx ⟨hcur, hplays, hpath, Or.inr hmore, hop, Or.inl hpiece⟩,
    fun p hcur hplays hpath hpiece hfind hnext hsameOp hsameArg =>
      commandPiece_ordered ha hx
        ⟨hcur, hplays, hpath, Or.inl hpiece, hop, Or.inr ⟨p, hfind, hnext, hsameOp, hsameArg⟩⟩⟩
  have hid : y.id = x.id := by rw [hy]; split_ifs <;> rfl
  subst hc
  exact mgmtSinkConsume_ordered ha hx hop hid
    (hy ▸ Agent.consumeSink_of_unsplit hsink hcls hbusy hnew hfmt hpiece hmore)

/-! ## The records that a quarantine writes (R5, R42) -/

/-- Changing a path-book record in place changes what the book knows of its agent, and nothing of the others. -/
theorem State.known_modKnown_self (s : State) (id : W16) (f : Known → Known) (hf : ∀ k, (f k).id = k.id) :
    (s.modKnown id f).known id = (s.known id).map f := by
  simp only [State.known, State.modKnown, List.find?_map]
  have hsame : ((fun k : Known => decide (k.id = id)) ∘ fun k => if k.id = id then f k else k) =
      fun k => decide (k.id = id) := by
    funext k
    by_cases hk : k.id = id <;> simp [hk, hf]
  rw [hsame]
  cases hfind : s.fab.paths.find? (fun k => decide (k.id = id)) with
  | none => rfl
  | some k =>
    have hk : k.id = id := by simpa using List.find?_some hfind
    simp [hk]

@[simp] theorem State.sendCmd_fab (s : State) (id : W16) (c : CmdSpec) (piece : Nat) (q : W16) (fep : W32) :
    (s.sendCmd id c piece q fep).fab = s.fab := by
  unfold State.sendCmd
  split <;> rfl

@[simp] theorem State.sendCmd_dealers (s : State) (id : W16) (c : CmdSpec) (piece : Nat) (q : W16) (fep : W32) :
    (s.sendCmd id c piece q fep).dealers = s.dealers := by
  unfold State.sendCmd
  split <;> rfl

theorem State.bgSend_fab (s : State) (t : Target) (c : CmdSpec) : (s.bgSend t c).fab = s.fab := by
  simp [State.bgSend, State.nextSeq]

/-- A command of the device's own stands among those under way, its agent and its work as given. -/
theorem State.bgSend_underWay (s : State) (t : Target) (c : CmdSpec) :
    ∃ x ∈ (s.bgSend t c).dealers.bg, x.agent = t.agent ∧ x.steps = t.steps := by
  simp only [State.bgSend, State.nextSeq, State.sendCmd_dealers]
  exact ⟨_, List.mem_append_right _ (List.mem_singleton_self _), rfl, rfl⟩

/-- A command without a generation to an agent of the path book is sent. -/
theorem State.devCmd_of_known {s : State} {id : W16} {k : Known} {c : CmdSpec} (hk : s.known id = some k)
    (hgen : needsGen c.op = false) : s.devCmd id c = s.bgSend { agent := id, idx := 0, steps := [.cmd c] } c := by
  simp [State.devCmd, hk, hgen]

/-- The record of the agent id says quarantined, and QUARANTINE is under way to it. -/
def State.Quarantined (s : State) (id : W16) : Prop :=
  (∃ j : Known, s.known id = some j ∧ j.quar = true) ∧
    ∃ x ∈ s.dealers.bg, x.agent = id ∧ x.steps = [.cmd (agCmd 0x0D 0)]

/-- Both parts rest on the path book and on the device's own commands alone. -/
theorem State.Quarantined.of_eq {s t : State} {id : W16} (h : s.Quarantined id) (hpaths : t.fab.paths = s.fab.paths)
    (hbg : t.dealers.bg = s.dealers.bg) : t.Quarantined id := by
  simpa only [State.Quarantined, State.known, hpaths, hbg] using h

theorem State.quarantine_quarantined {s : State} {id : W16} {k : Known} (hk : s.known id = some k) :
    (s.quarantine id).Quarantined id := by
  have hrec : (s.modKnown id (fun k => { k with quar := true })).known id = some { k with quar := true } :=
    (State.known_modKnown_self s id (fun k => { k with quar := true }) fun _ => rfl).trans (by rw [hk]; rfl)
  rw [State.quarantine, State.devCmd_of_known hrec rfl]
  refine ⟨⟨{ k with quar := true }, ?_, rfl⟩, State.bgSend_underWay _ _ _⟩
  simpa only [State.known, State.bgSend_fab] using hrec

/-! ## Discovery (R5) -/

/-- An ID its build may not hold is quarantined at its examination, whatever else the HELLO says. -/
theorem State.examine_quarantined_of_idBad {s : State} {id : W16} {k : Known} (force : Bool) (hk : s.known id = some k)
    (hbad : idBad k.hello = true) : (s.examine id force).Quarantined id := by
  have hq : ((s.report1 id 0xFF).quarantine id).Quarantined id := State.quarantine_quarantined (k := k) hk
  simp only [State.examine, hk, hbad, Bool.or_true, Bool.true_or, if_true]
  exact hq.of_eq rfl rfl

/-- The regions of R5 in 64-ID units: a reserved region, a switch in an accelerator's, an accelerator in a switch's. -/
theorem idBad_of_region {h : Payload}
    (hregion : 128 ≤ (helloId h).toNat / 64 ∧ (helloId h).toNat / 64 ≤ 511 ∨
      helloBuild h = 2 ∧ (helloId h).toNat / 64 ≤ 127 ∨ helloBuild h = 1 ∧ 512 ≤ (helloId h).toNat / 64) :
    idBad h = true := by
  simp only [idBad, Bool.or_eq_true, Bool.and_eq_true, decide_eq_true_eq]
  rcases hregion with ⟨hlo, hhi⟩ | ⟨hbuild, hhi⟩ | ⟨hbuild, hlo⟩
  · left; left; left
    omega
  · left; right
    exact ⟨by omega, by simp [hbuild]⟩
  · right
    exact ⟨by omega, by simp [hbuild]⟩

/-- Settles O59: the regions of R5 are among the IDs that `idBad` names. -/
theorem reservedIdsAreQuarantined : Obligations.ReservedIdsAreQuarantined := by
  rintro s _ id k force hk rfl hregion
  exact State.examine_quarantined_of_idBad force hk (idBad_of_region hregion)

end Sys2Proof.Machine
end

section
/-! PROOFS (09). An agent's power domain is the byte of its rack half in the DOMAIN table, as the host address map shows that
table (R338). -/

namespace Sys2Proof.Machine

/-! ## Bytes side by side in a word -/

/-- The word whose byte i is `b i`, for the n lowest bytes; bytes 4 and above do not fit. -/
def packedBytes (b : Nat → Byte) (n : Nat) : W32 := (List.range n).foldl (fun v i => v ||| fldW (b i) (8 * i)) 0

theorem packedBytes_succ (b : Nat → Byte) (n : Nat) :
    packedBytes b (n + 1) = packedBytes b n ||| fldW (b n) (8 * n) := by
  simp [packedBytes, List.range_succ]

theorem getLsbD_fldW {w : Nat} (x : BitVec w) (i k : Nat) :
    (fldW x i).getLsbD k = (decide (k < 32) && decide (i ≤ k) && x.getLsbD (k - i)) := by
  by_cases hk : k < 32
  · simp [fldW, hk, ← decide_not]
  · simp [hk, BitVec.getLsbD_of_ge _ _ (Nat.not_lt.1 hk)]

/-- Bit k of a word lies in byte k / 8, and is bit k % 8 of it. -/
theorem getLsbD_fldW_byte (x : Byte) (n k : Nat) :
    (fldW x (8 * n)).getLsbD k = (decide (k < 32) && decide (k / 8 = n) && x.getLsbD (k % 8)) := by
  rw [getLsbD_fldW]
  rcases Nat.lt_trichotomy (k / 8) n with hlt | rfl | hgt
  · have hbelow : ¬8 * n ≤ k := by omega
    simp [hlt.ne, hbelow]
  · have hoff : k - 8 * (k / 8) = k % 8 := by omega
    simp [hoff, Nat.mul_div_le]
  · have habove : 8 ≤ k - 8 * n := by omega
    simp [hgt.ne', BitVec.getLsbD_of_ge x _ habove]

theorem getLsbD_packedBytes (b : Nat → Byte) (n k : Nat) :
    (packedBytes b n).getLsbD k = (decide (k < 32) && decide (k / 8 < n) && (b (k / 8)).getLsbD (k % 8)) := by
  induction n with
  | zero => simp [packedBytes]
  | succ n ih =>
    rw [packedBytes_succ, BitVec.getLsbD_or, ih, getLsbD_fldW_byte]
    rcases Nat.lt_trichotomy (k / 8) n with hlt | heq | hgt
    · simp [hlt, hlt.ne, Nat.lt_succ_of_lt hlt]
    · simp [heq]
    · simp [hgt.ne', Nat.not_lt.2 hgt.le, Nat.not_lt.2 (Nat.succ_le_of_lt hgt)]

/-- Bits of the word from the foot of byte i on are the bits of that byte. -/
theorem bitsAt_packedBytes (b : Nat → Byte) {n i w : Nat} (hi : i < n) (hfit : i < 4) (hw : w ≤ 8) :
    bitsAt (packedBytes b n) (8 * i) w = bitsAt (b i) 0 w := by
  refine BitVec.eq_of_getLsbD_eq fun j hj => ?_
  have hbyte : (8 * i + j) / 8 = i := by omega
  have hbit : (8 * i + j) % 8 = j := by omega
  simp only [bitsAt, BitVec.getLsbD_extractLsb', getLsbD_packedBytes, hbyte, hbit, Nat.zero_add]
  simp [hi, show 8 * i + j < 32 by omega]

/-! ## The DOMAIN table in the host address map (R338) -/

/-- Word k of the table holds the bytes of the rack halves 4k to 4k + 3. -/
theorem State.hostWord_domain (s : State) (sec : Bool) {k : Nat} (hk : k < 32) :
    s.hostWord sec (0x400 + 4 * k) = packedBytes (fun i => SMap.get z8 s.fab.fold.domain (4 * k + i)) 4 := by
  have hfold : s.hostWord sec (0x400 + 4 * k) = s.foldWord (0x400 + 4 * k) := by
    simp only [State.hostWord]
    rw [if_neg (by omega), if_neg (by omega), if_pos (by omega)]
  have hbase : 0x400 + 4 * k - 0x400 = 4 * k := Nat.add_sub_cancel_left _ _
  have hin : 0x400 ≤ 0x400 + 4 * k ∧ 0x400 + 4 * k < 0x480 := by omega
  rw [hfold]
  simp only [State.foldWord, if_pos hin, hbase, packedBytes]

/-- The table entry of a rack half, read through the map. -/
theorem State.hostWord_domain_entry (s : State) (sec : Bool) {h : Nat} (hh : h < 128) :
    bitsAt (s.hostWord sec (0x400 + 4 * (h / 4))) (8 * (h % 4)) 5 = bitsAt (SMap.get z8 s.fab.fold.domain h) 0 5 := by
  have hin : h % 4 < 4 := Nat.mod_lt h (by decide)
  rw [State.hostWord_domain s sec (by omega), bitsAt_packedBytes _ hin hin (by decide), Nat.div_add_mod]

theorem State.domainOf_of_planned {s : State} {id : W16} {r : PlanAgent} (hr : s.planOf id = some r) :
    s.domainOf id = (bitsAt (SMap.get z8 s.fab.fold.domain r.rackHalf.toNat) 0 5).toNat := by
  simp only [State.domainOf, hr]

theorem State.domainOf_of_unplanned {s : State} {id : W16} (hr : s.planOf id = none) : s.domainOf id = 0 := by
  simp only [State.domainOf, hr]

/-- Settles O60: the byte that `domainOf` looks up is the byte the map shows for the record's rack half. -/
theorem powerDomainIsThePlans : Obligations.PowerDomainIsThePlans := by
  intro s id
  refine ⟨fun r hr hhalf => ?_, State.domainOf_of_unplanned⟩
  rw [State.domainOf_of_planned hr, State.hostWord_domain_entry s true hhalf]

end Sys2Proof.Machine
end

section
/-! PROOFS (whole machine). Every command is a step of one agent or of the package's own; what each of the two keeps holds of
every step. -/

namespace Sys2Proof.Machine

/-! ## The package's half of the commands that name the package or an agent -/

section Package

variable {s0 s : State} (h : s0.Follows s)
include h

@[simp] theorem execFrameStart_package_follows : s0.FollowsR (execFrameStart none s) := by
  simp (maxDischargeDepth := 30) [execFrameStart, h]
@[simp] theorem execSyncExchange_package_follows {frame} : s0.FollowsR (execSyncExchange none frame s) := by
  simp (maxDischargeDepth := 30) [execSyncExchange, h]
@[simp] theorem State.portEvent_package_follows {p loc} : s0.FollowsR (s.portEvent none p loc) := by
  simp [State.portEvent, h]
@[simp] theorem execLaneSignalLoss_package_follows {p} : s0.FollowsR (execLaneSignalLoss none p s) := by
  simp (maxDischargeDepth := 30) [execLaneSignalLoss, h]
@[simp] theorem execFecUncorrLimit_package_follows {p} : s0.FollowsR (execFecUncorrLimit none p s) := by
  simp (maxDischargeDepth := 30) [execFecUncorrLimit, h]
@[simp] theorem execLinkIdle_package_follows {p} : s0.FollowsR (execLinkIdle none p s) := by
  simp (maxDischargeDepth := 30) [execLinkIdle, h]
@[simp] theorem execDownSetReceived_package_follows {p} : s0.FollowsR (execDownSetReceived none p s) := by
  simp (maxDischargeDepth := 30) [execDownSetReceived, h]
@[simp] theorem execLinkTrained_package_follows {p peer pport flight} :
    s0.FollowsR (execLinkTrained none p peer pport flight s) := by
  simp (maxDischargeDepth := 30) [execLinkTrained, h]
@[simp] theorem execTrumpReceive_package_follows {inp f} : s0.FollowsR (execTrumpReceive none inp f s) := by
  cases inp <;> simp (maxDischargeDepth := 30) [execTrumpReceive, h]
@[simp] theorem execTrumpFilterExpire_package_follows {d} : s0.FollowsR (execTrumpFilterExpire none d s) := by
  simp (maxDischargeDepth := 30) [execTrumpFilterExpire, h]
@[simp] theorem execLaneRetrainStart_package_follows {lane cause} :
    s0.FollowsR (execLaneRetrainStart none lane cause s) := by
  simp (maxDischargeDepth := 30) [execLaneRetrainStart, h]
@[simp] theorem execCalibrationWindow_package_follows {lane margin} :
    s0.FollowsR (execCalibrationWindow none lane margin s) := by
  simp (maxDischargeDepth := 30) [execCalibrationWindow, h]
@[simp] theorem execRetrainChoose_package_follows {lane} : s0.FollowsR (execRetrainChoose none lane s) := by
  simp (maxDischargeDepth := 30) [execRetrainChoose, h]
@[simp] theorem execRetrainAdopt_package_follows {lane} : s0.FollowsR (execRetrainAdopt none lane s) := by
  simp only [execRetrainAdopt]
  split <;> simp (maxDischargeDepth := 30) [h]
@[simp] theorem execRetrainTimeout_package_follows {lane} : s0.FollowsR (execRetrainTimeout none lane s) := by
  simp (maxDischargeDepth := 30) [execRetrainTimeout, h]
@[simp] theorem execLaneAdapt_package_follows {lane margin} : s0.FollowsR (execLaneAdapt none lane margin s) := by
  simp (maxDischargeDepth := 30) [execLaneAdapt, h]
end Package

/-! ## What a command can do: a step of one agent, or a step of the package's -/

theorem exec_of_placeOf_some {c : Instr} {a : Nat} (s : State) (h : Safety.placeOf c = some a) :
    ∃ f, exec c s = s.onAgent a f := by
  cases c <;> cases h <;> exact ⟨_, rfl⟩

theorem exec_of_placeOf_none {c : Instr} (s : State) (h : Safety.placeOf c = none) : ∃ t, exec c s = .next t := by
  cases c <;> cases h <;> exact ⟨_, rfl⟩

theorem exec_follows_of_placeOf_none {c : Instr} (s : State) (h : Safety.placeOf c = none) : s.FollowsR (exec c s) := by
  have hs := State.Follows.refl s
  cases c <;> cases h <;> simp only [exec] <;> simp [hs]

/-- A next state is an agent's step at a place of the pod, or follows the state before it. -/
theorem exec_next_cases {c : Instr} {s t : State} (h : exec c s = .next t) :
    (∃ a f, Safety.placeOf c = some a ∧ t = s.modAgent a f) ∨ (Safety.placeOf c = none ∧ s.Follows t) := by
  cases hplace : Safety.placeOf c with
  | none => exact .inr ⟨rfl, (exec_follows_of_placeOf_none s hplace).next t h⟩
  | some a =>
    obtain ⟨f, hf⟩ := exec_of_placeOf_some s hplace
    rw [hf, State.onAgent] at h
    split_ifs at h
    cases h
    exact .inl ⟨a, f, rfl, rfl⟩

/-! ## What every command keeps -/

/-- Settles O52: an agent's step leaves queue, outputs and counter as they are, and a package's state follows. -/
theorem commandsKeepQueueAndOutputs : Obligations.CommandsKeepQueueAndOutputs := by
  intro c s t h
  rcases exec_next_cases h with ⟨a, f, -, rfl⟩ | ⟨-, hfollows⟩
  · exact ⟨rfl, List.prefix_refl _, Nat.le_refl _⟩
  · exact ⟨hfollows.pending, hfollows.out, hfollows.fresh⟩

/-- The canonical form reads neither the queue of commands nor anything but the five stores. -/
theorem State.canonical_iff (s : State) : Safety.Canonical s ↔ s.MemOk ∧ SMap.wf Agent.dflt s.agents = true :=
  ⟨fun ⟨hdepot, hactive, hstandby, hsram, hagents⟩ => ⟨⟨hdepot, hactive, hstandby, hsram⟩, hagents⟩,
    fun ⟨⟨hdepot, hactive, hstandby, hsram⟩, hagents⟩ => ⟨hdepot, hactive, hstandby, hsram, hagents⟩⟩

theorem exec_canonical {c : Instr} {s t : State} (hs : Safety.Canonical s) (h : exec c s = .next t) :
    Safety.Canonical t := by
  rw [State.canonical_iff] at hs ⊢
  rcases exec_next_cases h with ⟨a, f, -, rfl⟩ | ⟨-, hfollows⟩
  · exact ⟨hs.1, SMap.wf_set _ a _ hs.2⟩
  · exact ⟨hfollows.mem hs.1, hfollows.agents ▸ hs.2⟩

/-- Settles O53: an idle step changes nothing, and every command keeps the canonical form. -/
theorem stepKeepsCanonicalStores : Obligations.StepKeepsCanonicalStores := by
  intro s t hs h
  unfold step at h
  split at h
  next =>
    cases h
    exact hs
  next c rest _ => exact exec_canonical ((State.canonical_iff { s with pending := rest }).2 ((State.canonical_iff s).1 hs)) h

/-! ## Whom a command concerns -/

/-- Settles O56: the step of an agent writes its own place of the pod and nothing else. -/
theorem commandsTouchOnlyTheirOwnParty : Obligations.CommandsTouchOnlyTheirOwnParty := by
  intro c s t hs h
  rcases exec_next_cases h with ⟨a, f, hplace, rfl⟩ | ⟨hplace, hfollows⟩
  · refine ⟨fun hnone => by simp [hplace] at hnone, fun b hb => ?_⟩
    obtain rfl : a = b := by simpa [hplace] using hb
    exact ⟨rfl, fun b hne => by simp [State.agent, SMap.get_set _ _ _ _ hs.agents, hne]⟩
  · exact ⟨fun _ => hfollows.agents, fun b hb => by simp [hplace] at hb⟩

/-- Settles O55: a package's command answers in every state, an agent's one when its place is of the pod. -/
theorem everyCommandAnswers : Obligations.EveryCommandAnswers := by
  intro c s
  refine ⟨fun hin => ?_, fun a hplace hout => ?_⟩
  · cases hplace : Safety.placeOf c with
    | none => exact exec_of_placeOf_none s hplace
    | some a =>
      obtain ⟨f, hf⟩ := exec_of_placeOf_some s hplace
      exact ⟨_, hf.trans (State.onAgent_of_lt (hin a hplace) f)⟩
  · obtain ⟨f, hf⟩ := exec_of_placeOf_some s hplace
    rw [hf, State.onAgent, if_neg (Nat.not_lt.2 hout)]

/-- Settles O51: both are the clauses of `step`. -/
theorem stepRunsFrontCommand : Obligations.StepRunsFrontCommand := fun _ _ _ => ⟨rfl, rfl⟩

end Sys2Proof.Machine
end

section
/-! PROOFS (00, 05). What reset leaves in the host address map, and what a session that does not own the device can do
through it (R4). -/

namespace Sys2Proof.Machine

/-! ## What reset leaves -/

theorem State.canonical_reset : Safety.Canonical State.reset := ⟨rfl, rfl, rfl, rfl, rfl⟩

/-- Word d of the budget table is the budget of power domain d (R339). -/
theorem State.hostWord_budget (s : State) (sec : Bool) {d : Nat} (hd : d < 32) :
    s.hostWord sec (0x480 + 4 * d) = BitVec.ofNat 32 (s.budget d) := by
  have hfold : s.hostWord sec (0x480 + 4 * d) = s.foldWord (0x480 + 4 * d) := by
    simp only [State.hostWord]
    rw [if_neg (by omega), if_neg (by omega), if_pos (by omega)]
  have hidx : (0x480 + 4 * d - 0x480) / 4 = d := by omega
  rw [hfold]
  simp only [State.foldWord]
  rw [if_neg (by omega), if_pos (by omega), hidx]

/-- Settles O54: single words by evaluation, the two tables by their entries. -/
theorem resetState : Obligations.ResetState := by
  refine ⟨State.canonical_reset, rfl, rfl, by decide, by decide, by decide, by decide, by decide, by decide, fun h hh => ?_,
    fun d hd => ?_⟩
  · rw [State.hostWord_domain _ _ (by omega)]
    exact show packedBytes (fun _ => 0) 4 = 0 by decide
  · rw [State.hostWord_budget _ _ hd]
    rfl

/-! ## Writes of a session that does not own the device (R4) -/

theorem State.ownerWrite_of_not_owner {s : State} {n : Nat} (h : s.isOwner n = false) (f : State → Option State) :
    s.ownerWrite n f = s.ignoreBy n := by
  simp [State.ownerWrite, h]

theorem State.ownerWrite_of_owner {s : State} {n : Nat} (h : s.isOwner n = true) (f : State → Option State) :
    s.ownerWrite n f = (f s).getD (s.ignoreBy n) := by
  simp [State.ownerWrite, h]

/-- Every register write of a session's goes through the owner's check. -/
theorem exec_of_writerOf {c : Instr} {n : Fin 8} (s : State) (h : Safety.writerOf c = some n) :
    ∃ f, exec c s = .next (s.ownerWrite n f) := by
  cases c
  case depotApertureAccess m off acc => cases acc <;> cases h; exact ⟨_, rfl⟩
  all_goals cases h <;> exact ⟨_, rfl⟩

/-! ## Words an observer reads (R4)

In each block of the map the word an observer sees is the owner's under the mask of what is not secure. -/

section Mask

variable {off : Nat}

theorem openMask_of_keySlot (hlo : 0x8100 ≤ off) (hhi : off < 0x8500) (h : off % 16 = 0) : Safety.openMask off = 0x0000FFFF := by
  simp only [Safety.openMask]
  rw [if_pos (by omega)]

theorem openMask_of_alloc (hlo : 0x9000 ≤ off) (hhi : off < 0xA000) (h : off % 16 = 8) : Safety.openMask off = 0 := by
  simp only [Safety.openMask]
  rw [if_neg (by omega), if_pos (by omega)]

theorem openMask_of_partition (hlo : 0x1100000 ≤ off) (hhi : off < 0x1101000) (h : off % 0x40 = 0) :
    Safety.openMask off = 0xFFFF0000 := by
  simp only [Safety.openMask]
  rw [if_neg (by omega), if_neg (by omega), if_pos (by omega)]

theorem openMask_of_engine (hlo : 0x10000000 ≤ off) (hhi : off < 0x12800000) (hlo' : 0x1000 ≤ off % 0x100000)
    (hhi' : off % 0x100000 < 0x1800) (h : off % 256 = 4) : Safety.openMask off = 0 := by
  simp only [Safety.openMask]
  rw [if_neg (by omega), if_neg (by omega), if_neg (by omega), if_pos (by omega)]

/-- Where the mask hides nothing, a word is as it is. -/
theorem and_openMask_of_open (w : W32) (hkey : ¬(0x8100 ≤ off ∧ off < 0x8500 ∧ off % 16 = 0))
    (halloc : ¬(0x9000 ≤ off ∧ off < 0xA000 ∧ off % 16 = 8)) (hpart : ¬(0x1100000 ≤ off ∧ off < 0x1101000 ∧ off % 0x40 = 0))
    (heng : ¬(0x10000000 ≤ off ∧ off < 0x12800000 ∧ 0x1000 ≤ off % 0x100000 ∧ off % 0x100000 < 0x1800 ∧ off % 256 = 4)) :
    w &&& Safety.openMask off = w := by
  simp only [Safety.openMask, hkey, halloc, hpart, heng, if_false]
  exact BitVec.and_allOnes

end Mask

theorem low_half_mask : ∀ i < 32, (0x0000FFFF : W32).getLsbD i = decide (i < 16) := by decide

theorem high_half_mask : ∀ i < 32, (0xFFFF0000 : W32).getLsbD i = decide (16 ≤ i) := by decide

/-- The low half of a word hides a field in its high half. -/
theorem fldW_and_low_half (x : W16) : fldW x 16 &&& 0x0000FFFF = 0 := by
  refine BitVec.eq_of_getLsbD_eq fun i hi => ?_
  rw [BitVec.getLsbD_and, getLsbD_fldW, low_half_mask i hi]
  by_cases h : i < 16 <;> simp [h, Nat.not_le.2]

/-- The high half of a word hides a field in its low half. -/
theorem setWidth_and_high_half (x : W16) : x.setWidth 32 &&& 0xFFFF0000 = 0 := by
  refine BitVec.eq_of_getLsbD_eq fun i hi => ?_
  rw [BitVec.getLsbD_and, BitVec.getLsbD_setWidth, high_half_mask i hi]
  by_cases h : 16 ≤ i <;> simp [h, BitVec.getLsbD_of_ge]

theorem setWidth_and_low_half : ∀ x : BitVec 2, x.setWidth 32 &&& 0x0000FFFF = x.setWidth 32 := by decide

theorem fldW2_and_low_half : ∀ x : BitVec 2, fldW x 2 &&& 0x0000FFFF = fldW x 2 := by decide

theorem fldW4_and_low_half : ∀ x : BitVec 2, fldW x 4 &&& 0x0000FFFF = fldW x 4 := by decide

theorem bitW_and_high_half : ∀ b : Bool, bitW b 31 &&& 0xFFFF0000 = bitW b 31 := by decide

/-- R413: of a key slot's words the first alone holds its tenant. -/
theorem State.asyWord_open (s : State) {off : Nat} (hlo : 0x8000 ≤ off) (hhi : off < 0x9000) :
    s.asyWord false off = s.asyWord true off &&& Safety.openMask off := by
  by_cases hslot : 0x8100 ≤ off ∧ off < 0x8500
  · have hroot : ¬(0x8020 ≤ off ∧ off < 0x8050) := by omega
    by_cases h0 : off % 16 = 0
    · rw [openMask_of_keySlot hslot.1 hslot.2 h0]
      simp only [State.asyWord, if_neg hroot, if_pos hslot, h0, BitVec.and_or_distrib_right, setWidth_and_low_half,
        fldW2_and_low_half, fldW4_and_low_half, if_true, fldW_and_low_half, Bool.false_eq_true, if_false]
    · rw [and_openMask_of_open _ (by omega) (by omega) (by omega) (by omega)]
      simp only [State.asyWord, if_neg hroot, if_pos hslot]
      split
      case h_1 => omega
      all_goals rfl
  · rw [and_openMask_of_open _ (by omega) (by omega) (by omega) (by omega)]
    simp only [State.asyWord, if_neg hslot]

/-- R422: of an allocation's words the third alone holds its tenant. -/
theorem State.allocWord_open (s : State) {off : Nat} (hlo : 0x9000 ≤ off) (hhi : off < 0xA000) :
    s.allocWord false off = s.allocWord true off &&& Safety.openMask off := by
  by_cases h8 : off % 16 = 8
  · rw [openMask_of_alloc hlo hhi h8]
    simp [State.allocWord, h8]
  · rw [and_openMask_of_open _ (by omega) (by omega) (by omega) (by omega)]
    simp only [State.allocWord]
    split
    case h_3 => omega
    all_goals rfl

/-- R375: of the ledger's words the first of a partition alone holds its tenant. -/
theorem State.ledWord_open (s : State) {off : Nat} (hlo : 0x1100000 ≤ off) (hhi : off < 0x2000000) :
    s.ledWord false (off - 0x1100000) = s.ledWord true (off - 0x1100000) &&& Safety.openMask off := by
  by_cases hpart : off - 0x1100000 < 0x1000
  · by_cases h0 : (off - 0x1100000) % 0x40 = 0
    · rw [openMask_of_partition hlo (by omega) (by omega)]
      simp only [State.ledWord, if_pos hpart, h0, BitVec.and_or_distrib_right, setWidth_and_high_half, bitW_and_high_half,
        if_true, Bool.false_eq_true, if_false]
    · rw [and_openMask_of_open _ (by omega) (by omega) (by omega) (by omega)]
      simp only [State.ledWord, if_pos hpart]
      split
      case h_1 => omega
      all_goals rfl
  · rw [and_openMask_of_open _ (by omega) (by omega) (by omega) (by omega)]
    simp only [State.ledWord, if_neg hpart]

/-- R238: of a die's words the second of an engine's alone holds its tenant. -/
theorem State.dieWord_open (s : State) {off : Nat} (hlo : 0x10000000 ≤ off) (hhi : off < 0x12800000) (d : Nat) :
    s.dieWord false d (off % 0x100000) = s.dieWord true d (off % 0x100000) &&& Safety.openMask off := by
  have hmod : off % 0x100000 % 256 = off % 256 := by omega
  by_cases heng : 0x1000 ≤ off % 0x100000 ∧ off % 0x100000 < 0x1800
  · by_cases h4 : off % 256 = 4
    · rw [openMask_of_engine hlo hhi heng.1 heng.2 h4]
      simp [State.dieWord, heng, State.engWord, hmod, h4]
    · rw [and_openMask_of_open _ (by omega) (by omega) (by omega) (by omega)]
      simp only [State.dieWord, if_pos heng, State.engWord, hmod]
      refine if_congr Iff.rfl rfl ?_
      split
      case h_2 => omega
      all_goals rfl
  · rw [and_openMask_of_open _ (by omega) (by omega) (by omega) (by omega)]
    simp only [State.dieWord, if_neg heng]

/-- Outside the four blocks that hold tenants the mask hides nothing. -/
theorem eq_and_openMask (w : W32) {off : Nat} (h : off < 0x8000 ∨ 0xA000 ≤ off ∧ off < 0x1100000 ∨
    0x2000000 ≤ off ∧ off < 0x10000000 ∨ 0x12800000 ≤ off) : w = w &&& Safety.openMask off :=
  (and_openMask_of_open w (by omega) (by omega) (by omega) (by omega)).symm

theorem ite_eq_and {p : Prop} [Decidable p] {a b c d m : W32} (hpos : p → a = b &&& m) (hneg : ¬p → c = d &&& m) :
    (if p then a else c) = (if p then b else d) &&& m := by
  split_ifs with h
  · exact hpos h
  · exact hneg h

/-- Every word of the map shows an observer all but what the mask hides: range by range of the map. -/
theorem State.hostWord_open (s : State) (off : Nat) :
    s.hostWord false off = s.hostWord true off &&& Safety.openMask off := by
  unfold State.hostWord
  refine ite_eq_and (fun _ => BitVec.zero_and.symm) fun _ => ?_
  iterate 5 refine ite_eq_and (fun _ => eq_and_openMask _ (by omega)) fun _ => ?_
  refine ite_eq_and (fun h => s.asyWord_open (by omega) h) fun _ => ?_
  refine ite_eq_and (fun h => s.allocWord_open (by omega) h) fun _ => ?_
  iterate 5 refine ite_eq_and (fun _ => eq_and_openMask _ (by omega)) fun _ => ?_
  refine ite_eq_and (fun h => s.ledWord_open (by omega) h) fun _ => ?_
  iterate 4 refine ite_eq_and (fun _ => eq_and_openMask _ (by omega)) fun _ => ?_
  refine ite_eq_and (fun h => s.dieWord_open h.1 h.2 _) fun _ => ?_
  exact ite_eq_and (fun _ => eq_and_openMask _ (by omega)) fun _ => BitVec.zero_and.symm

/-- Settles O58: the owner's check turns the write down, and the mask is what tells an observer's reads from the owner's. -/
theorem observersWriteNothing : Obligations.ObserversWriteNothing := by
  intro s n hn
  refine ⟨fun c hc => ?_, fun off k => rfl, s.hostWord_open⟩
  obtain ⟨f, hf⟩ := exec_of_writerOf s hc
  rw [hf, State.ownerWrite_of_not_owner hn]

end Sys2Proof.Machine
end

section
/-! PROOFS (02, 03). The flit commands of an agent. -/

namespace Sys2Proof.Machine

/-- A command of an agent's own at a place of the pod leaves there what the agent's step makes. -/
theorem exec_at_place {s : State} {a : Nat} {x y : Agent} {c : Instr} {f : Agent → Agent} (hplace : Safety.Place s a x)
    (hc : exec c s = s.onAgent a f) (hf : f x = y) : exec c s = .next (s.setAgent a y) := by
  rw [hc, State.onAgent_of_lt hplace.exists_, hplace.is, hf]

/-! ## Flits (R55, R57–R67) -/

theorem Agent.arrive_transit {x : Agent} {p : Nat} {f : Flit} (hup : x.isDown p = false) (hcrc : f.crc = f.crcOf)
    (hdata : isDataClass f.cls = true) (hpath : f.path = false) (hpret : f.pret = false)
    (hquar : x.id.quar = false) (hdest : f.dest ≠ x.id.id) : x.arrive p f = x.stage p f := by
  have hclass : ∀ c : BitVec 4, isDataClass c = true → ¬10 ≤ c.toNat ∧ ¬c = 7#4 := by decide
  obtain ⟨hreserved, htrump⟩ := hclass _ hdata
  simp [Agent.arrive, hup, ← hcrc, hreserved, hpath, hpret, htrump, hquar, hdest]

theorem Agent.convoyQueue_nil {x : Agent} (h : x.inj.convoyQ = []) (q : Nat) : x.convoyQueue q = x := by
  simp [Agent.convoyQueue, h, queueDflt]

theorem Agent.foldl_convoyQueue_nil {x : Agent} (h : x.inj.convoyQ = []) (qs : List Nat) :
    qs.foldl Agent.convoyQueue x = x := by
  induction qs with
  | nil => rfl
  | cons q qs ih => rw [List.foldl_cons, Agent.convoyQueue_nil h, ih]

/-- A single waiting flit is served whatever its rank, and no tie is decided (R59). -/
theorem Agent.pick_single (x : Agent) (y : Nat × Flit) : x.pick [y] = some (y, none) := by
  have htie : (x.portList.find? fun o => decide (2 ≤ ([y].filter fun z => (x.wants z.2).contains o).length)) = none := by
    refine List.find?_eq_none.2 fun o _ => ?_
    have : ([y].filter fun z => (x.wants z.2).contains o).length ≤ 1 := List.length_filter_le _ _
    simpa using (by omega : ¬2 ≤ ([y].filter fun z => (x.wants z.2).contains o).length)
  simp only [Agent.pick, List.foldl_cons, List.foldl_nil, Nat.zero_max, List.filter_cons, List.filter_nil, decide_true, if_true] at htie ⊢
  rw [htie]
  rfl

theorem Agent.serveAll_single (x : Agent) (y : Nat × Flit) : Agent.serveAll 1 [y] x = x.serve y := by
  simp [Agent.serveAll, Agent.pick_single]

/-- A table-routed flit leaves on the first free productive output (R57, R59). -/
theorem Agent.tableForward_productive {x : Agent} {p o : Nat} {f : Flit} (htaken : x.sw.taken = [])
    (hdest : f.dest ≠ x.id.id) (hmask : x.maskOk (x.bankFor f) (x.entryFor (x.bankFor f) f.dest) f = true)
    (hcand : (x.entryFor (x.bankFor f) f.dest).cand ≠ 0)
    (hout : firstFrom (x.productive (x.entryFor (x.bankFor f) f.dest) f) x.sw.spread = some o) (hhops : f.hops < 62) :
    x.tableForward p f = { x with
      tx := x.tx ++ [.flit o (({ f with vc := f.vc || (x.entryFor (x.bankFor f) f.dest).dl } : Flit).hop false)]
      ports := SMap.modify portDflt x.ports o (fun q => { q with tSent := q.tSent + 1 })
      sw := { x.sw with taken := [o], spread := (o + 1) % max 1 x.build.ports } } := by
  have hspent : ¬62 ≤ f.hops.toNat := Nat.not_le.2 hhops
  have hroute : ¬(x.entryFor (x.bankFor f) f.dest).cand = 0#128 := hcand
  simp [Agent.tableForward, hdest, hmask, hroute, htaken, hout, Agent.send, Flit.spent, hspent, Agent.put, Agent.modPort]


/-- The agent as a flit time finds it once its staged flits are taken up. -/
def Agent.opened (x : Agent) : Agent := { x.openFlitTime with sw := { x.openFlitTime.sw with staged := [] } }

/-- The agent as a flit time leaves it. -/
def Agent.closed (x : Agent) : Agent := { x with sw := { x.sw with ft := x.sw.ft + 1, trumpHeld := [] } }

/-- With one staged flit and no convoy, a flit time serves that flit alone. -/
theorem Agent.allocate_single {x : Agent} {p : Nat} {f : Flit} (hstaged : x.sw.staged = [(p, some f)])
    (hconvoyQ : x.inj.convoyQ = []) (hconvoy : f.cls ≠ 2) (hpath : f.path = false) (hpret : f.pret = false)
    (hquar : x.quarDrops f = false) : x.allocate = (x.opened.tableForward p f).closed := by
  have hquar' : ∀ i s, ({ x with inj := i, sw := s } : Agent).quarDrops f = false := fun _ _ => hquar
  have hcls : ¬f.cls = 2#4 := hconvoy
  simp [Agent.allocate, Agent.stagedList, hstaged, Agent.openFlitTime, hquar', hcls, Agent.foldl_convoyQueue_nil, hconvoyQ,
    Agent.serveAll_single, Agent.serve, hpath, hpret, Agent.opened, Agent.closed]

theorem Agent.offer_waits {x : Agent} {f : Flit} (hend : x.build.endpoint = true) (hdata : isDataClass f.cls = true)
    (hconvoy : f.cls ≠ 2) (hbound : x.id.bound = true) (hquar : x.id.quar = false) :
    x.offer f = { x with inj := { x.inj with offers := x.inj.offers ++ [f] } } := by
  have hclass : ∀ c : BitVec 4, isDataClass c = true → isMgmtClass c = false ∧ ¬10 ≤ c.toNat := by decide
  obtain ⟨hmgmt, hreserved⟩ := hclass _ hdata
  have hcls : ¬f.cls = 2#4 := hconvoy
  simp [Agent.offer, hend, hmgmt, hreserved, hcls, hbound, hquar]

/-- A single offer that nothing holds back is admitted (R62, R509). -/
theorem Agent.admitFlits_offer {x : Agent} {f : Flit} {o : Nat} (hadmitted : x.sw.admitted = false) (hown : x.inj.own = [])
    (houtst : x.inj.outst = []) (hoffers : x.inj.offers = [f]) (hbound : x.id.bound = true) (hquar : x.id.quar = false)
    (hheld : x.held (x.stamp f) = false) (hgo : x.admitFate (x.stamp f) = .go o) :
    x.admitFlits = ({ x with inj := { x.inj with offers := [] } } : Agent).admitOffer o (x.stamp f) := by
  simp [Agent.admitFlits, hadmitted, hown, Agent.scanOwn, houtst, Agent.scanResends, hoffers, Agent.scanOffers, hheld, hbound,
    hquar, hgo]

/-- Settles O1, command by command. -/
theorem flitCommandsComplete : Obligations.FlitCommandsComplete := by
  intro s a x hplace
  refine ⟨fun p f hup hcrc hdata _ hpath hpret hquar hdest => exec_at_place hplace rfl
      (Agent.arrive_transit hup hcrc hdata hpath hpret hquar hdest),
    fun p o f hstaged htrump hconvoyQ hconvoy hpath hpret hdest hquar hmask hcand hout hhops => exec_at_place hplace rfl ?_,
    fun f hend hdata hconvoy hbound hquar => exec_at_place hplace rfl (Agent.offer_waits hend hdata hconvoy hbound hquar),
    fun f o hadmitted hown houtst hoffers hbound hquar hheld hgo => exec_at_place hplace rfl
      (Agent.admitFlits_offer hadmitted hown houtst hoffers hbound hquar hheld hgo),
    fun f fs heb => exec_at_place hplace rfl ?_, fun f fs heb => exec_at_place hplace rfl ?_,
    fun b hfull => exec_at_place hplace rfl (if_pos hfull),
    fun src seq l hl => exec_at_place hplace rfl ?_⟩
  · rw [Agent.allocate_single hstaged hconvoyQ hconvoy hpath hpret hquar]
    exact congrArg Agent.closed (Agent.tableForward_productive (x := x.opened) htrump hdest hmask hcand hout hhops)
  · simp [Agent.ejectRemove, heb]
  · simp [Agent.ejectRemove, heb]
  · simp only [Agent.latchExpire, hl]

end Sys2Proof.Machine
end

section
/-! PROOFS (02, 03). The request, frame and telemetry commands of an agent. -/

namespace Sys2Proof.Machine

/-! ## Counters (R119) -/

theorem satInc_ne_zero (v : W64) : satInc v ≠ 0 := by
  unfold satInc
  split_ifs with h
  · rw [h]
    decide
  · have hlast : v ≠ 18446744073709551615#64 := h
    bv_omega

/-- A counted event is one more in its counter, or the counter stands at its end. -/
theorem Agent.count_cnt (x : Agent) (i : Nat) :
    SMap.get word64Dflt (x.count i).cu.cnt i = satInc (SMap.get word64Dflt x.cu.cnt i) := by
  have h : satInc (SMap.get word64Dflt x.cu.cnt i) ≠ word64Dflt i := satInc_ne_zero _
  simp only [Agent.count, SMap.modify, SMap.set, if_neg h, SMap.get_insert_self]

/-! ## Requests (R69, R70) -/

theorem Agent.outst?_key {x : Agent} {d q : W16} {o : Outst} (h : x.outst? d q = some o) : o.dest = d ∧ o.seq = q := by
  simpa using List.find?_some h

theorem Agent.retxTimeout_waits {x : Agent} {d q : W16} {o : Outst} (h : x.outst? d q = some o) (hqueued : o.queued = false)
    (hsends : o.sends < x.inj.retryMax.toNat) :
    x.retxTimeout d q = x.modOutst d q (fun y => { y with queued := true, sends := y.sends + 1 }) := by
  simp [Agent.retxTimeout, h, hqueued, hsends]

theorem Agent.requestAbandon_spent {x : Agent} {d q : W16} {o : Outst} (h : x.outst? d q = some o) (hqueued : o.queued = false)
    (hsends : x.inj.retryMax.toNat ≤ o.sends) :
    x.requestAbandon d q = (x.abandon o).notice (putField (putField (putField (0 : Payload) 0 (6 : Byte)) 2 d) 4 q) := by
  simp [Agent.requestAbandon, h, hqueued, hsends]

/-! ## The sink (R114, R115) -/

/-- A command under the recorded pair and epoch waits for its own checks, and nothing else changes. -/
theorem Agent.takeCmd_current {x : Agent} {c : Cmd} (hop : reservedOp c.op = false) (hcep : c.cep = x.id.cepoch)
    (hdep : c.dep = x.id.depoch) (hfep : newer c.fep x.id.fepoch = false) :
    x.takeCmd c = { x with cu := { x.cu with cur := some c } } := by
  have horder := Agent.pairOrder_of_same hcep hdep
  simp [Agent.takeCmd, hop, horder, Agent.acceptPair, hfep]

/-! ## Windows (R81, R82) -/

theorem Port.endWindow_ne_dflt (q : Port) (m : PortMeas) (sync : Bool) (p : Nat) : q.endWindow m sync ≠ portDflt p := by
  intro h
  have hup : (q.endWindow m sync).up = (portDflt p).up := by rw [h]
  have hdown : (q.endWindow m sync).tDown = (portDflt p).tDown := by rw [h]
  have hq : q.up = false := hup
  simp [Port.endWindow, hq, portDflt] at hdown

theorem Agent.port_endWindow (x : Agent) (m : PortMeas) (sync : Bool) (i p : Nat) :
    (x.modPort i (fun q => q.endWindow m sync)).port p = if p = i then (x.port p).endWindow m sync else x.port p := by
  simp only [Agent.port, Agent.modPort, SMap.modify, SMap.set, if_neg (Port.endWindow_ne_dflt _ m sync i)]
  split_ifs with h
  · rw [h, SMap.get_insert_self]
  · rw [SMap.get_insert_ne _ _ _ _ _ h]

/-- Each port of a list ends its own window, from what it was before. -/
theorem Agent.port_foldl_endWindow {meas : Nat → PortMeas} {sync : Bool} {ps : List Nat} (hnd : ps.Nodup) (x : Agent) (p : Nat) :
    (ps.foldl (fun b p => b.modPort p (fun q => q.endWindow (meas p) sync)) x).port p =
      if p ∈ ps then (x.port p).endWindow (meas p) sync else x.port p := by
  induction ps generalizing x with
  | nil => rfl
  | cons i ps ih =>
    obtain ⟨hi, hnd⟩ := List.nodup_cons.1 hnd
    rw [List.foldl_cons, ih hnd, Agent.port_endWindow]
    by_cases hp : p = i
    · subst hp
      simp [hi]
    · simp [hp]

theorem Agent.foldl_modPort_build {f : Nat → Port → Port} (ps : List Nat) (x : Agent) :
    (ps.foldl (fun b p => b.modPort p (f p)) x).build = x.build := by
  induction ps generalizing x with
  | nil => rfl
  | cons p ps ih => exact ih _

theorem Agent.foldl_modPort_inj {f : Nat → Port → Port} (ps : List Nat) (x : Agent) :
    (ps.foldl (fun b p => b.modPort p (f p)) x).inj = x.inj := by
  induction ps generalizing x with
  | nil => rfl
  | cons p ps ih => exact ih _

/-- Queueing flits of the agent's own touches nothing but their queue. -/
theorem Agent.foldl_pushOwn (f : Agent → Nat → Flit) (hf : ∀ x y i, x.id = y.id → x.ports = y.ports → f x i = f y i)
    (l : List Nat) (x : Agent) :
    l.foldl (fun b i => b.pushOwn (f b i) none) x =
      { x with inj := { x.inj with own := x.inj.own ++ l.map (fun i => ({ flit := f x i, port := none } : OwnFlit)) } } := by
  induction l generalizing x with
  | nil => simp
  | cons i l ih =>
    have hsame : f (x.pushOwn (f x i) none) = f x := funext fun j => hf _ _ j rfl rfl
    rw [List.foldl_cons, ih, hsame]
    simp [Agent.pushOwn]

/-- The agent's own flits of a window: one for every 5 ports (R82). -/
def Agent.windowFlits (x : Agent) (w : Nat) : List OwnFlit :=
  (List.range ((x.build.ports + 4) / 5)).map fun i => { flit := x.teleFlit w (5 * i) (min 5 (x.build.ports - 5 * i)), port := none }

/-- The agent once the windows of its ports have ended (R81). -/
def Agent.windowsEnded (x : Agent) (meas : List PortMeas) : Agent :=
  let sync := x.id.tSync || x.id.syncLost
  let b := x.portList.foldl (fun b p => b.modPort p (fun q => q.endWindow (meas.getD p measDflt) sync)) x
  { b with id := { b.id with tSync := b.id.syncLost } }

theorem Agent.windowsEnded_build (x : Agent) (meas : List PortMeas) : (x.windowsEnded meas).build = x.build :=
  Agent.foldl_modPort_build _ x

theorem Agent.telemetry_eq (x : Agent) (meas : List PortMeas) :
    x.telemetry meas = { x.windowsEnded meas with
      inj := { x.inj with own := x.inj.own ++ (x.windowsEnded meas).windowFlits (x.id.frame.toNat / 100 - 1) } } := by
  have hinj : (x.windowsEnded meas).inj = x.inj := Agent.foldl_modPort_inj _ x
  refine (Agent.foldl_pushOwn (fun b i => b.teleFlit (x.id.frame.toNat / 100 - 1) (5 * i) (min 5 (x.build.ports - 5 * i)))
    (fun y z i hid hports => ?_) _ (x.windowsEnded meas)).trans (by simp only [hinj, Agent.windowFlits, x.windowsEnded_build meas])
  simp only [Agent.teleFlit, Agent.port, hid, hports]

/-- Settles O2, command by command. -/
theorem requestAndFrameCommandsComplete : Obligations.RequestAndFrameCommandsComplete := by
  intro s a x hplace
  refine ⟨fun d q o ho hqueued hsends => exec_at_place hplace rfl (Agent.retxTimeout_waits ho hqueued hsends),
    fun d q o ho hqueued hsends => ⟨_, exec_at_place hplace rfl (Agent.requestAbandon_spent ho hqueued hsends), ?_⟩,
    fun i is c hsink hcls hplays hcur hc hpath hfmt hpiece hmore hop hcep hdep hfep => exec_at_place hplace rfl ?_,
    exec_at_place hplace rfl rfl,
    fun hpend hnew hdue => exec_at_place hplace rfl ?_,
    fun q f hend hbound hquar => exec_at_place hplace rfl ?_,
    fun m => ⟨_, exec_at_place hplace rfl (Agent.telemetry_eq x m), fun p hp => ?_, ?_⟩,
    fun hnote hflight => ⟨_, exec_at_place hplace rfl (if_pos ⟨hnote, hflight⟩), rfl, rfl⟩⟩
  · obtain ⟨rfl, rfl⟩ := Agent.outst?_key ho
    refine ⟨rfl, rfl, Agent.count_cnt x 18, rfl, rfl, rfl⟩
  · subst hc
    have hbusy : x.cmdBusy = false := by simp [Agent.cmdBusy, hplays, hcur]
    rw [Agent.consumeSink_of_unsplit hsink hcls hbusy (by simp [hpath]) hfmt hpiece hmore]
    simp only [hpath, Bool.false_eq_true, if_false]
    exact Agent.takeCmd_current hop hcep hdep hfep
  · simp [Agent.slotExchange, hpend, frameDue, hdue, hnew]
  · simp [Agent.convoyOffer, hend, hbound, hquar]
  · have hport : (x.windowsEnded m).port p = (x.port p).endWindow (m.getD p measDflt) (x.id.tSync || x.id.syncLost) :=
      (Agent.port_foldl_endWindow (meas := fun p => m.getD p measDflt) List.nodup_range x p).trans (if_pos (List.mem_range.2 hp))
    exact ⟨congrArg Port.record hport, congrArg Port.tDefl hport, congrArg Port.tDrops hport, congrArg Port.tSent hport⟩
  · simp only [Agent.windowFlits, x.windowsEnded_build m]
    rfl

end Sys2Proof.Machine
end

section
/-! PROOFS (03, 09). The register, slot and play commands of an agent, its command set, and the events of its partitions,
mailboxes and microcode. -/

namespace Sys2Proof.Machine

/-! ## Registers, locks, slots and plays (R92, R95, R102, R110, R114) -/

theorem Agent.wordSpec_counter (x : Agent) {off : Nat} (hlo : 0xE000 ≤ off) (hhi : off < 0xE0A0) :
    x.wordSpec off = some { fields := allW } := by
  have hblock : regBlock off = 15 := by
    unfold regBlock
    iterate 15 rw [if_neg (by omega)]
    exact if_pos (by omega)
  simp only [Agent.wordSpec, hblock, if_pos hhi]

/-- Reading the low word of an event counter latches its high word for the reading path (R92). -/
theorem Agent.counterLow_latches (x : Agent) (ctrl : Bool) {k : Nat} (hk : k < 20) :
    x.counterLow ctrl k = x.setLatch ctrl (0xE000 + 8 * k) (bitsAt (SMap.get word64Dflt x.cu.cnt k) 32 32) := by
  have hclaim : 0xE000 + 8 * k ≠ 0xC100 := by omega
  have hidx : (0xE000 + 8 * k - 0xE000) / 8 = k := by omega
  have hcounter : x.counterAt (0xE000 + 8 * k) = some (SMap.get word64Dflt x.cu.cnt k) := by
    rw [Agent.counterAt, if_pos (by omega), hidx]
  have hspec := x.wordSpec_counter (off := 0xE000 + 8 * k) (by omega) (by omega)
  simp only [Agent.counterLow, Agent.readReg, if_neg hclaim, hcounter, hspec, Option.isNone_some, Bool.false_eq_true, if_false]

/-- Settles O3, command by command. -/
theorem agentRegisterCommandsComplete : Obligations.AgentRegisterCommandsComplete := by
  intro s a x hplace
  refine ⟨fun k hk => exec_at_place hplace rfl (x.counterLow_latches true hk),
    fun k hk => exec_at_place hplace rfl (x.counterLow_latches false hk),
    fun off v hoff hok => exec_at_place hplace rfl (if_pos ⟨hoff, hok⟩),
    exec_at_place hplace rfl rfl,
    fun v hrest => exec_at_place hplace rfl (if_pos hrest),
    fun k d hplays hstate hcount => exec_at_place hplace rfl ?_,
    fun c hcur hpath hpiece hmore hop hpieces hplays horder hfep => exec_at_place hplace rfl ?_⟩
  · have hslot : ∀ cu, ({ x with cu := cu } : Agent).slot k = x.slot k := fun _ => rfl
    simp only [Agent.cardPlay, hplays, hslot, hstate, hcount, if_true]
    rfl
  · rw [Agent.PieceInHand.piece_eq ⟨hcur, hplays, hpath, .inr hmore, hop, .inl hpiece⟩, horder]
    simp [Agent.acceptPiece, hpieces, Agent.acceptPair, horder, hfep, Agent.clearPieces, hmore, hpiece]

/-! ## The command set (R117) -/

/-- A whole command with no play before it runs its meaning (R113, R115). -/
theorem exec_taken {s : State} {a : Nat} {x y : Agent} {c : Cmd} {op : Byte} {i : Instr} {f : Agent → Cmd → Agent}
    (h : Safety.Taken s a x c op) (hi : exec i s = s.onAgent a (·.withCmd op f)) (hf : f x c = y) :
    exec i s = .next (s.setAgent a y) := by
  refine exec_at_place ⟨h.exists_, h.is⟩ hi ?_
  simp only [Agent.withCmd, h.cur]
  rw [if_pos ⟨h.op, h.piece, by simp [h.more], by simp [h.plays]⟩, hf]

/-- A table command under the next generation is carried out (R89). -/
theorem Agent.tableCmd_next {x : Agent} {c : Cmd} (h : c.gen = x.id.tgen + 1) (f : Agent → Agent) :
    x.tableCmd c f = (f x).answer c 0 [] := by
  have horder : x.genOrder c = 0 := by
    simp [Agent.genOrder, h]
  simp only [Agent.tableCmd, horder]

/-- Settles O4, command by command. -/
theorem readWriteAndTableCommandsComplete : Obligations.ReadWriteAndTableCommandsComplete := by
  intro s a x c
  refine ⟨fun h => exec_taken h rfl rfl, fun h hblock => exec_taken h rfl ?_, fun h hblock hcheck => exec_taken h rfl ?_,
    fun h hend hgen hflight => exec_taken h rfl ?_, fun h hend hgen => exec_taken h rfl ?_,
    fun h hgen => exec_taken h rfl (Agent.tableCmd_next hgen _), fun h hgen => exec_taken h rfl (Agent.tableCmd_next hgen _)⟩
  · simp [Agent.cmdRead, hblock]
  · simp [Agent.cmdWrite, hblock, hcheck]
  · have hgate : ∀ y : Agent, y.inj.issued = x.inj.issued → y.inj.completed = x.inj.completed → y.tryDrained = y :=
      fun y hi hc => if_neg fun hd => hflight.ne' (by simpa [Agent.inFlight, hi, hc] using hd.2)
    simp only [Agent.cmdGate, hend, Agent.tableCmd_next hgen, not_true_eq_false, if_false]
    refine congrArg (fun y => Agent.answer y c 0 []) (hgate _ ?_ ?_) <;> rfl
  · simp [Agent.cmdUngate, hend, Agent.tableCmd_next hgen]

/-- Settles O5, command by command. -/
theorem handAndBindCommandsComplete : Obligations.HandAndBindCommandsComplete := by
  intro s a x c
  refine ⟨fun h => exec_taken h rfl rfl, fun h hstate harm => exec_taken h rfl ?_, fun h => exec_taken h rfl rfl,
    fun h hp => exec_taken h rfl (if_pos hp), fun h htbl hhand hfep hslots => exec_taken h rfl ?_,
    fun h => exec_taken h rfl rfl, fun h hend hbind w ws hw hep => exec_taken h rfl ?_⟩
  · simp [Agent.cmdArm, hstate, harm]
  · have hempty : ∀ k, ¬(x.slot k).state = 2#2 := hslots
    have hok : x.releasable c = true := by simp [Agent.releasable, htbl, hhand, hfep, hempty]
    have hold : older c.fep x.id.fepoch = false := by simp [older, hfep]
    simp [Agent.cmdRelease, hok, hold]
  · simp only [Agent.cmdBind, hend, hbind, hw, hep, not_true_eq_false, Bool.false_eq_true, if_false]

/-! ## Partitions, microcode and the secure channel (R117, R126–R128, R317) -/

/-- A patch of the first half of a chunk names the chunk in its low 16 bits and nothing above them. -/
theorem patch_arg {v : W32} (h : v.toNat < 65536) :
    (bitsAt v 0 16).toNat = v.toNat ∧ bitsAt v 17 15 = 0 ∧ v.getLsbD 16 = false := by
  refine ⟨?_, ?_, ?_⟩
  · simp [bitsAt]
    omega
  · refine BitVec.eq_of_toNat_eq ?_
    simp [bitsAt, Nat.shiftRight_eq_div_pow]
    omega
  · exact Nat.testBit_eq_false_of_lt (h.trans_eq (by decide))

/-- Settles O6, command by command. -/
theorem partitionAndMicrocodeCommandsComplete : Obligations.PartitionAndMicrocodeCommandsComplete := by
  intro s a x c
  refine ⟨fun h hpart hstate => exec_taken h rfl ?_, fun h hpart hstate hreq hack hunf => exec_taken h rfl ?_,
    fun h hpart hstate hkat hreq => exec_taken h rfl ?_,
    fun v vs h hwords harg hlen => ⟨fun hnew => exec_taken h rfl ?_, fun hl hv => exec_taken h rfl ?_⟩,
    fun h hwords hchunk harg hrx hcommit htest => exec_taken h rfl ?_,
    fun h hrx hcommit htest hready hdigest => exec_taken h rfl ?_,
    fun h hpiece hlast => exec_taken h rfl ?_, fun h hact hmgmt hbank => exec_taken h rfl ?_,
    fun op h hop => exec_at_place ⟨h.exists_, h.is⟩ rfl ?_⟩
  · simp [Agent.cmdPfence, hpart, hstate]
  · simp [Agent.cmdPreset, hpart, hstate, hreq, hack, hunf]
  · have hbad : ¬(x.part c.part).kat = 2#2 := hkat
    simp [Agent.cmdPunfence, hpart, hstate, hbad, hreq]
  · simp only [Agent.cmdUcOpen, hwords]
    rw [if_neg (not_or.2 ⟨harg, Nat.not_lt.2 hlen⟩), if_neg fun hsame => hnew.elim (· hsame.1) (· hsame.2)]
  · simp only [Agent.cmdUcOpen, hwords]
    rw [if_neg (not_or.2 ⟨harg, Nat.not_lt.2 hlen⟩), if_pos ⟨hl, hv⟩]
  · obtain ⟨hn, hhigh, hhalf⟩ := patch_arg harg
    simp only [Agent.cmdUcPatch, hn, hhigh, hhalf]
    rw [if_neg (by simp [hwords, hchunk]), if_neg (by simp [hrx, hcommit, htest])]
    rfl
  · simp [Agent.cmdUcCommit, hrx, hcommit, htest, hready, hdigest]
  · simp only [Agent.cmdSec, hlast, if_neg (Nat.not_lt.2 (Nat.le_of_lt_succ hpiece)), Bool.false_eq_true, if_false]
  · simp only [Agent.cmdBankcopy, hact, bankOff, Bool.not_false, Bool.false_eq_true, if_true, if_false]
    exact if_neg (by simp [hmgmt, hbank])
  · simp [Agent.cmdReserved, h.cur, h.op, hop, h.piece, h.more, h.plays]

/-! ## The events of partitions, mailboxes and microcode (R120–R129, R317, R318) -/

/-- Settles O7, event by event. -/
theorem partitionEventsComplete : Obligations.PartitionEventsComplete := by
  intro s a x p hplace hpart
  have hend : x.build.endpoint = true := by
    simp only [Agent.hasPart, Bool.and_eq_true] at hpart
    exact hpart.1
  refine ⟨fun hreq hstate hunf => exec_at_place hplace rfl ?_, fun hreq hack hto hstate => exec_at_place hplace rfl ?_,
    fun hwin hstate => exec_at_place hplace rfl ?_, fun hunf => exec_at_place hplace rfl (if_pos ⟨hpart, hunf⟩),
    fun hreq hstate => exec_at_place hplace rfl ?_, fun hlim => exec_at_place hplace rfl (if_pos ⟨hpart, hlim⟩),
    fun v hv hstate => exec_at_place hplace rfl ?_, exec_at_place hplace rfl ?_, exec_at_place hplace rfl (if_pos hend),
    fun hstate hunf hwd hprog => exec_at_place hplace rfl ?_⟩
  · simp [Agent.fenceAck, hpart, hreq, hstate, hunf]
  · simp [Agent.fenceTimeout, hpart, hreq, hack, hto, hstate]
  · simp [Agent.drainEnd, hpart, hwin, hstate]
  · simp [Agent.rstDone, hpart, hreq, hstate]
  · have hzero : v ≠ 0 := by rintro rfl; simp at hv
    have hthree : v ≠ 3 := by rintro rfl; simp at hv
    simp only [Agent.katWrite, Agent.writeKat, hend, hzero, hthree, hstate, if_true, if_false, true_or]
    rfl
  · simp [Agent.stateWrite, hend, Part.stateOk, Part.writeState]
  · have hset : ¬(x.part p).wdMs = 0#14 := hwd
    simp [Agent.watchdog, hpart, hstate, hunf, hset, hprog]

/-- Settles O8, event by event. -/
theorem agentMailboxAndBootEventsComplete : Obligations.AgentMailboxAndBootEventsComplete := by
  intro s a x hplace
  refine ⟨fun v hfull => exec_at_place hplace rfl ?_, fun hsend => exec_at_place hplace rfl ?_,
    fun i v hsend => exec_at_place hplace rfl ?_, fun ctrl hfree => exec_at_place hplace rfl ?_,
    fun ctrl hclaim => exec_at_place hplace rfl (if_pos hclaim), fun hclaim hring => exec_at_place hplace rfl ?_,
    fun hclaim hring hdone => exec_at_place hplace rfl ?_, fun ctrl i v hclaim hring => exec_at_place hplace rfl ?_,
    fun hclaim => exec_at_place hplace rfl (if_neg hclaim), fun hclaim => exec_at_place hplace rfl ?_,
    fun msg hpos hlen => exec_at_place hplace rfl ?_, fun f t hcommit hdue => exec_at_place hplace rfl ?_,
    fun htest => exec_at_place hplace rfl (if_pos htest), fun htest => exec_at_place hplace rfl (if_pos htest),
    fun b => exec_at_place hplace rfl rfl⟩
  · simp [Agent.downWrite, Agent.downPosted, hfull]
  · simp [Agent.upSend, hsend]
  · simp [Agent.upWrite, hsend]
  · simp [Agent.claimRead, hfree, partyNo]
  · simp [Agent.mbxRing, partyNo, hclaim, hring, Agent.setRing]
  · simp [Agent.mbxDone, Agent.nonHolder, partyNo, hclaim, hring, hdone, Agent.setDone]
  · simp [Agent.mbxData, Agent.dataTurn, hclaim, hring]
  · exact if_neg fun h => hclaim (of_decide_eq_true h)
  · have hone : (msg.length + 31) / 32 = 1 := by omega
    have hbound : ¬(msg.length = 0 ∨ 256 < msg.length) := by omega
    rw [Agent.secUp, if_neg hbound]
    simp [hone, List.take_of_length_le hlen]
  · simp [Agent.ucSwitch, hcommit, hdue]

end Sys2Proof.Machine
end

section
/-! PROOFS (04). How a legal instruction issues, and the register, control and data instructions. -/

namespace Sys2Proof.Machine

section
variable {s t : State} {c : Fin 16} {op : Byte} {w : W64} {x : Context} {i : Instr} {f : State → W64 → State}

/-- Issue leaves every context as it was. -/
theorem issued_ctx (s : State) (c : Fin 16) (k : Nat) : (Safety.issued s c).ctx k = s.ctx k := rfl

/-- An instruction that issues runs its meaning on the state after issue (R137). -/
theorem exec_issue (h : Safety.Issue s c op w x) (hi : exec i s = .next (s.uci c op f))
    (hf : f (Safety.issued s c) w = t) : exec i s = .next t := by
  obtain ⟨hmay, rfl, hop, hleg, rfl, hg⟩ := h
  rw [hi, ← hf]
  refine congrArg Host.Outcome.next ?_
  unfold State.uci
  rw [if_pos ⟨hmay, hop, hleg⟩]
  exact if_pos hg

/-- A short instruction that writes only its own context, and steps the PC. -/
theorem exec_issueCtx {g : Context → W64 → Context} {y : Context} (h : Safety.Issue s c op w x)
    (hi : exec i s = .next (s.uciCtx c op g)) (hg : g x w = y) :
    exec i s = .next ((Safety.issued s c).setCtx c y.next) := by
  refine exec_issue h hi ?_
  rw [← hg, ← h.is]
  rfl

/-- An instruction with no fault runs (R138). -/
theorem State.orFault_of_none {g : State → State} (h : (s.ctx c).faultOf w = 0) : s.orFault c w g = g s := if_pos h

/-- An instruction that may fault and does not. -/
theorem exec_issueNoFault {g : State → W64 → State → State} (h : Safety.Issue s c op w x)
    (hi : exec i s = .next (s.uci c op (fun s w => s.orFault c w (g s w)))) (hn : x.faultOf w = 0)
    (hg : g (Safety.issued s c) w (Safety.issued s c) = t) : exec i s = .next t := by
  refine exec_issue h hi ?_
  rw [← hg]
  refine State.orFault_of_none ?_
  rw [issued_ctx, h.is]
  exact hn

end

/-! ## The register instructions -/

/-- Settles O9: each register instruction is one update of its context, followed by the PC's step. -/
theorem registerInstructionsComplete : Obligations.RegisterInstructionsComplete := by
  unfold Obligations.RegisterInstructionsComplete
  intro s c w x
  refine ⟨fun h => exec_issueCtx h rfl rfl, fun h => exec_issueCtx h rfl rfl, fun h => exec_issueCtx h rfl rfl,
    fun h => exec_issueCtx h rfl rfl, fun h => exec_issueCtx h rfl rfl, fun h => exec_issueCtx h rfl rfl,
    fun h => exec_issueCtx h rfl rfl, fun h => exec_issueCtx h rfl rfl,
    fun h hm => exec_issueCtx h rfl (by simp only [hm]; rfl),
    fun h hm => exec_issueCtx h rfl (by simp only [hm]; rfl), fun h => exec_issueCtx h rfl rfl,
    fun h => exec_issueCtx h rfl rfl⟩

/-! ## The control instructions -/

section
variable {w : W64} {x : Context}

theorem faultOf_br (ho : uOp w = 0x01) (ht : badTarget (x.target w) = false) : x.faultOf w = 0 := by
  simp [Context.faultOf, ho, ht]

theorem faultOf_call (ho : uOp w = 0x02) (ht : badTarget (x.target w) = false) (hs : x.stack.length < 16) :
    x.faultOf w = 0 := by
  simp [Context.faultOf, ho, ht, Nat.not_le.mpr hs]

theorem faultOf_ret (ho : uOp w = 0x03) (hs : x.stack ≠ []) : x.faultOf w = 0 := by
  simp [Context.faultOf, ho, hs]

theorem faultOf_ldst (ho : uOp w = 0x1B ∨ uOp w = 0x1C) (hb : x.ldst w + 2 ^ uMod w ≤ 0x400000)
    (ha : x.ldst w % 2 ^ uMod w = 0) : x.faultOf w = 0 := by
  rcases ho with ho | ho <;> simp [Context.faultOf, ho, inDs, dstoreSize, hb, ha]

theorem faultOf_copy (ho : uOp w = 0x1D) (hb : x.copyDs w + 64 * (uImm w).toNat ≤ 0x400000) : x.faultOf w = 0 := by
  simp [Context.faultOf, ho, inDs, dstoreSize, hb]

end

theorem State.waitt_met {s : State} {c : Nat} {w : W64}
    (h : cmpHolds (uMod w) (s.tally (bitsAt ((s.ctx c).reg (uRa w)) 0 16).toNat).count.toNat
      ((s.ctx c).reg (uRb w)).toNat = true) : s.waitt c w = s.succeed c 0x04 0 0 := if_pos h

theorem State.waitt_unmet {s : State} {c : Nat} {w : W64}
    (h : cmpHolds (uMod w) (s.tally (bitsAt ((s.ctx c).reg (uRa w)) 0 16).toNat).count.toNat
      ((s.ctx c).reg (uRb w)).toNat = false) : s.waitt c w = s.waitJ c (Running.ofWord (s.ctx c) w) :=
  if_neg (by simp [Running.ofWord, h])

theorem State.sigt_added {s s1 : State} {c : Nat} {w : W64}
    (h : s.tallyAdd (bitsAt ((s.ctx c).reg (uRa w)) 0 16).toNat (uImm w).toInt true = some s1) :
    s.sigt c w = (s1.endShort c 0x05 0 0 0 0 0).wakeTally (bitsAt ((s.ctx c).reg (uRa w)) 0 16).toNat := by
  simp only [State.sigt, h]

/-- Settles O10: a target in the store, a stack with room and a return address are what keeps BR, CALL and RET from
their faults. -/
theorem controlInstructionsComplete : Obligations.ControlInstructionsComplete := by
  unfold Obligations.ControlInstructionsComplete
  intro s c w x
  refine ⟨fun h ht => ?br, fun h ht hs => ?call, fun p ps h hs => ?ret, fun h hc => ?waitt, fun h hc => ?wait,
    fun s1 h ha => ?sigt, fun h hm => ?yield, fun h hm ht => ?sleep, fun h => exec_issue h rfl rfl, fun h => ?nop,
    fun hm hl => ?illegal, fun hm => ?ecc, fun op h hf => ?fault, fun hx ha => ?timer⟩
  case br =>
    refine exec_issueNoFault h rfl (faultOf_br h.op ht) ?_
    rw [← h.is]; rfl
  case call =>
    refine exec_issueNoFault h rfl (faultOf_call h.op ht hs) ?_
    rw [← h.is]; rfl
  case ret =>
    refine exec_issueNoFault h rfl (faultOf_ret h.op (by simp [hs])) ?_
    simp only [State.modCtx, issued_ctx, h.is, hs]; rfl
  case waitt =>
    refine exec_issue h rfl (State.waitt_met ?_)
    rw [issued_ctx, h.is]; exact hc
  case wait =>
    refine exec_issue h rfl ((State.waitt_unmet ?_).trans ?_)
    · rw [issued_ctx, h.is]; exact hc
    · rw [issued_ctx, h.is]
  case sigt =>
    obtain ⟨-, -, -, -, rfl, -⟩ := id h
    exact exec_issue h rfl (State.sigt_added ha)
  case yield =>
    refine exec_issue h rfl ((if_pos hm).trans ?_)
    rw [← h.is]; rfl
  case sleep =>
    refine exec_issue h rfl ((if_neg (by omega)).trans ((if_neg ?_).trans ?_))
    · rw [issued_ctx, h.is]; exact ht
    · rw [← h.is]; rfl
  case nop =>
    refine exec_issue h rfl ?_
    rw [← h.is]; rfl
  case illegal => exact congrArg Host.Outcome.next (if_pos ⟨hm, by simp [hl]⟩)
  case ecc =>
    exact congrArg Host.Outcome.next ((if_neg (not_not.mpr hm)).trans (if_pos rfl))
  case fault =>
    obtain ⟨hmay, rfl, -, hleg, rfl, hg⟩ := h
    exact congrArg Host.Outcome.next ((if_neg (not_not.mpr hmay)).trans ((if_neg (by simp)).trans (if_pos ⟨hleg, hg, hf⟩)))
  case timer =>
    subst hx
    exact congrArg (fun y => Host.Outcome.next (s.setCtx c y)) (if_pos ha)

/-! ## The data instructions -/

theorem State.copy_now {s : State} {c : Nat} {w : W64}
    (hd : s.inDepot ((s.ctx c).copyDep w) (64 * (uImm w).toNat) = true) (ht : 2 * (uImm w).toNat ≤ tmoNs w) :
    s.copy c w = (s.copyUnits (uMod w = 1) ((s.ctx c).copyDs w) ((s.ctx c).copyDep w) (uImm w).toNat).succeed c 0x1D
      (uImm w).toNat 0 := (if_neg (not_not.mpr hd)).trans (if_pos ht)

/-- Settles O11: loads and stores within the data store and aligned, a copy that ends within its limit, and the special
registers read and written. -/
theorem dataInstructionsComplete : Obligations.DataInstructionsComplete := by
  unfold Obligations.DataInstructionsComplete
  intro s c w x
  refine ⟨fun h hb ha => ?ld, fun h hb ha => ?st, fun h hb hd ht => ?copy, fun h hn => ?rds, fun h hw => ?wrs,
    fun h hw => ?ignored⟩
  case ld =>
    refine exec_issueNoFault h rfl (faultOf_ldst (.inl h.op) hb ha) ?_
    rw [← h.is]; rfl
  case st =>
    refine exec_issueNoFault h rfl (faultOf_ldst (.inr h.op) hb ha) ?_
    rw [← h.is]; rfl
  case copy =>
    obtain ⟨-, -, ho, -, rfl, -⟩ := id h
    exact exec_issueNoFault h rfl (faultOf_copy ho hb) (State.copy_now hd ht)
  case rds =>
    refine exec_issue h rfl ((if_neg hn).trans ?_)
    rw [← h.is]; rfl
  case wrs =>
    obtain ⟨-, -, -, -, rfl, -⟩ := id h
    exact exec_issue h rfl (congrArg (fun t : State => t.stepPc c) (if_pos hw))
  case ignored =>
    obtain ⟨-, -, -, -, rfl, -⟩ := id h
    exact exec_issue h rfl (congrArg (fun t : State => t.stepPc c) (if_neg (ne_true_of_eq_false hw)))

end Sys2Proof.Machine
end

section
/-! PROOFS (04, 08, 10). The fabric and checkpoint instructions: how each issues to its targets. -/

namespace Sys2Proof.Machine

section
variable {s t : State} {c : Fin 16} {op : Byte} {w : W64} {x : Context} {i : Instr} {f : State → W64 → State}

/-- A fabric instruction of the active package under the current epoch passes R143's and R153's checks. -/
theorem State.fabGate_open {g : State → State} (h : Safety.FabricIssue s c op w x) :
    (Safety.issued s c).fabGate c w g = g (Safety.issued s c) := by
  obtain ⟨hi, hact, hep⟩ := h
  obtain ⟨-, -, -, -, rfl, -⟩ := hi
  unfold State.fabGate
  exact (if_neg (not_not.mpr hact)).trans (if_neg (fun hne => hne.2 (hep hne.1)))

/-- A fabric instruction that passes its checks runs on the state after issue. -/
theorem exec_fabIssue {g : State → W64 → State → State} (h : Safety.FabricIssue s c op w x)
    (hi : exec i s = .next (s.uci c op (fun s w => s.fabGate c w (g s w))))
    (hg : g (Safety.issued s c) w (Safety.issued s c) = t) : exec i s = .next t :=
  exec_issue h.issue hi ((State.fabGate_open h).trans hg)

/-- The short fabric instructions ask only that the package be active. -/
theorem exec_fabShort {g : State → W64 → State → State} (h : Safety.Issue s c op w x) (hact : s.isActive = true)
    (hi : exec i s = .next (s.uci c op (fun s w => s.fabShort c w (g s w))))
    (hg : g (Safety.issued s c) w (Safety.issued s c) = t) : exec i s = .next t :=
  exec_issue h hi ((if_neg (not_not.mpr hact)).trans hg)

/-- A long instruction over the agent list in g[ra] acts on that list (R145). -/
theorem exec_overList {g : W64 → State → Running → List W16 → State} {ids : List W16} (h : Safety.FabricIssue s c op w x)
    (hl : s.agentList (x.reg (uRa w)).toNat = some ids)
    (hi : exec i s = .next (s.uci c op (fun s w => s.fabGate c w (fun s => s.overList c w (g w)))))
    (hg : g w (Safety.issued s c) (Running.ofWord x w) ids = t) : exec i s = .next t := by
  obtain rfl : s.ctx c = x := h.issue.is
  refine exec_fabIssue h hi ?_
  have hl' : (Safety.issued s c).agentList (Running.ofWord ((Safety.issued s c).ctx c) w).ra.toNat = some ids := hl
  rw [← hg]
  simp only [State.overList, hl']
  rfl

theorem State.inStore_fits {c a n : Nat} {g : State → State} (h : a + n ≤ 0x400000) : s.inStore c a n g = g s :=
  if_pos (decide_eq_true h)

theorem State.inChange_owned {c : Nat} {g : State → Running → Image → State} {im : Image}
    (ho : s.dealers.change.isOpen = true) (hc : s.dealers.change.owner = some c)
    (hi : s.dealers.change.image = ((s.ctx c).reg (uRa w)).toNat)
    (him : s.image ((s.ctx c).reg (uRa w)).toNat = some im) :
    s.inChange c w g = g s (Running.ofWord (s.ctx c) w) im := by
  simp only [State.inChange, Running.ofWord, him, hc, ho, hi]
  simp

theorem State.ofSlice_owned {c : Nat} {g : State → Running → ImgSlice → State} {im : Image} {e : ImgSlice}
    (ho : s.dealers.change.isOpen = true) (hc : s.dealers.change.owner = some c)
    (hi : s.dealers.change.image = ((s.ctx c).reg (uRa w)).toNat)
    (him : s.image ((s.ctx c).reg (uRa w)).toNat = some im)
    (he : im.slices.find? (fun e => e.slice = ((s.ctx c).reg (uRb w)).toNat) = some e) :
    s.ofSlice c w g = g s (Running.ofWord (s.ctx c) w) e := by
  have he' : im.slices.find? (fun e => e.slice = (Running.ofWord (s.ctx c) w).rb.toNat) = some e := he
  simp only [State.ofSlice, State.inChange_owned ho hc hi him, he']

end

/-- What a target is sent rests on the path book and the generation book alone (R146). -/
theorem State.target_congr {s s' : State} (hp : s'.fab.paths = s.fab.paths) (hg : s'.fab.gens = s.fab.gens) (i : Nat)
    (id : W16) (steps : List TStep) : s'.target i id steps = s.target i id steps := by
  simp only [State.target, State.known, State.genOf, hp, hg]
  rfl

@[simp] theorem State.stream_dealers (s : State) (m : MirrorItem) : (s.stream m).dealers = s.dealers := rfl
@[simp] theorem State.stream_fab (s : State) (m : MirrorItem) : (s.stream m).fab = s.fab := rfl

/-- Recording an accelerator's fold writes the fold monitor's books and the peer's stream, no other. -/
theorem State.recordAccFold_books (s : State) (id : W16) (cause : Byte) :
    (s.recordAccFold id cause).fab.paths = s.fab.paths ∧ (s.recordAccFold id cause).fab.gens = s.fab.gens ∧
      (s.recordAccFold id cause).dealers = s.dealers := by
  unfold State.recordAccFold
  split
  · exact ⟨rfl, rfl, rfl⟩
  · simp [State.modFoldAcc, State.foldLog]

theorem State.recordAccFold_ctx (s : State) (id : W16) (cause : Byte) (c : Nat) :
    (s.recordAccFold id cause).ctx c = s.ctx c := by
  simp only [State.ctx, (s.recordAccFold_books id cause).2.2]

/-- A fold recorded first changes nothing that an instruction's operands or its target rest on. -/
theorem State.oneAgent_recordAccFold (s : State) (id : W16) (cause : Byte) (c : Nat) (w : W64) (steps : List TStep) :
    (s.recordAccFold id cause).oneAgent c w steps = (s.recordAccFold id cause).startTargets c (Running.ofWord (s.ctx c) w)
      [s.target 0 (bitsAt ((s.ctx c).reg (uRa w)) 0 16) steps] := by
  obtain ⟨hp, hg, -⟩ := s.recordAccFold_books id cause
  rw [State.oneAgent, State.recordAccFold_ctx, State.target_congr hp hg]
  rfl

/-! ## The agent list instructions -/

theorem State.trainPort_down {s : State} {c p : Nat} {r : Running} (h : uMod r.word = 2) :
    s.trainPort c r p = ((s.pkgPortDown p true).modGPort (p / 2)
      (fun g => { g with takenDown := putBit g.takenDown (p % 2) true })).succeed c 0x21 1 0 := by
  simp only [State.trainPort, h]

/-- No target is refused before it is sent its first command (R146). -/
theorem State.target_not_refused (s : State) (i : Nat) (id : W16) (steps : List TStep) : (s.target i id steps).state ≠ 2 := by
  unfold State.target
  dsimp only
  split
  · decide
  · split <;> decide

/-- ADMIT of agents none of which is held back starts a plain target for each (R336). -/
theorem State.startAdmit_unheld {s : State} {c : Nat} {x : Context} {w : W64} {ids : List W16}
    (hr : ∀ id ∈ ids, ¬ (uMod w = 0 ∧ s.releaseHeld id = true)) :
    s.startTargets c { Running.ofWord x w with
        first := if (ids.zipIdx.map (fun p => s.admitTarget w p.2 p.1)).any (fun t => t.state = 2) then 0x08 else 0 }
      (ids.zipIdx.map (fun p => s.admitTarget w p.2 p.1)) =
    s.startTargets c (Running.ofWord x w)
      (ids.zipIdx.map (fun p => s.target p.2 p.1 [.cmd (agCmd (if uMod w = 0 then 0x0C else 0x0D) 0)])) := by
  have hts : ids.zipIdx.map (fun p => s.admitTarget w p.2 p.1) =
      ids.zipIdx.map (fun p => s.target p.2 p.1 [.cmd (agCmd (if uMod w = 0 then 0x0C else 0x0D) 0)]) :=
    List.map_congr_left (fun p hp => if_neg (hr p.1 (List.fst_mem_of_mem_zipIdx hp)))
  rw [hts, if_neg]
  · rfl
  · simp [State.target_not_refused]

/-- Settles O12: each instruction passes its checks, reads its list or operands, and starts its targets. -/
theorem agentListInstructionsComplete : Obligations.AgentListInstructionsComplete := by
  unfold Obligations.AgentListInstructionsComplete
  intro s c w x
  refine ⟨fun ps h hp hb => ?probe, fun fp sub h hm hfp hsub hlt hlt2 ht => ?train, fun h => ?fence, fun h hm => ?unfence,
    fun h hm => ?punfence, fun h hl => ?preset, fun h hm => ?fold, fun h hm => ?accfold, fun ids h hm hl => ?bind,
    fun ids h hm hl => ?quar, fun ids h hm hl hr => ?release, fun ids k h hl hb hd hk => ?acmd⟩
  all_goals obtain rfl : s.ctx c = x := h.issue.is
  case probe =>
    refine exec_fabIssue h rfl ?_
    have hp' : (Safety.issued s c).probeList (Running.ofWord ((Safety.issued s c).ctx c) w).ra.toNat = some ps := hp
    simp only [hp']
    exact State.inStore_fits hb
  case train =>
    refine exec_fabIssue h rfl ((if_neg ?_).trans ?_)
    · subst hfp hsub
      rintro (h1 | h1 | h1)
      · exact absurd hlt (Nat.not_lt.mpr h1)
      · exact absurd hlt2 (Nat.not_lt.mpr h1)
      · exact h1 ht
    · subst hfp hsub
      exact State.trainPort_down hm
  case fence => exact exec_fabIssue h rfl rfl
  case unfence =>
    refine exec_fabIssue h rfl ?_
    simp only [hm]; rfl
  case punfence =>
    refine exec_fabIssue h rfl ?_
    simp only [hm]; rfl
  case preset =>
    refine exec_fabIssue h rfl ?_
    simp only [issued_ctx, hl]; rfl
  case fold => exact exec_fabIssue h rfl (if_pos hm)
  case accfold =>
    refine exec_fabIssue h rfl ((if_neg (show ¬uMod w = 0 by omega)).trans ?_)
    exact State.oneAgent_recordAccFold ..
  case bind => exact exec_overList h hl rfl (if_pos (.inl hm))
  case quar => exact exec_overList h hl rfl (State.startAdmit_unheld (fun id _ hh => by simp [hm] at hh) |>.trans (by simp only [hm]; rfl))
  case release =>
    refine exec_overList h hl rfl ((State.startAdmit_unheld ?_).trans ?_)
    · intro id hid hh
      exact absurd hh.2 (ne_true_of_eq_false (hr id hid))
    · simp only [hm]; rfl
  case acmd =>
    refine exec_overList h hl rfl ((State.inStore_fits hb).trans ((State.inStore_fits hd).trans ?_))
    have hk' : acmdSpec ((Safety.issued s c).dsRead (Running.ofWord (s.ctx c) w).rb.toNat 48) = some k := hk
    simp only [hk']
    rfl

/-! ## The table-change instructions -/

/-- Issue leaves the depot, and so the table images in it, as they were (R151). -/
theorem imgSlices_issued (s : State) (c : Fin 16) (b off n : Nat) :
    (Safety.issued s c).imgSlices b off n = s.imgSlices b off n := by
  induction n generalizing off with
  | zero => rfl
  | succ n ih =>
    simp only [State.imgSlices, ih]
    rfl

theorem imgRecs_issued (s : State) (c : Fin 16) (b off n : Nat) :
    (Safety.issued s c).imgRecs b off n = s.imgRecs b off n := by
  induction n generalizing off with
  | zero => rfl
  | succ n ih =>
    simp only [State.imgRecs, ih]
    rfl

theorem image_issued (s : State) (c : Fin 16) (b : Nat) : (Safety.issued s c).image b = s.image b := by
  simp only [State.image, imgSlices_issued, imgRecs_issued]
  rfl

theorem State.openChange_fab (s : State) (c b : Nat) : (s.openChange c b).fab = s.fab := by
  unfold State.openChange
  dsimp only
  split
  · split <;> rfl
  · rfl

theorem State.openChange_depot (s : State) (c b : Nat) : (s.openChange c b).depot = s.depot := by
  unfold State.openChange
  dsimp only
  split
  · split <;> rfl
  · rfl

theorem State.imageVerified_congr {s s' : State} (hf : s'.fab = s.fab) (hd : s'.depot = s.depot) (b : Nat) :
    s'.imageVerified b = s.imageVerified b := by
  simp only [State.imageVerified, State.depRead, State.imgLen, State.imgLE, State.depLE, hf, hd]
  rfl

theorem State.installTarget_congr {s s' : State} (hf : s'.fab = s.fab) (im : Image) (i : Nat) (id : W16) :
    s'.installTarget im i id = s.installTarget im i id := by
  simp only [State.installTarget, State.target_congr (congrArg Fabric.paths hf) (congrArg Fabric.gens hf), State.genOf, hf]

/-- ARM's disarming of a card list: one target for each entry (R153). -/
theorem State.issueArm_disarm {s : State} {c : Nat} {w : W64} {es : List (W16 × Nat × Nat)} (hm : uMod w = 1) :
    es.zipIdx.map (fun p => s.cardTarget c w p.2 p.1) =
      es.zipIdx.map (fun p => s.target p.2 p.1.1 [.cmd (agCmd 0x0A (BitVec.ofNat 32 p.1.2.1))]) :=
  List.map_congr_left (fun _ _ => if_pos hm)

/-- ARM's loading of a card list whose cards are all of the context's epoch (R153). -/
theorem State.issueArm_load {s : State} {c : Nat} {w : W64} {es : List (W16 × Nat × Nat)} (hm : uMod w = 0)
    (he : ∀ e ∈ es, BitVec.ofNat 32 (s.depLE (e.2.2 + 8) 4) = (s.ctx c).epoch) :
    es.zipIdx.map (fun p => s.cardTarget c w p.2 p.1) =
      es.zipIdx.map (fun p => s.target p.2 p.1.1 (s.cardSteps p.1.2.1 p.1.2.2)) :=
  List.map_congr_left (fun p hp => (if_neg (show ¬uMod w = 1 by omega)).trans
    (if_neg (not_not.mpr (he p.1 (List.fst_mem_of_mem_zipIdx hp)))))

/-- A list of plain targets holds none that was refused before it was sent anything. -/
theorem State.none_refused {α : Type} (s : State) (l : List α) (i : α → Nat) (id : α → W16) (st : α → List TStep) :
    (l.map (fun p => s.target (i p) (id p) (st p))).any (fun t => t.state = 2) = false := by
  simp [State.target_not_refused]

/-- The package's own sub-ports hold nothing of the plan. -/
theorem State.cutOwn_plan (s : State) (d : Desc) (v : Bool) : (s.cutOwn d v).fab.plan = s.fab.plan := by
  unfold State.cutOwn
  generalize (s.cutEnds d).filter (fun e => decide (e.1 = s.myId)) = l
  induction l generalizing s with
  | nil => rfl
  | cons e l ih => exact ih _

theorem State.linkHit_congr {s s' : State} (h : s'.fab.plan = s.fab.plan) (d : Desc) : s'.linkHit d = s.linkHit d := by
  funext l
  simp only [State.linkHit, State.inBlock, State.planOf, h]

theorem State.cutBook_true (s : State) (d : Desc) : s.cutBook d true = s.cutOut (s.linkHit d) := if_pos rfl

theorem State.cutBook_false (s : State) (d : Desc) : s.cutBook d false = (s.restore d).revisit d :=
  if_neg Bool.false_ne_true

theorem cutTargets_issued (s : State) (c : Fin 16) (d : Desc) (v : Bool) :
    (Safety.issued s c).cutTargets d v = s.cutTargets d v := rfl

/-- CUT's work at the package and with the agents, for a mode (R153). -/
theorem exec_cut {s : State} {c : Fin 16} {w : W64} {x : Context} {v : Bool} (h : Safety.FabricIssue s c 0x29 w x)
    (ho : s.dealers.change.isOpen = false) (hd : descOk (x.reg (uRa w)) = true) (hv : decide (uMod w = 0) = v) :
    exec (.uciCut c) s = .next ((((Safety.issued s c).cutOwn (x.reg (uRa w)) v).cutBook (x.reg (uRa w)) v).startTargets c
      (Running.ofWord x w) (s.cutTargets (x.reg (uRa w)) v)) := by
  obtain rfl : s.ctx c = x := h.issue.is
  subst hv
  rw [← cutTargets_issued s c]
  exact exec_fabIssue h rfl ((if_neg (ne_true_of_eq_false ho)).trans (if_neg (not_not.mpr hd)))

/-- Settles O13: each instruction finds its open change, image or card list and starts the targets the list gives; the
short ones (PLAY, CLOSE, DRAW) end at once. -/
theorem tableChangeInstructionsComplete : Obligations.TableChangeInstructionsComplete := by
  unfold Obligations.TableChangeInstructionsComplete
  intro s c w x
  refine ⟨fun im e h ho hc hi him he => ?drain, fun im h him hf ho hv => ?install, fun im e h hm ho hc hi him he => ?swap,
    fun im h hm ho hc hi him hsw => ?exchange, fun es h hm hl => ?disarm, fun es h hm hl hall hep => ?arm,
    fun h hact hd => ?play, fun h hm ho hd => ?cut, fun h hm ho hd => ?restore, fun cs h hact hd hcs hb => ?close,
    fun id h hact hid => ?draw⟩
  case drain =>
    obtain rfl : s.ctx c = x := h.issue.is
    exact exec_fabIssue h rfl (State.ofSlice_owned ho hc hi ((image_issued ..).trans him) he)
  case install =>
    obtain rfl : s.ctx c = x := h.issue.is
    refine exec_fabIssue h rfl ?_
    have him' : (Safety.issued s c).image (Running.ofWord ((Safety.issued s c).ctx c) w).ra.toNat = some im :=
      (image_issued ..).trans him
    simp only [him']
    refine (if_neg (not_not.mpr hf)).trans ((if_neg (fun hh => ?_)).trans ?_)
    · exact absurd hh.1 (ne_true_of_eq_false ho)
    · have hf' := State.openChange_fab (Safety.issued s c) c ((s.ctx c).reg (uRa w)).toNat
      have hv' := (State.imageVerified_congr hf' (State.openChange_depot ..) ((s.ctx c).reg (uRa w)).toNat).trans hv
      refine congr (congrArg (fun k => State.startTargets _ c { Running.ofWord (s.ctx c) w with arg := k }) (if_pos hv')) ?_
      exact List.map_congr_left (fun p _ => State.installTarget_congr hf' im p.2 p.1)
  case swap =>
    obtain rfl : s.ctx c = x := h.issue.is
    exact exec_fabIssue h rfl ((if_pos hm).trans (State.ofSlice_owned ho hc hi ((image_issued ..).trans him) he))
  case exchange =>
    obtain rfl : s.ctx c = x := h.issue.is
    refine exec_fabIssue h rfl ((if_neg (show ¬uMod w = 0 by omega)).trans 
      ((State.inChange_owned (s := Safety.issued s c) ho hc hi ((image_issued ..).trans him)).trans (if_neg ?_)))
    rw [Bool.not_eq_true, List.any_eq_false]
    intro e he
    rw [Bool.not_eq_true, Bool.not_eq_false']
    exact hsw e he
  case disarm =>
    obtain rfl : s.ctx c = x := h.issue.is
    refine exec_fabIssue h rfl ?_
    have hl' : (Safety.issued s c).cardList (Running.ofWord ((Safety.issued s c).ctx c) w).ra.toNat = some es := hl
    simp only [hl']
    refine (if_neg (fun hh => by omega)).trans ?_
    rw [State.issueArm_disarm (s := Safety.issued s c) hm, State.none_refused, State.handTargets, if_pos hm, List.append_nil]
    rfl
  case arm =>
    obtain rfl : s.ctx c = x := h.issue.is
    refine exec_fabIssue h rfl ?_
    have hl' : (Safety.issued s c).cardList (Running.ofWord ((Safety.issued s c).ctx c) w).ra.toNat = some es := hl
    simp only [hl']
    refine (if_neg (fun hh => hh.2 hall)).trans ?_
    rw [State.issueArm_load (s := Safety.issued s c) hm hep, State.none_refused]
    rfl
  case play =>
    obtain rfl : s.ctx c = x := h.is
    exact exec_fabShort h hact rfl (if_pos hd)
  case cut =>
    rw [exec_cut h ho hd (decide_eq_true hm), State.cutBook_true,
      State.linkHit_congr ((State.cutOwn_plan (Safety.issued s c) _ _).trans rfl : _ = s.fab.plan)]
  case restore => rw [exec_cut h ho hd (decide_eq_false (by omega)), State.cutBook_false]
  case close =>
    obtain rfl : s.ctx c = x := h.is
    subst hcs
    exact exec_fabShort h hact rfl ((if_neg (not_not.mpr hd)).trans (State.inStore_fits hb))
  case draw =>
    obtain rfl : s.ctx c = x := h.is
    refine exec_fabShort h hact rfl ?_
    have hid' : (Safety.issued s c).drawSpare (bitsAt (((Safety.issued s c).ctx c).reg (uRa w)) 0 16) = some id := hid
    simp only [hid']
    rfl

/-! ## The checkpoint instructions -/

/-- A mailbox exchange with each agent of a list starts one target per agent (R154). -/
theorem exec_exchangeAll {s : State} {c : Fin 16} {op : Byte} {w : W64} {x : Context} {i : Instr} {ids : List W16}
    {g : W64 → List Byte → List Byte} (h : Safety.FabricIssue s c op w x)
    (hl : s.agentList (x.reg (uRa w)).toNat = some ids) (hb : (x.reg (uRb w)).toNat + 40 ≤ 0x400000)
    (hi : exec i s = .next (s.uci c op (fun s w => s.exchangeAll c w (g w)))) :
    exec i s = .next ((Safety.issued s c).startTargets c (Running.ofWord x w)
      (s.targets ids (exchange (g w (s.dsRead (x.reg (uRb w)).toNat 40))))) := by
  refine exec_overList h hl hi ((State.inStore_fits hb).trans ?_)
  rfl

/-- Settles O14: the exchanges start on their agent lists; DIGEST and SEAL end at issue. -/
theorem checkpointInstructionsComplete : Obligations.CheckpointInstructionsComplete := by
  unfold Obligations.CheckpointInstructionsComplete
  intro s c w x ids
  refine ⟨fun h hl hb => exec_exchangeAll h hl hb rfl, fun h hl hb => exec_exchangeAll h hl hb rfl,
    fun h hl hb => exec_exchangeAll (g := fun _ => id) h hl hb rfl, fun h hm h0 hn hd ha => ?digest,
    fun d h hn hdep hd hlast => ?sealed⟩
  case digest =>
    obtain rfl : s.ctx c = x := h.issue.is
    refine exec_fabIssue h rfl ((if_neg ?_).trans ((State.inStore_fits hd).trans ((if_neg ?_).trans
      ((State.inStore_fits ha).trans (if_pos ?_)))))
    · rintro (h1 | h1)
      · exact absurd h1 (Nat.ne_of_gt h0)
      · exact absurd hn (Nat.not_le.mpr h1)
    · omega
    · exact congrArg (· % 2) hm
  case sealed =>
    obtain rfl : s.ctx c = x := h.issue.is
    subst hd
    refine ⟨_, exec_fabIssue h rfl ((if_neg ?_).trans (if_pos ?_)), ?_, ?_⟩
    · rintro (h1 | h1)
      · exact absurd hn (Nat.not_le.mpr h1)
      · exact h1 hdep
    · have hl' : (Safety.issued s c).lastSeal ((Safety.issued s c).depLE (((s.ctx c).reg (uRa w)).toNat + 4) 4) = none := hlast
      exact (congrArg (fun o => sealOk o _ _) hl').trans rfl
    · rfl
    · rfl

end Sys2Proof.Machine
end

section
/-! PROOFS (07). How a stream's instruction issues, and the station instructions. -/

namespace Sys2Proof.Machine

section
variable {s t : State} {e : Fin 320} {op : Nat} {w : BitVec 128} {x : Stream} {k : Conf} {i : Instr}
  {f : State → BitVec 128 → State}

/-- An instruction that a running stream issues has its opcode's meaning (R250). -/
theorem exec_tile (h : Safety.Tile s e op w x) (hi : exec i s = .next (s.sti e op f)) (hf : f s w = t) :
    exec i s = .next t := by
  obtain ⟨hruns, rfl, hready, rfl, hop⟩ := h
  rw [hi, ← hf]
  exact congrArg Host.Outcome.next (if_pos ⟨hruns, by rw [hready]; rfl, hop⟩)

/-- A configuration that the engine has room for is the next compute's (R250). -/
theorem State.stiConf_room {g : Conf → Conf} (h : Safety.TileConf s e op w x k) (hk : k = g x.conf) :
    s.stiConf e g = s.stiSet e (fun y => { y with conf := k }) := by
  obtain ⟨⟨-, rfl, -, -, -⟩, hroom⟩ := h
  subst hk
  exact if_neg (Nat.not_lt.mpr hroom)

end

/-! ## The scalar and loop instructions -/

theorem State.tLoop_enter {s : State} {e : Nat} {w : BitVec 128} {n : W32}
    (hn : n = (if sMod w = 0 then sImm32 w else bitsAt ((s.str e).reg (sY w)) 0 32)) (h0 : n ≠ 0) :
    s.tLoop e w = s.stiSet e (fun y => { y with
      loops := SMap.set noneOf y.loops (sX w) (some (n, ((s.eng e).pc + 1) % 4096)) }) := by
  subst hn
  exact if_neg h0

theorem State.tLoop_skip {s : State} {e : Nat} {w : BitVec 128}
    (h : (if sMod w = 0 then sImm32 w else bitsAt ((s.str e).reg (sY w)) 0 32) = 0) :
    s.tLoop e w = s.modEng e (fun y => { y with
      pc := (s.die (e / 8)).afterEndl (sX w) (((s.eng e).pc + 1) % 4096) 4096 }) := if_pos h

theorem State.tEndl_last {s : State} {e : Nat} {w : BitVec 128} {i : Nat}
    (h : SMap.get noneOf (s.str e).loops (sX w) = some (1, i)) :
    s.tEndl e w = s.stiSet e (fun y => { y with loops := SMap.set noneOf y.loops (sX w) none }) := by
  simp only [State.tEndl, h]
  rfl

theorem State.tEndl_again {s : State} {e : Nat} {w : BitVec 128} {n : W32} {i : Nat}
    (h : SMap.get noneOf (s.str e).loops (sX w) = some (n, i)) (hn : n ≠ 1) :
    s.tEndl e w = s.modEng e (fun y => { y with
      pc := i, str := { y.str with loops := SMap.set noneOf y.str.loops (sX w) (some (n - 1, i)) } }) := by
  simp only [State.tEndl, h]
  exact if_neg hn

/-- Settles O15: each instruction is one update of the stream, and the loops follow their counter. -/
theorem stationScalarInstructionsComplete : Obligations.StationScalarInstructionsComplete := by
  unfold Obligations.StationScalarInstructionsComplete
  intro s e w x
  refine ⟨fun h => exec_tile h rfl rfl, fun h => exec_tile h rfl rfl, fun h => exec_tile h rfl rfl,
    fun h => exec_tile h rfl rfl, fun h => exec_tile h rfl rfl, fun h => exec_tile h rfl rfl, fun h => exec_tile h rfl rfl,
    fun h => exec_tile h rfl rfl, fun h => exec_tile h rfl rfl, fun n h hn h0 => ?loop, fun h h0 => ?skip,
    fun i h hl => ?last, fun n i h hl hn => ?again, fun h => exec_tile h rfl rfl⟩
  all_goals obtain rfl : s.str e = x := h.is
  case loop => exact exec_tile h rfl (State.tLoop_enter hn h0)
  case skip => exact exec_tile h rfl (State.tLoop_skip h0)
  case last => exact exec_tile h rfl (State.tEndl_last hl)
  case again => exact exec_tile h rfl (State.tEndl_again hl hn)

/-! ## The configuration instructions -/

theorem State.tModel_room {s : State} {e : Nat} {w : BitVec 128} {o : OpSlot} {k : Conf}
    (ho : SMap.get noneOf (s.str e).conf.slots (sX w) = some o) (hp : (s.str e).prefetch = none)
    (hk : k = { (s.str e).conf with slots := SMap.set noneOf (s.str e).conf.slots (sX w) (some { o with
      addr := (s.str e).reg (sY w) + sImm64 w, exp := bitsAt (sImm32 w) 4 8, key := (bitsAt (sImm32 w) 12 4).toNat,
      pre := [] }) }) (hroom : ((s.str e).confs k).length ≤ 3) :
    s.tModel e w = s.stiSet e (fun y => { y with conf := k, prefetch := none }) := by
  subst hk
  simp only [State.tModel, ho, hp]
  exact if_neg (Nat.not_lt.mpr hroom)

/-- Settles O16: each instruction gives the configuration its clause names, for which the engine has room. -/
theorem stationConfigurationInstructionsComplete : Obligations.StationConfigurationInstructionsComplete := by
  unfold Obligations.StationConfigurationInstructionsComplete
  intro s e w x k
  refine ⟨fun o h hf ha he hkey hb hp hbmp hk => ?opnd, fun o h ho hk => ?obmp, fun h ho hk => ?early, fun h hk => ?outd,
    fun a h ha hk => ?oaux, fun o h ho hp hk => ?model, fun h hk => ?gfcoef, fun h hm hk => ?layIn, fun h hm hk => ?layOut,
    fun h hb hk => ?hash⟩
  all_goals obtain rfl : s.str e = x := h.tile.is
  case opnd =>
    obtain ⟨fmt, addr, exp, key, withBmp, bmp, pre⟩ := o
    subst hf ha he hkey hb hp hbmp
    refine exec_tile h.tile rfl ?_
    unfold State.tOpnd
    exact State.stiConf_room h hk
  case obmp =>
    refine exec_tile h.tile rfl ?_
    unfold State.tObmp
    refine State.stiConf_room h ?_
    simp only [ho]
    exact hk
  case early =>
    refine exec_tile h.tile rfl ?_
    unfold State.tObmp
    refine State.stiConf_room h ?_
    simp only [ho]
    exact hk
  case outd =>
    refine exec_tile h.tile rfl ?_
    unfold State.tOutd
    exact State.stiConf_room h hk
  case oaux =>
    refine exec_tile h.tile rfl ?_
    unfold State.tOaux
    refine State.stiConf_room h (hk.trans ?_)
    subst ha
    rcases hm : sMod w with _ | _ | m <;> rfl
  case model => exact exec_tile h.tile rfl (State.tModel_room ho hp hk h.room)
  case gfcoef => exact exec_tile h.tile rfl (State.stiConf_room h hk)
  case layIn => exact exec_tile h.tile rfl (State.stiConf_room h (hk.trans (if_pos hm).symm))
  case layOut => exact exec_tile h.tile rfl (State.stiConf_room h (hk.trans (if_neg (show ¬sMod w = 0 by omega)).symm))
  case hash =>
    subst hk
    refine exec_tile h.tile rfl (if_neg ?_)
    rintro (h1 | ⟨h1, h2⟩)
    · exact absurd h.room (Nat.not_le.mpr h1)
    · exact hb.elim h1 h2

/-! ## Events of engines, streams and dies -/

section
variable {s : State} {e : Nat}

theorem State.runs_iff : s.runs e = true ↔ (s.eng e).st = 1 ∧ (s.str e).ending = none := by
  simp [State.runs]

theorem State.tileStep_job {j : Job} {rest : List Job} (hr : s.runs e = true) (hj : (s.str e).jobs = j :: rest) :
    s.tileStep e = match j.work with
      | .tiles i k _ => s.matrixTile e j rest i k
      | .bytes n done inR outR cores base => s.bytesTile e j rest n done inR outR cores base := by
  unfold State.tileStep
  rw [if_neg (not_not.mpr hr), hj] <;> rfl

theorem State.carryFault_ending {f : Byte} (hst : (s.eng e).st = 1) (he : (s.str e).ending = some f) :
    s.carryFault e = if f = 6 then (s.cutTile e).eraseStream e
      else ((s.cutTile e).endStream e (if f = 1 then 3 else 2) f (if f = 0x0B then 4 else 0)).stWake := by
  simp only [State.carryFault, hst, he, if_true]

theorem State.cutTile_none (h : s.inHand e = none) : s.cutTile e = s := by
  simp only [State.cutTile, h]

theorem State.cutTile_some {bs : List Byte} {l : List (W64 × Nat)} (h : s.inHand e = some (bs, l)) :
    s.cutTile e = ({ s with fresh := s.fresh + 1 } : State).putFront e
      (bs.take (64 * ((Config.free 16 s.fresh).toNat % (bs.length / 64 + 1)))) l := by
  simp only [State.cutTile, h]

theorem State.modEng_congr {f g : Engine → Engine} (h : f (s.eng e) = g (s.eng e)) : s.modEng e f = s.modEng e g :=
  congrArg (s.setEng e) h

end

/-- Settles O18: each event finds the engine, stream or die in the state its clause names, and takes that branch. -/
theorem stationEventsComplete : Obligations.StationEventsComplete := by
  unfold Obligations.StationEventsComplete
  intro s e d
  refine ⟨fun j rest hr hj => ?tile, fun hr ht => ?timeout, fun f hst he hf hin => ?fault,
    fun f bs at_ k s1 hst he hf hin hk hs1 => ?cut, fun hst he hin => ?erase, fun hr => ?ecc, fun hr => ?corr,
    fun hst => ?corrIdle, fun hr => ?read, fun hr => ?hw, fun hr ht => ?wait, fun ok hst hb ha => ?scrub,
    fun ok hst hb => ?kat, fun dies img ver => rfl, fun hst hi hz hu hk => ?sleep,
    fun k cls r s1 hq ht hh hs1 hroom => ?grant, rfl, fun hst hb => ?awake⟩
  case tile => exact congrArg Host.Outcome.next (State.tileStep_job hr hj)
  case timeout => exact congrArg Host.Outcome.next (if_pos ⟨hr, by rw [ht]; rfl⟩)
  case fault =>
    refine congrArg Host.Outcome.next ((State.carryFault_ending hst he).trans ?_)
    rw [State.cutTile_none hin]
    exact if_neg hf
  case cut =>
    subst hs1 hk
    refine congrArg Host.Outcome.next ((State.carryFault_ending hst he).trans ?_)
    rw [State.cutTile_some hin]
    exact if_neg hf
  case erase =>
    refine congrArg Host.Outcome.next ((State.carryFault_ending hst he).trans ?_)
    rw [State.cutTile_none hin]
    exact if_pos rfl
  case ecc => exact congrArg Host.Outcome.next ((if_pos rfl).trans (if_pos hr))
  case corr =>
    obtain ⟨hst, -⟩ := State.runs_iff.mp hr
    refine congrArg Host.Outcome.next ((if_neg Bool.false_ne_true).trans ((if_neg ?_).trans (State.modEng_congr ?_)))
    · rw [hst]; decide
    · simp only [hst, decide_true, Bool.true_and]
  case corrIdle =>
    refine congrArg Host.Outcome.next ((if_neg Bool.false_ne_true).trans ((if_neg ?_).trans (State.modEng_congr ?_)))
    · rcases hst with h | h <;> rw [h] <;> decide
    · have hne : decide ((s.eng e).st = 1) = false := by rcases hst with h | h <;> rw [h] <;> decide
      simp only [hne, Bool.false_and, Bool.or_false]
  case read => exact congrArg Host.Outcome.next (if_pos hr)
  case hw => exact congrArg Host.Outcome.next (if_pos hr)
  case wait => exact congrArg Host.Outcome.next (if_pos ⟨hr, ht⟩)
  case scrub =>
    refine congrArg Host.Outcome.next ((if_neg ?_).trans ?_)
    · rw [hst, hb]; simp
    · simp only [ha]
      cases ok <;> rfl
  case kat =>
    refine congrArg Host.Outcome.next (if_neg ?_)
    rw [hst, hb]; simp
  case sleep => exact congrArg Host.Outcome.next (if_pos ⟨hst, hi, hz, hu, hk⟩)
  case grant =>
    subst hs1
    have hmay : ¬(s.plat.pwr.tokens = 0 ∨ s.plat.pwr.tokensHeld = true) := by simp [ht, hh]
    unfold exec execWakeTokenGrant
    simp only [hq]
    exact congrArg Host.Outcome.next ((if_neg hmay).trans (if_neg (Nat.not_lt.mpr hroom)))
  case awake => exact congrArg Host.Outcome.next (if_pos ⟨hst, by rw [hb]; exact Bool.false_ne_true⟩)

end Sys2Proof.Machine
end

section
/-! PROOFS (07, 10). END of a stream that wrote a whole rebuild segment: a counterexample to the statement of the stations'
work instructions. -/

namespace Sys2Proof.Machine

/-- Engine 0 at END, its stream having written the one delivery's 64 bytes. -/
def endingStream : State where
  fab := { reb := { deliveries := [{ convoy := 0, dest := 0, src := 0x1000, len := 64, plan := 0 }] } }
  stat := { dies := [(0, { st := 4, store := [(0, 0x3F <<< 120)] })], eng := [(0, { st := 1, str := { wrote := [(0x1000, 64)] } })] }

/-- Whether a delivery may leave (R367). -/
def anyReady : Result → Bool
  | .next s => s.fab.reb.deliveries.any (·.ready)
  | _ => false

theorem endingStream_tile : Safety.Tile endingStream 0 0x3F (0x3F <<< 120) (endingStream.str 0) :=
  ⟨by decide, rfl, by decide, by decide, by decide⟩

/-- The segment is ready once END has written the commit word. -/
theorem endingStream_ready : anyReady (exec (.stiEnd 0) endingStream) = true := by decide +kernel

/-- The state that the statement names leaves the segment as it was. -/
theorem endingStream_named : anyReady (.next ((((endingStream.flushUnits 0).endStream 0 1 0 0).depWrite
    ((endingStream.flushUnits 0).str 0).commit (toBytes 8 ((endingStream.flushUnits 0).commitWord 0))).stWake)) = false := by
  decide +kernel

/-- Refutes O17: its last clause says that END leaves all but the stream, the record and the commit word as before, but a
rebuild segment that the stream wrote whole becomes ready with the commit word (R367). -/
theorem not_stationWorkInstructionsComplete : ¬ Obligations.StationWorkInstructionsComplete := by
  unfold Obligations.StationWorkInstructionsComplete
  intro h
  obtain ⟨-, -, -, -, -, -, -, -, -, hend⟩ := h endingStream 0 (0x3F <<< 120) (endingStream.str 0)
  have heq := congrArg anyReady (hend endingStream_tile (by decide))
  exact absurd (endingStream_ready.symm.trans (heq.trans endingStream_named)) (by decide)

end Sys2Proof.Machine
end

section
/-! PROOFS (04, 11). The ledger instructions. -/

namespace Sys2Proof.Machine

/-! ## Queues at issue -/

section
variable {s t : State} {c : Fin 16} {q k : Nat} {r : Running} {op : Byte} {w : W64} {x : Context}

/-- A pop served by a queue: the head goes to the context's area (R395). -/
theorem State.qStep_pop (hen : (t.queue q).en = true) (hw : t.qWait q = none) (he : (t.queue q).isEmpty = false)
    (hc : (t.qWaiters 0x61 q).head? = some k) (hr : (t.ctx k).long = some r) :
    t.qStep q = some (((t.dsWrite r.rb.toNat (t.qHead q)).qPop q).succeed k 0x61 1 0) := by
  simp only [State.qStep, State.qStalled, hen, hw, he, hc, hr, not_true_eq_false, if_false, Option.isSome_none,
    Bool.false_eq_true, false_and, or_self]

/-- A push served by an empty queue: no pop can come before it (R395). -/
theorem State.qStep_push (hen : (t.queue q).en = true) (hw : t.qWait q = none) (he : (t.queue q).isEmpty = true)
    (hf : (t.queue q).isFull = false) (hc : (t.qWaiters 0x60 q).head? = some k) (hr : (t.ctx k).long = some r) :
    t.qStep q = some ((t.qPush q (t.dsRead r.rb.toNat (t.queue q).entry)).succeed k 0x60 1 0) := by
  simp only [State.qStep, hen, hw, he, hf, hc, hr, not_true_eq_false, if_false, Option.isSome_none,
    Bool.false_eq_true, false_and, true_or, if_true]

theorem State.qRun_step {s1 : State} {n : Nat} (h : t.qStep q = some s1) : t.qRun q (n + 1) = s1.qRun q n := by
  rw [State.qRun, h]

/-- A queue instruction that names a usable queue, with its entry within the data store, waits and lets the queue run. -/
theorem State.issueQueue_usable (hq : q = (bitsAt ((s.ctx k).reg (uRa w)) 0 15 : BitVec 15).toNat)
    (hu : s.qUsable q = true) (hb : ((s.ctx k).reg (uRb w)).toNat + (s.queue q).entry ≤ 0x400000) :
    s.issueQueue k w = (s.wait k (Running.ofWord (s.ctx k) w)).qRun q 32800 := by
  subst hq
  exact (if_neg (not_not.mpr hu)).trans (State.inStore_fits hb)

theorem State.queue_en (h : s.qUsable q = true) : (s.queue q).en = true := by
  unfold State.qUsable at h
  exact (Bool.and_eq_true _ _ ▸ h).2

end

section
variable {s t : State} {q k : Nat} {r : Running} {w : W64}

theorem State.issueQueue_push (hr : r = Running.ofWord (s.ctx k) w)
    (hq : q = (bitsAt ((s.ctx k).reg (uRa w)) 0 15 : BitVec 15).toNat) (hu : s.qUsable q = true)
    (hb : ((s.ctx k).reg (uRb w)).toNat + (s.queue q).entry ≤ 0x400000) (ht : t = s.wait k r) (hw : t.qWait q = none)
    (he : (t.queue q).isEmpty = true) (hf : (t.queue q).isFull = false) (hc : (t.qWaiters 0x60 q).head? = some k)
    (hl : (t.ctx k).long = some r) :
    s.issueQueue k w =
      ((t.qPush q (t.dsRead ((s.ctx k).reg (uRb w)).toNat (t.queue q).entry)).succeed k 0x60 1 0).qRun q 32799 := by
  have hen : (t.queue q).en = true := by rw [ht]; exact State.queue_en hu
  have hrb : ((s.ctx k).reg (uRb w)).toNat = r.rb.toNat := by rw [hr]; rfl
  rw [State.issueQueue_usable hq hu hb, ← hr, ← ht, hrb]
  exact State.qRun_step (State.qStep_push hen hw he hf hc hl)

theorem State.issueQueue_pop (hr : r = Running.ofWord (s.ctx k) w)
    (hq : q = (bitsAt ((s.ctx k).reg (uRa w)) 0 15 : BitVec 15).toNat) (hu : s.qUsable q = true)
    (hb : ((s.ctx k).reg (uRb w)).toNat + (s.queue q).entry ≤ 0x400000) (ht : t = s.wait k r) (hw : t.qWait q = none)
    (he : (t.queue q).isEmpty = false) (hc : (t.qWaiters 0x61 q).head? = some k) (hl : (t.ctx k).long = some r) :
    s.issueQueue k w =
      (((t.dsWrite ((s.ctx k).reg (uRb w)).toNat (t.qHead q)).qPop q).succeed k 0x61 1 0).qRun q 32799 := by
  have hen : (t.queue q).en = true := by rw [ht]; exact State.queue_en hu
  have hrb : ((s.ctx k).reg (uRb w)).toNat = r.rb.toNat := by rw [hr]; rfl
  rw [State.issueQueue_usable hq hu hb, ← hr, ← ht, hrb]
  exact State.qRun_step (State.qStep_pop hen hw he hc hl)

end

/-! ## Tallies and settlement at issue -/

section
variable {s s1 : State} {c t : Nat} {w : W64}

theorem State.uTally_read (ht : t = (bitsAt ((s.ctx c).reg (uRa w)) 0 16 : W16).toNat) (hm : uMod w = 0)
    (hs : s1 = s.dirty (s.tallyPart t)) :
    s.uTally c w = (s1.modCtx c (fun y => y.setReg (uRd w) ((s1.tally t).count.setWidth 64))).endShort c 0x62 0 0 0 0 0 := by
  subst ht hs
  simp only [State.uTally, State.tallyOp, hm]
  rfl

theorem State.uTally_set (ht : t = (bitsAt ((s.ctx c).reg (uRa w)) 0 16 : W16).toNat) (hm : uMod w = 1)
    (hv : ((s.ctx c).reg (uRb w)).toNat < 0x100000000) (hs : s1 = s.tallySet t (bitsAt ((s.ctx c).reg (uRb w)) 0 32)) :
    s.uTally c w = ((s1.modCtx c (fun y => y.setReg (uRd w) ((s1.tally t).count.setWidth 64))).endShort c 0x62 0 0 0 0
      0).wakeTally t := by
  subst ht hs
  unfold State.uTally
  refine (if_neg (fun hh => absurd hv (Nat.not_lt.mpr hh.2))).trans ?_
  simp only [State.tallyOp, hm]
  rfl

theorem State.uTally_add (ht : t = (bitsAt ((s.ctx c).reg (uRa w)) 0 16 : W16).toNat) (hm : uMod w = 2)
    (hs : s.tallyAdd t ((s.ctx c).reg (uRb w)).toInt true = some s1) :
    s.uTally c w = ((s1.modCtx c (fun y => y.setReg (uRd w) ((s1.tally t).count.setWidth 64))).endShort c 0x62 0 0 0 0
      0).wakeTally t := by
  subst ht
  simp only [State.uTally, State.tallyOp, hm, hs]
  rfl

theorem State.issueSettle_none (h : s.led.settle.open_ = []) :
    s.issueSettle c w = (s.setSettle (fun y => { y with asked := true })).waitJ c
      { Running.ofWord (s.ctx c) w with arg := s.stamp.toNat } := by
  simp only [State.issueSettle, h]
  rfl

theorem State.issueSettle_joins {k : Stamp} (h : s.led.settle.open_.getLast? = some k) :
    s.issueSettle c w = s.waitJ c { Running.ofWord (s.ctx c) w with arg := k.stamp.toNat } := by
  simp only [State.issueSettle, h]

/-- A server's MBX on a mailbox it serves waits for a request (R402). -/
theorem State.mbxLedger_serve {m : Nat} (hm : uMod w = 3) (h : m = (bitsAt ((s.ctx c).reg (uRa w)) 0 12 : BitVec 12).toNat)
    (hen : (s.mbx m).en = true) (hsv : (s.mbx m).server = 9) (hd : ((s.ctx c).reg (uRd w)).toNat + 40 ≤ 0x400000) :
    s.mbxLedger c w = (s.waitJ c (Running.ofWord (s.ctx c) w)).mbxWake m 96 := by
  subst h
  have hn : (if (s.mbx (bitsAt ((s.ctx c).reg (uRa w)) 0 12 : BitVec 12).toNat).cmd then 40 else 32) ≤ 40 := by
    split <;> omega
  have h2 : ¬uMod w = 2 := by omega
  unfold State.mbxLedger
  refine (if_neg ?_).trans ((State.inStore_fits ?_).trans (State.inStore_fits ?_))
  · rintro (h | ⟨-, h⟩ | ⟨h, -⟩)
    · exact h hen
    · exact h hsv
    · exact h2 h
  · rw [if_neg h2]
    exact (Nat.add_le_add_left hn _).trans hd
  · rw [if_neg (fun h => h2 h.1)]
    exact (Nat.add_le_add_left hn 0).trans (by omega)

end

/-- Settles O19: a queue's next step is the push or pop that its instruction asked for; the others end or wait as their mode
says. -/
theorem ledgerInstructionsComplete : Obligations.LedgerInstructionsComplete := by
  unfold Obligations.LedgerInstructionsComplete
  intro s c w x r hr
  refine ⟨fun q t h hq hu hb ht hw he hf hc hl => ?push, fun q t h hq hu hb ht hw he hc hl => ?pop,
    fun t s1 h ht hm hs => ?read, fun t s1 h ht hm hv hs => ?set, fun t s1 h ht hm hs => ?add, fun h ho => ?settle,
    fun k h ho => ?join, fun h hm hb => ?down, fun h hm hb hd => ?exch, fun m h hm hmm hen hsv hd => ?serve⟩
  all_goals obtain rfl : s.ctx c = x := h.is
  case push => exact exec_issue h rfl (State.issueQueue_push hr hq hu hb ht hw he hf hc hl)
  case pop => exact exec_issue h rfl (State.issueQueue_pop hr hq hu hb ht hw he hc hl)
  all_goals subst hr
  case read => exact exec_issue h rfl (State.uTally_read ht hm hs)
  case set => exact exec_issue h rfl (State.uTally_set ht hm hv hs)
  case add => exact exec_issue h rfl (State.uTally_add ht hm hs)
  case settle => exact exec_issue h rfl (State.issueSettle_none ho)
  case join => exact exec_issue h rfl (State.issueSettle_joins ho)
  case down =>
    refine exec_issue h rfl ?_
    simp only [State.issueMbx, hm]
    exact State.inStore_fits hb
  case exch =>
    refine exec_issue h rfl ?_
    simp only [State.issueMbx, hm]
    exact (State.inStore_fits hb).trans (State.inStore_fits hd)
  case serve =>
    refine exec_issue h rfl ?_
    simp only [State.issueMbx, hm]
    exact State.mbxLedger_serve hm hmm hen hsv hd

end Sys2Proof.Machine
end

section
/-! PROOFS (04, 07, 12). The station, security and power instructions. -/

namespace Sys2Proof.Machine

/-! ## LAUNCH -/

section
variable {s t u : State} {c : Nat} {q : Running} {e : Nat}

theorem State.launchOk_setPwr (s : State) (f : Power → Power) (d : Nat) (b : List Byte) :
    (s.setPwr f).launchOk d b = s.launchOk d b := rfl

/-- A launch whose engine is free, on an awake die of the right version, of the same tenant and clean, starts its stream. -/
theorem State.tryLaunch_starts (hp : t.pickEngine q.rb.toNat (lb q.block 4 4) = some e) (ha : (t.die (e / 8)).st = 4)
    (hv : (t.die (e / 8)).psver.toNat = lb q.block 4 4) (hok : t.launchOk (e / 8) q.block = true)
    (hu : u = t.setPwr (fun p => { p with engClass := SMap.set zNat p.engClass e (t.ctxClass c) }))
    (htn : (u.eng e).tenant.toNat = lb q.block 0 2) (hd : (u.eng e).dirty = false) :
    t.tryLaunch c q = (u.startStream e (BitVec.ofNat 16 q.arg) q.block).launched c q := by
  have hbad : ¬((t.die (e / 8)).psver.toNat ≠ lb q.block 4 4 ∨ ¬t.launchOk (e / 8) q.block = true) := by
    rintro (h | h)
    · exact h hv
    · exact h hok
  have hscrub : ¬((u.eng e).tenant.toNat ≠ lb q.block 0 2 ∨ (u.eng e).dirty = true) := by
    rintro (h | h)
    · exact h htn
    · rw [hd] at h; exact Bool.false_ne_true h
  have huok : u.launchOk (e / 8) q.block = true := by rw [hu, State.launchOk_setPwr]; exact hok
  have hbegin : u.beginLaunch c q e = (u.startStream e (BitVec.ofNat 16 q.arg) q.block).launched c q := if_pos huok
  unfold State.tryLaunch
  simp only [hp]
  rw [if_neg hbad, ha, if_neg (by decide), if_neg (by decide), ← hu, if_neg hscrub, hbegin]

end

/-- LAUNCH at issue, its block checked: it takes the next handle, waits, and looks for its engine (R241, R249). -/
theorem State.issueLaunch_checked {s t : State} {c a want h d : Nat} {w : W64} {b : List Byte} {q : Running}
    (ha : a = ((s.ctx c).reg (uRa w)).toNat) (hwant : want = ((s.ctx c).reg (uRb w)).toNat) (hb : a + 128 ≤ 0x400000)
    (hal : a % 64 = 0) (hblk : b = s.dsRead a 128)
    (hver : want < 320 ∧ (s.die (want / 8)).st ≠ 0 ∧ (s.die (want / 8)).psver.toNat = lb b 4 4 ∨ want = 0xFFFF)
    (hd : s.checkDie want (lb b 4 4) = some d) (hok : s.launchOk d b = true)
    (hh : h = s.nextHandle s.stat.lastHandle.toNat 65536)
    (hq : q = { Running.ofWord (s.ctx c) w with
      arg := h, data := (List.range 16).map (fun i => BitVec.ofNat 64 (lb b (8 * i) 8)) })
    (ht : t = ({ s with stat := { s.stat with lastHandle := BitVec.ofNat 16 h } } : State).waitJ c q) :
    s.issueLaunch c w = t.tryLaunch c q := by
  have hplace : ¬(a % 64 ≠ 0 ∨ ¬(want < 320 ∨ want = 0xFFFF)) := by
    rintro (h | h)
    · exact h hal
    · exact h (hver.imp (·.1) id)
  have hwrong : (decide (want < 320) && (decide ((s.die (want / 8)).st = 0) ||
      decide ((s.die (want / 8)).psver.toNat ≠ lb b 4 4))) = false := by
    rcases hver with ⟨-, h0, hv⟩ | hv
    · rw [decide_eq_false h0, hv]; simp
    · simp [hv]
  subst ha hwant hblk
  unfold State.issueLaunch
  refine (State.inStore_fits hb).trans ((if_neg hplace).trans ?_)
  dsimp only
  generalize s.nextHandle s.stat.lastHandle.toNat 65536 = k at hh ⊢
  subst hh hq ht
  refine if_neg ?_
  rintro (hw | hw)
  · exact absurd (hwrong.symm.trans hw) Bool.false_ne_true
  · refine hw ?_
    simp only [Running.ofWord, hd, hok]

/-! ## JOIN and RETIRE -/

theorem State.issueJoin_ended {s t : State} {c : Nat} {w : W64} {z : Ended}
    (hb : ((s.ctx c).reg (uRb w)).toNat + 128 ≤ 0x400000) (ht : t = s.waitJ c (Running.ofWord (s.ctx c) w))
    (hz : t.stat.ended.find? (fun y => y.handle.toNat = ((s.ctx c).reg (uRa w)).toNat) = some z) (hst : z.st = 1) :
    s.issueJoin c w = (({ t with stat := { t.stat with ended := t.stat.ended.filter (fun y => decide (y ≠ z)) } } :
      State).dsWrite ((s.ctx c).reg (uRb w)).toNat z.record).succeed c 0x51 0 0 := by
  unfold State.issueJoin
  have hz' : t.stat.ended.find? (fun y => y.handle.toNat = (Running.ofWord (s.ctx c) w).ra.toNat) = some z := hz
  have hrb : (Running.ofWord (s.ctx c) w).rb.toNat = ((s.ctx c).reg (uRb w)).toNat := rfl
  dsimp only
  rw [hrb, State.inStore_fits hb, ← ht, State.tryJoin, hz', hrb]
  exact if_pos hst

theorem State.issueRetire_stream {s t : State} {c e : Nat} {w : W64} (hm : uMod w = 0)
    (ht : t = s.waitJ c (Running.ofWord (s.ctx c) w)) (hl : t.liveOn ((s.ctx c).reg (uRa w)).toNat = some e)
    (hst : (t.eng e).st = 1) : s.issueRetire c w = t.faultStr e 1 := by
  have hl' : t.liveOn (Running.ofWord (s.ctx c) w).ra.toNat = some e := hl
  unfold State.issueRetire
  dsimp only
  rw [← ht, if_pos hm, hl']
  exact if_pos hst

theorem State.issueRetire_die {s t : State} {c n d : Nat} {w : W64} (hm : uMod w = 1)
    (ht : t = s.waitJ c (Running.ofWord (s.ctx c) w)) (hn : n = ((s.ctx c).reg (uRa w)).toNat) (hlt : n < 40)
    (hst : (t.die n).st = 4) (hsp : (List.range 40).find? (fun d => (t.die d).st = 1) = some d) :
    s.issueRetire c w = (t.retireDie n d).stWake := by
  have hn' : (Running.ofWord (s.ctx c) w).ra.toNat = n := hn.symm
  unfold State.issueRetire
  dsimp only
  rw [← ht, hn', if_neg (by omega), if_neg, if_pos hm, if_neg, hsp]
  · rw [hst]; decide
  · rw [hst]
    rintro (h | h)
    · omega
    · exact absurd h (by decide)

/-! ## Keys and attestation -/

theorem State.issueAttest_own {s : State} {c : Nat} {w : W64} {r : Running} (hr : r = Running.ofWord (s.ctx c) w)
    (hm : uMod w = 0) (hb : r.rb.toNat + 32 ≤ 0x400000) (hd : r.rd.toNat + 1024 ≤ 0x400000) :
    s.issueAttest c w = (s.waitJ c r).attestOwn c r := by
  unfold State.issueAttest
  dsimp only
  rw [← hr, State.inStore_fits hb, if_pos hm, State.inStore_fits hd]

theorem State.issueAttest_session {s t : State} {c k : Nat} {w : W64} {r : Running} (hr : r = Running.ofWord (s.ctx c) w)
    (hm : uMod w = 1) (hb : r.rb.toNat + 32 ≤ 0x400000) (hd : r.rd.toNat + 96 ≤ 0x400000) (ht : t = s.waitJ c r)
    (hk : (List.range 64).find? (fun k => !t.spdmLive k) = some k) :
    s.issueAttest c w = ((t.putRun c { r with phase := 1, arg := k }).setSpdm k
      (some { agent := bitsAt r.ra 0 16, ctx := c, step := 0 })).secSend k
        { agent := bitsAt r.ra 0 16, ctx := c, step := 0 } := by
  unfold State.issueAttest
  dsimp only
  rw [← hr, State.inStore_fits hb, if_neg (by omega), State.inStore_fits hd, ← ht, State.tryAttest, hk]

theorem State.issueKeyload_free {s t : State} {c n : Nat} {w : W64} {r q : Running} {b : List Byte}
    (hr : r = Running.ofWord (s.ctx c) w) (hn : n = r.ra.toNat) (hlt : n < 64) (hb : r.rb.toNat + 208 ≤ 0x400000)
    (hq : q = { r with data := (List.range 26).map (fun i => BitVec.ofNat 64 ((s.waitJ c r).dsLE (r.rb.toNat + 8 * i) 8)) })
    (ht : t = (s.waitJ c r).putRun c q) (hblk : b = q.data.flatMap (fun v => toBytes 8 v)) (hst : (t.keySlot n).st ≠ 2)
    (hh : t.holdOld n = 0) :
    s.issueKeyload c w = match t.unwrap b with
      | none => t.abort c 0x71 0x1E
      | some k => (t.loadSlot n b k).succeed c 0x71 0 0 := by
  have hqn : q.ra.toNat = n := by rw [hq]; exact hn.symm
  unfold State.issueKeyload
  dsimp only
  rw [← hr, State.inStore_fits hb, ← hn, if_neg (by omega), ← hq, ← ht, State.tryKeyload]
  rw [hqn, ← hblk]
  refine if_neg ?_
  rintro (h | h)
  · exact hst h
  · exact h hh

theorem State.issueKeyerase_slot {s t : State} {c n : Nat} {w : W64} (hn : n = ((s.ctx c).reg (uRa w)).toNat)
    (hlt : n < 64) (ht : t = s.waitJ c (Running.ofWord (s.ctx c) w)) :
    s.issueKeyerase c w = if (t.keySlot n).st = 0 then t.succeed c 0x72 0 0 else (t.startErase n).keyWake := by
  have hn' : (Running.ofWord (s.ctx c) w).ra.toNat = n := hn.symm
  unfold State.issueKeyerase
  dsimp only
  rw [← ht, hn', if_neg (by omega)]

/-! ## SCRUB and WAVE -/

/-- SCRUB of an idle engine starts its scrub (R269). -/
theorem State.scrubEngines_idle {t : State} {c n : Nat} {r : Running} (h : (t.eng n).st = 0) :
    t.scrubEngines c r [n] = ((t.modEng n (fun y => { y with st := 2 })).putRun c
      { r with data := [BitVec.ofNat 64 n] }).tryScrub c { r with data := [BitVec.ofNat 64 n] } := by
  simp [State.scrubEngines, h]

theorem State.issueScrub_engine {s t : State} {c n : Nat} {w : W64} {r : Running} (hr : r = Running.ofWord (s.ctx c) w)
    (hm : uMod w = 0) (hn : n = r.ra.toNat) (hlt : n < 320) (ht : t = s.waitJ c r) (h0 : (t.die (n / 8)).st ≠ 0)
    (hst : (t.eng n).st = 0) :
    s.issueScrub c w = ((t.modEng n (fun y => { y with st := 2 })).putRun c
      { r with data := [BitVec.ofNat 64 n] }).tryScrub c { r with data := [BitVec.ofNat 64 n] } := by
  have hbad : ¬(320 ≤ n ∨ (t.die (n / 8)).st = 0) := by
    rintro (h | h)
    · omega
    · exact h0 h
  unfold State.issueScrub
  simp only [hm]
  rw [← hr, ← ht, ← hn, if_neg hbad, State.scrubEngines_idle hst]

theorem State.issueScrub_part {s t : State} {c n : Nat} {w : W64} {r : Running} (hr : r = Running.ofWord (s.ctx c) w)
    (hm : uMod w = 2) (hn : n = r.ra.toNat) (hlt : n < 64) (ht : t = s.waitJ c r) (hb : t.partBusy n = false) :
    s.issueScrub c w = (t.scrubPart n).succeed c 0x73 0 0 := by
  unfold State.issueScrub
  simp only [hm]
  rw [← hr, ← ht, ← hn, if_neg (by omega), if_neg (ne_true_of_eq_false hb)]

theorem State.issueScrub_range {s t : State} {c n m : Nat} {w : W64} {r : Running} (hr : r = Running.ofWord (s.ctx c) w)
    (hm : uMod w = 3) (hn : n = r.ra.toNat) (hmm : m = r.rb.toNat) (h0 : 0 < m) (hle : m ≤ 0x40000000)
    (ht : t = s.waitJ c r) (hd : t.inDepot n m = true) (hb : t.rangeBusy n m = false) :
    s.issueScrub c w = { t with depot := { t.depot with
      scrubs := t.depot.scrubs ++ [{ addr := n, len := m, entry := none, ctx := some c }] } } := by
  have hbad : ¬(m = 0 ∨ 0x40000000 < m ∨ ¬t.inDepot n m = true) := by
    rintro (h | h | h)
    · omega
    · omega
    · exact h hd
  unfold State.issueScrub
  simp only [hm]
  rw [← hr, ← ht, ← hn, ← hmm, if_neg hbad, if_neg (ne_true_of_eq_false hb)]

/-- WAVE mode 0 asks for the wake of each die of its mask (R159, R460). -/
theorem State.issueWave_wake {s t : State} {c : Nat} {w : W64} (hm : uMod w = 0)
    (hr : ((s.ctx c).reg (uRa w)).toNat < 2 ^ 40) (ht : t = s.waitJ c (Running.ofWord (s.ctx c) w))
    (hd : ∀ d ∈ maskDies ((s.ctx c).reg (uRa w)), (t.die d).st ≠ 0) :
    s.issueWave c w = ((maskDies ((s.ctx c).reg (uRa w))).foldl
      (fun s d => if (s.die d).st = 1 then s else s.requestWake d (t.ctxClass c)) t).stWake := by
  subst ht
  unfold State.issueWave
  refine (if_neg ?_).trans ?_
  · rintro (h | h)
    · exact absurd hr (Nat.not_lt.mpr h)
    · obtain ⟨d, hmem, h0⟩ := List.any_eq_true.mp h
      exact hd d hmem (of_decide_eq_true h0)
  · simp only [hm]
    rfl

/-- Settles O20: each instruction's checks pass, so that it takes the branch its clause names. -/
theorem deviceInstructionsComplete : Obligations.DeviceInstructionsComplete := by
  unfold Obligations.DeviceInstructionsComplete
  intro s c w x r hr
  refine ⟨fun a want h e d b q t u hi ha hwant hb hal hblk hver hd hok hh hq ht hp h4 hv hlok hu htn hdirty => ?launch,
    fun z t hi hb ht hz hst => ?join, fun e t hi hm ht hl hst => ?stop, fun n d t hi hm ht hn hlt hst hsp => ?retire,
    fun t hi hm hb hd ht => ?attest, fun k t hi hm hb hd ht hk => ?spdm,
    fun n b q t hi hn hlt hb hq ht hblk hst hh => ?keyload, fun n t hi hn hlt ht => ?keyerase,
    fun n t hi hm hn hlt ht h0 hst => ?scrubEng, fun n t hi hm hn hlt ht hbusy => ?scrubPart,
    fun n m t hi hm hn hmm h0 hle ht hdep hbusy => ?scrubRange, fun hi hm hlo hhi => ?lend, fun hi hm => ?withdraw,
    fun t hi hm hlt ht hd => ?wave⟩
  all_goals obtain rfl : s.ctx c = x := hi.is
  case launch =>
    subst hr
    have hqa : BitVec.ofNat 16 h = BitVec.ofNat 16 q.arg := by rw [hq]
    have hqb : q.rb.toNat = want := by rw [hq]; exact hwant.symm
    rw [hqa]
    refine exec_issue hi rfl ((State.issueLaunch_checked (s := Safety.issued s c) ha hwant hb hal hblk hver hd hok hh hq
      ht).trans (State.tryLaunch_starts ?_ h4 hv hlok hu htn hdirty))
    rw [hqb]; exact hp
  case join =>
    subst hr
    exact exec_issue hi rfl (State.issueJoin_ended (s := Safety.issued s c) hb ht hz hst)
  case stop =>
    subst hr
    exact exec_issue hi rfl (State.issueRetire_stream (s := Safety.issued s c) hm ht hl hst)
  case retire =>
    subst hr
    exact exec_issue hi rfl (State.issueRetire_die (s := Safety.issued s c) hm ht hn hlt hst hsp)
  case attest =>
    subst ht
    refine exec_issue hi rfl (State.issueAttest_own (s := Safety.issued s c) hr hm ?_ ?_)
    · rw [hr]; exact hb
    · rw [hr]; exact hd
  case spdm =>
    have hra : bitsAt ((s.ctx c).reg (uRa w)) 0 16 = bitsAt r.ra 0 16 := by rw [hr]; rfl
    rw [hra]
    refine exec_issue hi rfl (State.issueAttest_session (s := Safety.issued s c) hr hm ?_ ?_ ht hk)
    · rw [hr]; exact hb
    · rw [hr]; exact hd
  case keyload =>
    have hrb : ((s.ctx c).reg (uRb w)).toNat = r.rb.toNat := by rw [hr]; rfl
    have hra : ((s.ctx c).reg (uRa w)).toNat = r.ra.toNat := by rw [hr]; rfl
    rw [hrb] at hb hq
    rw [hra] at hn
    exact exec_issue hi rfl (State.issueKeyload_free (s := Safety.issued s c) hr hn hlt hb hq ht hblk hst hh)
  case keyerase =>
    subst hr
    exact exec_issue hi rfl (State.issueKeyerase_slot (s := Safety.issued s c) hn hlt ht)
  case scrubEng =>
    have hra : ((s.ctx c).reg (uRa w)).toNat = r.ra.toNat := by rw [hr]; rfl
    exact exec_issue hi rfl (State.issueScrub_engine (s := Safety.issued s c) hr hm (hn.trans hra) hlt ht h0 hst)
  case scrubPart =>
    have hra : ((s.ctx c).reg (uRa w)).toNat = r.ra.toNat := by rw [hr]; rfl
    exact exec_issue hi rfl (State.issueScrub_part (s := Safety.issued s c) hr hm (hn.trans hra) hlt ht hbusy)
  case scrubRange =>
    have hra : ((s.ctx c).reg (uRa w)).toNat = r.ra.toNat := by rw [hr]; rfl
    have hrb : ((s.ctx c).reg (uRb w)).toNat = r.rb.toNat := by rw [hr]; rfl
    exact exec_issue hi rfl (State.issueScrub_range (s := Safety.issued s c) hr hm (hn.trans hra) (hmm.trans hrb) h0 hle
      ht hdep hbusy)
  case lend =>
    refine exec_issue hi rfl ((if_neg (show ¬uMod w = 1 by omega)).trans (if_neg ?_))
    rintro (h | h)
    · exact absurd hlo (Nat.not_le.mpr h)
    · exact absurd hhi (Nat.not_le.mpr h)
  case withdraw => exact exec_issue hi rfl (if_pos hm)
  case wave =>
    subst hr
    exact exec_issue hi rfl (State.issueWave_wake (s := Safety.issued s c) hm hlt ht hd)

end Sys2Proof.Machine
end

section
/-! PROOFS (04, 09). The command engine's events, and a counterexample to the statement of the notice events. -/

namespace Sys2Proof.Machine

section
variable {s : State} {c i : Nat} {r : Running} {t : Target} {k : CmdSpec}

/-- The engine's turn: a target with a command to send is issued it (R146). -/
theorem State.cmdIssue_turn (hl : (s.ctx c).long = some r) (hg : s.dealers.takeover = .none) (ht : r.targets[i]? = some t)
    (hk : t.cmdOf = some k) (hs : s.sendable c i r t = true) (he : s.engineTurn = some c) :
    s.cmdIssue c i = ({ s with dealers := { s.dealers with
      lastCmd := SMap.set lastDflt s.dealers.lastCmd (s.ctx c).prio.toNat c } } : State).issueTarget c i r t k := by
  simp only [State.cmdIssue, hl, ht, hk]
  exact if_pos ⟨hs, he, hg⟩

/-- A command in flight whose instruction asks no epoch check is sent again under its seq (R146). -/
theorem State.cmdResend_flying {q : W16} (hl : (s.ctx c).long = some r) (ht : r.targets[i]? = some t)
    (hk : t.cmdOf = some k) (hq : t.seq = some q) (hst : t.state = 0) (he : epochChecked r.word = false)
    (hp : uOp r.word ≠ 0x20) (hc : uOp r.word ≠ 0x29) :
    s.cmdResend c i = (s.putRun c (r.setTarget i { t with tries := t.tries + 1, sentAt := s.us })).sendTarget c r
      { t with tries := t.tries + 1, sentAt := s.us } { k with gen := t.gen.getD k.gen } q := by
  have h1 : ¬(epochChecked r.word = true ∧ (s.ctx c).epoch ≠ s.dealers.fepoch) := fun h =>
    absurd (he.symm.trans h.1) Bool.false_ne_true
  have h2 : ¬((uOp r.word = 0x20 ∧ 3 ≤ t.tries) ∨ ¬t.counts = true ∧ uOp r.word = 0x29) := by
    rintro (h | h)
    · exact hp h.1
    · exact hc h.2
  simp only [State.cmdResend, hl, ht, hk, hq]
  exact (if_neg (not_not.mpr hst)).trans ((if_neg h1).trans (if_neg h2))

theorem State.mbxRetry_other (hl : (s.ctx c).long = some r) (h : uOp r.word ≠ 0x64) : s.mbxRetry c = s := by
  simp only [State.mbxRetry, hl]
  exact if_neg (fun hh => h hh.1)

theorem State.cmdResponse_awaited {f : Flit} (hg : s.dealers.takeover = .none) (hc : f.cls = 5) (hcrc : f.crc = f.crcOf)
    (hd : f.dest = s.myId) (ha : s.awaited f = some (c, i)) : s.cmdResponse f = s.onResponse c i f := by
  have hbad : ¬(f.cls ≠ 5 ∨ f.crc ≠ f.crcOf ∨ f.dest ≠ s.myId) := by
    rintro (h | h | h)
    · exact h hc
    · exact h hcrc
    · exact h hd
  unfold State.cmdResponse
  rw [if_neg hbad, if_pos hg, ha]

/-! ## Limits (R140, R142) -/

theorem State.timeOut_refused (hf : r.first ≠ 0) (hv : r.notVerified = false) : s.timeOut c r = s.endTargets c r 2 0x13 := by
  unfold State.timeOut
  rw [if_pos hf, if_neg (ne_true_of_eq_false hv)]

theorem State.timeOut_unverified (hf : r.first = 0) (hv : r.notVerified = true) :
    s.timeOut c r = (s.closeUnverified r).endTargets c r 2 0x16 := by
  unfold State.timeOut
  rw [if_neg (not_not.mpr hf), if_pos hv]

theorem State.timeOut_plain (hf : r.first = 0) (hv : r.notVerified = false) (hcopy : uOp r.word ≠ 0x1D)
    (hwave : uOp r.word ≠ 0x81) : s.timeOut c r = s.endTargets c r 1 1 := by
  unfold State.timeOut
  rw [if_neg (not_not.mpr hf), if_neg (ne_true_of_eq_false hv)]
  split
  · exact absurd (BitVec.eq_of_toNat_eq ‹_›) hcopy
  · exact absurd (BitVec.eq_of_toNat_eq ‹_›) hwave
  · rfl

end

/-- The first context of the pod's order whose BIND is held on a slice (R334). -/
theorem find_heldBind {s : State} {c : Fin 16} {r : Running} {sl : BitVec 9} (hl : (s.ctx c).long = some r)
    (ho : uOp r.word = 0x2E) (hp : r.phase = 9) (hsl : bitsAt r.rb 0 9 = sl)
    (hfirst : ∀ k : Nat, k < c.val → ∀ q, (s.ctx k).long = some q → uOp q.word ≠ 0x2E) :
    (List.range 16).find? (fun c => match (s.ctx c).long with
      | some r => decide (uOp r.word = 0x2E) && decide (r.phase = 9) && decide (bitsAt r.rb 0 9 = sl)
      | none => false) = some c.val := by
  rw [List.find?_range_eq_some]
  refine ⟨?_, List.mem_range.mpr c.isLt, fun k hk => ?_⟩
  · simp [hl, ho, hp, hsl]
  · cases hq : (s.ctx k).long with
    | none => simp
    | some q => simp only [decide_eq_false (hfirst k hk q hq), Bool.false_and, Bool.not_false]

/-- A long instruction's limit outside a takeover gap (R140). -/
theorem execInsnTimeout_running {s : State} {c : Fin 16} {r : Running} (hl : (s.ctx c).long = some r)
    (hg : s.dealers.takeover = .none) : exec (.insnTimeout c) s = .next (s.timeOut c r) := by
  change execInsnTimeout c s = _
  unfold execInsnTimeout
  rw [if_pos hg, hl]

/-- Settles O21: a command of the engine finds its context's instruction and target, and takes the branch its clause names. -/
theorem commandEngineEventsComplete : Obligations.CommandEngineEventsComplete := by
  unfold Obligations.CommandEngineEventsComplete
  intro s c r hl hg
  refine ⟨fun i t k ht hk hs he => ?issue, fun i t k q hm ht hk hq hst he hp hc => ?resend,
    fun f i hc hcrc hd ha => congrArg Host.Outcome.next (State.cmdResponse_awaited hg hc hcrc hd ha),
    fun hf hv hcopy hwave => ?plain, fun hf hv => ?refused, fun hf hv => ?unverified, fun ho hf => ?drain,
    fun dom => rfl, fun dom x t q u k hx htok ht hheld => ?held, fun sl hinc ho hp hsl hfirst => ?bind⟩
  case issue => exact congrArg Host.Outcome.next (State.cmdIssue_turn hl hg ht hk hs he)
  case resend =>
    refine congrArg Host.Outcome.next ((if_neg (not_not.mpr hg)).trans ?_)
    rw [State.mbxRetry_other hl hm]
    exact State.cmdResend_flying hl ht hk hq hst he hp hc
  case plain => rw [execInsnTimeout_running hl hg, State.timeOut_plain hf hv hcopy hwave]
  case refused => rw [execInsnTimeout_running hl hg, State.timeOut_refused hf hv]
  case unverified => rw [execInsnTimeout_running hl hg, State.timeOut_unverified hf hv]
  case drain =>
    change execDrainLimitExpire c s = _
    unfold execDrainLimitExpire
    rw [if_pos hg, hl]
    exact congrArg Host.Outcome.next ((if_neg (not_not.mpr ho)).trans (if_neg (not_not.mpr hf)))
  case held =>
    subst ht
    have hbad : ¬(s.tokensOf dom = 0 ∨ s.dealers.takeover ≠ .none) := by
      rintro (h | h)
      · exact htok h
      · exact h hg
    refine congrArg Host.Outcome.next ?_
    unfold State.sendHeld
    rw [hx]
    refine (if_neg hbad).trans ?_
    simp only [hheld]
  case bind =>
    change execBindIncrementHoldExpire sl s = _
    unfold execBindIncrementHoldExpire
    rw [if_neg (ne_true_of_eq_false hinc)]
    generalize hfind : List.find? _ (List.range 16) = o
    obtain rfl : o = some c.val := hfind.symm.trans (find_heldBind hl ho hp hsl hfirst)
    simp only [hl]

/-! ## A PART notice for a partition folded before it -/

/-- The KAT_PASS notice of partition 0 of agent 0x40. -/
def passNotice : Flit := { cls := 6, dest := 0, src := 0x40, pay := 5 <<< 16 }

/-- Context 0 waits in PRESET of a partition that was folded before the notice came. -/
def foldedPreset : State where
  dealers := { role := true, core := { ctx := [(0, { run := .waiting, long := some {
    word := 0x2B <<< 56, ra := 0x40, rb := 0, rd := 0,
    targets := [{ agent := 0x40, idx := 0, steps := [.await 7 5], whole := [.await 7 5] }] } })] } }
  fab := { fold := { notices := [passNotice], parts := [(16 * 0x40, { folded := true })] } }

/-- The context once the notice is taken off the queue, and once the fold monitor has acted on it. -/
def foldedPresetTaken : State := foldedPreset.setFold (fun b => { b with notices := [] })
def foldedPresetActed : State := foldedPresetTaken.foldAct passNotice.src 0 (byteField passNotice.pay 2 8)

/-- STATUS of context 0. -/
def statusOf : Result → W64
  | .next s => (s.ctx 0).status
  | _ => 0

/-- The partition is folded, so that the PRESET is refused (R153, R326). -/
theorem foldedPreset_refused : bitsAt (statusOf (exec .partNotice foldedPreset)) 0 8 = (2 : Byte) := by decide +kernel

/-- The state that the statement names has the PRESET completed. -/
theorem foldedPreset_named : bitsAt (statusOf (.next ((foldedPresetActed.partEvent passNotice.src
    (byteField passNotice.pay 1 8) (byteField passNotice.pay 2 8)).partInsn passNotice.src (byteField passNotice.pay 1 8)
    (byteField passNotice.pay 2 8) ((foldedPresetActed.foldPart passNotice.src 0).folded &&
      !(foldedPresetTaken.foldPart passNotice.src 0).folded)))) 0 8 = (0 : Byte) := by decide +kernel

/-- Refutes O22: its third clause refuses a waiting PRESET only when the notice's own fold made the partition folded, but the
model refuses it also when the partition was folded before (R153, R326). -/
theorem not_noticeEventsComplete : ¬ Obligations.NoticeEventsComplete := by
  unfold Obligations.NoticeEventsComplete
  intro h
  obtain ⟨-, -, hpart, -⟩ := h foldedPreset
  have hstep := hpart passNotice [] 0 foldedPresetTaken foldedPresetActed rfl (by decide +kernel) (by decide) rfl rfl rfl
  have heq := congrArg (fun o => (bitsAt (statusOf o) 0 8 : Byte)) hstep
  exact absurd (foldedPreset_refused.symm.trans (heq.trans foldedPreset_named)) (by decide)

end Sys2Proof.Machine
end

section
/-! PROOFS (02, 09, 14). Links, frames and trumps, and the lanes of the package, of agents and of the depot. -/

namespace Sys2Proof.Machine

/-! ## Links (R107, R313–R315) -/

section
variable {s t : State} {x y : Agent} {p : Nat}

theorem State.pkgPortDown_up {b : Bool} (hp : p < 80) (hup : (s.sub p).up = true) (hf : (s.sub p).tfence = false)
    (ht : t = ((s.modSub p (fun q => { q with up := false, trained := false, tDown := true, retrain := false })).lanesTo p
      0)) : s.pkgPortDown p b = (if b then t.emit (.downSets p) else t).raise p := by
  subst ht
  unfold State.pkgPortDown
  rw [if_pos ⟨hp, hup⟩, hf]
  exact if_neg Bool.false_ne_true

theorem Agent.portDown_up {b : Bool} (hp : p < x.build.ports) (hup : (x.port p).up = true) (hf : (x.port p).tfence = false)
    (hc : x.cal = none)
    (hy : y = x.modPort p (fun q => { q with up := false, trained := false, tDown := true, retrain := false })) :
    x.portDown p b = (if b then y.emit (.downSets p) else y).raise p := by
  subst hy
  have hcal : (x.modPort p (fun q => { q with up := false, trained := false, tDown := true, retrain := false })).cal = none :=
    hc
  unfold Agent.portDown
  rw [if_pos ⟨hp, hup⟩, hf]
  dsimp only
  rw [hcal]
  exact if_neg Bool.false_ne_true

/-- Ending a TRAIN leaves the ports. -/
theorem State.endTrain_ports (s : State) (p mode done : Nat) : (s.endTrain p mode done).fab.ports = s.fab.ports := by
  unfold State.endTrain
  generalize s.trainers p mode = l
  induction l generalizing s with
  | nil => rfl
  | cons c l ih => exact ih _

theorem State.pkgTrained_ports {peer flight : W16} {pport : Byte} (he : s.subEnabled p = true)
    (ht : (s.gport (p / 2)).takenDown.getLsbD (p % 2) = false) :
    (s.pkgTrained p peer pport flight).fab.ports = SMap.modify portDflt s.fab.ports p
      (fun q => { q with trained := true, up := true, peerId := peer, peerPort := pport, flight := flight }) := by
  unfold State.pkgTrained
  rw [if_pos ⟨he, ne_true_of_eq_false ht⟩]
  exact State.endTrain_ports ..

end

/-- Settles O23: a port that stands UP goes down, with its trump, at the package and at an agent. -/
theorem linkEventsComplete : Obligations.LinkEventsComplete := by
  unfold Obligations.LinkEventsComplete
  refine ⟨fun s t p hp hup hf ht => ?pkg, fun s a p x y hpl hp hup hf hc hy => ?agent,
    fun s a p x peer flight pport hpl hm hp => exec_at_place hpl rfl (if_pos ⟨hm, hp⟩),
    fun s p peer flight pport he ht => ⟨_, rfl, State.pkgTrained_ports he ht⟩⟩
  case pkg =>
    have hlocal := State.pkgPortDown_up (b := true) hp hup hf ht
    have hpeer := State.pkgPortDown_up (b := false) hp hup hf ht
    exact ⟨congrArg Host.Outcome.next hlocal, congrArg Host.Outcome.next hlocal, congrArg Host.Outcome.next hlocal,
      congrArg Host.Outcome.next hpeer⟩
  case agent =>
    have hlocal := Agent.portDown_up (b := true) hp hup hf hc hy
    have hpeer := Agent.portDown_up (b := false) hp hup hf hc hy
    exact ⟨exec_at_place hpl rfl hlocal, exec_at_place hpl rfl hlocal, exec_at_place hpl rfl hlocal,
      exec_at_place hpl rfl hpeer⟩

/-! ## Frames and trumps (R72, R73, R108) -/

theorem State.pkgTrump_new {s : State} {p : Nat} {f : Flit} {d : Desc} (hd : d = byteField f.pay 0 64)
    (hn : d ∉ s.fab.filter) (ha : s.fab.disc.active = false) (hk : descKind d ≠ 1) :
    s.pkgTrump (some p) f = ((s.filterIn d).trumpOut (some p) f).post 0x01 (descReporter d)
      (putField (d.setWidth 128) 8 (byteField f.pay 8 32 : W32)) := by
  subst hd
  have hnew : ¬((some p).isSome = true ∧ s.fab.filter.contains (byteField f.pay 0 64) = true) := fun h =>
    hn (List.contains_iff_mem.mp h.2)
  unfold State.pkgTrump
  rw [if_neg hnew, if_neg (ne_true_of_eq_false ha)]
  exact if_neg hk

/-- A trump that the agent raises itself passes no filter (R107, R108). -/
theorem Agent.trump_own {x : Agent} {f : Flit} {d : Desc} (hd : d = byteField f.pay 0 64) :
    x.trump none f = ({ x with cu := { x.cu with
      filter := keepLast 16 (x.cu.filter.filter (· ≠ d) ++ [d]) } }.trumpForward none f).trumpAct d := by
  subst hd
  simp only [Agent.trump, Option.isSome_none, Bool.false_eq_true, false_and, if_false]

/-- Settles O24: each event of a frame, a sync exchange or a trump meets its conditions at the package or at the agent. -/
theorem frameAndTrumpEventsComplete : Obligations.FrameAndTrumpEventsComplete := by
  unfold Obligations.FrameAndTrumpEventsComplete
  refine ⟨fun s => rfl, fun s a x hpl => exec_at_place hpl rfl rfl, fun s fr hr hs => ?sync,
    fun s a x fr hpl he hup => exec_at_place hpl rfl (if_pos ⟨he, hup⟩),
    fun s p f d hc hdn hcrc hd hn ha hk => ?trump, fun s a x f d hpl hc hd => ?agentTrump, fun s d => rfl,
    fun s a x d hpl => exec_at_place hpl rfl rfl⟩
  case sync =>
    refine congrArg Host.Outcome.next (if_neg ?_)
    rintro (h | h)
    · exact Bool.false_ne_true (hr.symm.trans h)
    · exact h hs
  case trump =>
    refine congrArg Host.Outcome.next ((if_neg (not_not.mpr hc)).trans ((if_neg ?_).trans (State.pkgTrump_new hd hn ha hk)))
    rintro (h | h)
    · exact Bool.false_ne_true (hdn.symm.trans h)
    · exact h hcrc
  case agentTrump =>
    refine exec_at_place hpl rfl ?_
    rw [Agent.trumpReceive, if_pos hc, Agent.trump_own hd]

/-! ## Lanes of the package (R470–R474) -/

/-- An active lane with room starts its retrain (R473). -/
theorem State.laneStart_room {s : State} {l : Nat} (hst : (s.lane l).st = 2) (hr : s.laneRoom l = true) :
    s.laneStart l = (s.modLane l (fun y => { y with
      st := 3, windows := 0, best := 0, start := some s.fab.frame, adopt := none, waiting := false })).modSub (subOfLane l)
        (fun q => { q with retrain := true, tRetrain := true }) := by
  unfold State.laneStart
  rw [if_neg (not_not.mpr hst), if_pos hr]

/-- Settles O25: a lane that stands where its command looks for it takes the command's branch. -/
theorem laneCommandsComplete : Obligations.LaneCommandsComplete := by
  unfold Obligations.LaneCommandsComplete
  intro s l x hl hx
  refine ⟨fun c hdue hst hroom => ?start, fun m hst => ?window, fun hst hw ha hm => ?choose, fun f ha hn => ?adopt,
    fun f hs hw ht => ?timeout, fun m hst => ?adapt⟩
  all_goals subst hx
  case start =>
    exact congrArg Host.Outcome.next ((if_pos hdue).trans (State.laneStart_room hst hroom))
  case window => exact congrArg Host.Outcome.next (if_pos ⟨hl, hst⟩)
  case choose => exact congrArg Host.Outcome.next ((if_pos ⟨hl, hst, hw, by rw [ha]; rfl⟩).trans (if_pos hm))
  case adopt =>
    change execRetrainAdopt none l s = _
    unfold execRetrainAdopt
    dsimp only
    rw [ha]
    exact congrArg Host.Outcome.next (if_pos ⟨hl, ne_true_of_eq_false hn⟩)
  case timeout =>
    refine congrArg Host.Outcome.next (if_pos ⟨hl, ?_⟩)
    simp only [State.retrainLate, hs, framesOut, hw, ht, decide_true, Bool.and_self]
  case adapt => exact congrArg Host.Outcome.next (if_pos ⟨hl, hst⟩)

/-! ## Lanes of an agent, channels of the depot (R470, R473, R474, R476) -/

section
variable {x : Agent} {l : Nat} {k : Cal}

theorem Agent.calWindow_rest {m : BitVec 6} (hc : x.cal = some k) (hl : k.lane = l) (hr : x.inRest (l / 2) = true) :
    x.calWindow l m = { x with cal := some { k with
      windows := k.windows + 1, best := if k.best.toNat < m.toNat then m else k.best } } := by
  simp only [Agent.calWindow, hc]
  exact if_pos ⟨hl, hr⟩

theorem Agent.calChoose_better (hc : x.cal = some k) (hl : k.lane = l) (hw : 4096 ≤ k.windows) (ha : k.adopt = none)
    (hm : (x.laneMargin l).toNat < k.best.toNat) :
    x.calChoose l = { x with cal := some { k with adopt := some (x.id.frame + 2) } } := by
  simp only [Agent.calChoose, hc]
  exact (if_pos ⟨hl, hw, by rw [ha]; rfl⟩).trans (if_pos hm)

theorem Agent.calAdopt_due {f : W32} (hc : x.cal = some k) (hl : k.lane = l) (ha : k.adopt = some f)
    (hn : newer f x.id.frame = false) : x.calAdopt l = x.calEnd l true := by
  simp only [Agent.calAdopt, hc, ha]
  exact if_pos ⟨hl, ne_true_of_eq_false hn⟩

theorem Agent.calTimeout_late (hc : x.cal = some k) (hl : k.lane = l) (hw : k.windows < 4096)
    (ht : 5000 ≤ (x.id.frame - k.start).toNat) : x.calTimeout l = x.calEnd l false := by
  simp only [Agent.calTimeout, hc]
  exact if_pos ⟨hl, hw, decide_eq_true ht⟩

end

/-- Settles O26: the same commands at an agent, and the windows of the depot's channels. -/
theorem agentLaneAndRecentreCommandsComplete : Obligations.AgentLaneAndRecentreCommandsComplete := by
  unfold Obligations.AgentLaneAndRecentreCommandsComplete
  refine ⟨fun s a l x hpl => ⟨fun c hc hup hcause => ?start, fun k hk hl => ⟨fun m hr => ?window, fun hw ha hm => ?choose,
    fun f ha hn => ?adopt, fun hw ht => ?timeout⟩, fun m hup => exec_at_place hpl rfl (if_pos hup)⟩,
    fun s i c hon hret hdue hsp => ?enter, fun s i c hf => ?done⟩
  case start => exact exec_at_place hpl rfl (if_pos ⟨by rw [hc]; rfl, hup, hcause⟩)
  case window => exact exec_at_place hpl rfl (Agent.calWindow_rest hk hl hr)
  case choose => exact exec_at_place hpl rfl (Agent.calChoose_better hk hl hw ha hm)
  case adopt => exact exec_at_place hpl rfl (Agent.calAdopt_due hk hl ha hn)
  case timeout => exact exec_at_place hpl rfl (Agent.calTimeout_late hk hl hw ht)
  case enter =>
    refine congrArg Host.Outcome.next (if_pos ⟨hon, ne_true_of_eq_false hret, ?_, ?_⟩)
    · rw [decide_eq_true hdue, Bool.true_or]
    · refine List.all_eq_true.mpr (fun y hy => ?_)
      obtain ⟨hwin, hlast⟩ := hsp y hy
      simp [hwin, hlast]
  case done =>
    change execRecenterDone i true s = _
    unfold execRecenterDone
    rw [hf]
    rfl

end Sys2Proof.Machine
end

section
/-! PROOFS (05). The dealer pair, the package pair, and the reflex events. -/

namespace Sys2Proof.Machine

/-! ## The dealer pair (R183–R188) -/

section
variable {s t : State}

theorem State.startTakeover_standby (hn : s.dealers.takeover = .none) (hs : s.dealers.standby = true)
    (ht : t = s.setFold (fun f => { f with waiting := [] })) :
    s.startTakeover = { t with
      dealers := { t.dealers with
        takeover := .checking, depoch := s.dealers.depoch + 1, core := {}, handover := s.handoverReady }
      vbat := { t.vbat with depoch := s.dealers.depoch + 1 } } := by
  subst ht
  exact (if_neg (not_not.mpr hn)).trans (if_neg (not_not.mpr hs))

theorem State.startTakeover_alone (hn : s.dealers.takeover = .none) (hs : s.dealers.standby = false) :
    s.startTakeover = s.failTakeover :=
  (if_neg (not_not.mpr hn)).trans (if_pos (ne_true_of_eq_false hs))

/-- Without a handover there is no boundary to wait for. -/
theorem State.handOver_none (h : s.dealers.handover = false) : s.handOver = s := by
  unfold State.handOver State.handoverReady
  rw [h]
  exact if_neg Bool.false_ne_true

theorem State.handoverReady_boundary (h : s.dealers.handover = true) (hj : s.dealers.journal = [])
    (hl : ∀ c < 16, (s.ctx c).long = none) : s.handoverReady = true := by
  have hall : (List.range 16).all (fun c => (s.ctx c).long.isNone) = true :=
    List.all_eq_true.mpr fun c hc => by rw [hl c (List.mem_range.mp hc)]; rfl
  rw [State.handoverReady, h, hall, hj]
  rfl

/-- A handover at its boundary begins its takeover (R186). -/
theorem State.handOver_boundary (hr : s.handoverReady = true) (hn : s.dealers.takeover = .none)
    (hs : s.dealers.standby = true) :
    ∃ t : State, s.handOver = t ∧ t.dealers.takeover = .checking ∧ t.dealers.depoch = s.dealers.depoch + 1 ∧
      t.vbat.depoch = s.dealers.depoch + 1 ∧ t.dealers.handover = true ∧ t.dealers.journal = s.dealers.journal :=
  ⟨_, (if_pos hr).trans (State.startTakeover_standby hn hs rfl), rfl, rfl, rfl, hr, rfl⟩

end

theorem exec_journalApply {s t : State} {r : JRec} {rs : List JRec} (hj : s.dealers.journal = r :: rs)
    (h : ({ s with dealers := { s.dealers with journal := rs, shadow := r.apply s.dealers.shadow } } : State).handOver = t) :
    exec .journalApply s = .next t := by
  change execJournalApply s = _
  unfold execJournalApply
  rw [hj]
  exact congrArg Host.Outcome.next h

/-- Settles O27: each event of the dealer pair by the branch its hypotheses pick. -/
theorem dealerPairEventsComplete : Obligations.DealerPairEventsComplete := by
  unfold Obligations.DealerPairEventsComplete
  intro s
  refine ⟨fun hn hb hr => ?beat, fun hb => congrArg Host.Outcome.next (if_pos (Or.inr hb)),
    fun t hn hs ht => congrArg Host.Outcome.next (State.startTakeover_standby hn hs ht),
    fun hn hs => congrArg Host.Outcome.next (State.startTakeover_alone hn hs), fun k t hc hk ht => ?passed,
    fun hc => congrArg Host.Outcome.next ((if_neg (not_not.mpr hc)).trans (if_neg Bool.false_ne_true)),
    fun hc => congrArg Host.Outcome.next (if_pos hc),
    fun r rs hj hh => exec_journalApply hj (State.handOver_none hh), fun r hj hh hn hs hl => ?boundary,
    fun hr => congrArg Host.Outcome.next (if_pos hr)⟩
  case beat =>
    refine congrArg Host.Outcome.next ((if_neg ?_).trans (if_neg (ne_true_of_eq_false hr)))
    rintro (h | h)
    · exact h hn
    · exact Bool.false_ne_true (hb.symm.trans h)
  case passed =>
    subst hk ht
    exact congrArg Host.Outcome.next ((if_neg (not_not.mpr hc)).trans (if_pos rfl))
  case boundary =>
    obtain ⟨t, ht, hck, hde, hvb, hho, hjn⟩ := State.handOver_boundary
      (s := { s with dealers := { s.dealers with journal := [], shadow := r.apply s.dealers.shadow } })
      (State.handoverReady_boundary hh rfl hl) hn hs
    exact ⟨t, exec_journalApply hj ht, hck, hde, hvb, hho, hjn⟩

/-! ## The package pair (R189–R194) -/

section
variable {s : State} {f : PairFrame} {w : Bool}

theorem State.onRenew_standby {t : State} (hh : s.vbat.held = false) (hf : s.pair.fenced = false)
    (hr : s.dealers.role = false) (ht : t = s.setPair (fun p => { p with renewAt := some s.us, renewEpoch := f.cepoch })) :
    s.onRenew w f = (t.joinPair f).ackRenew w f := by
  subst ht
  exact (if_neg (ne_true_of_eq_false hh)).trans ((if_neg (ne_true_of_eq_false hf)).trans
    (if_neg (ne_true_of_eq_false hr)))

theorem State.peerGone_standby {c : Byte} (h : s.isStandby = true) : s.peerGone c = s.takePod s.takeEpoch c := if_pos h

theorem State.peerGone_active {c : Byte} (h : s.isStandby = false) (ha : s.isActive = true) : s.peerGone c = s.soloOn c :=
  (if_neg (ne_true_of_eq_false h)).trans (if_pos ha)

end

/-- Settles O28: each frame and timer of the package pair by the branch its hypotheses pick. -/
theorem packagePairEventsComplete : Obligations.PackagePairEventsComplete := by
  unfold Obligations.PackagePairEventsComplete
  intro s
  refine ⟨fun t ha hs ht => ?renewSend,
    fun w f t hg hh hf hr ht => congrArg Host.Outcome.next ((if_pos hg).trans (State.onRenew_standby hh hf hr ht)),
    fun w f hg hr hn hu => congrArg Host.Outcome.next ((if_pos hg).trans (if_pos ⟨hr, hn, hu⟩)),
    fun w f hg h => congrArg Host.Outcome.next ((if_pos hg).trans (State.peerGone_standby h)),
    fun w f hg h ha => congrArg Host.Outcome.next ((if_pos hg).trans (State.peerGone_active h ha)),
    fun w f hg h => congrArg Host.Outcome.next ((if_pos hg).trans (State.peerGone_standby h)),
    fun ha hs => congrArg Host.Outcome.next ((if_pos ha).trans (if_pos hs)),
    fun ha hs => congrArg Host.Outcome.next ((if_pos ha).trans (if_neg hs)),
    fun h hr => congrArg Host.Outcome.next (if_pos ⟨h, hr⟩), fun h => congrArg Host.Outcome.next (if_pos h),
    fun ha => congrArg Host.Outcome.next (if_pos ha),
    fun m hr => congrArg Host.Outcome.next (if_neg (ne_true_of_eq_false hr))⟩
  case renewSend =>
    subst ht
    exact congrArg Host.Outcome.next (if_pos ⟨ha, ne_true_of_eq_false hs⟩)

/-! ## Reflex events (R173, R175, R177–R179) -/

section
variable {s : State}

/-- A running context with no instruction open and not asleep stops where it stands (R172, R179). -/
theorem State.stopCtx_running {c : Nat} (hr : (s.ctx c).run = .running) (hl : (s.ctx c).long = none)
    (ha : (s.ctx c).asleep = false) : s.stopCtx c = s.halt c (exitWord 7 0) := by
  unfold State.stopCtx
  dsimp only
  rw [if_pos (Or.inl hr), hl, ha]
  rfl

end

/-- Settles O29: the oldest event is dispatched, the pending dispatch started, the context stopped, TICK posted. -/
theorem reflexEventsComplete : Obligations.ReflexEventsComplete := by
  unfold Obligations.ReflexEventsComplete
  intro s
  refine ⟨fun e es t he hn ht => ?dispatch, fun d c hn hd hc => ?start, fun c x hx hlim hr hl ha hn => ?limit,
    fun h => congrArg Host.Outcome.next (if_neg h)⟩
  case dispatch =>
    subst ht
    change execEventDispatch s = _
    unfold execEventDispatch
    rw [he]
    exact congrArg Host.Outcome.next (if_neg (not_not.mpr hn))
  case start =>
    change execPendingDispatchStart s = _
    unfold execPendingDispatchStart
    rw [if_neg (not_not.mpr hn), hd]
    dsimp only
    rw [hc]
  case limit =>
    subst hx
    have hidle : ¬ s.dealers.takeover = .checking := by rw [hn]; decide
    exact congrArg Host.Outcome.next ((if_neg hidle).trans ((if_pos hlim).trans (State.stopCtx_running hr hl ha)))

end Sys2Proof.Machine
end

section
/-! PROOFS (05). Host sessions, ownership and the rings. -/

namespace Sys2Proof.Machine

/-! ## Sessions (R160, R162–R164) -/

section
variable {s : State} {n : Nat}

/-- A handshake of a peer that no open session has closes none. -/
theorem State.ofPeer_none {peer : Nat}
    (h : ∀ k ∈ [2, 3, 4, 5, 6, 7], (s.session k).isOpen = true → (s.session k).peer ≠ peer) : s.ofPeer peer = none := by
  refine List.find?_eq_none.mpr fun k hk hc => ?_
  obtain ⟨ho, hp⟩ := Bool.and_eq_true_iff.mp hc
  exact h k hk ho (of_decide_eq_true hp)

theorem State.noFree_of_open (h : ∀ k ∈ [2, 3, 4, 5, 6, 7], (s.session k).isOpen = true) :
    [2, 3, 4, 5, 6, 7].find? (fun n => !(s.session n).isOpen) = none :=
  List.find?_eq_none.mpr fun k hk hc => by rw [h k hk] at hc; exact Bool.false_ne_true hc

/-- A certificate whose root is the operator root chains to it when its signatures hold. -/
theorem State.chains_eq {cert : List Byte} (hr : s.vbat.rootSet = true)
    (hh : sha384 (Config.rootOf cert) = s.vbat.rootHash) : s.chains cert = Config.certOk cert := by
  rw [State.chains, hr, decide_eq_true hh, Bool.true_and, Bool.and_true]

/-- The free session that a handshake finds, or the alert (R160). -/
def State.openFor (s : State) (p : Bool) (peer : Nat) (found : Option Nat) : State :=
  match found with
  | some n => s.openSession n (if p then 3 else 2) peer
  | none => s.emit (.handshakeFailure p peer)

theorem exec_dtlsHandshake {p : Bool} {peer : Nat} {cert : List Byte} {found : Option Nat}
    (ht : s.dealers.takeover = .none) (hr : s.vbat.rootSet = true)
    (hh : sha384 (Config.rootOf cert) = s.vbat.rootHash)
    (hp : ∀ k ∈ [2, 3, 4, 5, 6, 7], (s.session k).isOpen = true → (s.session k).peer ≠ peer)
    (hf : [2, 3, 4, 5, 6, 7].find? (fun n => !(s.session n).isOpen) = found) :
    exec (.dtlsHandshake p peer cert) s = .next (if Config.certOk cert then s.openFor p peer found else s) := by
  change execDtlsHandshake p peer cert s = _
  unfold execDtlsHandshake
  rw [State.chains_eq hr hh, State.ofPeer_none hp]
  by_cases hc : Config.certOk cert = true
  · rw [if_neg (not_or.mpr ⟨not_not.mpr hc, not_not.mpr ht⟩), if_pos hc]
    dsimp only
    rw [hf]
    rfl
  · rw [if_pos (Or.inl hc), if_neg hc]

end

/-! ## Messages (R162) -/

section
variable {s t : State} {n : Nat} {bs : List Byte} {m : Datagram} {typ : Byte}

/-- Whether a session takes messages. -/
def State.listens (s : State) (n : Nat) : Prop := 2 ≤ n ∧ (s.session n).isOpen = true ∧ s.dealers.takeover = .none

theorem State.listens_iff : s.listens n ↔ ¬(n < 2 ∨ ¬ (s.session n).isOpen ∨ s.dealers.takeover ≠ .none) := by
  rw [State.listens, not_or, not_or, not_not, not_not, Nat.not_lt]

theorem State.message_seen {act : State → State} {k : W32} {r : Datagram} (hl : s.listens n)
    (hs : (s.session n).seen.find? (fun x => x.1 = m.req) = some (k, r)) :
    s.message n m typ act = s.emit (.datagram n (Datagram.bytes r)) := by
  unfold State.message
  rw [if_neg (State.listens_iff.mp hl), hs]

theorem State.message_new {act : State → State} (hl : s.listens n)
    (hs : (s.session n).seen.find? (fun x => x.1 = m.req) = none) (hg : Datagram.good m = true) (ht : m.typ = typ) :
    s.message n m typ act = act s := by
  unfold State.message
  rw [if_neg (State.listens_iff.mp hl), hs]
  exact (if_neg (not_not.mpr hg)).trans (if_pos ht)

/-- Twenty bytes and more spell a message. -/
theorem State.datagram_message {f : Datagram → State} (hb : 20 ≤ bs.length)
    (hm : m = { typ := bs.getD 0 0, status := bs.getD 1 0, req := ofBytes 32 ((bs.drop 4).take 4),
                off := leNat ((bs.drop 8).take 8), len := leNat ((bs.drop 16).take 2), data := bs.drop 20 }) :
    s.datagram n bs f = f m := by
  subst hm
  unfold State.datagram Datagram.ofBytes
  rw [if_neg (Nat.not_lt.mpr hb)]
  rfl

end

/-- Settles O30: the branches of the session commands, and the record and the new number of a message. -/
theorem sessionEventsComplete : Obligations.SessionEventsComplete := by
  unfold Obligations.SessionEventsComplete
  intro s
  refine ⟨fun b n t hn hc ht => ?linkUp, fun b n hn => ?linkDown, fun p peer cert ht hr hh hp =>
      ⟨fun n hf => exec_dtlsHandshake ht hr hh hp hf,
        fun hall => exec_dtlsHandshake ht hr hh hp (State.noFree_of_open hall)⟩,
    fun n p hn ho ht => congrArg Host.Outcome.next (if_pos ⟨hn, ho, ht⟩),
    fun n hn => ⟨congrArg Host.Outcome.next (if_pos hn), congrArg Host.Outcome.next (if_pos hn)⟩,
    fun n bs m hn ho ht hb hm => ⟨fun k r hs => ?seen, fun hs hg w q hq hw => ?fresh⟩,
    fun off hoff => congrArg (fun v => Host.Outcome.next (s.emit (.mctp (toBytes 4 v)))) (if_pos hoff),
    fun off v => rfl, rfl, rfl⟩
  case linkUp =>
    subst hn ht
    exact congrArg Host.Outcome.next (if_neg (ne_true_of_eq_false hc))
  case linkDown =>
    subst hn
    rfl
  case seen =>
    have hl : s.listens n := ⟨hn, ho, ht⟩
    exact ⟨congrArg Host.Outcome.next ((State.datagram_message hb hm).trans (State.message_seen hl hs)),
      congrArg Host.Outcome.next ((State.datagram_message hb hm).trans (State.message_seen hl hs)),
      congrArg Host.Outcome.next ((State.datagram_message hb hm).trans (State.message_seen hl hs))⟩
  case fresh =>
    subst hq hw
    have hl : s.listens n := ⟨hn, ho, ht⟩
    exact ⟨fun h => congrArg Host.Outcome.next ((State.datagram_message hb hm).trans (State.message_new hl hs hg h)),
      fun h => congrArg Host.Outcome.next ((State.datagram_message hb hm).trans (State.message_new hl hs hg h)),
      fun h => congrArg Host.Outcome.next ((State.datagram_message hb hm).trans (State.message_new hl hs hg h))⟩

/-! ## Ownership (R165, R166) -/

theorem inRange_of_le {v : W32} {lo hi : Nat} (h₁ : lo ≤ v.toNat) (h₂ : v.toNat ≤ hi) : inRange v lo hi = true := by
  rw [inRange, decide_eq_true h₁, decide_eq_true h₂]
  rfl

/-- What the owner's write answers when its register takes the value. -/
theorem State.ownerWrite_some {s t : State} {n : Nat} {f : State → Option State} (h : s.isOwner n = true)
    (hf : f s = some t) : s.ownerWrite n f = t := by
  rw [State.ownerWrite_of_owner h, hf]
  rfl

section
variable {s : State} {n : Nat} {v : BitVec 4}

theorem State.wOwnGrant_open (h₁ : 1 ≤ v.toNat) (h₈ : v.toNat ≤ 8) (hn : v.toNat ≠ n + 1)
    (ho : (s.session (v.toNat - 1)).isOpen = true) : s.wOwnGrant n v = some (s.setOwner v.toNat) := by
  have hf : v ≠ 0xF := fun h => by subst h; exact absurd h₈ (by decide)
  unfold State.wOwnGrant
  rw [if_neg hf, if_neg]
  rintro (h | h | h | h)
  · omega
  · omega
  · exact hn h
  · exact h ho

theorem State.wTwin_open (h₁ : 1 ≤ v.toNat) (h₈ : v.toNat ≤ 8) (hn : v.toNat ≠ n + 1)
    (ho : (s.session (v.toNat - 1)).isOpen = true) :
    s.wTwin n v = some { s with own := { s.own with twin := v.toNat } } := by
  have h0 : v ≠ 0 := fun h => by subst h; exact absurd h₁ (by decide)
  unfold State.wTwin
  rw [if_neg h0, if_neg]
  rintro (h | h | h)
  · omega
  · exact hn h
  · exact h ho

theorem State.lapse_untwinned (ho : s.own.owner ≠ 0) (ht : s.own.twin = 0) : s.lapse = s.setOwner 0 :=
  (if_neg ho).trans (if_neg fun h => h.1 ht)

theorem State.lapse_twinned (ho : s.own.owner ≠ 0) (ht : s.own.twin ≠ 0)
    (hs : (s.session (s.own.twin - 1)).isOpen = true) : s.lapse = s.setOwner s.own.twin :=
  (if_neg ho).trans (if_pos ⟨ht, hs⟩)

end

/-! ## Rings (R168, R170) -/

theorem ringSize_pos (o : BitVec 4) : 0 < ringSize o := Nat.two_pow_pos _

/-- With nothing open, a doorbell within its ring leaves the ring room. -/
theorem State.wDoorbell_idle {s : State} {n k : Nat} {t : W16} {x : Session} {r : List RingItem × Nat} (hx : s.session n = x)
    (hb : x.cqBase ≠ 0) (ht : t.toNat < ringSize x.cqOrder) (hd : x.cqDone = x.cqCommit)
    (hk : k = (t.toNat + ringSize x.cqOrder - x.cqCommit.toNat) % ringSize x.cqOrder)
    (hr : r = s.takeDescs x t.toNat ((List.range k).map (fun i => (x.cqCommit.toNat + i) % ringSize x.cqOrder))) :
    s.wDoorbell n t = some (s.modSession n (fun y =>
      { y with taken := y.taken ++ r.1, cqBad := satAdd y.cqBad r.2, cqCommit := t })) := by
  have hold : (x.cqCommit.toNat + ringSize x.cqOrder - x.cqDone.toNat) % ringSize x.cqOrder = 0 := by
    rw [hd, Nat.add_sub_cancel_left, Nat.mod_self]
  have hnew : (t.toNat + ringSize x.cqOrder - x.cqCommit.toNat) % ringSize x.cqOrder < ringSize x.cqOrder :=
    Nat.mod_lt _ (ringSize_pos _)
  subst hk hr
  unfold State.wDoorbell
  rw [hx]
  dsimp only
  rw [hold, if_neg]
  rintro (h | h | h)
  · omega
  · omega
  · exact hb h

/-- Settles O31: ownership by its branches, the rings by what their registers accept. -/
theorem ownershipAndRingCommandsComplete : Obligations.OwnershipAndRingCommandsComplete := by
  unfold Obligations.OwnershipAndRingCommandsComplete
  intro s n
  refine ⟨fun h0 ho => ?claim, fun hown => ?lease,
    fun v hown h₁ h₈ hn ho => ⟨congrArg Host.Outcome.next (State.ownerWrite_some hown (State.wOwnGrant_open h₁ h₈ hn ho)),
      congrArg Host.Outcome.next (State.ownerWrite_some hown (State.wTwin_open h₁ h₈ hn ho))⟩,
    fun hown => ⟨congrArg Host.Outcome.next (State.ownerWrite_some hown rfl),
      congrArg Host.Outcome.next (State.ownerWrite_some hown rfl)⟩,
    fun ho ht => congrArg Host.Outcome.next (State.lapse_untwinned ho ht),
    fun ho ht hs => congrArg Host.Outcome.next (State.lapse_twinned ho ht hs), fun pg v hown hd hv => ?ring,
    fun pg v hown hv => congrArg Host.Outcome.next (State.ownerWrite_some hown (if_pos hv)),
    fun pg t x k r hown hx hb ht hd hk hr =>
      congrArg Host.Outcome.next (State.ownerWrite_some hown (State.wDoorbell_idle hx hb ht hd hk hr))⟩
  case claim =>
    exact congrArg (fun r : W32 × State => Host.Outcome.next (r.2.emit (.value n 0x200 r.1)))
      (show s.readClaim n = (0, s.setOwner (n + 1)) from if_pos ⟨h0, ho⟩)
  case lease =>
    exact congrArg (fun r : W32 × State => Host.Outcome.next (r.2.emit (.value n 0x208 r.1))) (if_pos hown)
  case ring =>
    refine congrArg Host.Outcome.next (State.ownerWrite_some hown ?_)
    exact (if_neg (not_not.mpr hd)).trans (if_pos (inRange_of_le (Nat.zero_le _) hv))

end Sys2Proof.Machine
end

section
/-! PROOFS (00, 09). A write of four power domains over a store that is not in canonical form: a counterexample to the
statement of the owner's register writes. -/

namespace Sys2Proof.Machine

/-- Session 0 owns the device, and the store of the power domains lists port 0 twice, which the canonical form rules out but
the statement, about every state, does not. -/
def doubledDomain : State where
  own := { owner := 1 }
  fab := { fold := { domain := [(0, 1), (0, 2)] } }

/-- The power domain of port 0 (R323). -/
def firstDomain : Result → Byte
  | .next t => SMap.get z8 t.fab.fold.domain 0
  | _ => 0

/-- The write of 0 takes one of the two entries away, and the read finds the other. -/
theorem doubledDomain_write : firstDomain (exec (.regWrite 0 0x400 0) doubledDomain) = 2 := by decide +kernel

/-- Refutes O32: the clause of the power domains says in every state that each reads as the byte written, without a hypothesis
that their store is in canonical form; where it lists a port twice, writing 0 uncovers the second entry. -/
theorem not_registerWritesComplete : ¬ Obligations.RegisterWritesComplete := by
  unfold Obligations.RegisterWritesComplete
  intro h
  obtain ⟨-, -, -, -, -, -, hdomain, -⟩ := (h doubledDomain 0).1 rfl
  obtain ⟨t, ht, hread, -⟩ := hdomain 0 0 rfl
  have hzero : firstDomain (.next t) = 0 := hread 0 (by decide)
  have hexec : firstDomain (exec (.regWrite 0 0x400 0) doubledDomain) = firstDomain (.next t) := congrArg firstDomain ht
  exact absurd (doubledDomain_write.symm.trans (hexec.trans hzero)) (by decide)

end Sys2Proof.Machine
end

section
/-! PROOFS (05). The host commands of a ring. -/

namespace Sys2Proof.Machine

section
variable {s t : State} {n : Fin 8} {i : Nat} {d : BitVec 512} {op : Byte}

/-- A ring's command that answers is completed with its answer (R170, R173). -/
theorem State.hostCmd_answers {isOp : Byte → Bool} {f : State → BitVec 512 → CmdAnswer} {st : Byte} {res : W64}
    (h : Safety.HostCommand s n i d op) (hop : isOp op = true) (hf : f s d = some (st, res, t)) :
    s.hostCmd n isOp f = Safety.answered s t n i d st res := by
  obtain ⟨hcur, hd, hclean, hgap⟩ := h
  subst hd
  unfold State.hostCmd
  rw [hcur]
  dsimp only
  rw [if_neg (not_or.mpr ⟨not_not.mpr hop, not_not.mpr hgap⟩), if_pos (Or.inl hclean), hf]
  rfl

/-- A ring starts its next item when none runs, none is owed and its completion ring has room (R170, R173). -/
def State.ringIdle (s : State) (n : Nat) : Prop :=
  s.dealers.takeover = .none ∧ (s.session n).cur = none ∧ (s.session n).owed = none ∧ (s.session n).cplFull = false

theorem State.ringIdle_not_held {m : Nat} (h : s.ringIdle m) : ¬(s.dealers.takeover ≠ .none ∨ (s.session m).cur.isSome ∨
    (s.session m).owed.isSome ∨ (s.session m).cplFull = true) := by
  obtain ⟨ht, hc, ho, hf⟩ := h
  rw [ht, hc, ho, hf]
  rintro (h | h | h | h)
  · exact h rfl
  all_goals exact Bool.false_ne_true h

theorem exec_hostCommandStart_cmd {rest : List RingItem} (h : s.ringIdle n) (hr : (s.session n).taken = .cmd i d :: rest) :
    exec (.hostCommandStart n) s = .next (s.modSession n (fun y => { y with taken := rest, cur := some (i, d) })) := by
  change execHostCommandStart n s = _
  unfold execHostCommandStart
  dsimp only
  rw [if_neg (State.ringIdle_not_held h), hr]

theorem exec_hostCommandStart_bad {rest : List RingItem} {k : Nat} (h : s.ringIdle n)
    (hr : (s.session n).taken = .bad i k :: rest) : exec (.hostCommandStart n) s =
      .next ((s.modSession n (fun y => { y with taken := rest })).complete n k
        (completionRecord 0xFFFFFFFF 0 4 (BitVec.ofNat 64 i))) := by
  change execHostCommandStart n s = _
  unfold execHostCommandStart
  dsimp only
  rw [if_neg (State.ringIdle_not_held h), hr]

/-! ## The stores and the contexts (R172) -/

theorem State.cmdLoadi_free {a first count : Nat} (ha : a = descNat d 8 8) (hfirst : first = descNat d 16 4)
    (hcount : count = descNat d 20 4) (h0 : count ≠ 0) (hfit : first + count ≤ istoreSize)
    (hin : s.inDepot a (8 * count) = true) (hbad : s.badLine a (8 * count) = false) (hfree : s.rangeFree first count = true) :
    s.cmdLoadi d = cmdOk (s.loadInstr first (s.instrAt a count)) := by
  subst ha hfirst hcount
  unfold State.cmdLoadi
  dsimp only
  rw [if_neg, if_neg (ne_true_of_eq_false hbad), if_neg (not_not.mpr hfree)]
  rintro (h | h | h | h)
  · exact h0 h
  · omega
  · omega
  · exact h hin

theorem State.cmdDload_range {a k u : Nat} (hr : s.copyRange d = some (a, u, k)) (hbad : s.badLine a k = false) :
    s.cmdDload d = cmdOk (s.dsWrite u (s.depRead a k)) := by
  unfold State.cmdDload
  rw [hr]
  exact if_neg (ne_true_of_eq_false hbad)

theorem State.cmdDsave_range {a k u : Nat} (hr : s.copyRange d = some (a, u, k)) :
    s.cmdDsave d = cmdOk (s.depWrite a (s.dsRead u k)) := by
  unfold State.cmdDsave
  rw [hr]

theorem State.cmdStart_stopped {c p e : Nat} (hc : c = descNat d 8 1) (hp : p = descNat d 9 1) (he : e = descNat d 12 4)
    (h16 : c < 16) (h4 : p < 4) (hi : e < istoreSize) (hr : (s.ctx c).run = .idle ∨ (s.ctx c).run = .halted) :
    s.cmdStart d = some (0, BitVec.ofNat 64 c,
      s.startCtx c e (BitVec.ofNat 2 p) ((toBytes 64 d).extract 16 48) 0 0) := by
  subst hc hp he
  have hstopped : ¬((s.ctx (descNat d 8 1)).run = .running ∨ (s.ctx (descNat d 8 1)).run = .waiting) := by
    rcases hr with h | h <;> rw [h] <;> decide
  unfold State.cmdStart
  dsimp only
  rw [if_neg (by omega), if_neg hstopped]

theorem State.cmdClear_halted {c : Nat} (hc : c = descNat d 8 1) (h16 : c < 16) (hr : (s.ctx c).run = .halted) :
    s.cmdClear d = cmdOk ((s.modCtx c (fun x => { x with run := .idle })).journalCtx c) := by
  subst hc
  exact (if_neg (Nat.not_le.mpr h16)).trans (if_neg (not_not.mpr hr))

/-! ## Bindings, the plan, the kitty (R172, R174) -/

theorem State.cmdBindr_good {k : Nat} {b : Binding} (hk : k = descNat d 8 1) (hb : b = byteField d 16 128)
    (hg : Binding.good b = true) :
    s.cmdBindr d = cmdOk ((s.setBinding k b).stream (.binding (Fin.ofNat 256 k) b)) := by
  subst hk hb
  exact if_pos hg

/-- A slot without pending dispatches loses its binding alone. -/
theorem State.cmdUnbindr_quiet {k : Nat} (hk : k = descNat d 8 1) (hn : ∀ x ∈ s.reflex.pend, x.slot ≠ k) :
    s.cmdUnbindr d = cmdOk ((s.setBinding k 0).stream (.binding (Fin.ofNat 256 k) 0)) := by
  subst hk
  have hgone : s.reflex.pend.filter (fun x => decide (x.slot = descNat d 8 1)) = [] :=
    List.filter_eq_nil_iff.mpr fun x hx h => hn x hx (of_decide_eq_true h)
  have hkept : s.reflex.pend.filter (fun x => decide (x.slot ≠ descNat d 8 1)) = s.reflex.pend :=
    List.filter_eq_self.mpr fun x hx => decide_eq_true (hn x hx)
  unfold State.cmdUnbindr
  dsimp only
  rw [hgone, hkept]
  rfl

theorem State.cmdPlan_good {a k : Nat} {p : Plan} (ha : a = descNat d 8 8) (hk : k = descNat d 16 4) (hact : s.isActive = true)
    (hin : s.inDepot a k = true) (hbad : s.badLine a k = false) (hp : s.checkPlan (s.depRead a k) = .ok p) :
    s.cmdPlan d = cmdOk ((s.bindPlan p).stream (.plan (s.depRead a k))) := by
  subst ha hk
  unfold State.cmdPlan
  dsimp only
  rw [if_neg (not_not.mpr hact), if_neg (not_not.mpr hin), if_neg (ne_true_of_eq_false hbad), hp]

theorem State.cmdPlan_bad {a k j : Nat} {st : Byte} (ha : a = descNat d 8 8) (hk : k = descNat d 16 4)
    (hact : s.isActive = true) (hin : s.inDepot a k = true) (hbad : s.badLine a k = false)
    (hp : s.checkPlan (s.depRead a k) = .bad st j) : s.cmdPlan d = some (st, BitVec.ofNat 64 j, s) := by
  subst ha hk
  unfold State.cmdPlan
  dsimp only
  rw [if_neg (not_not.mpr hact), if_neg (not_not.mpr hin), if_neg (ne_true_of_eq_false hbad), hp]

theorem State.cmdKitty_list {a : Nat} {ids l : List W16} (ha : a = descNat d 8 8) (hact : s.isActive = true)
    (hl : s.depotList a = some ids) (h8 : s.badLine a 8 = false)
    (hbad : s.badLine a (8 * (1 + (ids.length + 3) / 4)) = false) (hs : l = ids.foldl (fun m x => insertId x m) []) :
    s.cmdKitty d = cmdOk (({ s with fab := { s.fab with kitty := l } } : State).stream (.kitty l)) := by
  subst ha hs
  unfold State.cmdKitty
  dsimp only
  rw [if_neg (not_not.mpr hact), if_neg (ne_true_of_eq_false h8), hl]
  exact if_neg (ne_true_of_eq_false hbad)

/-! ## The pair (R186, R193, R195) -/

theorem State.cmdHandover_standby (hs : s.dealers.standby = true) (hh : s.dealers.handover = false) :
    s.cmdHandover =
      cmdOk ({ s with dealers := { s.dealers with handover := true } } : State).journalRunning.handOver :=
  if_neg (not_or.mpr ⟨not_not.mpr hs, ne_true_of_eq_false hh⟩)

theorem State.cmdSolo_mode {x : Solo} (hact : s.isActive = true)
    (hx : descNat d 8 1 = 0 ∧ x = .off ∨ descNat d 8 1 = 1 ∧ x = .cmd) :
    s.cmdSolo d = cmdOk (s.setPair (fun p => { p with solo := x })) := by
  unfold State.cmdSolo
  rw [if_neg (not_not.mpr hact)]
  rcases hx with ⟨hd, hx⟩ | ⟨hd, hx⟩
  all_goals
    rw [hd]
    subst hx
    rfl

/-- A fenced package that never heard a RENEW takes the pod. -/
theorem State.cmdResume_quiet (hf : s.pair.fenced = true) (hr : s.pair.renewAt = none) :
    s.cmdResume = cmdOk (s.takePod (s.vbat.cepoch + 1) 3) := by
  unfold State.cmdResume
  rw [hr]
  exact if_pos ⟨hf, rfl⟩

end

/-- Settles O33: each command's answer, written as its completion. -/
theorem hostStoreCommandsComplete : Obligations.HostStoreCommandsComplete := by
  unfold Obligations.HostStoreCommandsComplete
  intro s n i d
  exact ⟨fun rest ht hc ho hf hr => exec_hostCommandStart_cmd ⟨ht, hc, ho, hf⟩ hr,
    fun rest k ht hc ho hf hr => exec_hostCommandStart_bad ⟨ht, hc, ho, hf⟩ hr,
    fun a first count h ha hfirst hcount h0 hfit hin hbad hfree => congrArg Host.Outcome.next
      (State.hostCmd_answers h rfl (State.cmdLoadi_free ha hfirst hcount h0 hfit hin hbad hfree)),
    fun a t k h hr hbad => congrArg Host.Outcome.next (State.hostCmd_answers h rfl (State.cmdDload_range hr hbad)),
    fun a t k h hr => congrArg Host.Outcome.next (State.hostCmd_answers h rfl (State.cmdDsave_range hr)),
    fun c p e h hc hp he h16 h4 hi hr => congrArg Host.Outcome.next
      (State.hostCmd_answers h rfl (State.cmdStart_stopped hc hp he h16 h4 hi hr)),
    fun c h hc h16 => congrArg Host.Outcome.next (State.hostCmd_answers h rfl
      (by subst hc; exact if_neg (Nat.not_le.mpr h16))),
    fun c h hc h16 hr => congrArg Host.Outcome.next (State.hostCmd_answers h rfl (State.cmdClear_halted hc h16 hr))⟩

/-- Settles O34: each command's answer, written as its completion. -/
theorem hostPodCommandsComplete : Obligations.HostPodCommandsComplete := by
  unfold Obligations.HostPodCommandsComplete
  intro s n i d
  exact ⟨fun k b h hk hb hg => congrArg Host.Outcome.next (State.hostCmd_answers h rfl (State.cmdBindr_good hk hb hg)),
    fun k h hk hn => congrArg Host.Outcome.next (State.hostCmd_answers h rfl (State.cmdUnbindr_quiet hk hn)),
    fun a k p h ha hk hact hin hbad hp => congrArg Host.Outcome.next
      (State.hostCmd_answers h rfl (State.cmdPlan_good ha hk hact hin hbad hp)),
    fun a k j st h ha hk hact hin hbad hp => congrArg Host.Outcome.next
      (State.hostCmd_answers h rfl (State.cmdPlan_bad ha hk hact hin hbad hp)),
    fun a ids l h ha hact hl h8 hbad hs => congrArg Host.Outcome.next
      (State.hostCmd_answers h rfl (State.cmdKitty_list ha hact hl h8 hbad hs)),
    fun h hs hh => congrArg Host.Outcome.next (State.hostCmd_answers h rfl (State.cmdHandover_standby hs hh)),
    fun x h hact hx => congrArg Host.Outcome.next (State.hostCmd_answers h rfl (State.cmdSolo_mode hact hx)),
    fun h hf hr => congrArg Host.Outcome.next (State.hostCmd_answers h rfl (State.cmdResume_quiet hf hr)),
    fun op h hop => congrArg Host.Outcome.next (State.hostCmd_answers h hop rfl)⟩

end Sys2Proof.Machine
end

section
/-! PROOFS (11). Tally requests and owner writes of tallies, and settlement. -/

namespace Sys2Proof.Machine

/-! ## Tally requests (R378–R382) -/

section
variable {s : State} {f : Flit}

/-- A request that its slice may make reaches the ledger's operation. -/
theorem State.class8_allowed (h : Safety.TallyRequest s f) (hf : (if t8Op f = 1 then s.filterHit f else none) = none) :
    s.class8 f = (if t8Op f = 1 then s.add8 f
      else if t8Op f = 2 then
        (s.dirty (s.tally (t8Tally f).toNat).part.toNat).complete8 f 0 (s.tally (t8Tally f).toNat).count s.stamp
      else s.wait8 f) := by
  obtain ⟨hcls, hcrc, hdest, hact, hgap, hep, hform, hok⟩ := h
  have happly : s.class8 f = s.apply8 f := by
    unfold State.class8
    rw [if_neg (not_or.mpr ⟨not_not.mpr hcls, not_or.mpr ⟨not_not.mpr hcrc, not_not.mpr hdest⟩⟩),
      if_neg (not_not.mpr hact), if_neg (not_not.mpr hgap)]
  rw [happly]
  unfold State.apply8
  dsimp only
  rw [if_neg (not_not.mpr hep), if_neg (ne_true_of_eq_false hform), hf]
  exact if_neg (not_not.mpr hok)

theorem State.class8_add (h : Safety.TallyRequest s f) (ho : t8Op f = 1) (hf : s.filterHit f = none) :
    s.class8 f = s.add8 f :=
  (State.class8_allowed h ((if_pos ho).trans hf)).trans (if_pos ho)

theorem State.class8_read (h : Safety.TallyRequest s f) (ho : t8Op f = 2) : s.class8 f =
    (s.dirty (s.tally (t8Tally f).toNat).part.toNat).complete8 f 0 (s.tally (t8Tally f).toNat).count s.stamp := by
  have h1 : ¬ t8Op f = 1 := by rw [ho]; decide
  exact (State.class8_allowed h (if_neg h1)).trans ((if_neg h1).trans (if_pos ho))

theorem State.class8_wait (h : Safety.TallyRequest s f) (ho : t8Op f = 3) : s.class8 f = s.wait8 f := by
  have h1 : ¬ t8Op f = 1 := by rw [ho]; decide
  have h2 : ¬ t8Op f = 2 := by rw [ho]; decide
  exact (State.class8_allowed h (if_neg h1)).trans ((if_neg h1).trans (if_neg h2))

theorem State.add8_applied {fl : Flit} {t : Nat} {s1 s2 : State} (hroom : s.filterRoom = true)
    (ht : t = (t8Tally f).toNat) (hadd : s.tallyAdd t (t8Val f).toInt false = some s1)
    (h2 : s2 = s1.setSettle (fun x => { x with cur := x.cur.adder f.src (s.slice f.slice.toNat).part }))
    (hfl : fl = s2.completionOf f.src f.seq f.slice (t8Tally f) 1 0 (s2.tally t).count s2.stamp) :
    s.add8 f = ((s2.filterAdd
      { src := f.src, seq := f.seq, tally := t8Tally f, operand := t8Val f, completion := fl, at_ := s.us }).sendTo
        f.src fl).wakeTally t := by
  subst ht h2 hfl
  unfold State.add8
  dsimp only
  rw [if_neg (not_not.mpr hroom), hadd]

theorem State.wait8_holds {x : Tally} (hx : x = s.tally (t8Tally f).toNat)
    (hc : cmpHolds (t8Cmp f).toNat x.count.toNat (t8Val f).toNat = true) :
    s.wait8 f = (s.dirty x.part.toNat).complete8 f 0 x.count s.stamp := by
  subst hx
  exact if_pos hc

theorem State.wait8_held {x : Tally} {t : State} (hx : x = s.tally (t8Tally f).toNat)
    (hc : cmpHolds (t8Cmp f).toNat x.count.toNat (t8Val f).toNat = false) (hl : s.led.holds.length < 4096)
    (ht : t = s.dirty x.part.toNat) :
    s.wait8 f = { t with led := { t.led with holds := t.led.holds ++
      [{ src := f.src, seq := f.seq, slice := f.slice, tally := t8Tally f, cmp := (t8Cmp f).toNat, value := t8Val f }] } } := by
  subst hx ht
  exact (if_neg (ne_true_of_eq_false hc)).trans (if_neg (Nat.not_le.mpr hl))

end

/-! ## Owner writes of a tally (R377) -/

section
variable {s : State} {t : Nat} {v : W32} {p : BitVec 6}

/-- A write of PART and EN that no rule turns down. -/
theorem State.wTallyCfg_taken (hs : tallyStrict t = false) (hw : s.waiters t = 0) (hv : within v 0xF3BF = true)
    (hp : p = bitsAt v 0 6) (hq : v.getLsbD 7 = true → s.tallyUsed p.toNat < (s.lpart p.toNat).tallyQuota.toNat) :
    s.wTallyCfg t v = some (if v.getLsbD 7 then
      (s.modTally t (fun y => { y with part := p, en := v.getLsbD 7 })).dirty p.toNat
      else s.modTally t (fun y => { y with part := p, en := v.getLsbD 7 })) := by
  subst hp
  unfold State.wTallyCfg
  dsimp only
  rw [if_neg (not_or.mpr ⟨ne_true_of_eq_false hs, not_or.mpr ⟨not_not.mpr hw, not_not.mpr hv⟩⟩), if_neg]
  rintro ⟨hen, -, hfull⟩
  have := hq hen
  omega

end

/-- Settles O35: the requests by their operation, the owner's writes by what their registers accept. -/
theorem tallyCommandsComplete : Obligations.TallyCommandsComplete := by
  unfold Obligations.TallyCommandsComplete
  intro s
  refine ⟨fun f fl t s1 s2 h ho hf hr ht ha h2 hfl => ?add, fun f x h ho hx => ?read, fun f x h ho hx hc => ?met,
    fun f x t h ho hx hc hl ht => ?held, fun src seq h hh => ?expire,
    fun n t v hown => congrArg Host.Outcome.next (State.ownerWrite_some hown rfl),
    fun n t v p hown hs hw hv hp hen hq => ?enable, fun n t v p hown hs hw hv hp hen => ?disable⟩
  case add =>
    have hop : ¬(t8Op f = 2 ∨ t8Op f = 3) := by rw [ho]; decide
    exact congrArg Host.Outcome.next ((if_neg hop).trans ((State.class8_add h ho hf).trans
      (State.add8_applied hr ht ha h2 hfl)))
  case read =>
    subst hx
    exact congrArg Host.Outcome.next ((if_pos ho).trans (State.class8_read h ho))
  case met =>
    exact congrArg Host.Outcome.next ((if_pos ho).trans ((State.class8_wait h ho).trans (State.wait8_holds hx hc)))
  case held =>
    exact congrArg Host.Outcome.next ((if_pos ho).trans ((State.class8_wait h ho).trans (State.wait8_held hx hc hl ht)))
  case expire =>
    change execTallyWaitHoldExpire src seq s = _
    unfold execTallyWaitHoldExpire
    rw [hh]
  case enable =>
    refine congrArg Host.Outcome.next (State.ownerWrite_some hown ((State.wTallyCfg_taken hs hw hv hp fun _ => hq).trans ?_))
    rw [hen]
    rfl
  case disable =>
    refine congrArg Host.Outcome.next (State.ownerWrite_some hown ((State.wTallyCfg_taken hs hw hv hp fun h => ?_).trans ?_))
    · exact absurd (hen.symm.trans h) Bool.false_ne_true
    · rw [hen]
      rfl

/-! ## Settlement (R385–R388) -/

section
variable {s : State} {x : Stamp}

theorem State.call_missing (hg : s.dealers.takeover = .none) (hm : x.missing ≠ []) :
    s.call x = (s.modStamp x.stamp (fun y => { y with called := true, deferred := false })).sendCalls x.stamp x.missing :=
  (if_neg (not_not.mpr hg)).trans (if_neg hm)

theorem State.call_answered (hg : s.dealers.takeover = .none) (hm : x.missing = []) : s.call x = s.finalize x :=
  (if_neg (not_not.mpr hg)).trans (if_pos hm)

/-- A REPORT flit of an answer that still lacks another is taken, and the settlement goes on (R387). -/
theorem State.report_taken {f : Flit} {k : Stamp} {t : State} (hcls : f.cls = 9) (hcrc : f.crc = f.crcOf)
    (hdest : f.dest = s.myId) (hop : byteField f.pay 0 8 = (2 : Byte)) (hn : (byteField f.pay 2 8 : Byte).toNat ≤ 6)
    (hk : s.reportStamp f = some k) (ht : t = s.modStamp k.stamp (fun x => x.take f)) (hx : t.stampOf k.stamp = some x)
    (hm : x.missing ≠ []) : s.report f = t := by
  subst ht
  have hgood : ¬(f.cls ≠ 9 ∨ f.crc ≠ f.crcOf ∨ f.dest ≠ s.myId ∨ byteField f.pay 0 8 ≠ (2 : Byte) ∨
      6 < (byteField f.pay 2 8 : Byte).toNat) := by
    rintro (h | h | h | h | h)
    · exact h hcls
    · exact h hcrc
    · exact h hdest
    · exact h hop
    · omega
  unfold State.report
  rw [if_neg hgood, hk]
  dsimp only
  rw [hx]
  exact if_neg fun h => hm h.2.1

end

/-- Settles O36: the boundary, the calls and the finalization by their branches, and a REPORT flit that is not the last. -/
theorem settlementCommandsComplete : Obligations.SettlementCommandsComplete := by
  unfold Obligations.SettlementCommandsComplete
  intro s
  refine ⟨fun k hb hk => ?boundary, fun k x hx hk hg hm => ⟨?call, fun hc => ?again⟩,
    fun k x hx hg => ⟨?finalize, fun hm => ?callDone⟩, fun f k x t hcls hcrc hdest hop hn hk ht hx hm =>
      congrArg Host.Outcome.next (State.report_taken hcls hcrc hdest hop hn hk ht hx hm)⟩
  case boundary =>
    subst hk
    exact congrArg Host.Outcome.next (if_pos hb)
  case call =>
    subst hk
    change execSettlementCall x.stamp s = _
    unfold execSettlementCall
    rw [hx]
    exact congrArg Host.Outcome.next (State.call_missing hg hm)
  case again =>
    change execSettlementRecall k s = _
    unfold execSettlementRecall
    rw [hx]
    exact congrArg Host.Outcome.next ((if_neg (not_not.mpr hc)).trans (if_neg (not_not.mpr hg)))
  case finalize =>
    change execSettlementFinalize k s = _
    unfold execSettlementFinalize
    rw [hx]
    exact congrArg Host.Outcome.next (if_neg (not_not.mpr hg))
  case callDone =>
    change execSettlementCall k s = _
    unfold execSettlementCall
    rw [hx]
    exact congrArg Host.Outcome.next (State.call_answered hg hm)

end Sys2Proof.Machine
end

section
/-! PROOFS (10, 11). Queues, partitions and mailboxes of the ledger; landing windows and segment delivery. -/

namespace Sys2Proof.Machine

/-! ## Queues and partitions (R375, R394–R396) -/

section
variable {s t : State} {q : Nat} {v : W32} {x y : Queue}

theorem State.wQueue_owner (ho : ownerQueue q = true) (off : Nat) : s.wQueue q off v = (match off with
    | 0 => if (s.queue q).en then none else some (s.modQueue q (fun x => { x with base := putBits x.base 0 v }))
    | 4 => if (s.queue q).en then none else some (s.modQueue q (fun x => { x with base := putBits x.base 32 v }))
    | 8 => s.wQueueCfg q v
    | 0xC => if (s.queue q).en ∨ deviceQueue q ∨ ¬ within v 0xFFFF then none
      else some (s.modQueue q (fun x => { x with deliver := bitsAt v 0 16 }))
    | 0x10 => s.wQueueHead q v
    | 0x14 => s.wQueueTail q v
    | _ => none) :=
  if_neg (not_not.mpr (Or.inl ho))

theorem State.wQueueCfg_enable (he : (s.queue q).en = false) (hv : within v 0x3F7FFF = true) (hen : v.getLsbD 14 = true)
    (hy : y = (s.queue q).setCfg (deviceQueue q) v) (hc : y.codesOk = true) (hf : s.queueFits y = true) :
    s.wQueueCfg q v = some ((s.modQueue q (fun _ => { y with en := true, head := 0, tail := 0, lost := 0 })).dirty
      y.part.toNat) := by
  subst hy
  unfold State.wQueueCfg
  dsimp only
  rw [if_neg (not_not.mpr hv), if_neg (ne_true_of_eq_false he), if_neg (not_not.mpr hc), if_pos hen, if_pos hf]

theorem State.wQueueHead_taken (hx : x = s.queue q) (he : x.en = true) (hc : x.consHost = true) (hv : v.toNat < x.size)
    (hn : (v.toNat + x.size - x.head.toNat) % x.size ≤ x.count) :
    s.wQueueHead q v =
      some (((s.modQueue q (fun x => { x with head := bitsAt v 0 15 })).dirty x.part.toNat).qRun q qFuel) := by
  subst hx
  refine if_neg ?_
  rintro (h | h | h | h)
  · exact h he
  · exact h hc
  · omega
  · omega

theorem State.wQueueTail_taken {k : Nat} (hx : x = s.queue q) (he : x.en = true) (hp : x.prodHost = true)
    (hv : v.toNat < x.size) (hk : k = (v.toNat + x.size - x.tail.toNat) % x.size) (hn : x.count + k < x.size)
    (ht : t = (s.modQueue q (fun x => { x with tail := bitsAt v 0 15, pushes := satAdd x.pushes k })).dirty x.part.toNat) :
    s.wQueueTail q v = some ((t.deliverNew x x.tail.toNat k).qRun q qFuel) := by
  subst hx hk ht
  refine if_neg ?_
  rintro (h | h | h | h)
  · exact h he
  · exact h hp
  · omega
  · omega

theorem State.wPart_clean {p : Nat} (hv : within v 0x8000FFFF = true) (hc : (s.lpart p).clean = true)
    (ht : (s.lpart p).tenant ≠ bitsAt v 0 16) :
    s.wPart p 0 v = some (s.modLPart p (fun x => { x with tenant := bitsAt v 0 16 })) :=
  (if_neg (not_not.mpr hv)).trans ((if_neg ht).trans (if_pos hc))

end

/-- Settles O37: the owner's writes by what their registers accept, an expired wait entry, a failing ledger die. -/
theorem queueAndPartitionCommandsComplete : Obligations.QueueAndPartitionCommandsComplete := by
  unfold Obligations.QueueAndPartitionCommandsComplete
  intro s
  exact ⟨fun n q v y hown ho he hv hen hy hc hf => congrArg Host.Outcome.next (State.ownerWrite_some hown
      ((State.wQueue_owner ho 8).trans (State.wQueueCfg_enable he hv hen hy hc hf))),
    fun n q v x hown ho hx he hc hv hn => congrArg Host.Outcome.next (State.ownerWrite_some hown
      ((State.wQueue_owner ho 0x10).trans (State.wQueueHead_taken hx he hc hv hn))),
    fun n q v x k t hown ho hx he hp hv hk hn ht => congrArg Host.Outcome.next (State.ownerWrite_some hown
      ((State.wQueue_owner ho 0x14).trans (State.wQueueTail_taken hx he hp hv hk hn ht))),
    fun q hq => congrArg Host.Outcome.next (if_pos hq),
    fun n p v hown hv hc ht => congrArg Host.Outcome.next (State.ownerWrite_some hown (State.wPart_clean hv hc ht)),
    fun b => rfl⟩

/-! ## Mailboxes (R398–R403) -/

section
variable {s : State} {p : Byte} {m : Nat} {x : LMbx}

/-- A party that may act on a mailbox does, and those who wait on it go on. -/
theorem State.partyOn_acts {ok : LMbx → Bool} {f : State → State} (hx : s.mbx m = x) (he : x.en = true)
    (ha : s.partyActs p = true) (hok : ok x = true) : s.partyOn p m ok f = (f s).mbxWake m mbxFuel := by
  subst hx
  exact if_pos ⟨ha, he, hok⟩

theorem State.mbxClaim_free (hx : s.mbx m = x) (ha : s.partyActs p = true) (hc : x.claim = 0) (hs : x.serves p = false) :
    s.mbxClaim p m = (0, (s.modMbx m (fun y => { y with claim := p })).mbxDirty m) := by
  subst hx
  exact (if_neg (not_not.mpr ha)).trans (if_pos ⟨hc, ne_true_of_eq_false hs⟩)

/-- A party's reset that reaches no mailbox but m aborts its exchange there (R403). -/
theorem State.abortParty_only {t : State} (hl : (0 :: s.led.mbx.map (·.1)).eraseDups = [m]) (hx : s.mbx m = x)
    (hh : x.hitBy p = true) (ht : t = s.modMbx m (fun y => y.abortBy p)) :
    s.abortParty p = (s.mbxWaiters m).foldl (fun t c => t.endLong c 0x64 2 0x13 0 1 0xFE) t := by
  subst hx ht
  unfold State.abortParty
  rw [hl]
  exact if_pos hh

end

theorem exec_deviceServerTake {s : State} {m : BitVec 12} {x : LMbx} (hx : s.mbx m.toNat = x) (he : x.en = true)
    (hs : x.server = 33) (hc : x.cmd = false) (hf : x.full = true) : exec (.deviceServerTake m) s =
      .next ((if m = 0 then (s.mbxTake m.toNat).rebuildPost x.data else s.mbxTake m.toNat).mbxWake m.toNat mbxFuel) := by
  subst hx
  exact congrArg Host.Outcome.next (if_pos ⟨hs, ne_true_of_eq_false hc, he, hf⟩)

theorem exec_ledgerMbxClaimRead {s t : State} {p : Byte} {m : BitVec 12} {x : LMbx} {r : Byte} (hx : s.mbx m.toNat = x)
    (he : x.en = true) (hc : x.cmd = true) (hh : isHost p = false) (hr : s.mbxClaim p m.toNat = (r, t)) :
    exec (.ledgerMbxClaimRead p m) s = .next t := by
  subst hx
  have hread : (if (s.mbx m.toNat).en ∧ (s.mbx m.toNat).cmd then s.mbxClaim p m.toNat else ((s.mbx m.toNat).claim, s)) = (r, t) :=
    (if_pos ⟨he, hc⟩).trans hr
  change execLedgerMbxClaimRead p m s = _
  unfold execLedgerMbxClaimRead
  dsimp only
  rw [hread]
  exact congrArg Host.Outcome.next (if_neg (ne_true_of_eq_false hh))

/-- Settles O38: each command meets what its party must be; a reset reaches the one mailbox. -/
theorem ledgerMailboxCommandsComplete : Obligations.LedgerMailboxCommandsComplete := by
  unfold Obligations.LedgerMailboxCommandsComplete
  intro s p m x hx he
  refine ⟨fun ha hc hs => congrArg Host.Outcome.next (State.partyOn_acts hx he ha ?post),
    fun ha hc hs => congrArg Host.Outcome.next (State.partyOn_acts hx he ha ?take),
    fun ha hh hc h0 hs => exec_ledgerMbxClaimRead hx he hc hh (State.mbxClaim_free hx ha h0 hs),
    fun ha hc hp => ⟨congrArg Host.Outcome.next (State.partyOn_acts hx he ha ?release),
      congrArg Host.Outcome.next (State.partyOn_acts hx he ha ?ring)⟩,
    fun ha hc hs h0 hr => congrArg Host.Outcome.next (State.partyOn_acts hx he ha ?answer), fun _ => rfl,
    fun hs hc hf hm => ?device, fun hs hc hf hm => ?rebuild,
    fun t hl hh ht => congrArg Host.Outcome.next (State.abortParty_only hl hx hh ht)⟩
  case post => rw [hc, hs]; rfl
  case take => rw [hc, hs]; rfl
  case release => rw [hc, decide_eq_true hp]; rfl
  case ring => rw [hc, decide_eq_true hp]; rfl
  case answer => rw [hc, hs, decide_eq_true h0, hr]; rfl
  case device => rw [exec_deviceServerTake hx he hs hc hf, if_neg hm]
  case rebuild =>
    subst hm
    rw [exec_deviceServerTake hx he hs hc hf, if_pos rfl]
    rfl

/-! ## Rebuild (R366, R367) -/

theorem not_flitDropped {s : State} {p : Nat} {f : Flit} (hc : f.cls = 2) (hd : s.subDown p = false)
    (hcrc : f.crc = f.crcOf) : ¬(f.cls ≠ 2 ∨ s.subDown p ∨ f.crc ≠ f.crcOf) := by
  rintro (h | h | h)
  · exact h hc
  · exact Bool.false_ne_true (hd.symm.trans h)
  · exact h hcrc

/-- Settles O39: a flit in its open window or in none, a spent window, a delivery that is ready. -/
theorem rebuildCommandsComplete : Obligations.RebuildCommandsComplete := by
  unfold Obligations.RebuildCommandsComplete
  intro s
  refine ⟨fun p l f k w hc hd hcrc hk hw => ?lands, fun p l f hc hd hcrc hk => ?missed, fun i w hw hs => ?closes,
    fun i d sl t hi hb hn hr ha ht => ?delivers⟩
  case lands =>
    change execLandingFlit p l f s = _
    unfold execLandingFlit
    rw [if_neg (not_flitDropped hc hd hcrc), hk]
    dsimp only
    rw [hw]
  case missed =>
    change execLandingFlit p l f s = _
    unfold execLandingFlit
    rw [if_neg (not_flitDropped hc hd hcrc), hk]
  case closes =>
    change execLandingWindowClose i s = _
    unfold execLandingWindowClose
    rw [hw]
    exact congrArg Host.Outcome.next (if_pos hs)
  case delivers =>
    subst ht
    change execSegmentDelivery i s = _
    unfold execSegmentDelivery
    rw [hi]
    dsimp only
    rw [hb]
    refine congrArg Host.Outcome.next (if_neg ?_)
    rintro (h | h | h)
    · exact Bool.false_ne_true (hn.symm.trans h)
    · exact h hr
    · exact h ha

end Sys2Proof.Machine
end

section
/-! PROOFS (02). The pod congestion map, silent agents, and the summaries. -/

namespace Sys2Proof.Machine

/-! ## The map (R83) -/

theorem congKey_inj {id : W16} {p q w : Nat} (h : congKey id p w = congKey id q w) : p = q := by
  unfold congKey at h
  omega

section
variable {s : State} {id : W16} {p : Nat} {w : W32} {r : W64}

/-- The watch of a port's margin leaves the map, its newest window, the frame number and the plan. -/
theorem State.marginWatch_map (s : State) (id : W16) (p : Nat) (m : BitVec 6) :
    (s.marginWatch id p m).fab.cong.ring = s.fab.cong.ring ∧ (s.marginWatch id p m).fab.cong.window = s.fab.cong.window ∧
      (s.marginWatch id p m).fab.frame = s.fab.frame ∧ (s.marginWatch id p m).fab.plan = s.fab.plan := by
  unfold State.marginWatch
  dsimp only
  split_ifs
  all_goals exact ⟨rfl, rfl, rfl, rfl⟩

/-- A record of a newer window stands where one is to enter. -/
def State.newerThere (s : State) (id : W16) (p : Nat) (w : W32) : Bool :=
  (SMap.get noneOf s.fab.cong.ring (congKey id p w.toNat)).any (fun x => newer x.window w)

/-- The map with a record entered. -/
def State.withRecord (s : State) (id : W16) (p : Nat) (w : W32) (r : W64) : State :=
  s.setCong (fun c => { c with
    ring := SMap.set noneOf c.ring (congKey id p w.toNat)
      (some { window := w, record := r, late := decide (w.toNat + 3 < s.curWindow) }) })

theorem State.storeRecord_eq (s : State) (id : W16) (p : Nat) (w : W32) (r : W64) : s.storeRecord id p w r =
    (if decide (w.toNat + 3 < s.curWindow) then
      (if s.newerThere id p w ∨ ¬ s.mapped id p then s else s.withRecord id p w r)
    else (if s.newerThere id p w ∨ ¬ s.mapped id p then s else s.withRecord id p w r).marginWatch id p (recMargin r)) := by
  unfold State.storeRecord State.newerThere State.withRecord
  cases h : SMap.get noneOf s.fab.cong.ring (congKey id p w.toNat) <;> simp only [h, Option.any]

/-- The map after a record: as it was, or with the record entered; the watch of the margins leaves it. -/
theorem State.storeRecord_map {t : State} (ht : t = if s.newerThere id p w ∨ ¬ s.mapped id p then s else s.withRecord id p w r) :
    (s.storeRecord id p w r).fab.cong.ring = t.fab.cong.ring ∧ (s.storeRecord id p w r).fab.cong.window = t.fab.cong.window ∧
      (s.storeRecord id p w r).fab.frame = t.fab.frame ∧ (s.storeRecord id p w r).fab.plan = t.fab.plan := by
  rw [State.storeRecord_eq, ← ht]
  split_ifs
  · exact ⟨rfl, rfl, rfl, rfl⟩
  · exact State.marginWatch_map t id p (recMargin r)

/-- What a record leaves: all of the map but its own key, the newest window, the frame number and the plan. -/
theorem State.storeRecord_rest (s : State) (id : W16) (p : Nat) (w : W32) (r : W64) :
    (∀ k, k ≠ congKey id p w.toNat →
      SMap.get noneOf (s.storeRecord id p w r).fab.cong.ring k = SMap.get noneOf s.fab.cong.ring k) ∧
    (s.storeRecord id p w r).fab.cong.window = s.fab.cong.window ∧
    (s.storeRecord id p w r).fab.frame = s.fab.frame ∧ (s.storeRecord id p w r).fab.plan = s.fab.plan := by
  obtain ⟨hring, hwin, hframe, hplan⟩ := State.storeRecord_map (s := s) (id := id) (p := p) (w := w) (r := r) rfl
  rw [hring, hwin, hframe, hplan]
  split_ifs
  · exact ⟨fun _ _ => rfl, rfl, rfl, rfl⟩
  · exact ⟨fun k hk => SMap.get_insert_ne noneOf s.fab.cong.ring _ k _ hk, rfl, rfl, rfl⟩

/-- A planned port's record enters the map under its key, unless one of a newer window stands there. -/
theorem State.storeRecord_self (hm : s.mapped id p = true)
    (hn : ∀ x, SMap.get noneOf s.fab.cong.ring (congKey id p w.toNat) = some x → newer x.window w = false) :
    SMap.get noneOf (s.storeRecord id p w r).fab.cong.ring (congKey id p w.toNat) =
      some { window := w, record := r, late := decide (w.toNat + 3 < s.fab.frame.toNat / 100) } := by
  have hnew : ¬(s.newerThere id p w = true ∨ ¬ s.mapped id p = true) := by
    rintro (h | h)
    · obtain ⟨x, hx, hw⟩ := Option.any_eq_true _ _ |>.mp h
      exact Bool.false_ne_true ((hn x hx).symm.trans hw)
    · exact h hm
  rw [(State.storeRecord_map rfl).1, if_neg hnew]
  exact SMap.get_insert_self noneOf s.fab.cong.ring _ _

end

/-- The records of a notice enter the map one after another, each under a key of its own. -/
theorem State.storeRecords {s : State} {id : W16} {p : Nat} {w : W32} {r : Nat → W64} {t : State} (n : Nat)
    (ht : t = (List.range n).foldl (fun s i => s.storeRecord id (p + i) w (r i)) s) :
    (∀ i < n, s.mapped id (p + i) = true →
      (∀ x, SMap.get noneOf s.fab.cong.ring (congKey id (p + i) w.toNat) = some x → newer x.window w = false) →
      SMap.get noneOf t.fab.cong.ring (congKey id (p + i) w.toNat) =
        some { window := w, record := r i, late := decide (w.toNat + 3 < s.fab.frame.toNat / 100) }) ∧
    (∀ k, (∀ i < n, k ≠ congKey id (p + i) w.toNat) →
      SMap.get noneOf t.fab.cong.ring k = SMap.get noneOf s.fab.cong.ring k) ∧
    t.fab.cong.window = s.fab.cong.window ∧ t.fab.frame = s.fab.frame ∧ t.fab.plan = s.fab.plan := by
  induction n generalizing t with
  | zero =>
    subst ht
    exact ⟨fun i hi => absurd hi (Nat.not_lt_zero i), fun _ _ => rfl, rfl, rfl, rfl⟩
  | succ n ih =>
    obtain ⟨hin, hout, hwin, hframe, hplan⟩ := ih rfl
    rw [List.range_succ, List.foldl_append] at ht
    generalize (List.range n).foldl (fun s i => s.storeRecord id (p + i) w (r i)) s = u at *
    subst ht
    obtain ⟨hother, hwin', hframe', hplan'⟩ := State.storeRecord_rest u id (p + n) w (r n)
    refine ⟨fun i hi hm hn => ?_, fun k hk => ?_, hwin'.trans hwin, hframe'.trans hframe, hplan'.trans hplan⟩
    · rcases Nat.lt_succ_iff_lt_or_eq.mp hi with hlt | rfl
      · have hne : congKey id (p + i) w.toNat ≠ congKey id (p + n) w.toNat := fun h => by
          have := congKey_inj h
          omega
        exact (hother _ hne).trans (hin i hlt hm hn)
      · have hfree := hout (congKey id (p + i) w.toNat) fun j hj h => by
          have := congKey_inj h
          omega
        have hmapped : u.mapped id (p + i) = s.mapped id (p + i) := by
          simp only [State.mapped, State.plannedPorts, hplan]
        have hself := State.storeRecord_self (s := u) (id := id) (p := p + i) (w := w) (r := r i) (hmapped.trans hm)
          (fun x hx => hn x (hfree.symm.trans hx))
        rw [hframe] at hself
        exact hself
    · exact (hother k (hk n (Nat.lt_succ_self n))).trans (hout k fun i hi => hk i (Nat.lt_succ_of_lt hi))

theorem execCongestionRecord_good {s : State} {f : Flit} (hc : f.cls = 6) (hseq : f.seq = 0xFFFF) (hcrc : f.crc = f.crcOf)
    (hd : f.dest = s.myId) (h1 : 1 ≤ (byteField f.pay 5 8 : Byte).toNat) (h5 : (byteField f.pay 5 8 : Byte).toNat ≤ 5)
    (hp : (byteField f.pay 4 8 : Byte).toNat + (byteField f.pay 5 8 : Byte).toNat ≤ 128) :
    exec (.congestionRecord f) s = .next ((List.range (byteField f.pay 5 8 : Byte).toNat).foldl
      (fun s i => s.storeRecord f.src ((byteField f.pay 4 8 : Byte).toNat + i) (byteField f.pay 0 32)
        (byteField f.pay (8 + 8 * i) 64))
      (s.setCong (fun c => { c with
        window := if newer (byteField f.pay 0 32) c.window then byteField f.pay 0 32 else c.window }))) := by
  refine congrArg Host.Outcome.next (if_neg ?_)
  rintro (h | h | h | h | h | h | h)
  · exact h hc
  · exact h hseq
  · exact h hcrc
  · exact h hd
  · omega
  · omega
  · omega

/-! ## Silent agents, summaries (R83, R175) -/

section
variable {s : State} {id : W16} {w : W32}

theorem exec_agentTimeout (hl : s.lastWindow id = some w) : exec (.agentTimeout id) s =
    .next (if s.isActive ∧ decide (w.toNat + 10 < s.curWindow) = true then
      (s.post 0x05 id (w.setWidth 128)).setFold (fun b => { b with trumpDue := addNew b.trumpDue id }) else s) := by
  change execAgentTimeout id s = _
  unfold execAgentTimeout
  rw [hl]
  rfl

theorem length_topEight (l : List (Nat × W16 × Nat)) : (topEight l).length ≤ 8 := by
  rw [topEight, List.length_map, List.length_take]
  exact Nat.min_le_left _ _

/-- The ports of a summary that a test of their records picks (R83). -/
theorem summary_has (s : State) (n : Nat) (f : W64 → Bool) :
    ((s.plannedPorts.map (fun x => (x, s.tenWindows x.1 x.2.1 n))).filter (fun x => x.2.any f)).length =
      (s.plannedPorts.filter (fun q => (s.tenWindows q.1 q.2.1 n).any f)).length := by
  rw [List.filter_map, List.length_map]
  rfl

end

/-- Settles O40: the records one after another, the newest window of an agent, and what a summary counts. -/
theorem telemetryEventsComplete : Obligations.TelemetryEventsComplete := by
  unfold Obligations.TelemetryEventsComplete
  intro s
  refine ⟨fun f w p n hc hseq hcrc hd hw hp hn h1 h5 h128 => ?records,
    fun id w ha hl hlate => ?silent, fun id w ha hl hlate => ?heard, fun w hw => ?summary⟩
  case records =>
    subst hw hp hn
    obtain ⟨hin, hout, hwin, -, -⟩ := State.storeRecords
      (s := s.setCong (fun c => { c with
        window := if newer (byteField f.pay 0 32) c.window then byteField f.pay 0 32 else c.window }))
      (id := f.src) (p := (byteField f.pay 4 8 : Byte).toNat) (w := byteField f.pay 0 32)
      (r := fun i => byteField f.pay (8 + 8 * i) 64) (byteField f.pay 5 8 : Byte).toNat rfl
    exact ⟨_, execCongestionRecord_good hc hseq hcrc hd h1 h5 h128, hwin, hin, hout⟩
  case silent =>
    rw [exec_agentTimeout hl]
    exact congrArg Host.Outcome.next (if_pos ⟨ha, decide_eq_true hlate⟩)
  case heard =>
    rw [exec_agentTimeout hl]
    exact congrArg Host.Outcome.next (if_neg fun h => Nat.not_lt.mpr hlate (of_decide_eq_true h.2))
  case summary =>
    subst hw
    exact ⟨_, _, rfl, rfl, SMap.get_insert_self noneOf s.fab.cong.sums _ _, rfl, summary_has s _ _, summary_has s _ _,
      summary_has s _ _, length_topEight _, length_topEight _⟩

end Sys2Proof.Machine
end

section
/-! PROOFS (01, 03). What sending leaves of the state, and what discovery keeps of the path book and the link book. -/

namespace Sys2Proof.Machine

/-! ## Sending (R63, R114, R143, R146, R194)

A command, a notice or an update that leaves the package changes only what counts and remembers it. -/

/-- What sends leave: the fabric unit, the coin-cell domain, and the package's place in the pod. -/
structure State.Sends (s t : State) : Prop where
  fab : t.fab = s.fab
  vbat : t.vbat = s.vbat
  role : t.dealers.role = s.dealers.role
  cepoch : t.dealers.cepoch = s.dealers.cepoch
  fepoch : t.dealers.fepoch = s.dealers.fepoch
  fenced : t.pair.fenced = s.pair.fenced
  coldWait : t.pair.coldWait = s.pair.coldWait

section
variable {s t u : State}

theorem State.Sends.rfl : s.Sends s := ⟨Eq.refl _, Eq.refl _, Eq.refl _, Eq.refl _, Eq.refl _, Eq.refl _, Eq.refl _⟩

theorem State.Sends.trans (h : s.Sends t) (k : t.Sends u) : s.Sends u where
  fab := k.fab.trans h.fab
  vbat := k.vbat.trans h.vbat
  role := k.role.trans h.role
  cepoch := k.cepoch.trans h.cepoch
  fepoch := k.fepoch.trans h.fepoch
  fenced := k.fenced.trans h.fenced
  coldWait := k.coldWait.trans h.coldWait

theorem State.Sends.ite {p : Prop} [Decidable p] (h : p → s.Sends t) (k : ¬ p → s.Sends u) :
    s.Sends (if p then t else u) := by
  split_ifs with hp
  · exact h hp
  · exact k hp

theorem State.Sends.foldl {α : Type} {f : State → α → State} (h : ∀ s x, State.Sends s (f s x)) (l : List α) (s : State) :
    s.Sends (l.foldl f s) := by
  induction l generalizing s with
  | nil => exact .rfl
  | cons x l ih => exact (h s x).trans (ih (f s x))

theorem State.sends_emit (s : State) (o : Out) : s.Sends (s.emit o) := ⟨rfl, rfl, rfl, rfl, rfl, rfl, rfl⟩

theorem State.sends_stream (s : State) (m : MirrorItem) : s.Sends (s.stream m) := ⟨rfl, rfl, rfl, rfl, rfl, rfl, rfl⟩

theorem State.sends_post (s : State) (c : Byte) (w : W16) (a : BitVec 128) : s.Sends (s.post c w a) :=
  ⟨rfl, rfl, rfl, rfl, rfl, rfl, rfl⟩

theorem State.sends_sendTo (s : State) (id : W16) (f : Flit) : s.Sends (s.sendTo id f) := by
  unfold State.sendTo
  split
  · exact s.sends_emit _
  · exact .rfl

theorem State.sends_sendPath (s : State) (path : List Byte) (k : CmdSpec) (q : W16) : s.Sends (s.sendPath path k q) := by
  cases path with
  | nil => exact .rfl
  | cons e _ => exact .ite (fun _ => .rfl) (fun _ => s.sends_emit _)

theorem State.sends_sendCmd (s : State) (id : W16) (c : CmdSpec) (p : Nat) (q : W16) (e : W32) :
    s.Sends (s.sendCmd id c p q e) := by
  unfold State.sendCmd
  split
  · exact s.sends_emit _
  · exact .rfl

theorem State.sends_bgSend (s : State) (t : Target) (c : CmdSpec) : s.Sends (s.bgSend t c) := by
  unfold State.bgSend
  refine State.Sends.trans (t := { s.nextSeq.2 with dealers := { s.nextSeq.2.dealers with bg := _ } })
    ⟨rfl, rfl, rfl, rfl, rfl, rfl, rfl⟩ (State.sends_sendCmd _ _ _ _ _ _)

theorem State.sends_devCmd (s : State) (id : W16) (c : CmdSpec) : s.Sends (s.devCmd id c) :=
  .ite (fun _ => .rfl) (fun _ => s.sends_bgSend _ _)

theorem State.sends_devTarget (s : State) (t : Target) : s.Sends (s.devTarget t) := by
  refine .ite (fun _ => .rfl) fun _ => .ite (fun _ => ⟨rfl, rfl, rfl, rfl, rfl, rfl, rfl⟩) fun _ => ?_
  split
  · exact .rfl
  · exact s.sends_bgSend _ _

theorem State.sends_streamPath (s : State) (id : W16) : s.Sends (s.streamPath id) := by
  unfold State.streamPath
  split
  · split
    · exact s.sends_stream _
    · exact .rfl
  · exact .rfl

end

/-! ## The path book and the link book (R38–R42, R46) -/

/-- What discovery keeps: the plan, the fabric epoch, every link with its ends and its cut, every agent's record with its
HELLO and, when strict, its quarantine. -/
structure State.KeepsBooks (strict : Bool) (s t : State) : Prop where
  plan : t.fab.plan = s.fab.plan
  fepoch : t.dealers.fepoch = s.dealers.fepoch
  links : ∀ l ∈ s.fab.links, ∃ m ∈ t.fab.links,
    (m.a = l.a ∧ m.ap = l.ap ∧ m.b = l.b ∧ m.bp = l.bp) ∧ (l.cut = true → m.cut = true)
  known : ∀ id k, s.known id = some k →
    ∃ j, t.known id = some j ∧ j.hello = k.hello ∧ (strict = true → k.quar = true → j.quar = true)

section
variable {b : Bool} {s t u : State}

theorem State.KeepsBooks.of_eq (hp : t.fab.plan = s.fab.plan) (he : t.dealers.fepoch = s.dealers.fepoch)
    (hl : t.fab.links = s.fab.links) (hk : t.fab.paths = s.fab.paths) : State.KeepsBooks b s t where
  plan := hp
  fepoch := he
  links := fun l h => ⟨l, hl ▸ h, ⟨rfl, rfl, rfl, rfl⟩, id⟩
  known := fun i k h => ⟨k, by rw [State.known, hk]; exact h, rfl, fun _ => id⟩

theorem State.Sends.keepsBooks (h : s.Sends t) : State.KeepsBooks b s t :=
  .of_eq (by rw [h.fab]) h.fepoch (by rw [h.fab]) (by rw [h.fab])

theorem State.KeepsBooks.rfl : State.KeepsBooks b s s := .of_eq (Eq.refl _) (Eq.refl _) (Eq.refl _) (Eq.refl _)

theorem State.KeepsBooks.trans (h : State.KeepsBooks b s t) (k : State.KeepsBooks b t u) : State.KeepsBooks b s u where
  plan := k.plan.trans h.plan
  fepoch := k.fepoch.trans h.fepoch
  links := fun l hl => by
    obtain ⟨m, hm, ⟨ha, hap, hb, hbp⟩, hc⟩ := h.links l hl
    obtain ⟨n, hn, ⟨ha', hap', hb', hbp'⟩, hc'⟩ := k.links m hm
    exact ⟨n, hn, ⟨ha'.trans ha, hap'.trans hap, hb'.trans hb, hbp'.trans hbp⟩, fun h => hc' (hc h)⟩
  known := fun id x hx => by
    obtain ⟨y, hy, hh, hq⟩ := h.known id x hx
    obtain ⟨z, hz, hh', hq'⟩ := k.known id y hy
    exact ⟨z, hz, hh'.trans hh, fun hb h => hq' hb (hq hb h)⟩

theorem State.KeepsBooks.ite {p : Prop} [Decidable p] (h : p → State.KeepsBooks b s t) (k : ¬ p → State.KeepsBooks b s u) :
    State.KeepsBooks b s (if p then t else u) := by
  split_ifs with hp
  · exact h hp
  · exact k hp

theorem State.KeepsBooks.foldl {α : Type} {f : State → α → State} (h : ∀ s x, State.KeepsBooks b s (f s x)) (l : List α)
    (s : State) : State.KeepsBooks b s (l.foldl f s) := by
  induction l generalizing s with
  | nil => exact .rfl
  | cons x l ih => exact (h s x).trans (ih (f s x))

theorem State.keepsBooks_setDisc (s : State) (f : Discovery → Discovery) : State.KeepsBooks b s (s.setDisc f) :=
  .of_eq rfl rfl rfl rfl

theorem State.keepsBooks_report1 (s : State) (id : W16) (p : Byte) : State.KeepsBooks b s (s.report1 id p) :=
  .of_eq rfl rfl rfl rfl

/-- A record's change that keeps its ID reads back where the record stood. -/
theorem State.known_modKnown (s : State) (id i : W16) {f : Known → Known} (hf : ∀ k, (f k).id = k.id) :
    (s.modKnown id f).known i = (s.known i).map (fun k => if k.id = id then f k else k) := by
  have hid : ∀ k : Known, (if k.id = id then f k else k).id = k.id := fun k => by
    split_ifs
    · exact hf k
    · rfl
  unfold State.known State.modKnown
  dsimp only
  rw [List.find?_map]
  congr 2
  funext k
  simp only [Function.comp, hid]

theorem State.keepsBooks_modKnown (s : State) (id : W16) {f : Known → Known} (hf : ∀ k, (f k).id = k.id)
    (hh : ∀ k, (f k).hello = k.hello) (hq : ∀ k, b = true → k.quar = true → (f k).quar = true) :
    State.KeepsBooks b s (s.modKnown id f) where
  plan := rfl
  fepoch := rfl
  links := fun l h => ⟨l, h, ⟨rfl, rfl, rfl, rfl⟩, fun hc => hc⟩
  known := fun i k h => by
    refine ⟨if k.id = id then f k else k, by rw [s.known_modKnown id i hf, h]; rfl, ?_⟩
    split_ifs
    · exact ⟨hh k, hq k⟩
    · exact ⟨rfl, fun _ h => h⟩

theorem State.keepsBooks_quarantine (s : State) (id : W16) : State.KeepsBooks b s (s.quarantine id) :=
  (s.keepsBooks_modKnown id (f := fun k => { k with quar := true }) (fun _ => rfl) (fun _ => rfl) (fun _ _ _ => rfl)).trans
    (State.sends_devCmd _ _ _).keepsBooks

/-- A quarantined agent's record says so. -/
theorem State.quarantine_known {id : W16} {k : Known} (h : s.known id = some k) :
    ∃ j, (s.quarantine id).known id = some j ∧ j.quar = true := by
  have hid : k.id = id := of_decide_eq_true (List.find?_some (p := fun k : Known => decide (k.id = id)) h)
  have hmod : (s.modKnown id (fun k => { k with quar := true })).known id = some { k with quar := true } := by
    rw [s.known_modKnown id id (f := fun k => { k with quar := true }) (fun _ => rfl), h]
    exact congrArg some (if_pos hid)
  refine ⟨{ k with quar := true }, ?_, rfl⟩
  unfold State.known at hmod ⊢
  rw [State.quarantine, (State.sends_devCmd _ _ _).fab]
  exact hmod

theorem State.keepsBooks_pathOnly (s : State) : State.KeepsBooks b s s.pathOnly :=
  .foldl (fun s id => (s.keepsBooks_modKnown id (f := fun k => { k with table := false }) (fun _ => rfl) (fun _ => rfl)
    (fun _ _ h => h)).trans (State.sends_streamPath _ id).keepsBooks) _ s

/-! ## Cuts (R46) -/

theorem State.pathOnly_links (s : State) : s.pathOnly.fab.links = s.fab.links := by
  unfold State.pathOnly
  generalize (s.fab.paths.filter (fun k => k.table && s.cutAway k.id)).map (·.id) = ids
  induction ids generalizing s with
  | nil => rfl
  | cons id ids ih =>
    have hlinks : ((s.modKnown id (fun k => { k with table := false })).streamPath id).fab.links = s.fab.links := by
      rw [(State.sends_streamPath _ id).fab]
      rfl
    exact (ih _).trans hlinks

/-- A cut marks the links that the test picks. -/
theorem State.cutLinks_links (s : State) (hit : LinkRec → Bool) :
    (s.cutLinks hit true).fab.links = s.fab.links.map (fun l => if hit l then { l with cut := true } else l) := by
  unfold State.cutLinks
  dsimp only
  rw [if_pos rfl, State.pathOnly_links, (State.Sends.foldl (fun s _ => s.sends_stream _) _ _).fab]

/-- Whether a link stands in the link book, as it is or cut. -/
def State.holdsLink (s : State) (l : LinkRec) : Prop := l ∈ s.fab.links ∨ { l with cut := true } ∈ s.fab.links

theorem State.cutLinks_holds {l : LinkRec} (hit : LinkRec → Bool) (h : s.holdsLink l) : (s.cutLinks hit true).holdsLink l := by
  unfold State.holdsLink at *
  rw [State.cutLinks_links]
  have hmap : ∀ m, m ∈ s.fab.links → (if hit m then { m with cut := true } else m) ∈
      s.fab.links.map (fun l => if hit l then { l with cut := true } else l) := fun m hm => List.mem_map_of_mem hm
  rcases h with h | h
  · have hm := hmap l h
    split_ifs at hm
    · exact Or.inr hm
    · exact Or.inl hm
  · have hm := hmap _ h
    split_ifs at hm <;> exact Or.inr hm

theorem State.keepsBooks_cutLinks (s : State) (hit : LinkRec → Bool) : State.KeepsBooks b s (s.cutLinks hit true) where
  plan := by
    unfold State.cutLinks
    exact (State.keepsBooks_pathOnly (b := b) _).plan.trans (by rw [(State.Sends.foldl (fun s _ => s.sends_stream _) _ _).fab])
  fepoch := by
    unfold State.cutLinks
    exact (State.keepsBooks_pathOnly (b := b) _).fepoch.trans (State.Sends.foldl (fun s _ => s.sends_stream _) _ _).fepoch
  links := fun l hl => by
    rw [State.cutLinks_links]
    refine ⟨_, List.mem_map_of_mem hl, ?_⟩
    split_ifs
    · exact ⟨⟨rfl, rfl, rfl, rfl⟩, fun _ => rfl⟩
    · exact ⟨⟨rfl, rfl, rfl, rfl⟩, id⟩
  known := fun i k hk => by
    unfold State.cutLinks
    refine (State.keepsBooks_pathOnly (b := b) _).known i k ?_
    unfold State.known at hk ⊢
    rw [(State.Sends.foldl (fun s _ => s.sends_stream _) _ _).fab]
    exact hk

theorem State.keepsBooks_enterLink (s : State) (l : LinkRec) : State.KeepsBooks b s (s.enterLink l) := by
  have hadd : State.KeepsBooks b s { s with fab := { s.fab with links := s.fab.links ++ [l] } } :=
    ⟨rfl, rfl, fun m hm => ⟨m, List.mem_append_left _ hm, ⟨rfl, rfl, rfl, rfl⟩, id⟩, fun i k h => ⟨k, h, rfl, fun _ h => h⟩⟩
  unfold State.enterLink
  have hstream := hadd.trans (State.sends_stream _ (.link l.a l.ap l.b l.bp)).keepsBooks
  exact .ite (fun _ => hstream.trans (State.sends_stream _ _).keepsBooks) fun _ => hstream

/-- Before a cut the restores that wait are applied as cuts (R49). -/
def State.cutRestores (s : State) : State :=
  if s.fab.cutPend then s else s.fab.restores.foldl (fun s d => s.cutLinks (s.linkHit d) true) s

theorem State.cutOut_eq (s : State) (hit : LinkRec → Bool) : s.cutOut hit =
    ({ s.cutRestores with fab := { s.cutRestores.fab with cutPend := true } } : State).cutLinks hit true := rfl

theorem State.keepsBooks_cutOut (s : State) (hit : LinkRec → Bool) : State.KeepsBooks b s (s.cutOut hit) := by
  have hr : State.KeepsBooks b s s.cutRestores :=
    .ite (fun _ => .rfl) fun _ => .foldl (fun s d => s.keepsBooks_cutLinks (s.linkHit d)) _ s
  have hp : State.KeepsBooks b s.cutRestores ({ s.cutRestores with fab := { s.cutRestores.fab with cutPend := true } } : State) :=
    .of_eq rfl rfl rfl rfl
  rw [State.cutOut_eq]
  exact (hr.trans hp).trans (State.keepsBooks_cutLinks _ hit)

theorem State.cutRestores_holds {l : LinkRec} (h : l ∈ s.fab.links) : s.cutRestores.holdsLink l := by
  have hfold : ∀ (ds : List Desc) (s : State), s.holdsLink l →
      (ds.foldl (fun s d => s.cutLinks (s.linkHit d) true) s).holdsLink l := by
    intro ds
    induction ds with
    | nil => exact fun _ h => h
    | cons d ds ih => exact fun s h => ih _ (State.cutLinks_holds _ h)
  unfold State.cutRestores
  split_ifs
  · exact Or.inl h
  · exact hfold _ _ (Or.inl h)

/-- A link that a cut picks is cut after it. -/
theorem State.cutOut_cut {hit : LinkRec → Bool} {l : LinkRec} (h : l ∈ s.fab.links) (hh : hit l = true) :
    { l with cut := true } ∈ (s.cutOut hit).fab.links := by
  rw [State.cutOut_eq, State.cutLinks_links]
  refine List.mem_map.mpr ?_
  rcases State.cutRestores_holds h with hm | hm
  · exact ⟨l, hm, if_pos hh⟩
  · refine ⟨_, hm, ?_⟩
    split_ifs <;> rfl

/-- The orders of a cut to the ports at a link's end. -/
def State.cutEnd (s : State) (e : W16 × Nat) : State :=
  if e.1 = s.myId then s.modSub e.2 (fun q => { q with cut := true })
  else s.devSteps e.1 [.read (0x100 + 16 * e.2) 1, .portWrite (0x100 + 16 * e.2) 2 true]

theorem State.keepsBooks_cutEnd (s : State) (e : W16 × Nat) : State.KeepsBooks b s (s.cutEnd e) :=
  .ite (fun _ => .of_eq rfl rfl rfl rfl) fun _ => (State.sends_devTarget _ _).keepsBooks

/-- The links that a test picks and that are not cut yet. -/
def State.toCut (s : State) (hit : LinkRec → Bool) : List LinkRec := (s.fab.links.filter (fun l => !l.cut)).filter hit

theorem State.cutWhere_eq (s : State) (hit : LinkRec → Bool) : s.cutWhere hit =
    ((s.toCut hit).flatMap (fun l => [(l.a, l.ap), (l.b, l.bp)])).foldl State.cutEnd
      (if s.toCut hit = [] then s else s.cutOut (fun l => !l.cut && hit l)) := rfl

theorem State.keepsBooks_cutWhere (s : State) (hit : LinkRec → Bool) : State.KeepsBooks b s (s.cutWhere hit) := by
  rw [State.cutWhere_eq]
  exact State.KeepsBooks.trans (.ite (fun _ => .rfl) fun _ => s.keepsBooks_cutOut _)
    (.foldl (fun s e => s.keepsBooks_cutEnd e) _ _)

/-- A link that the test picks is out of service after the cut. -/
theorem State.cutWhere_cut {hit : LinkRec → Bool} {l : LinkRec} (h : l ∈ s.fab.links) (hh : hit l = true) :
    ∃ m ∈ (s.cutWhere hit).fab.links, (m.a = l.a ∧ m.ap = l.ap ∧ m.b = l.b ∧ m.bp = l.bp) ∧ m.cut = true := by
  by_cases hc : l.cut = true
  · obtain ⟨m, hm, hends, hcut⟩ := (s.keepsBooks_cutWhere (b := false) hit).links l h
    exact ⟨m, hm, hends, hcut hc⟩
  · have hfalse : l.cut = false := Bool.eq_false_iff.mpr hc
    have hsel : (!l.cut && hit l) = true := by rw [hfalse, hh]; rfl
    have hmem : l ∈ s.toCut hit :=
      List.mem_filter.mpr ⟨List.mem_filter.mpr ⟨h, by rw [hfalse]; rfl⟩, hh⟩
    have hne : ¬ s.toCut hit = [] := List.ne_nil_of_mem hmem
    rw [State.cutWhere_eq, if_neg hne]
    obtain ⟨m, hm, hends, hcut⟩ := (State.KeepsBooks.foldl (b := false) (fun s e => State.keepsBooks_cutEnd s e)
      ((s.toCut hit).flatMap (fun l => [(l.a, l.ap), (l.b, l.bp)])) (s.cutOut (fun l => !l.cut && hit l))).links _
      (State.cutOut_cut h hsel)
    exact ⟨m, hm, hends, hcut rfl⟩

end

end Sys2Proof.Machine
end

section
/-! PROOFS (01, 13). Discovery: probes, passes, HELLOs and the comparison; the end of the cold-start wait. -/

namespace Sys2Proof.Machine

/-! ## Probes and passes (R37, R39, R41) -/

/-- What probes leave: all of the fabric unit but the list of open probes, whose new entries have made n tries, and the
package's place in the pod. -/
structure State.Probes (n : Nat) (s t : State) : Prop where
  fab : t.fab = { s.fab with disc := { s.fab.disc with probes := t.fab.disc.probes } }
  old : ∀ x ∈ s.fab.disc.probes, x ∈ t.fab.disc.probes
  new : ∀ x ∈ t.fab.disc.probes, x ∈ s.fab.disc.probes ∨ x.tries = n
  vbat : t.vbat = s.vbat
  role : t.dealers.role = s.dealers.role
  cepoch : t.dealers.cepoch = s.dealers.cepoch
  fepoch : t.dealers.fepoch = s.dealers.fepoch
  coldWait : t.pair.coldWait = s.pair.coldWait

section
variable {n : Nat} {b : Bool} {s t u : State}

theorem State.Probes.rfl : State.Probes n s s :=
  ⟨Eq.refl _, fun _ h => h, fun _ h => Or.inl h, Eq.refl _, Eq.refl _, Eq.refl _, Eq.refl _, Eq.refl _⟩

theorem State.Probes.trans (h : State.Probes n s t) (k : State.Probes n t u) : State.Probes n s u where
  fab := by rw [k.fab, h.fab]
  old := fun x hx => k.old x (h.old x hx)
  new := fun x hx => (k.new x hx).elim (h.new x) Or.inr
  vbat := k.vbat.trans h.vbat
  role := k.role.trans h.role
  cepoch := k.cepoch.trans h.cepoch
  fepoch := k.fepoch.trans h.fepoch
  coldWait := k.coldWait.trans h.coldWait

theorem State.Probes.keepsBooks (h : State.Probes n s t) : State.KeepsBooks b s t :=
  .of_eq (by rw [h.fab]) h.fepoch (by rw [h.fab]) (by rw [h.fab])

/-- The state in which a probe's command leaves: the probe is open. -/
def State.probeOpen (s : State) (path : List Byte) (n : Nat) : State :=
  s.nextSeq.2.setDisc (fun d => { d with probes := d.probes ++ [{ path := path, seq := s.dealers.seq, tries := n }] })

theorem State.probe_eq (s : State) (path : List Byte) (n : Nat) : s.probe path n =
    if path = [] ∨ 16 < path.length ∨ s.fab.disc.probes.any (fun x => x.path = path) then s
    else (s.probeOpen path n).sendPath path (agCmd 0x01 0) s.dealers.seq := rfl

theorem State.probes_probe (s : State) (path : List Byte) (n : Nat) : State.Probes n s (s.probe path n) := by
  rw [State.probe_eq]
  split_ifs
  · exact .rfl
  · have hs := State.sends_sendPath (s.probeOpen path n) path (agCmd 0x01 0) s.dealers.seq
    have hprobes : ((s.probeOpen path n).sendPath path (agCmd 0x01 0) s.dealers.seq).fab.disc.probes =
        s.fab.disc.probes ++ [{ path := path, seq := s.dealers.seq, tries := n }] := by rw [hs.fab]; rfl
    refine ⟨by rw [hs.fab]; rfl, fun x hx => ?_, fun x hx => ?_, hs.vbat, hs.role, hs.cepoch, hs.fepoch, hs.coldWait⟩
    · rw [hprobes]
      exact List.mem_append_left _ hx
    · rw [hprobes] at hx
      refine (List.mem_append.mp hx).imp id fun h => ?_
      rw [List.mem_singleton.mp h]

/-- A path of 1 to 16 ports has an open probe after its probe. -/
theorem State.probe_open {path : List Byte} (h0 : path ≠ []) (h16 : path.length ≤ 16) :
    ∃ x ∈ (s.probe path n).fab.disc.probes, x.path = path := by
  rw [State.probe_eq]
  split_ifs with h
  · rcases h with h | h | h
    · exact absurd h h0
    · omega
    · obtain ⟨x, hx, hp⟩ := List.any_eq_true.mp h
      exact ⟨x, hx, of_decide_eq_true hp⟩
  · refine ⟨{ path := path, seq := s.dealers.seq, tries := n }, ?_, rfl⟩
    rw [(State.sends_sendPath _ _ _ _).fab]
    exact List.mem_append_right _ (List.mem_singleton.mpr rfl)

theorem State.probes_foldl {α : Type} (f : α → List Byte) (l : List α) (s : State) :
    State.Probes n s (l.foldl (fun s x => s.probe (f x) n) s) := by
  induction l generalizing s with
  | nil => exact .rfl
  | cons x l ih => exact (s.probes_probe (f x) n).trans (ih _)

theorem State.probe_foldl_open {α : Type} {f : α → List Byte} {l : List α} {x : α} (hx : x ∈ l) (h0 : f x ≠ [])
    (h16 : (f x).length ≤ 16) :
    ∃ y ∈ (l.foldl (fun s x => s.probe (f x) n) s).fab.disc.probes, y.path = f x := by
  induction l generalizing s with
  | nil => exact absurd hx List.not_mem_nil
  | cons z l ih =>
    rcases List.mem_cons.mp hx with rfl | hx
    · obtain ⟨y, hy, hp⟩ := State.probe_open (s := s) (n := n) h0 h16
      exact ⟨y, (State.probes_foldl f l _).old y hy, hp⟩
    · exact ih hx

/-- A plan that waits takes effect with the pass (R32). -/
def State.takePlan (s : State) : State :=
  match s.fab.nextPlan with
  | some p => { s with fab := { s.fab with plan := some p, nextPlan := none } }
  | none => s

/-- A port of the package that can be probed. -/
def State.livePort (s : State) (p : Nat) : Bool := (s.sub p).trained && (s.sub p).up

/-- The state from which a pass probes the package's ports. -/
def State.passOpen (s : State) : State :=
  s.takePlan.setDisc (fun d =>
    { active := true, cold := s.fab.gens.all (fun g => g.2.isNone), darkMs := d.darkMs, darkAt := d.darkAt
      dark := (((List.range 80).filter (fun p => s.subEnabled p)).filter (fun p => !s.livePort p)).map
        (fun p => [BitVec.ofNat 8 p]) })

theorem State.discover_starts (ha : s.isActive = true) (hd : s.fab.disc.active = false) : s.discover =
    (((List.range 80).filter (fun p => s.subEnabled p)).filter s.livePort).foldl
      (fun s p => s.probe [BitVec.ofNat 8 p] 0) s.passOpen := by
  unfold State.discover State.passOpen State.takePlan
  rw [if_neg (not_or.mpr ⟨not_not.mpr ha, ne_true_of_eq_false hd⟩)]
  cases s.fab.nextPlan <;> rfl

theorem State.takePlan_rest (s : State) : s.takePlan.vbat = s.vbat ∧ s.takePlan.dealers = s.dealers ∧
    s.takePlan.pair = s.pair ∧ s.takePlan.fab.frame = s.fab.frame := by
  unfold State.takePlan
  cases s.fab.nextPlan <;> exact ⟨rfl, rfl, rfl, rfl⟩

/-- Discovery leaves the package's place in the pod and the frame number. -/
theorem State.discover_rest (s : State) : s.discover.vbat = s.vbat ∧ s.discover.dealers.role = s.dealers.role ∧
    s.discover.dealers.cepoch = s.dealers.cepoch ∧ s.discover.pair.coldWait = s.pair.coldWait ∧
    s.discover.fab.frame = s.fab.frame := by
  by_cases h : s.isActive = true ∧ s.fab.disc.active = false
  · obtain ⟨hv, hdl, hp, hf⟩ := s.takePlan_rest
    have hprobes := State.probes_foldl (n := 0) (fun p : Nat => [BitVec.ofNat 8 p])
      (((List.range 80).filter (fun p => s.subEnabled p)).filter s.livePort) s.passOpen
    rw [State.discover_starts h.1 h.2]
    refine ⟨hprobes.vbat.trans hv, hprobes.role.trans ?_, hprobes.cepoch.trans ?_, hprobes.coldWait.trans ?_, ?_⟩
    · exact congrArg (·.role) hdl
    · exact congrArg (·.cepoch) hdl
    · exact congrArg (·.coldWait) hp
    · rw [hprobes.fab]
      exact hf
  · have hskip : ¬ s.isActive = true ∨ s.fab.disc.active = true := by
      by_cases ha : s.isActive = true
      · exact Or.inr (Bool.of_not_eq_false fun hd => h ⟨ha, hd⟩)
      · exact Or.inl ha
    rw [State.discover, if_pos hskip]
    exact ⟨rfl, rfl, rfl, rfl, rfl⟩

/-- The active package runs a pass after it started discovery. -/
theorem State.discover_active (ha : s.isActive = true) : s.discover.fab.disc.active = true := by
  by_cases hd : s.fab.disc.active = true
  · rw [State.discover, if_pos (Or.inr hd)]
    exact hd
  · rw [State.discover_starts ha (Bool.eq_false_iff.mpr hd), (State.probes_foldl _ _ _).fab]
    rfl

/-- What a pass starts with (R32, R39, R41, R42). -/
theorem exec_discoveryStart (ha : s.isActive = true) (hd : s.fab.disc.active = false) :
    ∃ t : State, exec .discoveryStart s = .next t ∧
      t.fab.disc.active = true ∧ t.fab.disc.cold = s.fab.gens.all (fun g => g.2.isNone) ∧ t.fab.disc.found = [] ∧
      t.fab.plan = (match s.fab.nextPlan with | some p => some p | none => s.fab.plan) ∧
      (∀ p < 80, s.subEnabled p = true → (s.sub p).trained = true → (s.sub p).up = true →
        ∃ x ∈ t.fab.disc.probes, x.path = [BitVec.ofNat 8 p] ∧ x.tries = 0) ∧
      (∀ p < 80, s.subEnabled p = true → ((s.sub p).trained = false ∨ (s.sub p).up = false) →
        [BitVec.ofNat 8 p] ∈ t.fab.disc.dark) := by
  have hprobes := State.probes_foldl (n := 0) (fun p : Nat => [BitVec.ofNat 8 p])
    (((List.range 80).filter (fun p => s.subEnabled p)).filter s.livePort) s.passOpen
  refine ⟨_, congrArg Host.Outcome.next (State.discover_starts ha hd), by rw [hprobes.fab]; rfl, by rw [hprobes.fab]; rfl,
    by rw [hprobes.fab]; rfl, ?_, fun p hp he ht hu => ?_, fun p hp he hnot => ?_⟩
  · rw [hprobes.fab]
    unfold State.passOpen State.takePlan
    cases s.fab.nextPlan <;> rfl
  · have hlive : p ∈ ((List.range 80).filter (fun p => s.subEnabled p)).filter s.livePort := by
      refine List.mem_filter.mpr ⟨List.mem_filter.mpr ⟨List.mem_range.mpr hp, he⟩, ?_⟩
      rw [State.livePort, ht, hu]
      rfl
    obtain ⟨x, hx, hpath⟩ := State.probe_foldl_open (n := 0) (s := s.passOpen) (f := fun p : Nat => [BitVec.ofNat 8 p])
      hlive (List.cons_ne_nil _ _) (by rw [List.length_singleton]; omega)
    exact ⟨x, hx, hpath, (hprobes.new x hx).elim (fun h => absurd h List.not_mem_nil) id⟩
  · rw [hprobes.fab]
    refine List.mem_map.mpr ⟨p, List.mem_filter.mpr ⟨List.mem_filter.mpr ⟨List.mem_range.mpr hp, he⟩, ?_⟩, rfl⟩
    rcases hnot with h | h <;> simp [State.livePort, h]

/-- What a dark-port pass starts with (R41). -/
theorem exec_darkPortPass (ha : s.isActive = true) (hd : s.fab.disc.active = false)
    (hp : s.fab.disc.darkAt + 1000 * s.fab.disc.darkMs ≤ s.us) :
    ∃ t : State, exec .darkPortPass s = .next t ∧ t.fab.disc.active = true ∧ t.fab.disc.darkAt = s.us ∧
      (∀ p ∈ s.fab.disc.dark, p ≠ [] → p.length ≤ 16 → ∃ x ∈ t.fab.disc.probes, x.path = p) := by
  have hrun : ¬(¬ s.isActive = true ∨ s.fab.disc.active = true ∨ s.us < s.fab.disc.darkAt + 1000 * s.fab.disc.darkMs) := by
    rintro (h | h | h)
    · exact h ha
    · exact Bool.false_ne_true (hd.symm.trans h)
    · omega
  have hprobes : State.Probes 0 (s.setDisc (fun d => { d with
      active := true, fresh := [], spread := [], far := [], darkAt := s.us })) s.darkPass :=
    State.probes_foldl (fun p : List Byte => p) s.fab.disc.dark _
  exact ⟨_, congrArg Host.Outcome.next (if_neg hrun), by rw [hprobes.fab]; rfl, by rw [hprobes.fab]; rfl,
    fun p hp h0 h16 => State.probe_foldl_open (f := fun p : List Byte => p) hp h0 h16⟩

end

/-! ## Taking the pod (R193, R451) -/

section
variable {s : State} {epoch : W16}

/-- The package governs the pod, before it told anyone. -/
def State.podTaken (s : State) (epoch : W16) : State :=
  ({ s with
    dealers := { s.dealers with cepoch := epoch, role := true, change := { s.dealers.change with owner := none } }
    vbat := { s.vbat with cepoch := epoch } } : State).setPair (fun p =>
      { p with fenced := false, renewed := false, acked := false, coldWait := false, solo := if p.solo = .cmd then .cmd else .frame })

theorem State.sends_redirect (s : State) (id : W16) : s.Sends (s.redirect id) := by
  unfold State.redirect
  dsimp only
  split
  · exact (s.sends_devCmd _ _).trans (State.sends_devCmd _ _ _)
  · exact s.sends_devCmd _ _

theorem State.sends_catchStamp (s : State) (k : W32) (ids : List W16) : s.Sends (s.catchStamp k ids) :=
  State.Sends.trans (t := s.setSettle _) ⟨rfl, rfl, rfl, rfl, rfl, rfl, rfl⟩
    (.foldl (fun s a => s.sends_sendTo a (s.callFlit a k)) ids _)

theorem State.sends_catchUp (s : State) : s.Sends s.catchUp :=
  (State.Sends.trans (s := s) (t := s.setSettle (fun z => { z with
    open_ := [], cur := { stamp := s.led.settle.settledNo + 3 } })) ⟨rfl, rfl, rfl, rfl, rfl, rfl, rfl⟩
    (State.sends_catchStamp _ (s.led.settle.settledNo + 1) s.boundAgents)).trans
    (State.sends_catchStamp _ (s.led.settle.settledNo + 2) s.boundAgents)

theorem State.sends_takePod (s : State) (epoch : W16) (c : Byte) : (s.podTaken epoch).Sends (s.takePod epoch c) := by
  have hredirect := State.Sends.foldl (fun s id => State.sends_redirect s id) (s.fab.paths.map (·.id)) (s.podTaken epoch)
  exact ((hredirect.trans (State.sends_post _ _ _ _)).trans (State.sends_post _ _ _ _)).trans (State.sends_catchUp _)

end

/-! ## HELLO (R38–R41) -/

section
variable {b : Bool} {s : State}

/-- A HELLO's record stands in the path book under its ID. -/
theorem State.learn_known (s : State) (h : Payload) (path : List Byte) :
    ∃ k, (s.learn h path).known (helloId h) = some k ∧ k.hello = helloKey h := by
  have hread : ∀ ks : List Known, ({ s with fab := { s.fab with paths := ks } } : State).known (helloId h) =
    ks.find? (fun k => decide (k.id = helloId h)) := fun _ => rfl
  cases hk : s.known (helloId h) with
  | some k =>
    have hid : k.id = helloId h := of_decide_eq_true (List.find?_some (p := fun k : Known => decide (k.id = helloId h)) hk)
    have hmod := s.known_modKnown (helloId h) (helloId h)
      (f := fun k => { k with hello := helloKey h, paths := addPath k.paths path }) (fun _ => rfl)
    rw [hk] at hmod
    refine ⟨{ k with hello := helloKey h, paths := addPath k.paths path }, ?_, rfl⟩
    refine Eq.trans ?_ (hmod.trans (congrArg some (if_pos hid)))
    unfold State.learn
    dsimp only
    rw [show s.known (byteField h 0 16) = some k from hk]
    rfl
  | none =>
    refine ⟨{ id := helloId h, hello := helloKey h, paths := [path], quar := true }, ?_, rfl⟩
    unfold State.learn
    dsimp only
    rw [show s.known (byteField h 0 16) = none from hk]
    refine (hread _).trans ?_
    rw [List.find?_append, show s.fab.paths.find? (fun k => decide (k.id = helloId h)) = none from hk]
    simp [helloId]

theorem State.keepsBooks_unfoldPart (s : State) (id : W16) (p : Fin 16) : State.KeepsBooks b s (s.unfoldPart id p) :=
  .ite (fun _ => State.KeepsBooks.trans (t := s.modFoldPart id p (fun _ => {})) (.of_eq rfl rfl rfl rfl)
    (State.sends_stream _ _).keepsBooks) fun _ => .of_eq rfl rfl rfl rfl

theorem State.keepsBooks_unfoldAcc (s : State) (id : W16) : State.KeepsBooks b s (s.unfoldAcc id) :=
  .ite (fun _ => .rfl) fun _ => State.KeepsBooks.trans (t := s.modFoldAcc id (fun _ => {})) (.of_eq rfl rfl rfl rfl)
    (State.sends_stream _ _).keepsBooks

theorem State.keepsBooks_powerReturn (s : State) (id : W16) : State.KeepsBooks b s (s.powerReturn id) :=
  ((State.KeepsBooks.foldl (fun s p => s.keepsBooks_unfoldPart id p) _ s).trans (State.keepsBooks_unfoldAcc _ id)).trans
    (State.keepsBooks_modKnown _ id (f := fun k => { k with bound := none }) (fun _ => rfl) (fun _ => rfl) fun _ _ h => h)

theorem State.relearn_known (s : State) (h : Payload) (path : List Byte) :
    ∃ k, (s.relearn h path).known (helloId h) = some k ∧ k.hello = helloKey h := by
  obtain ⟨k, hk, hello⟩ := s.learn_known h path
  have hrest : State.KeepsBooks false (s.learn h path) (s.relearn h path) := by
    unfold State.relearn
    dsimp only
    have hq : State.KeepsBooks false (s.learn h path) (((s.learn h path).setDisc (fun d => { d with
        quarantine := addNew d.quarantine (helloId h) })).quarantine (helloId h)) :=
      (State.keepsBooks_setDisc _ _).trans (State.keepsBooks_quarantine _ _)
    exact .ite (fun _ => (State.KeepsBooks.ite (fun _ => hq) fun _ => .rfl).trans (State.keepsBooks_powerReturn _ _))
      fun _ => .ite (fun _ => hq) fun _ => .rfl
  obtain ⟨j, hj, hh, -⟩ := hrest.known _ k hk
  exact ⟨j, hj, hh.trans hello⟩

theorem State.keepsBooks_writeClass (s : State) (id : W16) (p c : Nat) : State.KeepsBooks b s (s.writeClass id p c) :=
  .ite (fun _ => .of_eq rfl rfl rfl rfl) fun _ => (State.sends_devCmd _ _ _).keepsBooks

theorem State.keepsBooks_addLink (s : State) (a : W16) (ap : Nat) (c : W16) (cp : Nat) :
    State.KeepsBooks b s (s.addLink a ap c cp) := by
  unfold State.addLink
  dsimp only
  have henter : ∀ l : LinkRec, State.KeepsBooks b s (if s.fab.links.any (fun x => decide (x.a = l.a) && decide (x.ap = l.ap) &&
      decide (x.b = l.b) && decide (x.bp = l.bp)) then s else s.enterLink l) :=
    fun l => .ite (fun _ => .rfl) fun _ => s.keepsBooks_enterLink l
  split
  · exact .ite (fun _ => ((henter _).trans (State.keepsBooks_writeClass _ _ _ _)).trans (State.keepsBooks_writeClass _ _ _ _))
      fun _ => henter _
  · exact henter _

theorem State.keepsBooks_spread (s : State) (h : Payload) (path : List Byte) : State.KeepsBooks b s (s.spread h path) := by
  unfold State.spread
  dsimp only
  generalize hfar : s.setDisc _ = t
  have ht : State.KeepsBooks b s t := hfar ▸ s.keepsBooks_setDisc _
  refine .ite (fun _ => ht) fun _ => (ht.trans ?_).trans (State.keepsBooks_setDisc _ _)
  exact (State.probes_foldl (n := 0) (fun p : Nat => path ++ [BitVec.ofNat 8 p]) _ _).keepsBooks

theorem State.keepsBooks_setGen (s : State) (id g : W16) : State.KeepsBooks b s (s.setGen id g) := .of_eq rfl rfl rfl rfl

/-- An examination keeps the books; one that is forced clears no quarantine. -/
theorem State.keepsBooks_examine (s : State) (id : W16) {force : Bool} (hf : b = true → force = true) :
    State.KeepsBooks b s (s.examine id force) := by
  unfold State.examine
  split
  · exact .rfl
  next k _ =>
    refine (State.KeepsBooks.trans ?_ (State.keepsBooks_setGen _ _ _)).trans (State.sends_stream _ _).keepsBooks
    have hreport : State.KeepsBooks b s (if s.planBad k.hello || idBad k.hello then s.report1 id 0xFF else s) :=
      .ite (fun _ => s.keepsBooks_report1 id 0xFF) fun _ => .rfl
    refine .ite (fun _ => hreport.trans (State.keepsBooks_quarantine _ _)) fun hgood => hreport.trans ?_
    refine State.keepsBooks_modKnown _ id (f := fun k => { k with quar := (helloState _).getLsbD 2 }) (fun _ => rfl)
      (fun _ => rfl) fun _ hb _ => ?_
    exact absurd (by rw [hf hb]; rfl) hgood

end

end Sys2Proof.Machine
end

section
/-! PROOFS (01, 13). The comparison that ends a pass, and the statement of discovery's events. -/

namespace Sys2Proof.Machine

/-! ## The comparison (R40, R42) -/

section
variable {b : Bool} {s t : State}

theorem State.passStart_fepoch (s : State) : s.passStart.dealers.fepoch =
    if s.fab.disc.cold then newestEpoch s.hellos + 1 else s.dealers.fepoch := by
  unfold State.passStart
  dsimp only
  split_ifs
  · rfl
  · exact (State.KeepsBooks.foldl (b := false) (fun s c => s.keepsBooks_cutWhere (s.linkHit c)) _ s).fepoch

/-- The start of the comparison keeps the books; on a cold start it sets the fabric epoch. -/
theorem State.keepsBooks_passStart (s : State) : State.KeepsBooks b
    { s with dealers := { s.dealers with fepoch := s.passStart.dealers.fepoch } } s.passStart := by
  have hcuts := State.KeepsBooks.foldl (b := b) (fun s c => s.keepsBooks_cutWhere (s.linkHit c)) s.fab.disc.cuts s
  unfold State.passStart
  dsimp only
  split_ifs
  · exact ⟨hcuts.plan, rfl, hcuts.links, hcuts.known⟩
  · exact ⟨hcuts.plan, rfl, hcuts.links, hcuts.known⟩

theorem State.keepsBooks_darkLinks (s : State) : State.KeepsBooks b s s.darkLinks := by
  unfold State.darkLinks
  split
  · exact .rfl
  · exact (State.KeepsBooks.foldl (fun s l => s.keepsBooks_enterLink l) _ s).trans (State.keepsBooks_cutWhere _ _)

/-- The links that the plan does not name, and those over their reach, with their reports and their cuts. -/
def State.wrongCut (s : State) : State :=
  (((s.fab.links.filter (fun l => !s.planned l)) ++ s.fab.links.filter s.overReach).foldl
    (fun s l => (s.report1 l.a (BitVec.ofNat 8 l.ap)).report1 l.b (BitVec.ofNat 8 l.bp)) s).cutWhere
      (fun l => (s.fab.links.filter (fun l => !s.planned l)).contains l || (s.fab.links.filter s.overReach).contains l)

/-- Marks the links of a list as over their reach. -/
def State.markReach (s : State) (far : List LinkRec) : State :=
  { s with fab := { s.fab with links := s.fab.links.map (fun (l : LinkRec) =>
      if far.any (fun x => decide (x.a = l.a) && decide (x.ap = l.ap)) then { l with reach := true } else l) } }

theorem State.cutWrong_eq (s : State) : s.cutWrong = s.wrongCut.markReach (s.fab.links.filter s.overReach) := rfl

theorem State.keepsBooks_markReach (s : State) (far : List LinkRec) : State.KeepsBooks b s (s.markReach far) where
  plan := rfl
  fepoch := rfl
  links := fun l hl => by
    refine ⟨_, List.mem_map_of_mem hl, ?_⟩
    split_ifs
    · exact ⟨⟨rfl, rfl, rfl, rfl⟩, id⟩
    · exact ⟨⟨rfl, rfl, rfl, rfl⟩, id⟩
  known := fun i k h => ⟨k, h, rfl, fun _ h => h⟩

theorem State.keepsBooks_report2 (s : State) (l : LinkRec) :
    State.KeepsBooks b s ((s.report1 l.a (BitVec.ofNat 8 l.ap)).report1 l.b (BitVec.ofNat 8 l.bp)) := .of_eq rfl rfl rfl rfl

theorem State.keepsBooks_cutWrong (s : State) : State.KeepsBooks b s s.cutWrong := by
  rw [State.cutWrong_eq]
  exact ((State.KeepsBooks.foldl (fun s l => s.keepsBooks_report2 l) _ s).trans (State.keepsBooks_cutWhere _ _)).trans
    (State.keepsBooks_markReach _ _)

theorem State.report2_links (ls : List LinkRec) (s : State) : (ls.foldl
    (fun s l => (s.report1 l.a (BitVec.ofNat 8 l.ap)).report1 l.b (BitVec.ofNat 8 l.bp)) s).fab.links = s.fab.links := by
  induction ls generalizing s with
  | nil => rfl
  | cons l ls ih => exact ih _

/-- A link that the plan does not bear out is out of service after the comparison (R40). -/
theorem State.cutWrong_cut {l : LinkRec} (hl : l ∈ s.fab.links) (hp : s.planned l = false) :
    ∃ m ∈ s.cutWrong.fab.links, (m.a = l.a ∧ m.ap = l.ap ∧ m.b = l.b ∧ m.bp = l.bp) ∧ m.cut = true := by
  have hwrong : l ∈ s.fab.links.filter (fun l => !s.planned l) := List.mem_filter.mpr ⟨hl, by rw [hp]; rfl⟩
  have hhit : ((s.fab.links.filter (fun l => !s.planned l)).contains l || (s.fab.links.filter s.overReach).contains l) = true := by
    rw [List.contains_iff_mem.mpr hwrong]
    rfl
  obtain ⟨m, hm, ⟨ha, hap, hb, hbp⟩, hc⟩ := State.cutWhere_cut
    (s := ((s.fab.links.filter (fun l => !s.planned l)) ++ s.fab.links.filter s.overReach).foldl
      (fun s l => (s.report1 l.a (BitVec.ofNat 8 l.ap)).report1 l.b (BitVec.ofNat 8 l.bp)) s)
    (hit := fun l => (s.fab.links.filter (fun l => !s.planned l)).contains l || (s.fab.links.filter s.overReach).contains l)
    (l := l) (by rw [State.report2_links]; exact hl) hhit
  obtain ⟨n, hn, ⟨ha', hap', hb', hbp'⟩, hc'⟩ :=
    (State.keepsBooks_markReach (b := false) s.wrongCut (s.fab.links.filter s.overReach)).links m hm
  exact ⟨n, hn, ⟨ha'.trans ha, hap'.trans hap, hb'.trans hb, hbp'.trans hbp⟩, hc' hc⟩

/-- What the plan says of a link depends on its ends alone. -/
theorem State.planned_congr {l m : LinkRec} (hp : t.fab.plan = s.fab.plan)
    (hm : m.a = l.a ∧ m.ap = l.ap ∧ m.b = l.b ∧ m.bp = l.bp) : t.planned m = s.planned l := by
  obtain ⟨ha, hap, hb, hbp⟩ := hm
  unfold State.planned State.planLink
  rw [hp, ha, hap, hb, hbp]

theorem State.keepsBooks_reportFar (s : State) : State.KeepsBooks b s s.reportFar :=
  .foldl (fun s (x : W16 × Nat) => s.keepsBooks_report1 x.1 (BitVec.ofNat 8 x.2)) _ s

theorem State.keepsBooks_examineAll (s : State) (found : List W16) {cold : Bool} (hc : b = true → cold = true) :
    State.KeepsBooks b s (s.examineAll found cold) :=
  (State.KeepsBooks.foldl (fun s id => s.keepsBooks_report1 id 0xFF) _ s).trans
    (.foldl (fun s id => s.keepsBooks_examine id fun hb => by rw [hc hb]; rfl) found _)

theorem State.keepsBooks_giveParent (s : State) : State.KeepsBooks b s s.giveParent := by
  unfold State.giveParent
  split
  · exact (s.sends_stream _).keepsBooks
  · exact .rfl

/-- A forced examination quarantines an agent that the path book knows (R42). -/
theorem State.examine_forced {id : W16} {k : Known} (h : s.known id = some k) :
    ∃ j, (s.examine id true).known id = some j ∧ j.quar = true := by
  unfold State.examine
  rw [h]
  have hreport : ∀ c : Bool, ∃ k', (if c then s.report1 id 0xFF else s).known id = some k' := fun c => by
    cases c <;> exact ⟨k, h⟩
  obtain ⟨k', hk'⟩ := hreport (s.planBad k.hello || idBad k.hello)
  obtain ⟨j, hj, hq⟩ := State.quarantine_known hk'
  have hrest := ((State.keepsBooks_setGen (b := true)
    (State.quarantine (if s.planBad k.hello || idBad k.hello then s.report1 id 0xFF else s) id) id (helloTgen k.hello))).trans
    (State.sends_stream _ (.generation id (helloTgen k.hello))).keepsBooks
  obtain ⟨i, hi, -, hiq⟩ := hrest.known id j hj
  exact ⟨i, hi, hiq rfl hq⟩

/-- On a cold start every agent found that the path book knows is quarantined (R42). -/
theorem State.examineAll_cold {found : List W16} {id : W16} {k : Known} (hid : id ∈ found) (hk : s.known id = some k) :
    ∃ j, (s.examineAll found true).known id = some j ∧ j.quar = true := by
  have hfold : ∀ (l : List W16) (s : State) (k : Known), id ∈ l → s.known id = some k →
      ∃ j, (l.foldl (fun s id => s.examine id true) s).known id = some j ∧ j.quar = true := by
    intro l
    induction l with
    | nil => exact fun _ _ h => absurd h List.not_mem_nil
    | cons x l ih =>
      intro s k hx hk
      rcases List.mem_cons.mp hx with rfl | hx
      · obtain ⟨j, hj, hq⟩ := State.examine_forced hk
        obtain ⟨i, hi, -, hiq⟩ := (State.KeepsBooks.foldl (b := true)
          (fun s id => s.keepsBooks_examine id fun _ => rfl) l (s.examine id true)).known id j hj
        exact ⟨i, hi, hiq rfl hq⟩
      · obtain ⟨j, hj, -, -⟩ := (s.keepsBooks_examine (b := true) x fun _ => rfl).known id k hk
        exact ih _ j hx hj
  obtain ⟨j, hj, -, -⟩ := (State.KeepsBooks.foldl (b := true) (fun s id => s.keepsBooks_report1 id 0xFF)
    s.beyondLimit s).known id k hk
  exact hfold found _ j hid hj

/-- The comparison up to the examination of the agents. -/
def State.linksCompared (s : State) : State := s.passStart.darkLinks.cutMissing.cutWrong.reportFar

theorem State.keepsBooks_toCutWrong (s : State) : State.KeepsBooks b
    { s with dealers := { s.dealers with fepoch := s.passStart.dealers.fepoch } } s.passStart.darkLinks.cutMissing :=
  ((s.keepsBooks_passStart.trans (State.keepsBooks_darkLinks _)).trans (State.keepsBooks_cutWhere _ _))

theorem State.keepsBooks_linksCompared (s : State) : State.KeepsBooks b
    { s with dealers := { s.dealers with fepoch := s.passStart.dealers.fepoch } } s.linksCompared :=
  (s.keepsBooks_toCutWrong.trans (State.keepsBooks_cutWrong _)).trans (State.keepsBooks_reportFar _)

theorem State.linksCompared_cut {l : LinkRec} (hl : l ∈ s.fab.links) (hp : s.planned l = false) :
    ∃ m ∈ s.linksCompared.fab.links, (m.a = l.a ∧ m.ap = l.ap ∧ m.b = l.b ∧ m.bp = l.bp) ∧ m.cut = true := by
  have hbooks := State.keepsBooks_toCutWrong (b := false) s
  unfold State.linksCompared
  generalize s.passStart.darkLinks.cutMissing = t at hbooks ⊢
  obtain ⟨m, hm, hends, -⟩ := hbooks.links l hl
  have hpm : t.planned m = false := (State.planned_congr (s := s) hbooks.plan hends).trans hp
  obtain ⟨ha, hap, hb, hbp⟩ := hends
  obtain ⟨n, hn, ⟨ha', hap', hb', hbp'⟩, hc⟩ := State.cutWrong_cut hm hpm
  obtain ⟨q, hq, ⟨ha'', hap'', hb'', hbp''⟩, hc'⟩ := (State.keepsBooks_reportFar (b := false) t.cutWrong).links n hn
  exact ⟨q, hq, ⟨ha''.trans (ha'.trans ha), hap''.trans (hap'.trans hap), hb''.trans (hb'.trans hb),
    hbp''.trans (hbp'.trans hbp)⟩, hc' hc⟩

/-- The state in which a pass has ended. -/
def State.passEnd (s : State) (us : Nat) : State :=
  s.setDisc (fun x => { x with
    active := false, cold := false, cuts := [], quarantine := [], fresh := [], spread := [], far := [], darkAt := us })

theorem State.giveParent_fab (s : State) : s.giveParent.fab = s.fab := by
  unfold State.giveParent
  split
  · exact (s.sends_stream _).fab
  · rfl

/-- The state that the comparison leaves. -/
def State.compared (s : State) : State :=
  ((s.linksCompared.examineAll s.fab.disc.fresh s.fab.disc.cold).passEnd s.us).giveParent

theorem exec_discoveryCompare (ha : s.isActive = true) (hd : s.fab.disc.active = true) (hp : s.fab.disc.probes = [])
    (hu : s.fab.disc.untrained = []) : exec .discoveryCompare s = .next s.compared := by
  refine congrArg Host.Outcome.next (if_neg ?_)
  rintro (h | h | h | h)
  · exact h hd
  · exact h hp
  · exact h hu
  · exact h ha

/-- From the examination of the agents on, the comparison keeps the books. -/
theorem State.keepsBooks_compared (s : State) (hb : b = true → s.fab.disc.cold = true) :
    State.KeepsBooks b s.linksCompared s.compared :=
  ((State.keepsBooks_examineAll _ _ hb).trans (State.keepsBooks_setDisc _ _)).trans (State.keepsBooks_giveParent _)

theorem State.compared_fepoch (s : State) : s.compared.dealers.fepoch =
    if s.fab.disc.cold then newestEpoch s.hellos + 1 else s.dealers.fepoch :=
  ((s.keepsBooks_compared (b := false) fun h => absurd h Bool.false_ne_true).fepoch.trans
    (s.keepsBooks_linksCompared (b := false)).fepoch).trans s.passStart_fepoch

theorem State.compared_cut {l : LinkRec} (hl : l ∈ s.fab.links) (hp : s.planned l = false) :
    ∃ m ∈ s.compared.fab.links, m.a = l.a ∧ m.ap = l.ap ∧ m.b = l.b ∧ m.bp = l.bp ∧ m.cut = true := by
  obtain ⟨m, hm, ⟨ha, hap, hb, hbp⟩, hc⟩ := State.linksCompared_cut hl hp
  obtain ⟨n, hn, ⟨ha', hap', hb', hbp'⟩, hc'⟩ :=
    (s.keepsBooks_compared (b := false) fun h => absurd h Bool.false_ne_true).links m hm
  exact ⟨n, hn, ha'.trans ha, hap'.trans hap, hb'.trans hb, hbp'.trans hbp, hc' hc⟩

theorem State.compared_quarantines {id : W16} {k : Known} (hc : s.fab.disc.cold = true) (hid : id ∈ s.fab.disc.fresh)
    (hk : s.known id = some k) : ∃ j, s.compared.known id = some j ∧ j.quar = true := by
  obtain ⟨k', hk', -, -⟩ := (s.keepsBooks_linksCompared (b := true)).known id k hk
  obtain ⟨j, hj, hq⟩ := State.examineAll_cold hid hk'
  have hend : State.KeepsBooks true (s.linksCompared.examineAll s.fab.disc.fresh true) s.compared := by
    unfold State.compared
    rw [hc]
    exact (State.keepsBooks_setDisc _ _).trans (State.keepsBooks_giveParent _)
  obtain ⟨i, hi, -, hiq⟩ := hend.known id j hj
  exact ⟨i, hi, hiq rfl hq⟩

end

/-! ## HELLO, retries, the cold-start wait -/

section
variable {s t u : State} {f : Flit} {x : ProbeRec}

/-- A HELLO's probe is closed before what it teaches is taken (R38, R39). -/
def State.helloTaken (s : State) (x : ProbeRec) : State :=
  s.setDisc (fun d => { d with
    probes := d.probes.filter (fun y => decide (y ≠ x)), dark := d.dark.filter (fun y => decide (y ≠ x.path)),
    untrained := d.untrained.filter (fun y => decide (some y ≠ s.untrainedAt x.path)) })

/-- An agent that a HELLO names is found in the pass. -/
def State.foundIn (s : State) (id : W16) : State :=
  s.setDisc (fun d => { d with found := addNew d.found id, fresh := addNew d.fresh id })

/-- What follows a HELLO: in a pass its agent joins the wave, outside one it is examined. -/
def State.helloEnd (s : State) (h : Payload) (path : List Byte) : State :=
  if s.fab.disc.active then
    (if (s.foundIn (helloId h)).toSpread (helloId h) path.length then (s.foundIn (helloId h)).spread h path
     else s.foundIn (helloId h))
  else s.examine (helloId h) false

theorem exec_hello (hc : f.cls = 5) (hcrc : f.crc = f.crcOf) (hd : f.dest = s.myId) (ha : s.isActive = true)
    (hx : s.fab.disc.probes.find? (fun x => x.seq = f.seq) = some x) (hid : helloId f.pay ≠ 0xFFFF) :
    exec (.hello f) s = .next (((s.helloTaken x).onHello f.pay x.path).helloEnd f.pay x.path) := by
  have hgood : ¬(f.cls ≠ 5 ∨ f.crc ≠ f.crcOf ∨ f.dest ≠ s.myId ∨ ¬ s.isActive = true) := by
    rintro (h | h | h | h)
    · exact h hc
    · exact h hcrc
    · exact h hd
    · exact h ha
  change execHello f s = _
  unfold execHello
  rw [if_neg hgood, hx]
  exact congrArg Host.Outcome.next (if_neg hid)

theorem State.keepsBooks_helloEnd (s : State) (h : Payload) (path : List Byte) :
    State.KeepsBooks false s (s.helloEnd h path) :=
  .ite (fun _ => .ite (fun _ => (s.keepsBooks_setDisc _).trans (State.keepsBooks_spread _ _ _)) fun _ => s.keepsBooks_setDisc _)
    fun _ => s.keepsBooks_examine _ fun h => absurd h Bool.false_ne_true

/-- A HELLO that is no duplicate stands in the path book. -/
theorem State.onHello_known {h : Payload} {path : List Byte} {e : Byte} {prev : W16} (hp : path.getLast? = some e)
    (hn : s.nodeAt path.dropLast = some prev) (hid : helloId h ≠ 0xFFFF) (hdup : s.isDuplicate h prev e.toNat = false) :
    ∃ k, (s.onHello h path).known (helloId h) = some k ∧ k.hello = helloKey h := by
  obtain ⟨k, hk, hello⟩ := s.relearn_known h path
  obtain ⟨j, hj, hh, -⟩ := (State.keepsBooks_addLink (b := false) (s.relearn h path) prev e.toNat (helloId h)
    (helloArrival h)).known _ k hk
  refine ⟨j, ?_, hh.trans hello⟩
  unfold State.onHello
  rw [hp, hn]
  dsimp only
  rw [if_neg hid, if_neg (ne_true_of_eq_false hdup)]
  exact hj

/-- A probe that got no HELLO is repeated twice; then its port is dark (R39). -/
theorem exec_probeRetry {i : Nat} (hx : s.fab.disc.probes[i]? = some x) :
    (x.tries < 2 → exec (.probeRetry i) s = .next ((s.setDisc (fun d => { d with
      probes := d.probes.map (fun y => if y = x then { y with tries := y.tries + 1 } else y) })).sendPath x.path
        (agCmd 0x01 0) x.seq)) ∧
    (x.tries = 2 → exec (.probeRetry i) s = .next (s.setDisc (fun d => { d with
      probes := d.probes.eraseIdx i, dark := addNew d.dark x.path }))) := by
  refine ⟨fun h => ?_, fun h => ?_⟩
  all_goals
    change execProbeRetry i s = _
    unfold execProbeRetry
    rw [hx]
    refine congrArg Host.Outcome.next ((if_neg (by omega)).trans ?_)
  · exact if_pos h
  · exact if_neg (by omega)

theorem exec_untrainedReprobe {id : W16} {p : Nat} {v : W16 × Nat × Nat} {path : List Byte}
    (hv : s.fab.disc.untrained.find? (fun u => decide (u.1 = id) && decide (u.2.1 = p)) = some v)
    (hp : s.pathFor id = some path) (hn : v.2.2 < 10) : exec (.untrainedReprobe id p) s =
      .next ((s.setDisc (fun d => { d with
        untrained := d.untrained.map (fun y => if y = v then (v.1, v.2.1, v.2.2 + 1) else y) })).probe
          (path ++ [BitVec.ofNat 8 p]) 3) := by
  change execUntrainedReprobe id p s = _
  unfold execUntrainedReprobe
  rw [hv, hp]
  exact congrArg Host.Outcome.next (if_neg (Nat.not_le.mpr hn))

/-- A package that hears no RENEW takes the pod and starts discovery (R451). -/
theorem exec_coldStartWaitExpire (hw : s.pair.coldWait = true) (hh : s.vbat.held = false) (hr : s.dealers.role = false) :
    ∃ t : State, exec .coldStartWaitExpire s = .next t ∧ t.dealers.role = true ∧ t.dealers.cepoch = s.vbat.cepoch + 1 ∧
      t.vbat.cepoch = s.vbat.cepoch + 1 ∧ t.fab.frame = 0 ∧ t.pair.coldWait = false ∧ t.fab.disc.active = true := by
  have hpod := State.sends_takePod s (s.vbat.cepoch + 1) 3
  have hact : ({ s.takePod (s.vbat.cepoch + 1) 3 with
      fab := { (s.takePod (s.vbat.cepoch + 1) 3).fab with frame := 0 } } : State).isActive = true := by
    unfold State.isActive
    dsimp only
    rw [hpod.role, hpod.fenced, hpod.vbat]
    simp [State.podTaken, State.setPair, hh]
  obtain ⟨hvbat, hrole, hcepoch, hcold, hframe⟩ := State.discover_rest ({ s.takePod (s.vbat.cepoch + 1) 3 with
    fab := { (s.takePod (s.vbat.cepoch + 1) 3).fab with frame := 0 } } : State)
  refine ⟨_, congrArg Host.Outcome.next (if_pos ⟨hw, ne_true_of_eq_false hh, ne_true_of_eq_false hr⟩), hrole.trans hpod.role,
    hcepoch.trans hpod.cepoch, ?_, hframe, hcold.trans hpod.coldWait, State.discover_active hact⟩
  rw [hvbat]
  exact congrArg (·.cepoch) hpod.vbat

end

/-- Settles O41: passes by what their probes leave, HELLO and the comparison by what they keep of the books. -/
theorem discoveryEventsComplete : Obligations.DiscoveryEventsComplete := by
  unfold Obligations.DiscoveryEventsComplete
  intro s
  refine ⟨exec_discoveryStart, fun f x t u hc hcrc hd ha hx hid ht hu => ?hello,
    fun f x e prev hc hcrc hd ha hx hid he hn hdup => ?learns, fun i x hx => exec_probeRetry hx,
    fun id p u path hu hp hn => exec_untrainedReprobe hu hp hn, fun ha hd hp hu => ?compare, exec_darkPortPass,
    exec_coldStartWaitExpire⟩
  case hello =>
    subst ht hu
    refine ⟨fun h => ?_, fun h hs => ?_, fun h hs => ?_⟩
    all_goals refine (exec_hello hc hcrc hd ha hx hid).trans (congrArg Host.Outcome.next ?_)
    · exact if_neg (ne_true_of_eq_false h)
    · exact (if_pos h).trans (if_neg (ne_true_of_eq_false hs))
    · exact (if_pos h).trans (if_pos hs)
  case learns =>
    obtain ⟨k, hk, hello⟩ := State.onHello_known (s := s.helloTaken x) he hn hid hdup
    obtain ⟨j, hj, hh, -⟩ := (State.keepsBooks_helloEnd _ f.pay x.path).known _ k hk
    exact ⟨_, j, exec_hello hc hcrc hd ha hx hid, hj, hh.trans hello⟩
  case compare =>
    refine ⟨s.compared, exec_discoveryCompare ha hd hp hu, ?_, ?_, ?_, ?_, ?_, s.compared_fepoch,
      fun l hl hpl => State.compared_cut hl hpl, fun hc id hid k hk => State.compared_quarantines hc hid hk⟩
    all_goals
      rw [State.compared, State.giveParent_fab]
      rfl

end Sys2Proof.Machine
end

section
/-! PROOFS (12). The Assayer, the depot's allocations, and the coin-cell domain. -/

namespace Sys2Proof.Machine

/-! ## The Assayer (R405–R414, R420, R424, R430) -/

section
variable {s t : State}

/-- The chain that sets the operator root, when none stands or PROV_UNLOCK is open (R412). -/
theorem exec_setCertificate {cert : List Byte} {u : State} (h : s.vbat.rootSet = false ∨ s.asy.unlock = true)
    (ht : t = s.spdmAnswer cert)
    (hu : u = t.setVbat (fun v => { v with rootSet := true, rootHash := sha384 (Config.rootOf cert) })) :
    exec (.setCertificate cert) s = .next (if Config.chainOk cert = true then
      ((u.setAsy (fun a => { a with rootChain := cert, unlock := false })).bumpMono 1).extend 8 (Config.rootOf cert) else t) := by
  subst ht hu
  by_cases hc : Config.chainOk cert = true
  · rw [if_pos hc]
    exact congrArg Host.Outcome.next (if_pos ⟨hc, h.imp ne_true_of_eq_false id⟩)
  · rw [if_neg hc]
    exact congrArg Host.Outcome.next (if_neg fun hk => hc hk.1)

/-- A lost session whose instruction has ended leaves its mailbox alone. -/
theorem exec_spdmSessionTimeout_ended {k : Fin 64} {x : SpdmSess} (hx : s.spdm k = some x) (ht : t = s.setSpdm k none)
    (hl : (t.ctx x.ctx).long = none) : exec (.spdmSessionTimeout k) s = .next t.attestWake := by
  subst ht
  change execSpdmSessionTimeout k s = _
  unfold execSpdmSessionTimeout
  rw [hx]
  dsimp only
  rw [hl]

/-- The instruction of a lost session runs to its limit. -/
theorem exec_spdmSessionTimeout_open {k : Fin 64} {x : SpdmSess} {r : Running} (hx : s.spdm k = some x)
    (ht : t = s.setSpdm k none) (hl : (t.ctx x.ctx).long = some r) (hr : uOp r.word = 0x70 ∧ r.phase = 1 ∧ r.arg = k.val) :
    exec (.spdmSessionTimeout k) s = .next (t.putRun x.ctx { r with phase := 2 }).attestWake := by
  subst ht
  change execSpdmSessionTimeout k s = _
  unfold execSpdmSessionTimeout
  rw [hx]
  dsimp only
  rw [hl]
  exact congrArg Host.Outcome.next (if_pos hr)

theorem State.wSetGen_member (hh : s.vbat.held = false) (hv : s.vbat.setValid = false)
    (hm : s.setMembers.contains Config.identityHash = true) (ht : t = { s with fresh := s.fresh + 1 }) :
    s.wSetGen =
      some (((t.setVbat (fun v => { v with setKey := Config.random 256 s.fresh, setValid := true })).bumpMono 2).vlogFree 5) := by
  subst ht
  refine if_neg ?_
  rintro (h | h | h)
  · exact Bool.false_ne_true (hh.symm.trans h)
  · exact Bool.false_ne_true (hv.symm.trans h)
  · exact h hm

theorem State.wXferAllow_member {v : W32} (hh : s.vbat.held = false) (h1 : 1 ≤ v.toNat) (h8 : v.toNat ≤ 8)
    (hc : v.toNat ≤ s.vbat.setCount.toNat) : s.wXferAllow v = some (s.setAsy (fun a => { a with
      allow := a.allow.filter (fun x => decide (x.1 ≠ v.toNat - 1)) ++ [(v.toNat - 1, s.us)] })) := by
  refine if_neg ?_
  rintro (h | h | h)
  · exact Bool.false_ne_true (hh.symm.trans h)
  · exact h (inRange_of_le h1 h8)
  · omega

end

/-- Settles O43: each command by the branch its hypotheses pick, the owner's writes by what their registers accept. -/
theorem assayerCommandsComplete : Obligations.AssayerCommandsComplete := by
  unfold Obligations.AssayerCommandsComplete
  intro s
  exact ⟨fun req => rfl, fun cert t u h ht hu => exec_setCertificate h ht hu, rfl, rfl, fun id off hoff => by subst hoff; rfl,
    fun k x hx hl => exec_spdmSessionTimeout_ended hx rfl hl,
    fun k x r t hx ht hl ho hp ha => exec_spdmSessionTimeout_open hx ht hl ⟨ho, hp, ha⟩,
    fun h => ⟨fun key id count ms => congrArg Host.Outcome.next (if_neg (not_not.mpr h)),
      congrArg Host.Outcome.next (if_neg (not_not.mpr h)), congrArg Host.Outcome.next (if_neg (not_not.mpr h)),
      congrArg Host.Outcome.next (if_neg (not_not.mpr h))⟩,
    fun n hown => ⟨fun h => congrArg Host.Outcome.next (State.ownerWrite_some hown (if_pos h)),
      fun h => congrArg Host.Outcome.next (State.ownerWrite_some hown (if_pos h)),
      congrArg Host.Outcome.next (State.ownerWrite_some hown rfl),
      fun t hh hv hm ht => congrArg Host.Outcome.next (State.ownerWrite_some hown (State.wSetGen_member hh hv hm ht)),
      fun v hh h1 h8 hc => congrArg Host.Outcome.next (State.ownerWrite_some hown (State.wXferAllow_member hh h1 h8 hc)),
      fun v hv => congrArg Host.Outcome.next (State.ownerWrite_some hown (if_neg (Nat.not_lt.mpr hv)))⟩⟩

/-! ## Depot allocations (R422) -/

section
variable {s : State} {i : Nat} {a : Alloc} {v : W32}

theorem State.wGrant_free (ha : s.alloc i = a) (h0 : a.st = 0) (hs : a.size ≠ 0) (hin : s.inDepot a.addr a.len = true)
    (hr : s.retiringAt a.addr a.len = false) (hm : s.allocMeets i a.addr a.len = false) :
    s.wGrant i = some (s.scrubAlloc i 1) := by
  subst ha
  refine if_neg ?_
  rintro (h | h | h | h | h)
  · exact h h0
  · exact hs h
  · exact h hin
  · exact Bool.false_ne_true (hr.symm.trans h)
  · exact Bool.false_ne_true (hm.symm.trans h)

theorem State.wRelease_idle (ha : s.alloc i = a) (h1 : a.st = 1) (hb : s.rangeBusy a.addr a.len = false) :
    s.wRelease i = some (s.scrubAlloc i 0) := by
  subst ha
  exact if_neg (not_or.mpr ⟨not_not.mpr h1, ne_true_of_eq_false hb⟩)

theorem State.wAllocTenant_free (ha : s.alloc i = a) (hv : v.toNat ≤ 0xFFFF) (h0 : a.st = 0) :
    s.wAllocTenant i v = some (s.modAlloc i (fun x => { x with tenant := v.setWidth 16 })) := by
  subst ha
  refine (if_neg ?_).trans (if_pos (Or.inl h0))
  rw [h0]
  rintro (h | h)
  · omega
  · exact absurd h (by decide)

theorem State.wAllocTenant_granted (ha : s.alloc i = a) (hv : v.toNat ≤ 0xFFFF) (h1 : a.st = 1)
    (ht : a.tenant ≠ v.setWidth 16) (hb : s.rangeBusy a.addr a.len = false) : s.wAllocTenant i v =
      some ((s.modAlloc i (fun x => { x with tenant := v.setWidth 16 })).scrubAlloc i 1) := by
  subst ha
  have h0 : ¬(s.alloc i).st = 0 := by rw [h1]; decide
  refine (if_neg ?_).trans ((if_neg (not_or.mpr ⟨h0, ht⟩)).trans (if_neg (ne_true_of_eq_false hb)))
  rw [h1]
  rintro (h | h)
  · omega
  · exact absurd h (by decide)

end

/-- Settles O44: the owner's writes by what the entry's state lets them do, and the scrub at the head of the queue. -/
theorem depotAllocationCommandsComplete : Obligations.DepotAllocationCommandsComplete := by
  unfold Obligations.DepotAllocationCommandsComplete
  intro s
  refine ⟨fun n i a hown ha =>
    ⟨fun h0 hs hin hr hm => congrArg Host.Outcome.next (State.ownerWrite_some hown (State.wGrant_free ha h0 hs hin hr hm)),
      fun h1 hb => congrArg Host.Outcome.next (State.ownerWrite_some hown (State.wRelease_idle ha h1 hb)),
      fun v hv h0 => congrArg Host.Outcome.next (State.ownerWrite_some hown (State.wAllocTenant_free ha hv h0)),
      fun v hv h1 ht hb => congrArg Host.Outcome.next (State.ownerWrite_some hown (State.wAllocTenant_granted ha hv h1 ht hb))⟩,
    fun x xs i st t hx he hc ht => ?scrubbed⟩
  case scrubbed =>
    subst ht
    change execDepotScrubDone s = _
    unfold execDepotScrubDone
    rw [hx]
    dsimp only
    rw [he]
    dsimp only
    unfold State.endDepotScrub
    rw [hc]

/-! ## The coin-cell domain (R425–R431) -/

theorem bitsAt_held_causes : ∀ c : BitVec 5, c.getLsbD 3 = false → c.getLsbD 4 = false → bitsAt c 3 2 = (0 : BitVec 2) := by
  decide

/-- Settles O45: alarms by where they come, the owner's writes by what their registers accept. -/
theorem coinCellCommandsComplete : Obligations.CoinCellCommandsComplete := by
  unfold Obligations.CoinCellCommandsComplete
  intro s
  refine ⟨fun h => ⟨?cell, ?main⟩, rfl, rfl, fun t ht => by subst ht; rfl, fun n hown =>
    ⟨fun v => congrArg Host.Outcome.next (State.ownerWrite_some hown rfl),
      fun v hv => congrArg Host.Outcome.next (State.ownerWrite_some hown (if_pos hv)), fun hv h3 h4 => ?clear⟩⟩
  case cell => exact congrArg Host.Outcome.next ((if_neg (not_not.mpr h)).trans (if_pos rfl))
  case main => exact congrArg Host.Outcome.next ((if_neg (not_not.mpr h)).trans (if_neg Bool.false_ne_true))
  case clear =>
    exact congrArg Host.Outcome.next (State.ownerWrite_some hown (if_pos ⟨hv, bitsAt_held_causes _ h3 h4⟩))

end Sys2Proof.Machine
end

section
/-! PROOFS (13). Resets, block resets, and the phases of bring-up. -/

namespace Sys2Proof.Machine

/-! ## Resets (R432–R437) -/

section
variable {s t : State}

/-- The active dealer's watchdog starts its takeover once the dealers have booted (R434, R436). -/
theorem exec_dealerWatchdog_active {b : Bool} (ht : t = s.causeBit (if b then 5 else 4))
    (he : s.plat.bring.ended.getLsbD 3 = true) (hb : b = s.dealers.active) :
    exec (.dealerWatchdog b) s = .next t.startTakeover := by
  subst ht
  exact congrArg Host.Outcome.next ((if_neg (not_not.mpr he)).trans (if_pos hb))

theorem exec_dealerWatchdog_standby {b : Bool} (ht : t = s.causeBit (if b then 5 else 4))
    (he : s.plat.bring.ended.getLsbD 3 = true) (hb : b ≠ s.dealers.active) (hn : s.dealers.takeover = .none) :
    exec (.dealerWatchdog b) s = .next t.resetStandby := by
  subst ht
  exact congrArg Host.Outcome.next ((if_neg (not_not.mpr he)).trans ((if_neg hb).trans (if_pos hn)))

/-- RST_REQ's key is taken when no other bit is set (R437). -/
theorem State.wRstReq_keyed {v : W32} (hv : within v 0x7FFFF = true) (hk : bitsAt v 0 16 = (0xA5C3 : W16)) :
    s.wRstReq v = match (bitsAt v 16 3 : BitVec 3).toNat with
      | 1 => some (s.pkgReset 8 true)
      | 2 => if s.dealers.standby then some (s.causeBit 8).resetStandby else none
      | 3 => if s.dealers.standby then some ((s.causeBit 8).setAsy (fun a => { a with mirror := {}, mirrorOk := false })) else none
      | _ => none :=
  if_neg (not_or.mpr ⟨not_not.mpr hv, not_not.mpr hk⟩)

end

/-- Settles O46: each source by its branch, RST_REQ by its key and its scope. -/
theorem resetEventsComplete : Obligations.ResetEventsComplete := by
  unfold Obligations.ResetEventsComplete
  intro s
  refine ⟨fun h => congrArg Host.Outcome.next (if_neg (ne_true_of_eq_false h)), rfl, rfl, rfl, rfl, rfl,
    fun e hr ho => ?peer, fun b => rfl, fun b t ht he => ⟨fun hb => exec_dealerWatchdog_active ht he hb,
      fun hb hn => exec_dealerWatchdog_standby ht he hb hn⟩, fun n hown => ⟨?package, fun hs => ⟨?dealer, ?assayer⟩⟩,
    fun d => ⟨rfl, rfl⟩⟩
  case peer =>
    exact congrArg Host.Outcome.next (if_neg (not_or.mpr ⟨ne_true_of_eq_false hr, ne_true_of_eq_false ho⟩))
  case package =>
    exact congrArg Host.Outcome.next (State.ownerWrite_some hown (State.wRstReq_keyed (by decide) (by decide)))
  case dealer =>
    exact congrArg Host.Outcome.next (State.ownerWrite_some hown
      ((State.wRstReq_keyed (by decide) (by decide)).trans (if_pos hs)))
  case assayer =>
    exact congrArg Host.Outcome.next (State.ownerWrite_some hown
      ((State.wRstReq_keyed (by decide) (by decide)).trans (if_pos hs)))

/-! ## Block resets (R438) -/

section
variable {s : State} {n k d : Nat} {v : W32}

/-- What BLK_KIND's word names. -/
theorem blkWord_fields (t : Byte) (kind : BitVec 3) : bitsAt (fldW t 0 ||| fldW kind 8) 0 8 = t ∧
    bitsAt (fldW t 0 ||| fldW kind 8) 8 3 = kind ∧ within (fldW t 0 ||| fldW kind 8) 0x7FF = true := by
  have hbit : ∀ i, (fldW t 0 ||| fldW kind 8).getLsbD i =
      ((decide (i < 32) && t.getLsbD i) || (decide (i < 32) && decide (8 ≤ i) && kind.getLsbD (i - 8))) := fun i => by
    rw [BitVec.getLsbD_or, getLsbD_fldW, getLsbD_fldW, decide_eq_true (Nat.zero_le i), Bool.and_true, Nat.sub_zero]
  have hmask : ∀ i < 32, (~~~(0x7FF : W32)).getLsbD i = decide (11 ≤ i) := by decide
  refine ⟨BitVec.eq_of_getLsbD_eq fun i hi => ?_, BitVec.eq_of_getLsbD_eq fun i hi => ?_,
    decide_eq_true (BitVec.eq_of_getLsbD_eq fun i hi => ?_)⟩
  · have h8 : ¬ 8 ≤ i := by omega
    rw [bitsAt, BitVec.getLsbD_extractLsb', Nat.zero_add, hbit]
    simp [hi, h8, show i < 32 by omega]
  · have ht : t.getLsbD (8 + i) = false := BitVec.getLsbD_of_ge _ _ (by omega)
    rw [bitsAt, BitVec.getLsbD_extractLsb', hbit, ht]
    simp [hi, show 8 + i < 32 by omega]
  · rw [BitVec.getLsbD_and, hbit, hmask i hi]
    by_cases h : 11 ≤ i
    · rw [BitVec.getLsbD_of_ge t i (by omega), BitVec.getLsbD_of_ge kind (i - 8) (by omega)]
      simp
    · simp [h]

theorem State.wBlock_named {t : Byte} {kind : BitVec 3} (hv : v = fldW t 0 ||| fldW kind 8)
    (he : s.blkExists kind.toNat t.toNat = true) : s.wBlock n v =
      some (if s.blkIdle kind.toNat t.toNat then s.blkStart kind.toNat t.toNat else s.blkRefuse n) := by
  obtain ⟨ht, hk, hw⟩ := blkWord_fields t kind
  subst hv
  unfold State.wBlock
  dsimp only
  rw [ht, hk, if_neg (not_or.mpr ⟨not_not.mpr hw, not_not.mpr he⟩)]
  split_ifs <;> rfl

/-- The only block reset that runs ends (R438). -/
theorem exec_blockResetDone {ok : Byte} {old : Nat} {t : State} (hb : s.plat.rst.blk = [(k, d, old)])
    (ht : t = s.setRst (fun r => { r with blk := [], blkState := if ok = 0 then 3 else 2 })) :
    exec (.blockResetDone ok) s = .next (if k = 1 then (t.blkDieEnd d old ok).stWake else t) := by
  subst ht
  change execBlockResetDone ok s = _
  unfold execBlockResetDone
  rw [hb]
  rfl

end

/-- Settles O47: an idle block's reset and a busy one's, and the end of the one that runs. -/
theorem blockResetCommandsComplete : Obligations.BlockResetCommandsComplete := by
  unfold Obligations.BlockResetCommandsComplete
  intro s
  exact ⟨fun n kind t v hown hv he =>
    ⟨fun hi => congrArg Host.Outcome.next (State.ownerWrite_some hown
        ((State.wBlock_named hv he).trans (congrArg some (if_pos hi)))),
      fun hi => congrArg Host.Outcome.next (State.ownerWrite_some hown
        ((State.wBlock_named hv he).trans (congrArg some (if_neg (ne_true_of_eq_false hi)))))⟩,
    fun ok k d old t hb ht =>
      ⟨fun hk => (exec_blockResetDone hb ht).trans (congrArg Host.Outcome.next (if_pos hk)),
        fun hk => (exec_blockResetDone hb ht).trans (congrArg Host.Outcome.next (if_neg hk))⟩⟩

/-! ## Bring-up (R440–R453, R458) -/

section
variable {s t : State}

/-- The dealer that boots: the preferred one if it is good, else the other (R186). -/
theorem exec_dealerBoot_one {r : DealerBootReads} {ok : Bool → Bool} {b : Bool} (hm : s.mayRun 3 [0, 1, 2] = true)
    (hf : s.plat.bring.dealersFailed = false)
    (hok : ok = (fun b => (if b then r.okB else r.okA) && !s.plat.rst.domains.contains (.dealer b)))
    (hb : b = (if ok (s.plat.opt.reg.getLsbD 19) then s.plat.opt.reg.getLsbD 19 else !s.plat.opt.reg.getLsbD 19))
    (hgood : ok b = true)
    (ht : t = ({ s with dealers := { s.dealers with active := b, standby := false, reload := true } } : State).setBring
      (fun x => { x with fallback := !ok (s.plat.opt.reg.getLsbD 19), ucPodVer := r.ucVersion })) :
    exec (.dealerBoot r) s =
      .next ((((t.extend 4 r.boot).extend 5 r.firmware).setPins (fun p => { p with configured := true })).endPhase 3) := by
  have hone : (ok (s.plat.opt.reg.getLsbD 19) || ok (!s.plat.opt.reg.getLsbD 19)) = true := by
    rw [hb] at hgood
    split_ifs at hgood with hp
    · rw [hp]; rfl
    · rw [hgood, Bool.or_true]
  subst hok ht hb
  exact congrArg Host.Outcome.next ((if_pos ⟨hm, ne_true_of_eq_false hf⟩).trans (if_pos hone))

theorem exec_dealerBoot_none {r : DealerBootReads} {ok : Bool → Bool} (hm : s.mayRun 3 [0, 1, 2] = true)
    (hf : s.plat.bring.dealersFailed = false)
    (hok : ok = (fun b => (if b then r.okB else r.okA) && !s.plat.rst.domains.contains (.dealer b)))
    (ht : ok true = false) (hn : ok false = false) :
    exec (.dealerBoot r) s = .next ((s.setBring (fun x => { x with dealersFailed := true })).faultBit 2) := by
  have hall : ∀ b, ok b = false := fun b => by cases b; exacts [hn, ht]
  have hone : ¬(ok (s.plat.opt.reg.getLsbD 19) || ok (!s.plat.opt.reg.getLsbD 19)) = true := by
    rw [hall, hall]
    exact Bool.false_ne_true
  subst hok
  exact congrArg Host.Outcome.next ((if_pos ⟨hm, ne_true_of_eq_false hf⟩).trans (if_neg hone))

theorem exec_depotTraining {ok : BitVec 6} (hm : s.mayRun 4 [0, 1] = true) (hf : s.plat.bring.depotFail = false)
    (ht : t = ({ s with depot := { s.depot with mem := [], bad := [] } } : State).setBring
      (fun b => { b with online := s.stacksUp ok })) : exec (.depotTraining ok) s =
    .next (if s.stacksUp ok = s.plat.opt.depotEn ∨ (s.stacksUp ok ≠ 0 ∧ Config.regionsFit (s.stacksUp ok) = true) then
      t.endPhase 4 else (t.setBring (fun b => { b with depotFail := true })).faultBit 3) := by
  subst ht
  exact congrArg Host.Outcome.next (if_pos ⟨hm, ne_true_of_eq_false hf⟩)

end

/-- Settles O48: each phase that may run takes its branch. -/
theorem bringUpPhasesComplete : Obligations.BringUpPhasesComplete := by
  unfold Obligations.BringUpPhasesComplete
  intro s
  refine ⟨fun r m hm hc => ?options, fun r t u p hm ht hp hu => ?assayer, fun r ok hm hf hok =>
      ⟨fun b t hb hgood ht => exec_dealerBoot_one hm hf hok hb hgood ht, fun ht hn => exec_dealerBoot_none hm hf hok ht hn⟩,
    fun ok t hm hf ht => ⟨fun h => ?trained, fun hne h => ?untrained⟩, fun ok hm => congrArg Host.Outcome.next (if_pos hm),
    fun failed hm => congrArg Host.Outcome.next (if_pos hm), fun ms hm => congrArg Host.Outcome.next (if_pos hm),
    fun hr hp => ?overrun, fun n v hown hv => congrArg Host.Outcome.next (State.ownerWrite_some hown (if_pos hv)),
    fun i hr hu => congrArg Host.Outcome.next (if_pos ⟨hr, ne_true_of_eq_false hu⟩)⟩
  case options =>
    subst hc
    exact congrArg Host.Outcome.next (if_pos hm)
  case assayer =>
    subst ht hp hu
    exact congrArg Host.Outcome.next (if_pos hm)
  case trained => exact (exec_depotTraining hm hf ht).trans (congrArg Host.Outcome.next (if_pos h))
  case untrained =>
    refine (exec_depotTraining hm hf ht).trans (congrArg Host.Outcome.next (if_neg ?_))
    rintro (heq | ⟨h0, hfit⟩)
    · exact hne heq
    · exact h.elim h0 fun hnot => Bool.false_ne_true (hnot.symm.trans hfit)
  case overrun =>
    exact congrArg Host.Outcome.next (if_neg (not_or.mpr ⟨ne_true_of_eq_false hr, not_not.mpr hp⟩))

end Sys2Proof.Machine
end

section
/-! PROOFS (14). The power governor, lending, temperature, the rails and the pins. -/

namespace Sys2Proof.Machine

/-! ## The governor and lending (R463–R468) -/

section
variable {s t u : State} {w : Nat} {e : Fin 320}

theorem exec_governorInterval_shed (ht : t = s.sample w) (hc : t.plat.pwr.ceiling < t.plat.pwr.proj)
    (hu : u = t.shed 0 t.plat.pwr.ceiling) :
    exec (.governorInterval w) s =
      .next (if u.plat.pwr.ceiling < u.plat.pwr.proj then u.setPwr (fun p => { p with tokensHeld := true }) else u).putLent := by
  subst ht hu
  exact congrArg Host.Outcome.next (if_pos hc)

theorem exec_governorInterval_release (ht : t = (s.sample w).release)
    (hc : (s.sample w).plat.pwr.proj ≤ (s.sample w).plat.pwr.ceiling) :
    exec (.governorInterval w) s =
      .next (if t.plat.pwr.tokensHeld ∨ t.plat.pwr.hold 0 ≠ 0 ∨ t.plat.pwr.hold 1 ≠ 0 ∨ t.plat.pwr.hold 2 ≠ 0 then t.repool
        else t.repool.lendRound.lendRound.lendRound) := by
  subst ht
  exact congrArg Host.Outcome.next (if_neg (Nat.not_lt.mpr hc))

theorem exec_lendStart_waiting {a : W16} {b : Nat} {c : W64} (h : (s.str e).twait = some (a, b, c, w)) :
    exec (.lendStart e) s = .next (if (s.eng e).st = 1 ∧ w + s.plat.pwr.lendUs < s.us then
      (s.modEng e (fun y => { y with lending := true })).putLent else s) := by
  change execLendStart e s = _
  unfold execLendStart
  rw [h]

theorem exec_lendReturn (hl : (s.eng e).lending = true) (hw : (s.str e).twait = none ∨ (s.eng e).st ≠ 1) :
    exec (.lendReturn e) s = .next (s.modEng e (fun y => { y with lending := false })).repool :=
  congrArg Host.Outcome.next (if_pos ⟨hl, hw.imp_left Option.isNone_iff_eq_none.mpr⟩)

end

/-! ## Temperature and the owner's writes (R463, R466, R469) -/

section
variable {s t v : State} {u : Sensor} {c : Int}

/-- What a reading of a sensor leaves before the alert: the reading kept, and a station die's clock and hold. -/
theorem exec_tempSample (ht : t = s.setPwr (fun p => { p with
      temps := SMap.set zNat p.temps (Sensor.unit u) (storedTemp c),
      tjMax := satNat 8 ((SMap.set zNat p.temps (Sensor.unit u) (storedTemp c)).foldl (fun a x => max a (x.2 - 128)) 0) }))
    (hd : ∀ d, u = .station d → v = t.dieTemp d (storedTemp c)) (ho : (∀ d, u ≠ .station d) → v = t) :
    exec (.tempSample u c) s = .next (if 233 ≤ storedTemp c then v.alertBit 2 else v).coolDown := by
  subst ht
  cases u with
  | station d => rw [hd d rfl]; rfl
  | gate g => rw [ho nofun]; rfl
  | depot i => rw [ho nofun]; rfl
  | dealer b => rw [ho nofun]; rfl
  | ledger b => rw [ho nofun]; rfl

theorem State.wPwrLimit_inRange {x : W32} (hl : 120 ≤ x.toNat) (hh : x.toNat ≤ 350) :
    s.wPwrLimit x = some (s.setPwr (fun p => { p with limit := x.setWidth 9 })) :=
  if_pos (inRange_of_le hl hh)

theorem State.wPwrPeak_nonzero {x : W32} (hx : x ≠ 0) (hw : within x 0xFFFF = true) :
    s.wPwrPeak x = some (s.setPwr (fun p => { p with peak := 0 })) :=
  (if_neg (not_not.mpr hw)).trans (congrArg some (if_neg hx))

end

/-- Settles O49: each clause by its branch, the power after the sample being what decides between shedding and releasing. -/
theorem powerCommandsComplete : Obligations.PowerCommandsComplete := by
  unfold Obligations.PowerCommandsComplete
  intro s
  refine ⟨fun w t u ht hc hu => ⟨fun hle => ?shed, fun hlt => ?tokens⟩, fun w t ht hc => ⟨fun hr => ?release, fun h₁ h₂ h₃ h₄ => ?lend⟩,
    fun e w hst ⟨a, b, c, hw⟩ hlt => ?start, fun e hl hw => exec_lendReturn hl hw,
    fun u c t v ht hv => ?temp, fun n v hown => ⟨fun hl hh => ?limit, fun hv hw => ?peak⟩⟩
  case shed =>
    exact (exec_governorInterval_shed ht hc hu).trans
      (congrArg (fun x : State => Host.Outcome.next x.putLent) (if_neg (Nat.not_lt.mpr hle)))
  case tokens =>
    exact (exec_governorInterval_shed ht hc hu).trans (congrArg (fun x : State => Host.Outcome.next x.putLent) (if_pos hlt))
  case release => exact (exec_governorInterval_release ht hc).trans (congrArg Host.Outcome.next (if_pos hr))
  case lend =>
    refine (exec_governorInterval_release ht hc).trans (congrArg Host.Outcome.next (if_neg ?_))
    rintro (h | h | h | h)
    · exact Bool.false_ne_true (h₁.symm.trans h)
    · exact h h₂
    · exact h h₃
    · exact h h₄
  case start => exact (exec_lendStart_waiting hw).trans (congrArg Host.Outcome.next (if_pos ⟨hst, hlt⟩))
  case temp =>
    have h := exec_tempSample (v := v) ht (fun d hu => by subst hu; exact hv) (fun hu => by
      cases u with
      | station d => exact absurd rfl (hu d)
      | gate _ | depot _ | dealer _ | ledger _ => exact hv)
    exact ⟨fun hn => h.trans (congrArg (fun x : State => Host.Outcome.next x.coolDown) (if_neg (Nat.not_le.mpr hn))),
      fun hn => h.trans (congrArg (fun x : State => Host.Outcome.next x.coolDown) (if_pos hn))⟩
  case limit => exact congrArg Host.Outcome.next (State.ownerWrite_some hown (State.wPwrLimit_inRange hl hh))
  case peak => exact congrArg Host.Outcome.next (State.ownerWrite_some hown (State.wPwrPeak_nonzero hv hw))

/-! ## Rails, pins and ports (R487, R494–R502) -/

section
variable {s : State}

/-- A status register's causes after a write of ones (R495). -/
theorem State.wCause_within {alert : Bool} {v : W32} (hv : within v 0x1F = true) : s.wCause alert v =
    some (s.setPins (fun p =>
      if alert then { p with alertCause := (p.alertCause &&& ~~~(v.setWidth 5)) ||| (s.alertNow &&& v.setWidth 5) }
      else { p with faultCause := (p.faultCause &&& ~~~(v.setWidth 5)) ||| (s.faultNow &&& v.setWidth 5) })) :=
  if_neg (not_not.mpr hv)

/-- BIF is writable while each lane of its port is DOWN or DISABLED (R487). -/
theorem State.wBif_idle {p : Nat} {v : W32} (hp : p < s.fabricPorts) (hv : within v 0xF13 = true)
    (hm : (bitsAt v 0 2 : BitVec 2) ≠ 3)
    (hl : ∀ i < 4, (s.lane (laneOfSub (2 * p) + i)).st = 0 ∨ (s.lane (laneOfSub (2 * p) + i)).st = 4) :
    s.wBif p v = some (s.modGPort p (fun g => { g with bifMode := bitsAt v 0 2 })) := by
  refine if_neg ?_
  rintro (h | h | h | h)
  · exact absurd hp (Nat.not_lt.mpr h)
  · exact h hv
  · exact hm h
  · obtain ⟨i, hi, hb⟩ := List.any_eq_true.mp h
    rw [Bool.and_eq_true, decide_eq_true_eq, decide_eq_true_eq] at hb
    exact (hl i (List.mem_range.mp hi)).elim hb.1 hb.2

end

/-- Settles O50: a sample by whether it is out of its tolerance, the pins' causes by the register written. -/
theorem railAndPinCommandsComplete : Obligations.RailAndPinCommandsComplete := by
  unfold Obligations.RailAndPinCommandsComplete
  intro s
  refine ⟨fun i mv amps low high t hlow hhigh ht => ?rail, fun hs hp => ?good, rfl,
    fun n v hown hv => ⟨?fault, ?alert⟩, fun n p v hown hp hv hm hl => ?ports⟩
  case rail =>
    have h : exec (.railSample i mv amps) s = .next (if low || high then t.alertBit 4 else t) := by
      subst hlow hhigh ht
      rfl
    refine ⟨fun hl hh => h.trans (congrArg Host.Outcome.next (if_neg ?_)),
      fun hlh => h.trans (congrArg Host.Outcome.next (if_pos ((Bool.or_eq_true low high).mpr hlh)))⟩
    rw [hl, hh]
    exact Bool.false_ne_true
  case good =>
    exact congrArg Host.Outcome.next (if_neg (not_or.mpr ⟨ne_true_of_eq_false hs, ne_true_of_eq_false hp⟩))
  case fault => exact congrArg Host.Outcome.next (State.ownerWrite_some hown (State.wCause_within hv))
  case alert => exact congrArg Host.Outcome.next (State.ownerWrite_some hown (State.wCause_within hv))
  case ports => exact congrArg Host.Outcome.next (State.ownerWrite_some hown (State.wBif_idle hp hv hm hl))

end Sys2Proof.Machine
end

section
/-! PROOFS (08). The verifier's queue, the deal, the hands, repairs and convoy schedules. -/

namespace Sys2Proof.Machine

/-! ## What a queue's run leaves (R394–R397) -/

/-- The deck's record keeps all but its hands. -/
def State.KeepsDeck (s t : State) : Prop := ∃ h, t.fab.deck = { s.fab.deck with hands := h }

section
variable {s t u : State}

theorem State.KeepsDeck.rfl : s.KeepsDeck s := ⟨_, Eq.refl _⟩

theorem State.KeepsDeck.trans (h : s.KeepsDeck t) (k : t.KeepsDeck u) : s.KeepsDeck u := by
  obtain ⟨a, ha⟩ := h
  obtain ⟨b, hb⟩ := k
  exact ⟨b, by rw [hb, ha]⟩

theorem State.KeepsDeck.ite {p : Prop} [Decidable p] (h : p → s.KeepsDeck t) (k : ¬ p → s.KeepsDeck u) :
    s.KeepsDeck (if p then t else u) := by
  split_ifs with hp
  · exact h hp
  · exact k hp

theorem State.KeepsDeck.foldl {α : Type} {f : State → α → State} (h : ∀ s x, State.KeepsDeck s (f s x)) (l : List α) (s : State) :
    s.KeepsDeck (l.foldl f s) := by
  induction l generalizing s with
  | nil => exact .rfl
  | cons x l ih => exact (h s x).trans (ih (f s x))

theorem State.Sends.keepsDeck (h : s.Sends t) : s.KeepsDeck t := ⟨s.fab.deck.hands, by rw [h.fab]⟩

end

section
variable {s t : State} {n : Nat}

theorem State.keepsDeck_qWrite (s : State) (q : Queue) (i : Nat) (bs : List Byte) : s.KeepsDeck (s.qWrite q i bs) :=
  .ite (fun _ => ⟨_, rfl⟩) fun _ => ⟨_, rfl⟩

theorem State.keepsDeck_modQueue (s : State) (n : Nat) (f : Queue → Queue) : s.KeepsDeck (s.modQueue n f) := ⟨_, rfl⟩

theorem State.keepsDeck_deliverNotice (s : State) (q : Queue) (bs : List Byte) : s.KeepsDeck (s.deliverNotice q bs) :=
  .ite (fun _ => .ite (fun _ => .rfl) fun _ => (s.sends_bgSend _ _).keepsDeck) fun _ => .rfl

theorem State.keepsDeck_dirty (s : State) (p : Nat) : s.KeepsDeck (s.dirty p) := ⟨_, rfl⟩

theorem State.keepsDeck_qPush (s : State) (n : Nat) (bs : List Byte) : s.KeepsDeck (s.qPush n bs) := by
  unfold State.qPush
  exact (((s.keepsDeck_qWrite _ _ _).trans (State.keepsDeck_modQueue _ n _)).trans (State.keepsDeck_dirty _ _)).trans
    (State.keepsDeck_deliverNotice _ _ _)

theorem State.keepsDeck_qPop (s : State) (n : Nat) : s.KeepsDeck (s.qPop n) := ⟨_, rfl⟩

theorem State.keepsDeck_dsWrite (s : State) (a : Nat) (bs : List Byte) : s.KeepsDeck (s.dsWrite a bs) :=
  .trans (t := { s with dealers := { s.dealers with core := { s.dealers.core with
    dstore := Mem.writeL s.dealers.core.dstore a bs } } }) ⟨_, rfl⟩ (.foldl (f := State.journal) (fun _ _ => ⟨_, rfl⟩) _ _)

theorem State.keepsDeck_succeed (s : State) (c : Nat) (op : Byte) (done miss : Nat) : s.KeepsDeck (s.succeed c op done miss) :=
  ⟨_, rfl⟩

/-- What a queue does on its own stays out of the deck's record. -/
theorem State.keepsDeck_qStep (h : s.qStep n = some t) : s.KeepsDeck t := by
  unfold State.qStep at h
  dsimp only at h
  split_ifs at h
  · exact Option.some.inj h ▸ s.keepsDeck_qPop n
  all_goals
    split at h
    · exact Option.some.inj h ▸ ((s.keepsDeck_dsWrite _ _).trans (State.keepsDeck_qPop _ n)).trans
        (State.keepsDeck_succeed _ _ _ _ _)
    · split at h
      · exact Option.some.inj h ▸ (s.keepsDeck_qPush n _).trans (State.keepsDeck_succeed _ _ _ _ _)
      · exact absurd h nofun

theorem State.keepsDeck_qRun (s : State) (n k : Nat) : s.KeepsDeck (s.qRun n k) := by
  induction k generalizing s with
  | zero => exact .rfl
  | succ k ih =>
    rw [State.qRun]
    split
    next t h => exact (State.keepsDeck_qStep h).trans (ih t)
    next => exact .rfl

theorem State.keepsDeck_qDevPush (s : State) (n : Nat) (bs : List Byte) : s.KeepsDeck (s.qDevPush n bs) :=
  .ite (fun _ => .rfl) fun _ => .ite (fun _ => s.keepsDeck_modQueue n _) fun _ =>
    (s.keepsDeck_qPush n bs).trans (State.keepsDeck_qRun _ n _)

end

/-! ## The start of a deal (R283, R309) -/

section
variable {s : State} {f : DealFiles} {area policy : Nat} {only : Option Desc}

theorem State.deckHalf_pos (s : State) : 0 < s.deckHalf := by
  unfold State.deckHalf
  split_ifs <;> norm_num

theorem State.depWrite_fab (s : State) (a : Nat) (bs : List Byte) : (s.depWrite a bs).fab = s.fab := rfl

theorem State.depWrite_dealers (s : State) (a : Nat) (bs : List Byte) : (s.depWrite a bs).dealers = s.dealers := rfl

theorem State.writeFiles_fab (s : State) (f : DealFiles) (n : Net) (cost : W16 → Nat → Nat) (x : Delta) :
    (s.writeFiles f n cost x).fab = s.fab := by
  unfold State.writeFiles
  rw [State.depWrite_fab, State.depWrite_fab, State.depWrite_fab, State.depWrite_fab]

/-- The deck area and what opening it leaves of the deck. -/
theorem State.openArea_deck (s : State) (area : Nat) :
    (s.openArea area).fab.deck.area = some area ∧ (s.openArea area).fab.deck.cutList = s.fab.deck.cutList ∧
      (s.openArea area).fab.deck.placement = s.fab.deck.placement ∧ (s.openArea area).dealers.fepoch = s.dealers.fepoch := by
  unfold State.openArea
  dsimp only
  split_ifs with h
  · exact ⟨h, rfl, rfl, rfl⟩
  · generalize s.deckBytes s.fab.deck.deal [] = bs
    have hfab := s.depWrite_fab (area + s.deckHalf) bs
    have hdealers := s.depWrite_dealers (area + s.deckHalf) bs
    generalize s.depWrite (area + s.deckHalf) bs = u at hfab hdealers
    unfold State.setDeck
    rw [hfab, hdealers]
    exact ⟨rfl, rfl, rfl, rfl⟩

/-- A deal writes the half that holds no deck in force. -/
theorem State.idleHalf_idle (s : State) (area : Nat) : s.fab.deck.addr ≠ some (s.idleHalf area) := by
  unfold State.idleHalf
  split_ifs with h
  · rw [h]
    have hpos := s.deckHalf_pos
    exact fun he => by have := Option.some.inj he; omega
  · exact h

/-- The deal that starts in a state whose deck area is open. -/
def State.dealOf (s : State) (f : DealFiles) (area policy : Nat) (only : Option Desc) : Deal :=
  { files := f, policy := policy, deck := s.idleHalf area, net := s.net (s.portCost (s.policy policy).cong)
    epoch := s.dealers.fepoch, todo := [0], cuts := s.fab.deck.cutList, only := only }

/-- A deal that starts, with its one job still to be queued or waiting for its result. -/
def Deal.Starts (d e : Deal) : Prop := e = d ∨ e = d.queued 0

/-- Queueing the one job of a deal's start leaves the deal in the deck's record. -/
theorem State.queueJobs_start {d : Deal} (hd : s.fab.deck.dealing = some d) (ht : d.todo = [0]) :
    ∃ e h, d.Starts e ∧ (s.queueJobs d).fab.deck = { s.fab.deck with dealing := some e, hands := h } := by
  have hqueued : (s.setDeck (fun x => { x with dealing := x.dealing.map (fun y => y.queued 0) })).fab.deck =
      { s.fab.deck with dealing := some (d.queued 0) } := by
    unfold State.setDeck
    dsimp only
    rw [hd]
    rfl
  unfold State.queueJobs
  rw [ht, List.foldl_cons, List.foldl_nil]
  split_ifs
  · obtain ⟨h, hh⟩ := State.keepsDeck_qDevPush
      (s.setDeck (fun x => { x with dealing := x.dealing.map (fun y => y.queued 0) })) 0x7FF0 (s.dealJob d 0)
    exact ⟨d.queued 0, h, Or.inr rfl, by rw [hh, hqueued]⟩
  · exact ⟨d, s.fab.deck.hands, Or.inl rfl, by rw [← hd]⟩

/-- A deal's start before its job is queued: the files of the solve, the agents it finds crowded, and the deal. -/
def State.dealFiled (s : State) (f : DealFiles) (area policy : Nat) (only : Option Desc) : State :=
  let cost := s.portCost (s.policy policy).cong
  let x := s.delta (s.net cost)
  (s.writeFiles f (s.net cost) cost x).setDeck (fun y =>
    { y with crowded := x.crowded, dealing := some (s.dealOf f area policy only) })

theorem State.dealFiled_deck (s : State) (f : DealFiles) (area policy : Nat) (only : Option Desc) :
    ∃ cr, (s.dealFiled f area policy only).fab.deck =
      { s.fab.deck with crowded := cr, dealing := some (s.dealOf f area policy only) } := by
  unfold State.dealFiled State.setDeck
  dsimp only
  rw [State.writeFiles_fab]
  exact ⟨_, rfl⟩

theorem State.startDeal_eq (h : s.dealers.change.isOpen = false) : s.startDeal f area policy only =
    ((s.openArea area).dealFiled f area policy only).queueJobs ((s.openArea area).dealOf f area policy only) := by
  unfold State.startDeal
  rw [if_neg (ne_true_of_eq_false h)]
  rfl

/-- A deal starts in the state with its area opened: its files in the depot, its job with the verifier. -/
theorem State.startDeal_deck (h : s.dealers.change.isOpen = false) : ∃ cr e h,
    ((s.openArea area).dealOf f area policy only).Starts e ∧
      (s.startDeal f area policy only).fab.deck =
        { (s.openArea area).fab.deck with crowded := cr, dealing := some e, hands := h } := by
  obtain ⟨cr, hfiled⟩ := (s.openArea area).dealFiled_deck f area policy only
  obtain ⟨e, hands, he, hdeck⟩ := State.queueJobs_start (s := (s.openArea area).dealFiled f area policy only)
    (d := (s.openArea area).dealOf f area policy only) (by rw [hfiled]) rfl
  exact ⟨cr, e, hands, he, by rw [State.startDeal_eq h, hdeck, hfiled]⟩

theorem exec_deal_start {image deck : Nat} {files : SolveFiles} {place : List (W16 × Option (Fin 512))}
    (ha : s.isActive = true) (ht : s.dealers.takeover = .none) (hc : s.dealers.change.isOpen = false)
    (hd : s.fab.deck.dealing = none) : exec (.deal image files deck policy place) s =
      .next ((s.setDeck (fun d => { d with placement := place })).startDeal ⟨image, files.costs, files.dists, files.base⟩
        deck policy none) := by
  change execDeal image files deck policy place s = _
  unfold execDeal
  rw [if_neg (not_or.mpr ⟨not_not.mpr ha, not_not.mpr ht⟩), hd, State.placing, if_neg (ne_true_of_eq_false hc)]
  rfl

/-- A deal of the owner's takes its next part (R309). -/
theorem exec_deal_goesOn {image deck : Nat} {files : SolveFiles} {place : List (W16 × Option (Fin 512))} {d : Deal}
    (ha : s.isActive = true) (ht : s.dealers.takeover = .none) (hd : s.fab.deck.dealing = some d) (ho : d.only = none) :
    exec (.deal image files deck policy place) s = .next (s.dealStep d) := by
  have hfilter : (some d).filter (fun d => d.only.isNone) = some d := by
    rw [Option.filter_some, ho]
    rfl
  change execDeal image files deck policy place s = _
  unfold execDeal
  rw [if_neg (not_or.mpr ⟨not_not.mpr ha, not_not.mpr ht⟩), hd, hfilter]

end

/-! ## Staging the hands (R300–R303, R310) -/

theorem State.keepsDeck_loadCards (s : State) (a : W16) (ls : List Load) : s.KeepsDeck (s.loadCards a ls) := by
  unfold State.loadCards
  dsimp only
  split_ifs
  · exact .rfl
  · refine State.KeepsDeck.trans ?_ (State.sends_devTarget _ _).keepsDeck
    exact .foldl (f := fun s l => s.setDeck (fun d => { d with
      hands := SMap.set noneOf d.hands (4 * a.toNat + l.slot) (some l.record) })) (fun s l => ⟨_, rfl⟩) ls s

theorem State.keepsDeck_stage (s : State) (b : Nat) (p : Policy) (limit : Option Nat) : s.KeepsDeck (s.stage b p limit) :=
  .foldl (fun s a => s.keepsDeck_loadCards a _) _ s

section
variable {s : State} {d : Deal}

/-- A deal whose jobs are all queued and whose network and epoch still hold goes by its phase. -/
theorem State.dealStep_phase0 (hs : s.dealStale d = false) (ht : d.todo = []) (hp : d.phase = 0) (he : s.dealers.fepoch = d.epoch) :
    s.dealStep d = s := by
  unfold State.dealStep
  rw [if_neg (ne_true_of_eq_false hs), if_neg (fun h => h.2 he), if_neg (not_not.mpr ht), if_pos (Or.inl hp)]

theorem State.dealStep_phase2 (hs : s.dealStale d = false) (ht : d.todo = []) (hp : d.phase = 2) (hw : d.wait = []) :
    s.dealStep d = s.dealDone d := by
  have h0 : d.phase ≠ 0 := by omega
  have h1 : d.phase ≠ 1 := by omega
  unfold State.dealStep
  rw [if_neg (ne_true_of_eq_false hs), if_neg (fun h => h0 h.1), if_neg (not_not.mpr ht),
    if_neg (not_or.mpr ⟨h0, not_not.mpr hw⟩), if_neg h1]

end

/-! ## Repairs (R303, R306, R308) -/

section
variable {s t : State} {b : Nat} {d : Desc} {cs : List Cand}

theorem exec_unhandedRepair_cards (ha : s.isActive = true) (ht : s.dealers.takeover = .none) (hb : s.fab.deck.addr = some b)
    (hd : descOk d = true) (hi : s.installDue b d = true) (hc : s.toInstall b (s.keyOf d) = (.cards cs, t)) :
    exec (.unhandedRepair d) s = .next (if (t.installThen b cs (s.keyOf d)).2 = true then
      (t.installThen b cs (s.keyOf d)).1.closeFault d else (t.installThen b cs (s.keyOf d)).1) := by
  change execUnhandedRepair d s = _
  unfold execUnhandedRepair
  rw [hb]
  dsimp only
  rw [if_neg (not_or.mpr ⟨not_not.mpr ha, not_or.mpr ⟨not_not.mpr ht, not_or.mpr ⟨not_not.mpr hd, not_not.mpr hi⟩⟩⟩), hc]

theorem State.installThen_armed {k : Desc} (h : ∀ c ∈ cs, 2 ≤ t.cardState c) : t.installThen b cs k = (t.originate k, true) :=
  if_pos (List.all_eq_true.mpr fun c hc => decide_eq_true (h c hc))

/-- A repair with a card that is not armed does not go out. -/
theorem not_all_armed {c : Cand} (hc : c ∈ cs) (h : ¬ 2 ≤ t.cardState c) :
    ¬ cs.all (fun c => decide (2 ≤ t.cardState c)) = true :=
  fun ha => h (of_decide_eq_true (List.all_eq_true.mp ha c hc))

theorem State.installThen_loading {k : Desc} {c : Cand} (hc : c ∈ cs) (h : t.cardState c = 1) :
    t.installThen b cs k = (t, false) :=
  (if_neg (not_all_armed hc (by omega))).trans (if_pos (List.any_eq_true.mpr ⟨c, hc, decide_eq_true h⟩))

theorem State.installThen_missing {k : Desc} {c : Cand} (hc : c ∈ cs) (h : t.cardState c = 0)
    (hn : ∀ c ∈ cs, t.cardState c ≠ 1) : t.installThen b cs k = (t.installCards b cs, false) := by
  refine (if_neg (not_all_armed hc (by omega))).trans (if_neg fun ha => ?_)
  obtain ⟨x, hx, hx1⟩ := List.any_eq_true.mp ha
  exact hn x hx (of_decide_eq_true hx1)

theorem exec_agentLossTrump_noDeck (ha : s.isActive = true) (ht : s.dealers.takeover = .none) (hd : descOk d = true)
    (hl : s.lossDue d = true) (hb : s.fab.deck.addr = none)
    (hf : s.fab.filter.contains (putBits (putBits (s.keyOf d) 36 s.myId) 52 (0 : Byte)) = false) :
    exec (.agentLossTrump d) s = .next ((s.originate (s.keyOf d)).lossDone d) := by
  change execAgentLossTrump d s = _
  unfold execAgentLossTrump
  dsimp only
  rw [if_neg (not_or.mpr ⟨not_not.mpr ha, not_or.mpr ⟨not_not.mpr ht, not_or.mpr ⟨not_not.mpr hd,
    not_or.mpr ⟨not_not.mpr hl, ne_true_of_eq_false hf⟩⟩⟩⟩), hb]

theorem exec_followOnStaging_played {k : Nat} (ha : s.isActive = true) (hb : s.fab.deck.addr = some b) (hk : k < s.deckRepairs b)
    (hp : s.fab.deck.played.contains (s.repair b k).fault = true) :
    exec (.followOnStaging k) s = .next ((s.followOns b (s.repair b k).fault).foldl (fun u i => u.stagePair b i) s) := by
  change execFollowOnStaging k s = _
  unfold execFollowOnStaging
  rw [hb]
  exact congrArg Host.Outcome.next
    (if_neg (not_or.mpr ⟨not_not.mpr ha, not_or.mpr ⟨Nat.not_le.mpr hk, not_not.mpr hp⟩⟩))

end

/-! ## Convoy schedules (R280, R282) -/

section
variable {s : State} {a reqs n : Nat} {c : Schedule}

theorem exec_convoySchedule {job : ConvoyJob} (ha : s.isActive = true) (ht : s.dealers.takeover = .none) :
    exec (.convoySchedule job) s = .next (match job with
      | .build addr reqs n => s.runSchedule addr reqs n
      | .write addr => s.loadSchedule addr) :=
  congrArg Host.Outcome.next (if_neg (not_or.mpr ⟨not_not.mpr ha, not_not.mpr ht⟩))

theorem State.runSchedule_none (h : s.buildSchedule reqs n = none) : s.runSchedule a reqs n = s := by
  unfold State.runSchedule
  rw [h]

theorem State.runSchedule_built {f : DealFiles} (h : s.buildSchedule reqs n = some c)
    (hi : s.inDepot a (schedBytes c s.dealers.fepoch false).length = true) (hf : s.fab.deck.files = some f) :
    s.runSchedule a reqs n = (s.depWrite a (schedBytes c s.dealers.fepoch false)).qDevPush 0x7FF0
      (jobEntry 3 s.dealers.fepoch a f.costs f.dists f.base (BitVec.ofNat 64 a) 0) := by
  have hf' : (s.depWrite a (schedBytes c s.dealers.fepoch false)).fab.deck.files = some f := hf
  unfold State.runSchedule
  rw [h]
  dsimp only
  rw [if_neg (not_not.mpr hi), hf']
  rfl

theorem State.loadSchedule_first (hp : s.schedPassed a = true) (hc : s.schedule a = some c) (hn : s.fab.deck.convoy = none) :
    s.loadSchedule a = (s.setDeck (fun d => { d with convoy := some { addr := a } })).sendSlots c (schedAgents c) := by
  unfold State.loadSchedule
  rw [if_pos hp, hc]
  dsimp only
  rw [hn]

theorem State.loadSchedule_acked {l : ConvoyLoad} (hp : s.schedPassed a = true) (hc : s.schedule a = some c)
    (hl : s.fab.deck.convoy = some l) (ha : l.addr = a) (hacked : ∀ u ∈ schedAgents c, u ∈ l.acked)
    (hbg : s.dealers.bg.any (fun t => t.slots && (schedAgents c).contains t.agent) = false) :
    s.loadSchedule a = s.sendSwitch c l := by
  have hmissing : (schedAgents c).filter (fun u => !l.acked.contains u) = [] :=
    List.filter_eq_nil_iff.mpr fun u hu => by
      rw [List.contains_iff_mem.mpr (hacked u hu)]
      exact Bool.false_ne_true
  unfold State.loadSchedule
  rw [if_pos hp, hc]
  dsimp only
  rw [hl]
  dsimp only
  rw [if_neg (not_not.mpr ha), if_neg (ne_true_of_eq_false hbg), hmissing]
  exact if_neg (not_not.mpr rfl)

/-- A landing schedule with one more slot. -/
def landAt (m : SMap (Option W32)) (x : LandSlot) : SMap (Option W32) := SMap.set noneOf m (64 * x.port + x.slot) (some x.convoy)

theorem landAt_get (m : SMap (Option W32)) (x : LandSlot) (k : Nat) : SMap.get noneOf (landAt m x) k =
    if k = 64 * x.port + x.slot then some x.convoy else SMap.get noneOf m k := by
  have hset : landAt m x = SMap.insert m (64 * x.port + x.slot) (some x.convoy) := by
    unfold landAt SMap.set
    exact if_neg (Option.some_ne_none x.convoy)
  rw [hset]
  split_ifs with h
  · rw [h, SMap.get_insert_self]
  · exact SMap.get_insert_ne _ _ _ _ _ h

/-- What is listed stays listed as slots are added. -/
theorem landing_keeps (l : List LandSlot) {m : SMap (Option W32)} {k : Nat} (h : ∃ v, SMap.get noneOf m k = some v) :
    ∃ v, SMap.get noneOf (l.foldl landAt m) k = some v := by
  induction l generalizing m with
  | nil => exact h
  | cons x l ih =>
    refine ih ?_
    rw [landAt_get]
    split_ifs
    · exact ⟨_, rfl⟩
    · exact h

theorem landing_lists {l : List LandSlot} {m : SMap (Option W32)} {x : LandSlot} (hx : x ∈ l) :
    ∃ v, SMap.get noneOf (l.foldl landAt m) (64 * x.port + x.slot) = some v := by
  induction l generalizing m with
  | nil => exact absurd hx List.not_mem_nil
  | cons y l ih =>
    rcases List.mem_cons.mp hx with rfl | hx
    · exact landing_keeps l ⟨x.convoy, (landAt_get m x _).trans (if_pos rfl)⟩
    · exact ih hx

end

/-! ## The verifier (R276–R278) -/

theorem exec_verifierJob {s t : State} {e : List Byte} {r : Verdict × State} (hto : s.dealers.takeover = .none)
    (hen : (s.queue 0x7FF0).en = true) (hc : (s.queue 0x7FF0).count ≠ 0) (hq : s.qStalled 0x7FF0 = false)
    (he : e = s.qHead 0x7FF0) (h1 : 1 ≤ (e.headD 0).toNat) (h3 : (e.headD 0).toNat ≤ 3)
    (ht : t = (s.qPop 0x7FF0).qRun 0x7FF0 qFuel) (hr : r = t.runJob e) :
    exec .verifierJob s = .next ((r.2.qDevPush 0x7FF1 (((e.drop 40).take 8) ++ [BitVec.ofNat 8 r.1.status, 0] ++
      toBytes 2 r.1.agent ++ toBytes 4 (BitVec.ofNat 32 r.1.dest))).dealJudged e r.1.status) := by
  have hkind : ¬ ((e.headD 0).toNat = 0 ∨ 3 < (e.headD 0).toNat) := by omega
  subst hr ht he
  exact congrArg Host.Outcome.next ((if_neg (not_or.mpr ⟨not_not.mpr hen, not_or.mpr ⟨hc,
    not_or.mpr ⟨ne_true_of_eq_false hq, not_not.mpr hto⟩⟩⟩)).trans (if_neg hkind))

/-- Settles O42: the verifier's branch, the deal by its phase, a repair by how far its cards are, a schedule by who has
acknowledged it; staging and the queue's run leave the rest of the deck's record alone. -/
theorem deckCommandsComplete : Obligations.DeckCommandsComplete := by
  unfold Obligations.DeckCommandsComplete
  intro s ht
  refine ⟨fun e t r hen hc hq he h1 h3 htq hr => exec_verifierJob ht hen hc hq he h1 h3 htq hr, fun ha =>
    ⟨fun lib policy models => ?batch, fun image files deck policy place hc hd => ?start,
      fun image files deck policy place d hd ho hs htodo => ⟨fun hp he => ?waits, fun hp hw => ?done⟩,
      fun b k hb hk hp => exec_followOnStaging_played ha hb hk hp,
      fun b d cs t hb hd hi hc => ⟨fun hall => ?armed, fun ⟨c, hm, h1⟩ => ?loading, fun ⟨c, hm, h0⟩ hn => ?missing⟩,
      fun d hd hl hb hf => exec_agentLossTrump_noDeck ha ht hd hl hb hf,
      fun a reqs n c f hb hi hf => (exec_convoySchedule ha ht).trans (congrArg Host.Outcome.next (State.runSchedule_built hb hi hf)),
      fun a reqs n hb => (exec_convoySchedule ha ht).trans (congrArg Host.Outcome.next (State.runSchedule_none hb)),
      fun a c hp hc => ⟨fun hn => ?shadow, fun l hl hla hacked hbg => ?switch⟩⟩⟩
  case batch => exact congrArg Host.Outcome.next (if_neg (not_or.mpr ⟨not_not.mpr ha, not_not.mpr ht⟩))
  case start =>
    obtain ⟨cr, d, h, hdeal, hdeck⟩ := State.startDeal_deck (s := s.setDeck (fun d => { d with placement := place }))
      (f := ⟨image, files.costs, files.dists, files.base⟩) (area := deck) (policy := policy) (only := none) hc
    obtain ⟨harea, hcuts, hplace, hepoch⟩ := State.openArea_deck (s.setDeck (fun d => { d with placement := place })) deck
    have hidle := State.idleHalf_idle ((s.setDeck (fun d => { d with placement := place })).openArea deck) deck
    refine ⟨_, d, exec_deal_start ha ht hc hd, ?_⟩
    rw [hdeck]
    rcases hdeal with rfl | rfl
    all_goals
      exact ⟨rfl, rfl, rfl, rfl, hepoch, hcuts, rfl, rfl, harea, hidle, hplace⟩
  case waits =>
    exact (exec_deal_goesOn ha ht hd ho).trans (congrArg Host.Outcome.next (State.dealStep_phase0 hs htodo hp he))
  case done =>
    refine ⟨s.dealDone d, (exec_deal_goesOn ha ht hd ho).trans
      (congrArg Host.Outcome.next (State.dealStep_phase2 hs htodo hp hw)), ?_⟩
    unfold State.dealDone
    dsimp only
    obtain ⟨h, hh⟩ := State.keepsDeck_stage _ d.deck (s.policy d.policy) none
    rw [hh]
    exact ⟨rfl, rfl, rfl, rfl, rfl, rfl, rfl⟩
  case armed =>
    refine (exec_unhandedRepair_cards ha ht hb hd hi hc).trans ?_
    rw [State.installThen_armed hall]
    rfl
  case loading =>
    refine (exec_unhandedRepair_cards ha ht hb hd hi hc).trans ?_
    rw [State.installThen_loading hm h1]
    rfl
  case missing =>
    refine (exec_unhandedRepair_cards ha ht hb hd hi hc).trans ?_
    rw [State.installThen_missing hm h0 hn]
    rfl
  case shadow =>
    exact (exec_convoySchedule ha ht).trans (congrArg Host.Outcome.next (State.loadSchedule_first hp hc hn))
  case switch =>
    exact ⟨_, (exec_convoySchedule ha ht).trans
      (congrArg Host.Outcome.next (State.loadSchedule_acked hp hc hl hla hacked hbg)), rfl, fun x hx => landing_lists hx⟩

end Sys2Proof.Machine
end
